-- ==== Sys2Proof/Word.lean ====
section
/-! DEFINITION. The word types of the module: registers and descriptors are little-endian 32-bit values (Table 0-4),
wall time is a 64-bit count of ticks (R17). Plain types only; every helper that a repair could mend stands in
`Sys2Proof/Machine/Bits.lean`. -/

namespace Sys2Proof

/-- One byte. -/
abbrev Byte := BitVec 8
/-- One register of the control window (chapter 22: registers are 32 bits wide). -/
abbrev Word := BitVec 32
/-- A 64-bit value: `WALLTIME` (R17), an address, a completion result (Table 15-3). -/
abbrev Dword := BitVec 64
/-- One 64-byte descriptor as one little-endian number: byte k is bits 8k+7..8k (Table 15-2). -/
abbrev Desc := BitVec 512

end Sys2Proof
end

