-- ==== Sys2Proof/Syntax.lean ====
section
/-! DEFINITION. The commands of the block: one constructor of `Instr` per row of spec/opcode_table.json, and the types
of their operands. The table gives no operand fields; the operands are those the spec's text gives the row (entry 1
of the assumption log). A descriptor command carries the submission ring it was fetched from, its 64-byte descriptor
(Table 15-2) and what the module's fetches of host structures returned. A launch action carries its launch slot. A
hardware event carries the unit and what comes from outside the module (frames, sensor values, link transactions). -/

namespace Sys2Proof

/-- What the fetch of a host structure returned (Table 14-5); `badList` where the scatter-gather list that leads to it
breaks R430. -/
inductive HostData where
  | ok (bytes : List Byte)
  | accessError
  | poisoned
  | badList
  deriving DecidableEq, Repr

/-- An agent that accesses the control window (R513): the host, or control core CC0-CC3. -/
inductive Agent where
  | host
  | cc (i : Fin 4)
  deriving DecidableEq, Repr

/-- Codec of a stream (Table 15-5). -/
inductive Codec where
  | raw | hevc | av1 | vvc
  deriving DecidableEq, Repr

/-- The profiles of the three standards, as far as Tables 4-1 and 4-2 tell them apart. -/
inductive Profile where
  | hevcMain | hevcMain10 | hevcMain12 | hevcMain422x10 | hevcMain444x10 | hevcMain444x12
  | hevcScreen | hevcLayered | hevcOtherRange
  | av1Main | av1High | av1Professional
  | vvcMain10 | vvcMain10x444 | vvcMultilayer | vvcOther
  deriving DecidableEq, Repr

/-- A structure that lets several cores decode one picture (Table 4-4): tiles, subpictures or slices, each the list of its
CTUs by raster address, in raster order of the units; or wavefronts. -/
inductive Parallel where
  | units (us : List (List Nat))
  | wavefronts
  deriving DecidableEq, Repr

/-- What the module reads of a sequence: its format (Table 4-1), the features of Table 4-2, the stream record of R72 with
the parallel structures of each PPS (R84), the CTU size in luma px, and of AV1 the layers of each operating point.
`level` is ten times the level. -/
structure StreamRec where
  profile : Profile := .hevcMain
  level : Nat := 10
  layers : Nat := 1
  screen : Bool := false
  width : Nat := 0
  height : Nat := 0
  chroma : Nat := 1
  depth : Nat := 8
  dpb : Nat := 0
  reorder : Nat := 0
  hidden : Bool := false
  ctu : Nat := 64
  pps : List (List Parallel) := []
  opIdc : List (BitVec 12) := []
  deriving DecidableEq, Repr

/-- What the parser finds in a configuration record (R72). The syntax of the three standards is not in the spec. -/
inductive CfgParse where
  | malformed
  | ok (r : StreamRec)
  deriving DecidableEq, Repr

/-- What the headers of a fetched unit say. `rap`: the shown key frame of AV1 and the recovery-point picture of VVC (Table
4-7; the other kinds show in the NAL unit types). `frames`: frames it decodes (R83). `order`: order count; `newSeq`: the
count starts anew. `refs`: order counts of the reference pictures it uses, `keeps`: of those it keeps beside them.
`hidden`: order of a frame of AV1 that it decodes and does not show; `shows`: it shows a frame decoded before. `recovery`:
order of the recovery point of a GDR picture (R95). `seq`: the sequence that it activates, `pps`: the parallel structures
of its PPS (R90), `sets`: it carries parameter sets or a sequence header (R77). -/
structure UnitInfo where
  rap : Bool := false
  frames : Nat := 1
  order : Int := 0
  newSeq : Bool := false
  refs : List Int := []
  keeps : List Int := []
  hidden : Option Int := none
  shows : Bool := false
  recovery : Option Int := none
  seq : Option StreamRec := none
  pps : Option (List Parallel) := none
  sets : Bool := false
  deriving DecidableEq, Repr

/-- What decoding one unit gave (R91-R97): the errors that the decoder itself met, entropy or syntax, a parameter set, and
poisoned reference samples (Table 4-6), with the CTUs they conceal by raster address; the picture's size after cropping; the
hash check of R96; the metadata of Table 4-10, the mastering display's maximum luminance in cd/m² (0 where absent) and the
chroma sample location type that the sequence signals (255 where it signals none, R113). -/
structure DecOutcome where
  syntaxError : Bool := false
  paramError : Bool := false
  poisonedRef : Bool := false
  conceal : List Nat := []
  width : Nat := 0
  height : Nat := 0
  chroma : Nat := 1
  depth : Nat := 8
  hashMismatch : Bool := false
  grain : Bool := false
  colour : BitVec 32 := 0
  maxLum : Nat := 0
  siting : Nat := 255
  mdcv : List Byte := []
  cll : BitVec 32 := 0
  grainBytes : List Byte := []
  deriving DecidableEq, Repr

/-- An ECC, pointer or poison event that hardware reports with a microword (R244, R248, R249, R295, R296): `poison` is a parity
error, `csfMismatch` a pointer mismatch in the ring of a contract on the drover's port. -/
inductive DroverEvent where
  | none | corrected | uncorrectable | asmMismatch | poison
  | csfMismatch (c : Fin 64)
  deriving DecidableEq, Repr

/-- An ECC event in a table memory (R338). -/
inductive TblErr where
  | corrected
  | entry (i : Fin 32768)
  | node (stage : Fin 4) (i : Nat)
  deriving DecidableEq, Repr

/-- A request that has arrived at a channel arbiter: port, rank and bursts (R418, R419). -/
structure MemReq where
  port : Fin 48
  rank : Fin 4
  bursts : Nat
  deriving DecidableEq, Repr

/-- The sweeps of one byte lane (R404): bit t tells that tap t passed, in the read sweep and in the write sweep. -/
structure Sweep where
  rd : BitVec 128
  wr : BitVec 128
  deriving DecidableEq, Repr

/-- What a finished DRAM burst did to one codeword (R411-R416): a read or a write of the codeword at a device address,
the link-ECC event, and the symbols in error that an outer decoding would find (symbol numbers 0-71). -/
inductive BurstOp where
  | read (addr : Nat) (linkEcc : Bool) (errs : List (Fin 72))
  | write (addr : Nat) (linkEcc : Bool) (bytes : List Byte) (poisoned : Bool)
  deriving DecidableEq, Repr

/-- A unit that failed its self-test (R474, Table 19-14). -/
inductive SelfTest where
  | decode (n : Fin 16)
  | encode (n : Fin 16)
  | slice (n : Fin 4)
  | correction
  | dma
  | tables
  | drover (n : Fin 32)
  | cage (c : Fin 8)
  deriving DecidableEq, Repr

/-- Causes of a module restart (R458, Table 18-9). -/
inductive RestartCause where
  | l4 (f : Fin 512)
  | activate
  | resetn
  deriving DecidableEq, Repr

/-- The commands: one constructor per row of spec/opcode_table.json, in the table's order. -/
inductive Instr where
  -- descriptor commands (15.6)
  | nop (sq : Fin 1024) (d : Desc)
  | streamOpen (sq : Fin 1024) (d : Desc) (h : HostData) (cfg : CfgParse)
  | streamClose (sq : Fin 1024) (d : Desc)
  | auSubmit (sq : Fin 1024) (d : Desc)
  | rawFrameSubmit (sq : Fin 1024) (d : Desc)
  | rawSliceSubmit (sq : Fin 1024) (d : Desc)
  | contractPropose (sq : Fin 1024) (d : Desc) (h : HostData)
  | contractCommit (sq : Fin 1024) (d : Desc)
  | contractCommitAccept (c : Fin 64)
  | contractRelease (sq : Fin 1024) (d : Desc)
  | layoutUpdate (sq : Fin 1024) (d : Desc) (h : HostData)
  | coefLoad (sq : Fin 1024) (d : Desc) (h : HostData)
  | driftTableLoad (sq : Fin 1024) (d : Desc) (h : HostData)
  | curveLoad (sq : Fin 1024) (d : Desc) (h : HostData)
  | mapLoad (sq : Fin 1024) (d : Desc) (h : HostData)
  | ucodeLoad (sq : Fin 1024) (d : Desc) (h : HostData) (mismatch : BitVec 32) (badWord : BitVec 14)
  | endpointSend (sq : Fin 1024) (d : Desc) (h : HostData)
  | regionSend (sq : Fin 1024) (d : Desc) (h : HostData)
  | tableLearn (sq : Fin 1024) (d : Desc)
  | tableRemove (sq : Fin 1024) (d : Desc)
  | lpmInsert (sq : Fin 1024) (d : Desc)
  | lpmDelete (sq : Fin 1024) (d : Desc)
  | shadowAudit (sq : Fin 1024) (d : Desc) (h : HostData)
  | dmaCopy (sq : Fin 1024) (d : Desc) (srcList dstList : HostData)
  | timeSet (sq : Fin 1024) (d : Desc)
  | launchAt (sq : Fin 1024) (d : Desc)
  | proxyStart (sq : Fin 1024) (d : Desc)
  | proxyStop (sq : Fin 1024) (d : Desc)
  | latencyTolerance (sq : Fin 1024) (d : Desc)
  | nvmStore (sq : Fin 1024) (d : Desc)
  | firmwareStage (sq : Fin 1024) (d : Desc) (h : HostData)
  | firmwareActivate (sq : Fin 1024) (d : Desc)
  | tallySnapshot (sq : Fin 1024) (d : Desc)
  | traceConfig (sq : Fin 1024) (d : Desc)
  -- launch actions and launch ticks (chapter 2)
  | frameBoundary (k : Fin 8192)
  | launchTallySnapshot (k : Fin 8192)
  | decodeStart (k : Fin 8192)
  | compositionStart (k : Fin 8192)
  | encoderStripeStart (k : Fin 8192) (mm : Option (Fin 32))
  | droverMapListStart (k : Fin 8192)
  | seamStripSend (k : Fin 8192)
  | beacon (k : Fin 8192)
  | present (k : Fin 8192)
  | blank (k : Fin 8192)
  | releaseBlank (c : Fin 64)
  | messageRelease (k : Fin 8192)
  | hostInterrupt (k : Fin 8192)
  | periodicBeacon (p : Fin 32)
  | launchTickReached (c : Fin 64)
  -- streams and the pixel path (chapters 4-8)
  | unitFetchResume (st : Fin 256)
  | auFetchComplete (st : Fin 256) (h : HostData) (info : UnitInfo)
  | pictureDecodeDone (st : Fin 256) (o : DecOutcome)
  | repairDone (core : Fin 16)
  | rawFetchResume (st : Fin 256)
  | rawFetchDone (st : Fin 256) (h : HostData)
  | paddockRowWritten (c : Fin 64) (row : Fin 32) (poisoned : List (Nat × Nat))
  | overrunStepBegin (k : Fin 8192)
  | granuleClaimGrant (core : Fin 16) (mm : Option (Fin 32))
  | stripeComplete (core : Fin 16) (poisonCols : List Nat) (mismatch : Option (Fin 32))
  | copyDone (core : Fin 16)
  -- drovers (chapter 9)
  | droverMicroword (dr : Fin 32) (ev : DroverEvent)
  | stallRelease (dr : Fin 32)
  | learningLookupReturn (dr : Fin 32)
  | droverReloadDone (dr : Fin 32)
  -- egress ports (chapters 10-12)
  | frameTxEnd (p : Fin 32) (parity : Bool)
  | shaperTokensReady (p : Fin 32) (q : Fin 65536)
  | ageDrop (p : Fin 32) (q : Fin 65536)
  | egressLinkUp (p : Fin 32)
  | egressLinkDown (p : Fin 32) (lock : Bool) (align : Bool)
  | egressDelayReqReceive (p : Fin 32) (frame : List Byte) (age : Word)
  | delayReqWindowReset (p : Fin 32)
  | telemetryReceive (p : Fin 32) (frame : List Byte)
  | rxFrameDiscard (p : Fin 32) (frame : List Byte) (fcsOk : Bool) (fecUncorr : Bool)
  | driftStale (slot : Fin 16384)
  | poolAllocGrant (h : HostData)
  | poolCacheRefill (pool : Fin 3)
  | poolCacheSpill (pool : Fin 3)
  -- endpoint tables (chapter 13)
  | learnEventApply
  | ageSweepVisit
  | learnNoticeReceive (e : Fin 2) (bytes : List Byte)
  | tableEccError (err : TblErr)
  | trieNodeRebuild (stage : Fin 4) (node : Nat)
  -- the fold (chapter 2)
  | announceSend
  | syncSend
  | peerDelayReqSend (e : Fin 2)
  | announceReceive (e : Fin 2) (bytes : List Byte)
  | syncReceive (e : Fin 2) (bytes : List Byte) (residence : Nat)
  | peerDelayReqReceive (e : Fin 2) (bytes : List Byte) (turn : Nat)
  | peerDelayRespReceive (e : Fin 2) (bytes : List Byte)
  | seamFrameReceive (e : Fin 2) (bytes : List Byte)
  | announceAgeOut (m : Fin 16)
  | syncLossTimeout
  | holdoverTimeout
  | peerSilenceTimeout (e : Fin 2)
  | peerLinkUp (e : Fin 2)
  | peerLinkDown (e : Fin 2) (lanes : BitVec 4) (fec fecUncorr : Bool)
  -- the Birset link (chapter 14)
  | flitReceive (flit : List Byte) (fecUncorr : Bool)
  | replayTimeout
  | mgmtTimeout
  | linkSignalDetect (signal locked : BitVec 4)
  | trainComplete
  | trainTimeout
  | recoveryEntry
  | recoveryComplete (lanes : BitVec 4)
  | recoveryTimeout
  | linkMrdReceive (tag : Fin 4096) (addr : Dword) (len : BitVec 16)
  | linkMwrReceive (addr : Dword) (bytes : List Byte)
  | linkCplReceive (tag : Fin 4096) (status : Fin 8) (last : Bool) (off : BitVec 16) (bytes : List Byte)
  | cplTimeout (tag : Fin 4096)
  | tagQuarantineEnd (tag : Fin 4096)
  -- rings (chapter 15)
  | sqTailDb (r : Fin 1024) (v : Word)
  | cqHeadDb (r : Fin 1024) (v : Word)
  | descriptorFetch
  | submitHoldRelease (r : Fin 1024)
  | fenceRelease (r : Fin 1024)
  | completionWaitEnd (r : Fin 1024)
  | cqCoalTimeout (r : Fin 1024)
  | heldMessageTimeout (sq : Fin 1024) (cid : BitVec 16)
  -- interrupts and faults (chapter 18)
  | claim (t : Fin 5)
  | complete (t : Fin 5) (v : Word)
  | intpendWrite (k : Fin 64) (v : Word)
  | srcCfgWrite (src : Fin 2048) (v : Word)
  | unitFaultDetect (f : Fin 512)
  | sheepdogExpiry (g : Fin 32)
  | l3RestartDone (pd : Fin 64)
  | fltack (a : Agent) (v : Word)
  | fltInject (v : Word)
  | ccHeartbeatMiss (core : Fin 4)
  | moduleRestart (cause : RestartCause)
  -- memory (chapter 16)
  | dramTrainingDone (sweeps : List (Sweep × Sweep))
  | allBankRefresh (ch : Fin 32) (drift0 drift1 : Int)
  | mr4Poll (ch : Fin 32) (hot : Bool)
  | arbiterDecision (ch : Fin 32) (reqs : List MemReq)
  | burstBreakPoint (ch : Fin 32) (reqs : List MemReq)
  | burstComplete (ch : Fin 32) (op : BurstOp)
  | patrolRead (linkEcc : Bool) (errs : List (Fin 72))
  | memPortRankWrite (a : Agent) (v : Word)
  | memPortWaitRead (a : Agent)
  | dmaChannelFree (n : Fin 17)
  -- power, clocks, start-up, NVM (chapter 19)
  | powerGood
  | powerGoodFall
  | clkinCountEnd (ftmLow : Bool)
  | pllLock (imageOk : Bool)
  | clkinLoss
  | clkinReturn
  | resetnLow
  | resetnRise
  | startupComplete (failed : List SelfTest)
  | domainGapEntry (pd : Fin 64)
  | domainWakeStart (pd : Fin 64)
  | domainEntryDone (pd : Fin 64)
  | domainWakeDone (pd : Fin 64)
  | pdForceOnWrite (hi : Bool) (v : Word)
  | dieSensorSample (temps : List (BitVec 16))
  | tempStopHalt
  | trefSample (v : BitVec 16)
  | peakAllowanceUpdate
  | fanFail (fan : Fin 4)
  | nvmStoreDone (readBackOk : Bool)
  | firmwareStageDone (readBackOk : Bool)
  | trimApply (trim : Fin 4096)
  -- the proxy encoder (8.9)
  | proxyCaptureStart
  | proxyAuDone
  | proxyStopDone
  -- register windows and special registers
  | readCfg
  | writeCfg
  | readState
  | sclData3Write (a : Agent) (v : Word)
  | prxLutDataWrite (a : Agent) (v : Word)
  | tblSelWrite (a : Agent) (v : Word)
  | loRegisterRead (a : Agent) (addr : BitVec 26)
  | retrain
  | linkCfgWrite (v : Word)
  | sqCfgWrite (a : Agent) (v : Word)
  | cqCfgWrite (a : Agent) (v : Word)
  | canvasSizeWrite (v : Word)
  | egPortCfgWrite (p : Fin 32) (v : Word)
  | foldCfgWrite (v : Word)
  | ckoutCfgWrite (v : Word)
  | registerWrite (a : Agent) (addr : BitVec 26) (v : Word)
  -- remaining engine events
  | flitSlot
  | schedAccDone
  | shadowAuditDone
  | addNoticeSpreadSend
  | patrolIntervalEnd
  | mainsLoss
  | mainsReturn
  | plugInModuleInserted (cage : Fin 11) (classMw : Nat)
  | plugInModuleRemoved (cage : Fin 11)
  deriving DecidableEq, Repr

end Sys2Proof
end

