-- ==== Sys2Proof/Machine/Bits.lean ====
section
/-! DEFINITION. Bit fields, byte order, sign extension and the cyclic codes the spec uses (R5, R161, R322, R345). -/

namespace Sys2Proof.Machine

/-- Field [hi:lo] of a word as a number (R5: bit 0 is the least significant). -/
def fld {w : Nat} (x : BitVec w) (hi lo : Nat) : Nat := (x.toNat >>> lo) % 2 ^ (hi + 1 - lo)

/-- One bit of a word. -/
def bit {w : Nat} (x : BitVec w) (i : Nat) : Bool := x.getLsbD i

/-- A word with field [hi:lo] replaced. -/
def setFld {w : Nat} (x : BitVec w) (hi lo v : Nat) : BitVec w :=
  let m : Nat := (2 ^ (hi + 1 - lo) - 1) <<< lo
  (x &&& ~~~(BitVec.ofNat w m)) ||| BitVec.ofNat w ((v % 2 ^ (hi + 1 - lo)) <<< lo)

/-- 1 or 0. -/
def b2n (b : Bool) : Nat := if b then 1 else 0

/-- A word with one bit set or cleared. -/
def setBit {w : Nat} (x : BitVec w) (i : Nat) (v : Bool) : BitVec w := setFld x i i (b2n v)

/-- Two's complement value of an n-bit pattern. -/
def sext (n v : Nat) : Int := if v % 2 ^ n < 2 ^ (n - 1) then (v % 2 ^ n : Nat) else (v % 2 ^ n : Nat) - (2 ^ n : Nat)

/-- n-bit two's complement pattern of an integer. -/
def toPat (n : Nat) (v : Int) : Nat := (v % (2 ^ n : Nat)).toNat

/-- Clip an integer to lo..hi. -/
def clip (lo hi v : Int) : Int := min (max v lo) hi

/-- Rounded-up division. -/
def ceilDiv (a b : Nat) : Nat := (a + b - 1) / b

/-- n bytes, least significant first (Table 0-4: registers, descriptors and completions are little-endian). -/
def leBytes : Nat → Nat → List Byte
  | 0, _ => []
  | n + 1, v => BitVec.ofNat 8 v :: leBytes n (v / 256)

/-- n bytes, most significant first (network byte order). -/
def beBytes (n v : Nat) : List Byte := (leBytes n v).reverse

/-- The value of bytes read least significant first. -/
def leNat : List Byte → Nat
  | [] => 0
  | b :: bs => b.toNat + 256 * leNat bs

/-- The value of bytes read most significant first. -/
def beNat (bs : List Byte) : Nat := leNat bs.reverse

/-- n bytes at an offset (short where the list ends). -/
def slice (bs : List Byte) (off n : Nat) : List Byte := (bs.drop off).take n

/-- Little-endian field of a structure: n bytes at an offset. -/
def leAt (bs : List Byte) (off n : Nat) : Nat := leNat (slice bs off n)

/-- Network-order field of a structure. -/
def beAt (bs : List Byte) (off n : Nat) : Nat := beNat (slice bs off n)

/-- Byte of a structure. -/
def u8 (bs : List Byte) (off : Nat) : Nat := leAt bs off 1

/-- Every byte of a range is 0 (reserved bytes). -/
def zeroAt (bs : List Byte) (off n : Nat) : Bool := (slice bs off n).all (· == 0)

/-- n zero bytes. -/
def zeros (n : Nat) : List Byte := List.replicate n 0

/-- Little-endian field of a descriptor (Table 15-2): n bytes at a byte offset. -/
def descFld (d : Desc) (off n : Nat) : Nat := (d.toNat >>> (8 * off)) % 2 ^ (8 * n)

/-- Mask of a byte range of a descriptor. -/
def descMask (off n : Nat) : Nat := (2 ^ (8 * n) - 1) <<< (8 * off)

/-- Every byte of a descriptor outside the named ranges, and outside the header's bytes 0-3, is 0
(Table 15-2: reserved bytes must be 0). -/
def descClean (d : Desc) (ranges : List (Nat × Nat)) : Bool :=
  d.toNat &&& ((2 ^ 512 - 1) ^^^ ((ranges.map fun r => descMask r.1 r.2).foldl (· ||| ·) (descMask 0 4))) == 0

/-- One bit of a reflected CRC-32 step (IEEE 802.3 polynomial). -/
def crc32Bit (c : Word) : Word := if bit c 0 then (c >>> 1) ^^^ 0xEDB88320#32 else c >>> 1

/-- One byte of a reflected CRC-32. -/
def crc32Byte (c : Word) (b : Byte) : Word := Nat.repeat crc32Bit 8 (c ^^^ b.setWidth 32)

/-- CRC-32 (IEEE 802.3 polynomial): of no bytes it is 0 (R145). -/
def crc32 (bs : List Byte) : Word := ~~~ (bs.foldl crc32Byte 0xFFFFFFFF#32)

/-- One bit of the CRC-16 of R161. -/
def crc16Bit (c : BitVec 16) : BitVec 16 := if bit c 15 then (c <<< 1) ^^^ 0x1021#16 else c <<< 1

/-- CRC-16 of R161: polynomial 0x1021, initial value 0xFFFF, no reflection, no final XOR. -/
def crc16 (bs : List Byte) : BitVec 16 :=
  bs.foldl (fun (c : BitVec 16) (b : Byte) => Nat.repeat crc16Bit 8 (c ^^^ (b.setWidth 16 <<< (8 : Nat)))) 0xFFFF#16

/-- One bit of the CRC-64 of R345. -/
def crc64Bit (c : Dword) : Dword := if bit c 63 then (c <<< 1) ^^^ 0x42F0E1EBA9EA3693#64 else c <<< 1

/-- CRC-64 of R345 (ECMA-182): initial value 0, no reflection, no final XOR. -/
def crc64 (bs : List Byte) : Dword :=
  bs.foldl (fun (c : Dword) (b : Byte) => Nat.repeat crc64Bit 8 (c ^^^ (b.setWidth 64 <<< (56 : Nat)))) 0#64

end Sys2Proof.Machine
end

