-- ==== Sys2Proof/Machine/RegMap.lean ====
section
/-! DEFINITION. Where the registers of the control window stand (Tables 22-1, 22-2, 22-3): offset, stride, count, type,
implemented bits and reset value, one row a register; and the power domain of an offset (Table 22-1). Registers whose
value is a view of a block (RO) carry no reset value here. -/

namespace Sys2Proof.Machine

/-- Register access types (Table 0-5). `ro` includes RO to the host. -/
inductive RTy where
  | rw | ro | w1c | wo | rc | rws
  deriving DecidableEq, Repr

/-- One register of Table 22-2: the offset of unit 0, the stride, the units, the type, the implemented bits and the reset. -/
structure RegRow where
  base : Nat
  stride : Nat
  count : Nat
  ty : RTy
  mask : Nat
  reset : Nat
  deriving DecidableEq, Repr

namespace Off
abbrev admitSustain : Nat := 0x0000040
abbrev peakState : Nat := 0x0000044
abbrev pdSel : Nat := 0x0010000
abbrev pdForceLo : Nat := 0x0010008
abbrev pdForceHi : Nat := 0x001000C
abbrev ckoutCfg : Nat := 0x0010014
abbrev tempSel : Nat := 0x0010018
abbrev nvmStatus : Nat := 0x0020018
abbrev intPend (k : Nat) : Nat := 0x0030100 + 4 * k
abbrev intMask (k : Nat) : Nat := 0x0030200 + 4 * k
abbrev intSvc (k : Nat) : Nat := 0x0030300 + 4 * k
abbrev srcCfg (n : Nat) : Nat := 0x0031000 + 4 * n
abbrev claim (t : Nat) : Nat := 0x0033000 + 0x10 * t
abbrev completeT (t : Nat) : Nat := 0x0033004 + 0x10 * t
abbrev thresh (t : Nat) : Nat := 0x0033008 + 0x10 * t
abbrev tgtState (t : Nat) : Nat := 0x003300C + 0x10 * t
abbrev fltStat (g : Nat) : Nat := 0x0040000 + 0x20 * g
abbrev fltIntEn (g : Nat) : Nat := 0x0040004 + 0x20 * g
abbrev fltDog (g : Nat) : Nat := 0x0040008 + 0x20 * g
abbrev fltInjected (g : Nat) : Nat := 0x0040018 + 0x20 * g
abbrev fltAck : Nat := 0x0040400
abbrev fltInject : Nat := 0x0040404
abbrev availSel : Nat := 0x0040420
abbrev foldCfg : Nat := 0x0050014
abbrev foldId : Nat := 0x0050018
abbrev beaconInterval : Nat := 0x005001C
abbrev peerAsymE : Nat := 0x0050020
abbrev peerAsymW : Nat := 0x0050024
abbrev lslotSel : Nat := 0x0050030
abbrev lslotTimeLo : Nat := 0x0050034
abbrev lslotTimeHi : Nat := 0x0050038
abbrev lslotCtrl : Nat := 0x005003C
abbrev lslotArg : Nat := 0x0050040
abbrev wtStatus : Nat := 0x0050044
abbrev linkStatus : Nat := 0x0060008
abbrev linkIntEn : Nat := 0x006000C
abbrev linkCfg : Nat := 0x0060010
abbrev linkCtrl : Nat := 0x0060014
abbrev ringSel : Nat := 0x0070004
abbrev sqBaseLo : Nat := 0x0070008
abbrev sqBaseHi : Nat := 0x007000C
abbrev sqCfg : Nat := 0x0070010
abbrev cqBaseLo : Nat := 0x0070018
abbrev cqBaseHi : Nat := 0x007001C
abbrev cqCfg : Nat := 0x0070020
abbrev cqCoal : Nat := 0x0070024
abbrev ringStatus : Nat := 0x007002C
abbrev ringIntEn : Nat := 0x0070030
abbrev tlmCfg : Nat := 0x0070038
abbrev tlmBaseLo : Nat := 0x007003C
abbrev tlmBaseHi : Nat := 0x0070040
abbrev tlmBytes : Nat := 0x0070044
abbrev objSel : Nat := 0x0070048
abbrev sqTailDb (r : Nat) : Nat := 0x0080000 + 8 * r
abbrev cqHeadDb (r : Nat) : Nat := 0x0080004 + 8 * r
abbrev decErr (n : Nat) : Nat := 0x010000C + 0x1000 * n
abbrev decIntEn (n : Nat) : Nat := 0x0100010 + 0x1000 * n
abbrev canvasSize : Nat := 0x0110004
abbrev canvasColour : Nat := 0x0110008
abbrev sclSel : Nat := 0x0110010
abbrev sclData (i : Nat) : Nat := 0x0110014 + 4 * i
abbrev compStatus : Nat := 0x0110024
abbrev compIntEn : Nat := 0x0110028
abbrev corrCfg : Nat := 0x0120004
abbrev corrStale : Nat := 0x0120008
abbrev corrStatus : Nat := 0x012000C
abbrev corrIntEn : Nat := 0x0120010
abbrev corrEpSel : Nat := 0x0120018
abbrev encStatus (n : Nat) : Nat := 0x013000C + 0x1000 * n
abbrev encIntEn (n : Nat) : Nat := 0x0130010 + 0x1000 * n
abbrev encStatSel : Nat := 0x0130018
abbrev prxStatus : Nat := 0x0140008
abbrev prxIntEn : Nat := 0x014000C
abbrev prxLutSel : Nat := 0x0140010
abbrev prxLutData : Nat := 0x0140014
abbrev drvStatus (n : Nat) : Nat := 0x015000C + 0x1000 * n
abbrev drvIntEn (n : Nat) : Nat := 0x0150010 + 0x1000 * n
abbrev drvStepMax (n : Nat) : Nat := 0x0150014 + 0x1000 * n
abbrev drvFloodHi (n : Nat) : Nat := 0x015001C + 0x1000 * n
abbrev drvFloodLo (n : Nat) : Nat := 0x0150028 + 0x1000 * n
abbrev drvDispSel (n : Nat) : Nat := 0x0150030 + 0x1000 * n
abbrev cstoreSel : Nat := 0x0170000
abbrev egPortCfg (p : Nat) : Nat := 0x0200000 + 0x100 * p
abbrev egPortStatus (p : Nat) : Nat := 0x0200008 + 0x100 * p
abbrev egPortIntEn (p : Nat) : Nat := 0x020000C + 0x100 * p
abbrev egEthertype : Nat := 0x0202000
abbrev egGroupMacLo : Nat := 0x0202004
abbrev egGroupMacHi : Nat := 0x0202008
abbrev poolStatus : Nat := 0x0210008
abbrev poolIntEn : Nat := 0x021000C
abbrev poolOwnSel : Nat := 0x0210020
abbrev poolRsv : Nat := 0x0210024
abbrev fifoStatus (p : Nat) : Nat := 0x0211004 + 0x20 * p
abbrev fifoIntEn (p : Nat) : Nat := 0x0211008 + 0x20 * p
abbrev schedQSel : Nat := 0x0220004
abbrev schedAcc : Nat := 0x0220008
abbrev schedData (i : Nat) : Nat := 0x0220010 + 4 * i
abbrev schedStatus : Nat := 0x0220020
abbrev schedIntEn : Nat := 0x0220024
abbrev ageLimit : Nat := 0x0220028
abbrev urgRate (p : Nat) : Nat := 0x0220100 + 8 * p
abbrev urgBurst (p : Nat) : Nat := 0x0220104 + 8 * p
abbrev tblCfg : Nat := 0x0230004
abbrev tblStatus : Nat := 0x0230008
abbrev tblIntEn : Nat := 0x023000C
abbrev tblSel : Nat := 0x0230024
abbrev tblData (i : Nat) : Nat := 0x0230028 + 4 * i
abbrev peerStatus (e : Nat) : Nat := 0x0240004 + 0x100 * e
abbrev peerIntEn (e : Nat) : Nat := 0x0240008 + 0x100 * e
abbrev dmaStatus : Nat := 0x0250004
abbrev dmaIntEn : Nat := 0x0250008
abbrev dmaChSel : Nat := 0x025000C
abbrev memCfg : Nat := 0x0260008
abbrev memStatus : Nat := 0x026000C
abbrev memIntEn : Nat := 0x0260010
abbrev memPortSel : Nat := 0x0260020
abbrev memPortRank : Nat := 0x0260024
abbrev memPortWait : Nat := 0x0260028
abbrev tallySel : Nat := 0x0270004
abbrev trimSel : Nat := 0x0280000
end Off

/-- GLOBAL, CLKPWR, NVM (R69, R486, Tables 3-11, 19-13, 19-15, 19-16). -/
def regsGlobal : List RegRow := [
  ⟨0x0000000, 4, 6, .ro, 0, 0⟩,                                  -- DEVID … BOOT_STATUS
  ⟨Off.admitSustain, 4, 1, .rw, 0x0000FFFF, 0x0546⟩,
  ⟨Off.peakState, 4, 1, .ro, 0, 0⟩,
  ⟨Off.pdSel, 4, 1, .rw, 0x3F, 0⟩,
  ⟨0x0010004, 4, 1, .ro, 0, 0⟩,                                  -- PD_STATE
  ⟨Off.pdForceLo, 4, 2, .rw, 0xFFFFFFFF, 0⟩,
  ⟨0x0010010, 4, 1, .ro, 0, 0⟩,                                  -- PWR_TOL
  ⟨Off.ckoutCfg, 4, 1, .rw, 0x9F0FFFFF, 0⟩,
  ⟨Off.tempSel, 4, 1, .rw, 0x1F, 0⟩,
  ⟨0x001001C, 4, 5, .ro, 0, 0⟩,                                  -- TEMP_VALUE … FAN_STATE
  ⟨0x0020000, 4, 6, .ro, 0, 0⟩,                                  -- NVM_ID … NVM_WEAR_B
  ⟨Off.nvmStatus, 4, 1, .w1c, 0x7, 0⟩]

/-- INTC and FAULT (R462, Tables 18-8, 18-9). -/
def regsIntc : List RegRow := [
  ⟨0x0030000, 4, 1, .ro, 0, 0⟩,                                  -- INTC_ID
  ⟨0x0030100, 4, 64, .rw, 0xFFFFFFFF, 0⟩,                        -- INTPEND
  ⟨0x0030200, 4, 64, .rw, 0xFFFFFFFF, 0⟩,                        -- INTMASK
  ⟨0x0030300, 4, 64, .ro, 0, 0⟩,                                 -- INTSVC
  ⟨0x0031000, 4, 2048, .rw, 0x27F, 0⟩,                           -- SRC_CFG
  ⟨0x0033000, 0x10, 5, .rc, 0, 0⟩,                               -- CLAIM
  ⟨0x0033004, 0x10, 5, .wo, 0x7FF, 0⟩,                           -- COMPLETE
  ⟨0x0033008, 0x10, 5, .rw, 0xF, 0⟩,                             -- THRESH
  ⟨0x003300C, 0x10, 5, .ro, 0, 0⟩,                               -- TGT_STATE
  ⟨0x0040000, 0x20, 32, .w1c, 0xFFFF, 0⟩,                        -- FLT_STAT
  ⟨0x0040004, 0x20, 32, .rw, 0xFFFF, 0⟩,                         -- FLT_INT_EN
  ⟨0x0040008, 0x20, 32, .rw, 0xFFFF, 2000⟩,                      -- FLT_DOG
  ⟨0x004000C, 0x20, 32, .ro, 0, 0⟩,                              -- FLT_DOG_STATE
  ⟨0x0040010, 0x20, 32, .ro, 0, 0⟩,                              -- FLT_ARMED
  ⟨0x0040014, 0x20, 32, .ro, 0, 0⟩,                              -- FLT_LEVEL
  ⟨0x0040018, 0x20, 32, .w1c, 0xFFFF, 0⟩,                        -- FLT_INJECTED
  ⟨Off.fltAck, 4, 1, .wo, 0x1F, 0⟩,
  ⟨Off.fltInject, 4, 1, .rw, 0x800001FF, 0⟩,
  ⟨0x0040408, 4, 1, .ro, 0, 0⟩,                                  -- FLT_MODE
  ⟨0x004040C, 4, 3, .rws, 0xFFFFFFFF, 0⟩,                        -- RESTART_CAUSE, RESTART_TICK
  ⟨Off.availSel, 4, 1, .rw, 0x3F, 0⟩,
  ⟨0x0040424, 4, 5, .ro, 0, 0⟩]                                  -- AVAIL_*

/-- WALLTIME and LINK (R44, R370, Tables 2-8, 14-8). -/
def regsTime : List RegRow := [
  ⟨0x0050000, 4, 5, .ro, 0, 0⟩,                                  -- WT_NOW_LO … WT_ERR
  ⟨Off.foldCfg, 4, 1, .rw, 0x00FF001F, 0x00010000⟩,
  ⟨Off.foldId, 4, 1, .rw, 0xFFFFFFFF, 0⟩,
  ⟨Off.beaconInterval, 4, 1, .rw, 0x3FFF, 1000⟩,
  ⟨Off.peerAsymE, 4, 2, .rw, 0xFFFFFFFF, 0⟩,
  ⟨0x0050028, 4, 2, .ro, 0, 0⟩,                                  -- LINK_DELAY_E, LINK_DELAY_W
  ⟨Off.lslotSel, 4, 1, .rw, 0x1FFF, 0⟩,
  ⟨Off.lslotTimeLo, 4, 4, .ro, 0, 0⟩,                            -- LSLOT_TIME … LSLOT_ARG
  ⟨Off.wtStatus, 4, 1, .w1c, 0xFF, 0⟩,
  ⟨0x0060000, 4, 2, .ro, 0, 0⟩,                                  -- LINK_ID, LINK_STATE
  ⟨Off.linkStatus, 4, 1, .w1c, 0x1FF, 0⟩,
  ⟨Off.linkIntEn, 4, 1, .rw, 0x1FF, 0⟩,
  ⟨Off.linkCfg, 4, 1, .rw, 0x010F03FF, 0x010F0032⟩,
  ⟨Off.linkCtrl, 4, 1, .wo, 1, 0⟩,
  ⟨0x0060018, 4, 4, .ro, 0, 0⟩]                                  -- LINK_CREDIT … LINK_TAGS

/-- RINGS and DOORBELL (R375, R400, Tables 15-1, 15-14). Per-ring registers live in the ring's record. -/
def regsRings : List RegRow := [
  ⟨0x0070000, 4, 1, .ro, 0, 0⟩,                                  -- RINGS_ID
  ⟨Off.ringSel, 4, 1, .rw, 0x3FF, 0⟩,
  ⟨Off.sqBaseLo, 4, 1, .rw, 0xFFFFF000, 0⟩,
  ⟨Off.sqBaseHi, 4, 1, .rw, 0xFFFFFFFF, 0⟩,
  ⟨Off.sqCfg, 4, 1, .rw, 0x833FF01F, 0⟩,
  ⟨0x0070014, 4, 1, .ro, 0, 0⟩,                                  -- SQ_STATE
  ⟨Off.cqBaseLo, 4, 1, .rw, 0xFFFFF000, 0⟩,
  ⟨Off.cqBaseHi, 4, 1, .rw, 0xFFFFFFFF, 0⟩,
  ⟨Off.cqCfg, 4, 1, .rw, 0x80FF001F, 0⟩,
  ⟨Off.cqCoal, 4, 1, .rw, 0x03FF00FF, 1⟩,
  ⟨0x0070028, 4, 1, .ro, 0, 0⟩,                                  -- CQ_STATE
  ⟨Off.ringStatus, 4, 1, .w1c, 0x7F, 0⟩,
  ⟨Off.ringIntEn, 4, 1, .rw, 0x7F, 0⟩,
  ⟨0x0070034, 4, 1, .ro, 0, 0⟩,                                  -- INFLIGHT
  ⟨Off.tlmCfg, 4, 1, .rw, 0x800003FF, 0⟩,
  ⟨Off.tlmBaseLo, 4, 1, .rw, 0xFFFF0000, 0⟩,
  ⟨Off.tlmBaseHi, 4, 1, .rw, 0xFFFFFFFF, 0⟩,
  ⟨Off.tlmBytes, 4, 1, .rw, 0x1FFFFFFF, 0⟩,
  ⟨Off.objSel, 4, 1, .rw, 0x1FF, 0⟩,
  ⟨0x007004C, 4, 1, .ro, 0, 0⟩,                                  -- OBJ_STATE
  ⟨0x0080000, 4, 2048, .wo, 0xFFFF, 0⟩]                          -- doorbells

/-- DECODE, COMPOSE, CORRECT, SWENC, PROXY (R103, R135, R153, R209, R218, Tables 4-11, 5-7, 6-3, 8-3, 8-9). -/
def regsPixel : List RegRow := [
  ⟨0x0100000, 0x1000, 16, .ro, 0, 0⟩,                            -- DEC_ID
  ⟨0x0100004, 0x1000, 16, .ro, 0, 0⟩,                            -- DEC_STATE
  ⟨0x0100008, 0x1000, 16, .ro, 0, 0⟩,                            -- DEC_STREAM
  ⟨0x010000C, 0x1000, 16, .w1c, 0x3FF, 0⟩,                       -- DEC_ERR
  ⟨0x0100010, 0x1000, 16, .rw, 0x3FF, 0⟩,                        -- DEC_INT_EN
  ⟨0x0110000, 4, 1, .ro, 0, 0⟩,                                  -- COMP_ID
  ⟨Off.canvasSize, 4, 1, .rw, 0x003F007F, 0x00200040⟩,
  ⟨Off.canvasColour, 4, 1, .rw, 0x00033FFF, 0x000103E8⟩,
  ⟨Off.sclSel, 4, 1, .rw, 0x00013F0F, 0⟩,
  ⟨0x0110014, 4, 4, .rw, 0x0FFF0FFF, 0⟩,                         -- SCL_DATA0-3
  ⟨Off.compStatus, 4, 1, .w1c, 0x3F, 0⟩,
  ⟨Off.compIntEn, 4, 1, .rw, 0x3F, 0⟩,
  ⟨0x0110100, 0x100, 4, .ro, 0, 0⟩,                              -- SLICE_STATE
  ⟨0x0120000, 4, 1, .ro, 0, 0⟩,                                  -- CORR_ID
  ⟨Off.corrCfg, 4, 1, .rw, 0x03FF0003, 0x00400002⟩,
  ⟨Off.corrStale, 4, 1, .rw, 0xFFFF, 2000⟩,
  ⟨Off.corrStatus, 4, 1, .w1c, 0xF, 0⟩,
  ⟨Off.corrIntEn, 4, 1, .rw, 0xF, 0⟩,
  ⟨0x0120014, 4, 1, .ro, 0, 0⟩,                                  -- CORR_SLOTS
  ⟨Off.corrEpSel, 4, 1, .rw, 0x3FFF, 0⟩,
  ⟨0x012001C, 4, 3, .ro, 0, 0⟩,                                  -- CORR_EP_*
  ⟨0x0130000, 0x1000, 16, .ro, 0, 0⟩,                            -- ENC_ID
  ⟨0x0130004, 0x1000, 16, .ro, 0, 0⟩,                            -- ENC_STATE
  ⟨0x0130008, 0x1000, 16, .ro, 0, 0⟩,                            -- ENC_RUN
  ⟨0x013000C, 0x1000, 16, .w1c, 0x1F, 0⟩,                        -- ENC_STATUS
  ⟨0x0130010, 0x1000, 16, .rw, 0x1F, 0⟩,                         -- ENC_INT_EN
  ⟨0x0130014, 0x1000, 16, .ro, 0, 0⟩,                            -- ENC_WIN
  ⟨0x0130018, 0x1000, 16, .rw, 0x13F, 0⟩,                        -- ENC_STAT_SEL
  ⟨0x013001C, 0x1000, 16, .ro, 0, 0⟩,                            -- ENC_STAT_BASE_LO
  ⟨0x0130020, 0x1000, 16, .ro, 0, 0⟩,                            -- ENC_STAT_BASE_HI
  ⟨0x0130024, 0x1000, 16, .ro, 0, 0⟩,                            -- ENC_STAT_COUNT
  ⟨0x0140000, 4, 2, .ro, 0, 0⟩,                                  -- PRX_ID, PRX_STATE
  ⟨Off.prxStatus, 4, 1, .w1c, 0xF, 0⟩,
  ⟨Off.prxIntEn, 4, 1, .rw, 0xF, 0⟩,
  ⟨Off.prxLutSel, 4, 1, .rw, 0xFFF, 0⟩,
  ⟨Off.prxLutData, 4, 1, .rw, 0x3FF, 0⟩]

/-- DROVER and the CSTORE window (Table 9-16, R254). -/
def regsDrover : List RegRow := [
  ⟨0x0150000, 0x1000, 32, .ro, 0, 0⟩,                            -- DRV_ID
  ⟨0x0150004, 0x1000, 32, .ro, 0, 0⟩,                            -- DRV_STATE
  ⟨0x0150008, 0x1000, 32, .ro, 0, 0⟩,                            -- DRV_PC
  ⟨0x015000C, 0x1000, 32, .w1c, 0xFFF, 0⟩,                       -- DRV_STATUS
  ⟨0x0150010, 0x1000, 32, .rw, 0xFFF, 0⟩,                        -- DRV_INT_EN
  ⟨0x0150014, 0x1000, 32, .rw, 0xFFFFFF, 65536⟩,                 -- DRV_STEP_MAX
  ⟨0x0150018, 0x1000, 32, .ro, 0, 0⟩,                            -- DRV_CMD
  ⟨0x015001C, 0x1000, 32, .rw, 0xFFFF, 0xFFFF⟩,                  -- DRV_FLOOD_MAC_HI
  ⟨0x0150020, 0x1000, 32, .ro, 0, 0⟩,                            -- DRV_MAPBASE_LO
  ⟨0x0150024, 0x1000, 32, .ro, 0, 0⟩,                            -- DRV_MAPBASE_HI
  ⟨0x0150028, 0x1000, 32, .rw, 0xFFFFFFFF, 0xFFFFFFFF⟩,          -- DRV_FLOOD_MAC_LO
  ⟨0x015002C, 0x1000, 32, .ro, 0, 0⟩,                            -- DRV_CS_ERR
  ⟨0x0150030, 0x1000, 32, .rw, 0xFF, 0⟩,                         -- DRV_DISP_SEL
  ⟨0x0150034, 0x1000, 32, .ro, 0, 0⟩,                            -- DRV_DISP_DATA
  ⟨Off.cstoreSel, 4, 1, .rw, 0x1F, 0⟩,
  ⟨0x0180000, 4, 65536, .ro, 0, 0⟩]                              -- CSTORE window

/-- EGRESS, POOL, SCHED (R281, R304, R319, Tables 10-13, 11-8, 12-6). -/
def regsEgress : List RegRow := [
  ⟨0x0200000, 0x100, 32, .rw, 0x7F1F, 0x18⟩,                     -- EG_PORT_CFG
  ⟨0x0200004, 0x100, 32, .ro, 0, 0⟩,                             -- EG_PORT_STATE
  ⟨0x0200008, 0x100, 32, .w1c, 0x7F, 0⟩,                         -- EG_PORT_STATUS
  ⟨0x020000C, 0x100, 32, .rw, 0x7F, 0⟩,                          -- EG_PORT_INT_EN
  ⟨Off.egEthertype, 4, 1, .rw, 0xFFFF, 0x88B5⟩,
  ⟨Off.egGroupMacLo, 4, 1, .rw, 0xFFFFFFFF, 1⟩,
  ⟨Off.egGroupMacHi, 4, 1, .rw, 0xFFFF, 0x035D⟩,
  ⟨0x020200C, 4, 2, .ro, 0, 0⟩,                                  -- EG_MAC_BASE
  ⟨0x0210000, 4, 2, .ro, 0, 0⟩,                                  -- POOL_ID, POOL_LEVEL
  ⟨Off.poolStatus, 4, 1, .w1c, 0xF, 0⟩,
  ⟨Off.poolIntEn, 4, 1, .rw, 0xF, 0⟩,
  ⟨0x0210010, 4, 4, .ro, 0, 0⟩,                                  -- POOL_FREE_A … POOL_RING_USE
  ⟨Off.poolOwnSel, 4, 1, .rw, 0x7F, 0⟩,
  ⟨Off.poolRsv, 4, 1, .rw, 0xFFFFFFFF, 0⟩,                       -- by owner, in the pools
  ⟨0x0210028, 4, 2, .ro, 0, 0⟩,                                  -- POOL_USE_A, POOL_USE_BC
  ⟨0x0211000, 0x20, 32, .ro, 0, 0⟩,                              -- ASM_LEVEL
  ⟨0x0211004, 0x20, 32, .w1c, 0xF, 0⟩,                           -- FIFO_STATUS
  ⟨0x0211008, 0x20, 32, .rw, 0xF, 0⟩,                            -- FIFO_INT_EN
  ⟨0x021100C, 0x20, 32, .ro, 0, 0⟩,                              -- CSF_GRANULES
  ⟨0x0220000, 4, 1, .ro, 0, 0xA000⟩,                             -- SCHED_ID
  ⟨Off.schedQSel, 4, 1, .rw, 0x1F00FFFF, 0⟩,
  ⟨Off.schedAcc, 4, 1, .rw, 0xC0000003, 0⟩,
  ⟨0x0220010, 4, 4, .rw, 0xFFFFFFFF, 0⟩,                         -- SCHED_DATA0-3
  ⟨Off.schedStatus, 4, 1, .w1c, 0x7, 0⟩,
  ⟨Off.schedIntEn, 4, 1, .rw, 0x7, 0⟩,
  ⟨Off.ageLimit, 4, 1, .rw, 0x3FFFFFFF, 0x0320C832⟩,
  ⟨0x0220100, 8, 32, .rw, 0xFFF, 1000⟩,                          -- URG_POL_RATE
  ⟨0x0220104, 8, 32, .rw, 0xFFFF, 18472⟩]                        -- URG_POL_BURST

/-- TABLES, PEER, DMA, MEMCTL, TALLY, TRIM (R339, R436, R425, R486, R494, R520, Tables 13-7, 22-3, 17-4, 16-3, 20-3, 19-17). -/
def regsService : List RegRow := [
  ⟨0x0230000, 4, 1, .ro, 0, 0⟩,                                  -- TBL_ID
  ⟨Off.tblCfg, 4, 1, .rw, 0x03FF0100, 0x00050100⟩,
  ⟨Off.tblStatus, 4, 1, .w1c, 0xFF, 0⟩,
  ⟨Off.tblIntEn, 4, 1, .rw, 0xFF, 0⟩,
  ⟨0x0230010, 4, 5, .ro, 0, 0⟩,                                  -- TBL_COUNT0 … LPM_FREE_S4
  ⟨Off.tblSel, 4, 1, .rw, 0x40007FFF, 0⟩,
  ⟨0x0230028, 4, 4, .ro, 0, 0⟩,                                  -- TBL_DATA0-3
  ⟨0x0240000, 0x100, 2, .ro, 0, 0⟩,                              -- PEER_STATE
  ⟨0x0240004, 0x100, 2, .w1c, 0xF, 0⟩,                           -- PEER_STATUS
  ⟨0x0240008, 0x100, 2, .rw, 0xF, 0⟩,                            -- PEER_INT_EN
  ⟨0x0250000, 4, 1, .ro, 0, 0⟩,                                  -- DMA_ID
  ⟨Off.dmaStatus, 4, 1, .w1c, 0x7, 0⟩,
  ⟨Off.dmaIntEn, 4, 1, .rw, 0x7, 0⟩,
  ⟨Off.dmaChSel, 4, 1, .rw, 0x1F, 0⟩,
  ⟨0x0250010, 4, 3, .ro, 0, 0⟩,                                  -- DMA_CH_STATE, DMA_SCRATCH
  ⟨0x0260000, 4, 2, .ro, 0, 0⟩,                                  -- MEM_ID, MEM_STATE
  ⟨Off.memCfg, 4, 1, .rw, 0x000F1F01, 0x000C0101⟩,
  ⟨Off.memStatus, 4, 1, .w1c, 0x3F, 0⟩,
  ⟨Off.memIntEn, 4, 1, .rw, 0x3F, 0⟩,
  ⟨0x0260014, 4, 3, .ro, 0, 0⟩,                                  -- MEM_LAST_UE, MEM_PATROL
  ⟨Off.memPortSel, 4, 1, .rw, 0x3F, 0⟩,
  ⟨Off.memPortRank, 4, 1, .rw, 0x3, 0⟩,                          -- by port, in the memory block
  ⟨Off.memPortWait, 4, 1, .rc, 0, 0⟩,
  ⟨0x0261000, 0x40, 32, .ro, 0, 0⟩,                              -- MEM_CH_ERR0
  ⟨0x0261004, 0x40, 32, .ro, 0, 0⟩,                              -- MEM_CH_ERR1
  ⟨0x0261008, 0x40, 32, .ro, 0, 0⟩,                              -- MEM_CH_PINS
  ⟨0x026100C, 0x40, 32, .ro, 0, 0⟩,                              -- MEM_CH_LANE
  ⟨0x0270000, 4, 1, .ro, 0, 0⟩,                                  -- TALLY_ID
  ⟨Off.tallySel, 4, 1, .rw, 0x3FF, 0⟩,
  ⟨0x0270008, 4, 2, .ro, 0, 0⟩,                                  -- TALLY_VAL
  ⟨0x0270010, 4, 8, .ro, 0, 0⟩,                                  -- SNAP_TICK
  ⟨0x0270030, 4, 3, .ro, 0, 0⟩,                                  -- TRACE_*
  ⟨Off.trimSel, 4, 1, .rw, 0xFFF, 0⟩,
  ⟨0x0280004, 4, 3, .ro, 0, 0⟩]                                  -- TRIM_*

/-- The rows of the block that an offset's upper bits name. -/
def regRows (off : Nat) : List RegRow :=
  match off / 65536 with
  | 0 | 1 | 2 => regsGlobal
  | 3 | 4 => regsIntc
  | 5 | 6 => regsTime
  | 7 | 8 => regsRings
  | 0x10 | 0x11 | 0x12 | 0x13 | 0x14 => regsPixel
  | 0x15 | 0x16 | 0x17 | 0x18 | 0x19 | 0x1A | 0x1B => regsDrover
  | 0x20 | 0x21 | 0x22 => regsEgress
  | 0x23 | 0x24 | 0x25 | 0x26 | 0x27 | 0x28 => regsService
  | _ => []

/-- A row places a register at an offset. -/
def rowAt (off : Nat) (r : RegRow) : Bool :=
  decide (r.base ≤ off) && (off - r.base) % r.stride == 0 && decide ((off - r.base) / r.stride < r.count)

/-- The register at an offset (R512); none where Table 22-2 places none. -/
def regAt (off : Nat) : Option RegRow := (regRows off).find? (rowAt off)

/-- Reset value of the register at an offset. -/
def regReset (off : Nat) : Word := match regAt off with
  | some r => BitVec.ofNat 32 r.reset
  | none => 0

/-- The power domain of an offset (Table 22-1); none in the always-on domain. `CSTORE` stands for the window of the
selected drover, whose domain depends on the selector. -/
def regDomain (off : Nat) : Option Nat :=
  match off / 65536 with
  | 6 => some 56
  | 0x10 => some ((off - 0x100000) / 4096)
  | 0x11 => if off < 0x110100 then some 36 else some (32 + (off - 0x110100) / 256)
  | 0x12 => some 36
  | 0x13 => some (16 + (off - 0x130000) / 4096)
  | 0x14 => some 37
  | 0x15 | 0x16 => some (38 + (off - 0x150000) / 4096 / 4)
  | 0x20 => if off < 0x202000 then some (46 + (off - 0x200000) / 256 / 4) else none
  | 0x21 => if off < 0x211000 then none else some (46 + (off - 0x211000) / 32 / 4)
  | 0x23 => some 61
  | 0x24 => some (54 + (off - 0x240000) / 256)
  | 0x25 => some 62
  | 0x26 => if off < 0x261000 then none else some (57 + (off - 0x261000) / 64 / 8)
  | 0x27 => some 63
  | _ => none

/-- Registers whose copy exists once per agent: every selector but `SCHED_Q_SEL` (R514). Offset 0x0130018 and the
offsets of the drovers' `DRV_DISP_SEL` are selectors of each page. -/
def isSelector (off : Nat) : Bool :=
  [Off.pdSel, Off.tempSel, Off.availSel, Off.lslotSel, Off.ringSel, Off.objSel, Off.sclSel, Off.corrEpSel,
   Off.prxLutSel, Off.cstoreSel, Off.poolOwnSel, Off.tblSel, Off.dmaChSel, Off.memPortSel, Off.tallySel,
   Off.trimSel].contains off
  || (decide (0x130000 ≤ off) && decide (off < 0x140000) && off % 4096 == 0x18)
  || (decide (0x150000 ≤ off) && decide (off < 0x170000) && off % 4096 == 0x30)

/-- The offset a selector is stored at: `ENC_STAT_SEL` shows one value in the page of every core (R209). -/
def selHome (off : Nat) : Nat :=
  if decide (0x130000 ≤ off) && decide (off < 0x140000) then Off.encStatSel else off

end Sys2Proof.Machine
end

