-- ==== Sys2Proof/Config.lean ====
section
/-! DEFINITION. What the spec leaves open: opaque constants without a body, so that nothing can be proved of their
values. Every one is named in the assumption log (entries 3 to 6). -/

namespace Sys2Proof

/-- What the samples of a picture are decoded from: the parameter sets in force, the unit's bytes, and the pictures it
refers to by their numbers, none for a mid-grey one; `index` is its place among the frames of the unit. -/
structure PicData where
  index : Nat := 0
  codec : Nat := 0
  sets : List (List Byte) := []
  unit : List Byte := []
  refs : List (Option Nat) := []
  deriving DecidableEq, Repr

/-- A captured picture of the proxy (R212): Y, Cb and Cr in raster order, 10 bits. -/
structure ProxyPlanes where
  y : List Nat := []
  cb : List Nat := []
  cr : List Nat := []
  deriving DecidableEq, Repr

/-- What the parameter sets of the proxy's output say (Table 8-8): profile, level times 30, tier; the format, the coded size and
the conformance window; block sizes, tools and filters; the VUI; `num_units_in_tick` and `time_scale`. -/
structure ProxySeq where
  profile : Nat := 2
  level : Nat := 153
  highTier : Bool := false
  chroma : Nat := 1
  depth : Nat := 10
  codedW : Nat
  codedH : Nat
  width : Nat
  height : Nat
  ctu : Nat := 64
  minCu : Nat := 8
  minTu : Nat := 4
  maxTu : Nat := 32
  refs : Nat := 1
  tmvp : Bool := false
  deblocking : Bool := true
  sao : Bool := false
  qpGroup : Nat := 32
  primaries : Nat := 1
  transfer : Nat := 1
  matrix : Nat := 1
  fullRange : Bool := false
  siting : Nat := 1
  timing : Option (Nat × Nat)
  deriving DecidableEq, Repr

/-- A prediction mode of a block (Table 8-8): planar 0, DC 1 and the angular modes 2-34; a merge candidate; a motion vector in
quarter samples. -/
inductive ProxyMode where
  | intra (m : Nat)
  | merge (i : Nat)
  | amvp (dx dy : Int)
  deriving DecidableEq, Repr

/-- A CTU as coded: the QP of each of its four 32 × 32 quarters, its blocks of 16 × 16 with their modes; or skipped. -/
structure ProxyCtu where
  qps : List Nat := []
  skipped : Bool := false
  blocks : List ProxyMode := []
  deriving DecidableEq, Repr

/-- A picture as coded so far: its type, POC, QP, sequence, samples, the delivered picture it refers to, and its CTUs. -/
structure ProxyPicture where
  idr : Bool
  poc : Nat
  qp : Nat
  seq : ProxySeq
  planes : ProxyPlanes
  ref : Nat
  ctus : List ProxyCtu := []
  deriving DecidableEq, Repr

namespace Config

/-- A FREE VALUE: the n-th value the spec leaves open (a drawn `EPOCH`, a `NONCE`, a `MSG_ID`, a device address that
the firmware places, R366, R29, R394, R403). `State.free` counts the draws. -/
opaque freeNat : Nat → Nat

/-- Sample of a decoded picture: its input, plane (0 Y, 1 Cb, 2 Cr), x, y. The decoding processes of HEVC, AV1 and VVC are texts outside the spec (R70); the samples they give are free
here, but the same data give the same samples. -/
opaque decodedSample : PicData → Nat → Nat → Nat → Nat

/-- A FREE VALUE: the error of an interpolated transfer table of R123: kind, parameters (white, nits), input 0-65535 (for HLG the
packed triple of inputs). R123 bounds it to ±2 codes (HLG ±4) and says no more; only its rest modulo the bound is used. -/
opaque transferError : Nat → Nat → Nat → Nat → Nat

/-- Film grain of R97 (the AV1 process, a text outside the spec): the film grain parameters as stored, with their seed, plane, x,
y, the decoded sample, and the decoded luma samples at its place and beside it. -/
opaque grainSample : List Byte → Nat → Nat → Nat → Nat → Nat → Nat → Nat

/-- 128-bit words of the vendor region of every control store (R527: implementation-defined). -/
opaque vendorWord : Nat → BitVec 128

/-- Word addresses of the vendor routines 0x00-0x03 (R527: implementation-defined); only the low 13 bits are used. -/
opaque vendorEntry : Nat → Nat

/-- The measure of a search stage of R214, which the rule does not name: stage, picture, x and y of the block, vector. -/
opaque searchCost : Nat → ProxyPicture → Nat → Nat → Int × Int → Nat

/-- SATD and bits of a mode of R214: picture, x and y of the block, mode. -/
opaque modeCost : ProxyPicture → Nat → Nat → ProxyMode → Nat × Nat

/-- Merge candidates of a block, at most five: a matter of the standard and of the encoder. -/
opaque mergeCount : ProxyPicture → Nat → Nat → Nat

/-- Bits of the last CTU of a picture coded so far. -/
opaque ctuBits : ProxyPicture → Nat

/-- A QP that the rate control of R215 takes, of which the rule gives the bounds alone: draw, place. -/
opaque rateQp : Nat → Nat → Nat

/-- Payloads of the parameter sets by NAL unit type, and of the slice: their syntax is that of HEVC. -/
opaque proxySet : Nat → ProxySeq → List Byte
opaque proxySlice : ProxyPicture → List Byte

/-- How a Y′CbCr code of R212 lies to the exact value, from which it differs by at most 1: packed R′G′B′ and plane. -/
opaque proxyRound : Nat → Nat → Nat

/-- A FREE VALUE: whether a coefficient of R125 is rounded down or up to signed 2.14 (the rule does not say): from, to, row, column;
only its parity is used. -/
opaque primariesRound : Nat → Nat → Nat → Nat → Nat

/-- Bytes that admission counts for a frame of a coded source (Table 3-5: source bytes per frame): width, height. -/
opaque codedFrameBytes : Nat → Nat → Nat

/-- What a neighbour on the peer ring holds of a layer: `WALLTIME`, peer port and layer number to its layer record, then the first row
and the rows of its region. R126 has admission compare with it, and no message of the fold carries it. -/
opaque neighbourLayer : Nat → Nat → Nat → List Byte

/-- What a raw frame buffer's byte in an uncorrectable codeword reads as to the input stage (R416; chapter 5 says nothing of
it): device address. -/
opaque poisonByte : Nat → Byte

/-- Device address of a drover's running row list (Table 9-16; R239 does not place the parts of a map image): contract, frame,
port, row. -/
opaque rowListAddr : Nat → Nat → Nat → Nat → Nat

/-- One step of an LFSR whose taps the spec does not give (R410, R491). -/
opaque lfsrStep : Word → Word

end Config

end Sys2Proof
end

