-- ==== Sys2Proof/Machine/Map.lean ====
section
/-! DEFINITION. The one sparse container of the state: a list of (number, value) pairs in canonical form, numbers
strictly rising and no value equal to what an unlisted number reads as, so that equal contents are equal data. Device
DRAM (R401), the register file and every array of units use it. -/

namespace Sys2Proof.Machine

/-- Sparse array: (number, value) pairs. -/
abbrev Map (α : Type) := List (Nat × α)

/-- The value at a number; `d` is what an unlisted number reads as. -/
def mget {α : Type} (d : α) : Map α → Nat → α
  | [], _ => d
  | (k, v) :: m, i => if i = k then v else mget d m i

/-- The listed value at a number, if any. -/
def mfind {α : Type} : Map α → Nat → Option α
  | [], _ => none
  | (k, v) :: m, i => if i = k then some v else mfind m i

/-- Remove a number from a list. -/
def merase {α : Type} : Map α → Nat → Map α
  | [], _ => []
  | (k, v) :: m, i => if i = k then merase m i else (k, v) :: merase m i

/-- Insert or replace a pair in a rising list. -/
def minsert {α : Type} : Map α → Nat → α → Map α
  | [], i, x => [(i, x)]
  | (k, v) :: m, i, x =>
    if i = k then (i, x) :: m else if i < k then (i, x) :: (k, v) :: m else (k, v) :: minsert m i x

/-- Write a value: writing what an unlisted number reads as removes the entry. -/
def mset {α : Type} [DecidableEq α] (d : α) (m : Map α) (i : Nat) (x : α) : Map α :=
  if x = d then merase m i else minsert m i x

/-- Apply a function to the value at a number. -/
def mmod {α : Type} [DecidableEq α] (d : α) (m : Map α) (i : Nat) (f : α → α) : Map α :=
  mset d m i (f (mget d m i))

/-- Every number of the list is above `lo` and the numbers rise strictly. -/
def risingFrom {α : Type} : Nat → Map α → Bool
  | _, [] => true
  | lo, (k, _) :: m => decide (lo ≤ k) && risingFrom (k + 1) m

/-- The canonical form: numbers strictly rising, no listed value equal to the default. -/
def mwf {α : Type} [DecidableEq α] (d : α) (m : Map α) : Bool :=
  risingFrom 0 m && m.all fun p => decide (p.2 ≠ d)

end Sys2Proof.Machine
end

