-- ==== Sys2Proof/Machine/State.lean ====
section
/-! DEFINITION. The state of the module as plain data, block by block, and the state after reset. Registers of type
RW, W1C and WO live in `regs` at their window offset (chapter 22); RO registers are views computed from the blocks
(Regs.lean). Arrays of units are sparse maps whose unlisted units read as the default of their structure, which is the
unit's state after reset. -/

namespace Sys2Proof.Machine

/-- Why the machine stops with a fault. No command of the block faults. -/
inductive Fault where
  /-- Raised by nobody: the spec gives every command an effect (safe: it can only stop more). -/
  | unreachable
  deriving DecidableEq, Repr

/-- Why a command has no meaning. -/
inductive Refusal where
  /-- Raised by exec for a command whose meaning is not written (safe). -/
  | notModelled (mnemonic : String)
  deriving DecidableEq, Repr

/-! ## Commands in flight and completions (chapter 15) -/

/-- A command in flight: its ring, the completion ring its ring named (R385), its tag and `URGENT_CPL` (Table 15-2). -/
structure CmdRef where
  sq : Nat := 0
  cq : Nat := 0
  cid : Nat := 0
  urgent : Bool := false
  /-- a submit (R382, R383) and its stream -/
  submit : Option Nat := none
  /-- tick at which the descriptor was fetched (Table 20-2) -/
  at_ : Nat := 0
  deriving DecidableEq, Repr

/-- A completion (Table 15-3). `SQ_HEAD` is filled when it is written (R377), unless `head` names a failed slot (R384).
`ref` is the command that stays in flight until then (R383). -/
structure Completion where
  cq : Nat := 0
  r0 : Dword := 0
  r1 : Dword := 0
  r2 : Dword := 0
  cid : Nat := 0
  sqId : Nat := 0
  status : Nat := 0
  kind : Nat := 0
  urgent : Bool := false
  head : Option Nat := none
  ref : Option CmdRef := none
  /-- the contract of a deferred command: its frame is fixed when the completion is written (R21, R52) -/
  defer : Option Nat := none
  deriving DecidableEq, Repr

/-! ## Wall time (chapter 2) -/

/-- Time states (Table 2-5). -/
inductive TState where
  | acquire | locked | holdover | unlocked
  deriving DecidableEq, Repr

/-- `WT_STATE.ROLE` (Table 2-9). -/
inductive Role where
  | standalone | bellwether | member
  deriving DecidableEq, Repr

/-- An ANNOUNCE heard from a module (R31). -/
structure Heard where
  at_ : Nat := 0
  /-- the last ANNOUNCE that carried `CONTRACT_ACTIVE` (R18) -/
  lastActive : Option Nat := none
  nonce : Nat := 0
  priority : Nat := 0
  clkOk : Bool := false
  deriving DecidableEq, Repr

/-- A launch slot (Table 2-11, R23, R524). `next` is the frame a relative slot fires for next. -/
structure LSlot where
  time : Int := 0
  rel : Bool := false
  armed : Bool := false
  fired : Bool := false
  contract : Nat := 0
  unit : Nat := 0
  action : Nat := 0
  arg : Nat := 0
  next : Nat := 0
  /-- units that take the slot over (R13): from which frame, and the unit -/
  takeover : List (Nat × Nat) := []
  /-- new offsets of a relative slot with the frames they hold from (R21) -/
  moves : List (Nat × Int) := []
  /-- `WALLTIME` when the slot was armed after its fire tick had passed (R27) -/
  late : Option Nat := none
  ref : Option CmdRef := none
  deriving DecidableEq, Repr

/-- One peer port's time measurements (R33, R44). -/
structure PeerTime where
  t1 : Option Int := none
  samples : List Int := []
  lastHeard : Option Nat := none
  lastReq : Nat := 0
  deriving DecidableEq, Repr

/-- The wall-time unit. -/
structure WallTime where
  /-- ticks since power-good: the model's own clock for timers -/
  now : Nat := 0
  /-- `WALLTIME` (R17) -/
  wall : BitVec 64 := 0
  /-- `WALLTIME` before the last tick: the slots that the tick made due fire together (R22, R25) -/
  prev : BitVec 64 := 0
  /-- the 16-bit fraction (R17) -/
  frac : BitVec 16 := 0
  /-- slew still to apply, and the slew that the last SYNC asked for, 2^-16 tick (R35) -/
  slew : Int := 0
  slewSet : Int := 0
  tstate : TState := .locked
  role : Role := .standalone
  bellwether : Option Nat := none
  err : Int := 0
  nonce : Nat := 0
  dup : Bool := false
  heard : Map (Option Heard) := []
  lastSync : Option Nat := none
  holdSince : Nat := 0
  /-- consecutive SYNCs with |e| ≤ 0.32 tick, and with |e| > 1.6 ticks -/
  good : Nat := 0
  bad : Nat := 0
  /-- corrections applied with their time, 2^-16 tick (R28) -/
  corrections : List (Nat × Int) := []
  /-- when `CLK_NOT_COMMON` or a `PEER_DOWN` bit was last set (Table 18-7) -/
  lostAt : Option Nat := none
  peerE : PeerTime := {}
  peerW : PeerTime := {}
  /-- the last SYNC of the bellwether on each peer port: `HOPS` and time (R34) -/
  lastHops : Map (Option (Nat × Nat)) := []
  timeStep : Bool := false
  seqAnnounce : Nat := 0
  seqSync : Nat := 0
  seqReq : Nat := 0
  seqResp : Nat := 0
  lastAnnounce : Nat := 0
  lastSyncSent : Nat := 0
  slots : Map LSlot := []
  deriving DecidableEq, Repr

/-- A decoded picture (Table 4-10). `content` is its number in its stream; `cvs` and `order` give its place in output order;
`slot` is its picture slot. `conceal` and `cut` are its concealed CTUs, those of `cut` on account of a retired core (R101);
they show the samples of `under`, none for mid-grey. `blamed` marks a picture that only a retired core made CONCEALED. -/
structure Picture where
  content : Nat := 0
  data : PicData := {}
  under : Option PicData := none
  conceal : List Nat := []
  cut : List Nat := []
  ctu : Nat := 64
  cols : Nat := 0
  blamed : Bool := false
  /-- a frame of AV1 that has not been shown -/
  hidden : Bool := false
  cvs : Nat := 0
  order : Int := 0
  slot : Nat := 0
  width : Nat := 0
  height : Nat := 0
  chroma : Nat := 0
  depth : Nat := 8
  concealed : Bool := false
  standin : Bool := false
  grain : Bool := false
  midgrey : Bool := false
  decFrame : Nat := 0
  colour : BitVec 32 := 0
  mdcv : List Byte := []
  cll : BitVec 32 := 0
  grainBytes : List Byte := []
  maxLum : Nat := 0
  siting : Nat := 255
  available : Bool := false
  deriving DecidableEq, Repr

/-! ## Contracts (chapter 3) -/

/-- Contract states (Table 3-1). -/
inductive CState where
  | free | proposed | committed | running | draining
  deriving DecidableEq, Repr

/-- A layer record (Table 5-1). -/
structure Layer where
  src : Nat := 0
  en : Bool := false
  mirror : Bool := false
  rot : Nat := 0
  grainEn : Bool := false
  keyEn : Bool := false
  premul : Bool := false
  blend : Nat := 0
  hset : Nat := 0
  vset : Nat := 0
  cropX : Nat := 0
  cropY : Nat := 0
  cropW : Nat := 0
  cropH : Nat := 0
  dstX : Int := 0
  dstY : Int := 0
  dstW : Nat := 0
  dstH : Nat := 0
  galpha : Nat := 0
  transfer : Nat := 0
  primaries : Nat := 0
  matrix : Nat := 0
  range : Nat := 0
  sdrWhite : Nat := 0
  keyLo : List Nat := []
  keyHi : List Nat := []
  seam : Nat := 0
  edge : Nat := 0
  deriving DecidableEq, Repr

/-- A source record (Table 15-8). -/
structure Source where
  stream : Nat := 0
  chroma : Nat := 0
  depth : Nat := 0
  reorder : Nat := 0
  width : Nat := 0
  height : Nat := 0
  psrc : Nat := 0
  deriving DecidableEq, Repr

/-- An endpoint record (Table 15-9). -/
structure Endpoint where
  slot : Nat := 0
  port : Nat := 0
  ring : Bool := false
  sward : Bool := false
  xform : Bool := false
  tileX : Nat := 0
  tileY : Nat := 0
  tileW : Nat := 0
  tileH : Nat := 0
  depth : Nat := 0
  qiMax : Nat := 0
  qiInit : Nat := 0
  rfp : Nat := 0
  budget : Nat := 0
  deriving DecidableEq, Repr

/-- A row entry of a map image with its commands (Table 9-10, Table 9-9). -/
structure MapRow where
  prow : Nat := 0
  frames : Nat := 0
  payload : Nat := 0
  fetchPx : Nat := 0
  cmds : List (BitVec 128) := []
  deriving DecidableEq, Repr

/-- A map image (Table 9-10). -/
structure MapImage where
  slot : Nat := 0
  port : Nat := 0
  ring : Bool := false
  rows : List MapRow := []
  base : Nat := 0
  deriving DecidableEq, Repr

/-- What a deferred command changes at its frame boundary (R52). -/
inductive Change where
  | layout (layers : List Layer) (sources : List Source) (background : List Nat)
  | map (img : MapImage)
  | coef (slot : Nat)
  | drift (table : Nat)
  | curve (n : Nat)
  deriving DecidableEq, Repr

/-- A deferred command waiting for the boundary of `frame` (R21, R52). `wait` is its command until its completion is
written. A layout brings launch slots that it adds, new offsets of slots, and a new offset of the frame boundary (R59). -/
structure Deferred where
  change : Change
  frame : Nat := 0
  wait : Option CmdRef := none
  adds : List Nat := []
  moves : List (Nat × Int) := []
  early : Option Int := none
  deriving DecidableEq, Repr

/-- The decode window that admission gave a stream (R85, R86). -/
structure Window where
  stream : Nat := 0
  cores : List Nat := []
  shift : Nat := 0
  wd : Nat := 0
  deriving DecidableEq, Repr

/-- Availability counters of a contract (R460). They outlive the contract. -/
structure Avail where
  frames : Nat := 0
  breachDev : Nat := 0
  breachExt : Nat := 0
  late : Nat := 0
  deriving DecidableEq, Repr

/-- A correction record as stored (Table 6-1): per lamp nine coefficients, or the fallback for every lamp. -/
structure CorrRec where
  curve : Nat := 255
  drift : Nat := 255
  uniform : Bool := true
  fallback : List Int := []
  lamps : List (List Int) := []
  deriving DecidableEq, Repr

/-- What holds for one contract frame from its boundary on (R21, R52, R151): the layout, `CORR_CFG`, and by endpoint slot
the matrices, the gains and the map image; the curves. -/
structure FrameSet where
  frame : Nat := 0
  layers : List Layer := []
  sources : List Source := []
  background : List Nat := []
  corrCfg : Word := 0
  corr : Map (Option CorrRec) := []
  gains : Map (List Nat) := []
  curves : Map (Option (List Nat)) := []
  maps : Map (Option MapImage) := []
  deriving DecidableEq, Repr

/-- A paddock row in composition: its frame, its row within the region, and the slice of each paddock (R132). -/
structure RowJob where
  frame : Nat := 0
  row : Nat := 0
  deal : List Nat := []
  deriving DecidableEq, Repr

/-- A contract. -/
structure Contract where
  state : CState := .free
  t0 : Nat := 0
  pnum : Nat := 0
  pden : Nat := 1
  guard : Nat := 0
  latencyMax : Nat := 0
  regX : Nat := 0
  regY : Nat := 0
  regW : Nat := 0
  regH : Nat := 0
  background : List Nat := []
  layers : List Layer := []
  sources : List Source := []
  endpoints : List Endpoint := []
  /-- stage interval S, decode window Wd (R60) -/
  stage : Nat := 0
  wd : Nat := 0
  windows : List Window := []
  n0 : Nat := 0
  /-- a commit that waits for its rings (R298), with its choice of n0 -/
  commit : Option (CmdRef × Bool × Nat) := none
  nLast : Option Nat := none
  blankOut : Bool := false
  blankSent : Bool := false
  releases : List CmdRef := []
  deferred : List Deferred := []
  maps : Map (Option MapImage) := []
  /-- the frames that are on their way, with what holds for each -/
  sets : List FrameSet := []
  /-- the frame whose boundary fired last -/
  frame : Option Nat := none
  /-- the next frame whose launch tick has not been counted (R460) -/
  nextLaunch : Nat := 0
  /-- the raw buffer or picture that each stream shows in a contract frame (R110); key 2 × stream + parity of the frame -/
  selected : Map (Option Nat) := []
  selPics : Map (Option Picture) := []
  /-- contract frames for which each stream has shown the same frame (R11) -/
  repeats : Map Nat := []
  /-- the newest frame whose sources have been selected, and the streams that R111 has moved to another frame in it -/
  selFrame : Option Nat := none
  lateMarked : List Nat := []
  /-- seam strips that are used (R128): frame, row, layer, peer port -/
  strips : List (Nat × Nat × Nat × Nat) := []
  /-- paddocks that a retired slice left unfinished (R134): frame, row, column of the region -/
  heldPads : List (Nat × Nat × Nat) := []
  /-- row-written flags: frame and paddock row (Table 1-3) -/
  rowsWritten : List (Nat × Nat) := []
  /-- rows in composition -/
  rowsComposing : List RowJob := []
  /-- the slices over which the newest selected frame deals its paddocks (R134) -/
  deal : List Nat := []
  /-- frames in breach, frames whose PRESENT left, with the port (R3) -/
  breached : List (Nat × Bool) := []
  presented : List (Nat × Nat) := []
  /-- frames and ports whose guard point has passed (R40) -/
  guarded : List (Nat × Nat) := []
  /-- class-0 data lost on a port: frame, port, endpoint slot, and the range of it (R3, R40): stripes, or pixels in the native
  order of a raw endpoint (R530), first and count -/
  lost : List (Nat × Nat × Nat × Nat × Nat) := []
  /-- stripes that left a port: frame, port, endpoint slot, stripe (R195) -/
  sent : List (Nat × Nat × Nat × Nat) := []
  /-- stripes reported lost on a port: frame, port, endpoint slot, stripe (R195) -/
  unsent : List (Nat × Nat × Nat × Nat) := []
  deriving DecidableEq, Repr

/-! ## Streams and decoding (chapters 4 and 5) -/

/-- Stream states (Table 3-2). -/
inductive SState where
  | closed | open_ | flushing
  deriving DecidableEq, Repr

/-- How far the fetch of a unit has come (R78). -/
inductive UnitPhase where
  | waiting | fetching | complete | decoding
  deriving DecidableEq, Repr

/-- A submitted access or temporal unit (R78). `bad` is a status that its fetch already fixed (R92). -/
structure Au where
  ref : CmdRef := {}
  bytes : Nat := 0
  addr : Nat := 0
  sgl : Bool := false
  eos : Bool := false
  phase : UnitPhase := .waiting
  rap : Bool := false
  bad : Nat := 0
  decFrame : Nat := 0
  /-- the fetched bytes and what their headers say -/
  data : List Byte := []
  info : UnitInfo := {}
  /-- the cores that decode it, and those of them that were retired (R101) -/
  cores : List Nat := []
  cut : List Nat := []
  /-- the second picture of a pair, with the order count of the first (R88) -/
  second : Option Int := none
  deriving DecidableEq, Repr

/-- A raw submit in flight (R109, R111). -/
structure RawSubmit where
  ref : CmdRef := {}
  tag : Nat := 0
  slice : Option Nat := none
  bytes : Nat := 0
  addr : Nat := 0
  sgl : Bool := false
  /-- the frame buffer being filled, once one was free -/
  buf : Option Nat := none
  deriving DecidableEq, Repr

/-- A raw frame buffer (R109). `seq` orders completed frames, `slices` lists the slices that have arrived. -/
structure RawBuf where
  held : Bool := false
  tag : Nat := 0
  complete : Bool := false
  sliced : Bool := false
  slices : List Nat := []
  seq : Nat := 0
  deriving DecidableEq, Repr

/-- A stream object. -/
structure Stream where
  state : SState := .closed
  codec : Codec := .raw
  opPoint : Nat := 0
  record : StreamRec := {}
  /-- the sequence in force, and the configuration record with the units that carried parameter sets (R77) -/
  seq : StreamRec := {}
  sets : List (List Byte) := []
  ibufBytes : Nat := 0
  ibufUsed : Nat := 0
  ibufAddr : Nat := 0
  storeAddr : Nat := 0
  rawFmt : Nat := 0
  width : Nat := 0
  height : Nat := 0
  stride : Nat := 0
  units : List Au := []
  submits : Nat := 0
  pictures : List Picture := []
  /-- the newest picture that the input stage may take (R89) -/
  shown : Option Picture := none
  concealing : Bool := false
  /-- pictures are marked CONCEALED on account of a retired core (R102) -/
  blaming : Bool := false
  unsupported : Bool := false
  needRap : Bool := true
  /-- RASL units are not decoded, and pictures before this order count are marked (R95) -/
  skipRasl : Bool := false
  recovery : Option Int := none
  /-- pictures decoded, and consecutive windows without one (R11) -/
  picCount : Nat := 0
  idleWins : Nat := 0
  pictureDone : Bool := true
  cvs : Nat := 0
  bufs : Map RawBuf := []
  newest : Option Nat := none
  abandoned : Option Nat := none
  rawQueue : List RawSubmit := []
  frameSeq : Nat := 0
  closes : List CmdRef := []
  /-- the contract that named the stream first (R85) -/
  owner : Option Nat := none
  deriving DecidableEq, Repr

/-- Role of a core or slice (Tables 4-12, 5-7, 8-4). -/
inductive URole where
  | active | spare | retired
  deriving DecidableEq, Repr

/-- A decode core (Table 4-11). `repair` is the work it re-decodes after a takeover (R102). -/
structure DecCore where
  role : URole := .active
  act : Nat := 0
  stream : Option Nat := none
  repair : Option Nat := none
  deriving DecidableEq, Repr

/-! ## Composition and correction (chapters 5 and 6) -/

/-- A seam frame received for a row (Table 5-6). -/
structure Seam where
  port : Nat := 0
  layer : Nat := 0
  contract : Nat := 0
  row : Nat := 0
  firstRow : Nat := 0
  rows : Nat := 0
  tag : Nat := 0
  frame : Nat := 0
  samples : List Byte := []
  deriving DecidableEq, Repr

/-- A compositor slice. -/
structure Slice where
  role : URole := .active
  act : Nat := 0
  queued : Nat := 0
  deriving DecidableEq, Repr

/-- The composition block. `taps` holds the loaded scaler phases: set, axis and phase to eight taps (R117), and
`loaded` the committed phases of each half (R118). -/
structure Compose where
  slices : Map Slice := []
  taps : Map (List Int) := []
  loaded : Map (BitVec 64) := []
  canvasBase0 : Nat := 0
  canvasBase1 : Nat := 0
  seams : List Seam := []
  /-- launch slots whose step waits for a flag (R12), with the slot as it fired -/
  waits : List (Nat × LSlot) := []
  deriving DecidableEq, Repr

/-- The two coefficient stores of an endpoint (R146): the one in force is the upper one where `upper` holds. -/
structure CoefStore where
  inForce : Option CorrRec := none
  pending : Option CorrRec := none
  base : Nat := 0
  upper : Bool := false
  deriving DecidableEq, Repr

/-- Drift state of an endpoint (R150). -/
structure EpDrift where
  temp : Option Int := none
  /-- the newest reading with the tick it came at; it counts for the boundaries after that tick -/
  newest : Option (Int × Nat) := none
  lastValid : Nat := 0
  stale : Bool := false
  /-- the newest reading ended a stale period -/
  ended : Bool := false
  /-- the temperature that the gains in force were taken at -/
  used : Int := 0
  gains : List Nat := []
  deriving DecidableEq, Repr

/-- A table with its waiting successor (R148, R149). -/
structure Slot2 where
  inForce : Option (List Nat) := none
  waiting : Option (List Nat) := none
  deriving DecidableEq, Repr

/-- The correction unit. Keys: coef 16,384 × contract + slot; curves 4 × contract + n; drifts 8 × contract + n. -/
structure Correct where
  coefs : Map CoefStore := []
  curves : Map Slot2 := []
  drifts : Map Slot2 := []
  eps : Map EpDrift := []
  deriving DecidableEq, Repr

/-! ## Sward encoder and proxy (chapter 8) -/

/-- A stripe to code: contract, frame, endpoint slot, stripe index. -/
structure StripeJob where
  contract : Nat := 0
  frame : Nat := 0
  slot : Nat := 0
  k : Nat := 0
  /-- first and last stripe of the endpoint within the run (R198) -/
  lo : Nat := 0
  hi : Nat := 0
  /-- ports whose ring has granted the claim -/
  claimed : List Nat := []
  /-- its credit wait has been reported -/
  waited : Bool := false
  /-- fixed at the stripe's start (R195-R197): coded intra, coded for a mark, one of its own REF rows is poisoned -/
  intra : Bool := false
  repair : Bool := false
  refBad : Bool := false
  /-- never coded: its entry is written as absent (R290) -/
  absent : Bool := false
  deriving DecidableEq, Repr

/-- An encoder core (Table 8-3). -/
structure EncCore where
  role : URole := .active
  act : Nat := 0
  jobs : List StripeJob := []
  /-- the last stripe coded and its vectors: candidate 3 of R201 -/
  lastVec : Option (Nat × List (Option (Int × Int))) := none
  copying : List StripeJob := []
  standsFor : Option Nat := none
  deriving DecidableEq, Repr

/-- Coding state of a Sward endpoint (R193). -/
structure EpCode where
  recBase0 : Nat := 0
  recBase1 : Nat := 0
  stateBase : Nat := 0
  endInter : Map (Option Nat) := []
  endIntra : Map (Option Nat) := []
  marks : List Nat := []
  copyMarks : List Nat := []
  /-- last vectors: key 2048 × stripe + column -/
  vectors : Map (Int × Int) := []
  deriving DecidableEq, Repr

/-- The encoder block; `codes` is keyed by endpoint slot, `stat` by 2 × contract + parity (R207). -/
structure Enc where
  cores : Map EncCore := []
  codes : Map EpCode := []
  stat : Map Nat := []
  deriving DecidableEq, Repr

/-- Proxy states (Table 8-9). -/
inductive PState where
  | stopped | running | stopping
  deriving DecidableEq, Repr

/-- A capture (R212): the contract frame and its samples. -/
structure Capture where
  frame : Nat := 0
  planes : ProxyPlanes := {}
  deriving DecidableEq, Repr

/-- The proxy encoder (8.9). -/
structure Proxy where
  state : PState := .stopped
  contract : Nat := 0
  fx : Nat := 1
  fy : Nat := 1
  rateDiv : Nat := 1
  /-- `PNUM` and `PDEN` of the contract -/
  pnum : Nat := 1
  pden : Nat := 1
  rcMode : Nat := 0
  qp : Nat := 0
  bitrate : Nat := 0
  cpbBits : Nat := 0
  idrPeriod : Nat := 0
  cq : Nat := 0
  x : Nat := 0
  y : Nat := 0
  w : Nat := 0
  h : Nat := 0
  outAddr : Nat := 0
  outBytes : Nat := 0
  wptr : Nat := 0
  /-- AUs in the output buffer not yet consumed: offset, length, completion-ring position -/
  used : List (Nat × Nat × Nat) := []
  /-- frames whose last paddock row is written and whose capture has not begun, and frames captured and waiting to be
  coded, at most two (R212) -/
  due : List Nat := []
  captures : List Capture := []
  ref : CmdRef := {}
  stopRefs : List CmdRef := []
  endStatus : Nat := 0
  /-- pictures delivered since the last IDR picture, that one included -/
  sinceIdr : Nat := 0
  needIdr : Bool := true
  /-- fullness of the modelled CPB after the last picture, 1/(160,000,000 × `PDEN`) bit, and that picture's frame (R215) -/
  cpb : Nat := 0
  cpbFrame : Option Nat := none
  /-- QP of the last picture (R215), and the delivered picture that serves as the reference (R213) -/
  lastQp : Option Nat := none
  refPic : Nat := 0
  lut : Map (BitVec 10) := []
  deriving DecidableEq, Repr

/-! ## Drovers (chapter 9) -/

/-- Activity of a drover (Table 9-17). -/
inductive DAct where
  | idle | run | wait | stall | halted
  deriving DecidableEq, Repr

/-- A row list in the ready set (R240), with its own command index and committed `PROG` (R245). -/
structure RowList where
  contract : Nat := 0
  frame : Nat := 0
  row : Nat := 0
  startTick : Nat := 0
  deadline : Nat := 0
  idx : Nat := 0
  prog : Word := 0
  restarts : Nat := 0
  restarted : Bool := false
  overrun : Bool := false
  deriving DecidableEq, Repr

/-- The committed counters of an endpoint and row (R241). -/
structure Declared where
  frames : Nat := 0
  bytes : Nat := 0
  fetchPx : Nat := 0
  deriving DecidableEq, Repr

/-- The register file and sequencer of a drover (Tables 9-2 and 9-4). -/
structure DReg where
  v : Map Word := []
  lc0 : BitVec 16 := 0
  lc1 : BitVec 16 := 0
  fpos : Word := 0
  frect : Word := 0
  pbi : Word := 0
  sidx : Word := 0
  z : Bool := false
  n : Bool := false
  c : Bool := false
  stack : List Nat := []
  pc : Nat := 0
  staged : Option Word := none
  steps : Nat := 0
  deriving DecidableEq, Repr

/-- A drover. -/
structure Drover where
  act : DAct := .idle
  store : Map (BitVec 128) := []
  disp : Map (BitVec 16) := []
  ready : List RowList := []
  /-- the running row list (its key contract, frame, row) and its command -/
  running : Option (Nat × Nat × Nat) := none
  cmd : BitVec 128 := 0
  reg : DReg := {}
  /-- pixel buffer of the last FETCH: width, height, pixels (R230) -/
  pbW : Nat := 0
  pbH : Nat := 0
  pb : List (List Nat) := []
  /-- pixels of it that have been delivered, in index order (R230) -/
  pbDone : Nat := 0
  /-- the open frame (R234) -/
  open_ : Bool := false
  frame : List Byte := []
  /-- learning lookup of the command: returned, hit, slot, MAC (R236) -/
  lkDone : Bool := false
  lkMac : Option Nat := none
  /-- working and committed read offsets per stripe (R237): key 4096 × (16384 × frame + slot) + k; and the counters of
  R241: key 4096 × (16384 × frame + slot) + canvas paddock row -/
  offs : Map Nat := []
  offsC : Map Nat := []
  decl : Map Declared := []
  declW : Map Declared := []
  /-- stripes that the open frame moved bytes of: endpoint slot, stripe -/
  moved : List (Nat × Nat) := []
  csErr : Word := 0
  deriving DecidableEq, Repr

/-! ## Egress (chapters 10 to 12) -/

/-- Where a queued frame came from, and what is freed when it goes. -/
inductive FrameSrc where
  | port
  | drover (words : Nat)
  | buffer (pool : Nat) (handle : Nat)
  deriving DecidableEq, Repr

/-- A frame held for a port. -/
structure Frame where
  bytes : List Byte := []
  cls : Nat := 0
  queue : Nat := 0
  src : FrameSrc := .port
  contract : Option Nat := none
  frame : Nat := 0
  enq : Nat := 0
  msg : Option Nat := none
  stripes : List (Nat × Nat) := []
  built : Nat := 0
  /-- leaves after at most the frame in transmission (R309, R479) -/
  first : Bool := false
  /-- receipt of the DELAY_REQ that a DELAY_RESP answers, 2^-16 tick (R265) -/
  t2 : Option Int := none
  deriving DecidableEq, Repr

/-- The state of one queue on one port (R307, R312, R314, R315). Tokens count 1/12,800 B, what 100 kbit/s bring in a tick. -/
structure QState where
  frames : List Frame := []
  s : BitVec 32 := 0
  f : BitVec 32 := 0
  shpTokens : Nat := 0
  shpAt : Nat := 0
  polTokens : Nat := 9236 * 12800
  polAt : Nat := 0
  deriving DecidableEq, Repr

/-- An egress port. Pointers of the assembly FIFO count words of 16 B (R291); urgent tokens count 1/12,800 B. -/
structure Port where
  blockLock : Bool := false
  fecAlign : Bool := false
  linkUp : Bool := false
  portQ : List Frame := []
  class0 : List Frame := []
  queues : Map QState := []
  v : BitVec 32 := 0
  current : Option Frame := none
  builtRun : Nat := 0
  /-- frames sent per TYPE (Table 10-2, SEQ) -/
  seqs : Map Nat := []
  dreqCount : Nat := 0
  dreqSecond : Nat := 0
  urgTokens : Nat := 18472 * 12800
  urgAt : Nat := 0
  lastBeacon : Nat := 0
  asmWork : Nat := 0
  asmCommit : Nat := 0
  asmRead : Nat := 0
  asmUsed : Nat := 0
  deriving DecidableEq, Repr

/-- A message command whose copies are queued (R394). -/
structure Message where
  ref : CmdRef := {}
  id : Nat := 0
  left : BitVec 32 := 0
  pending : Nat := 0
  policed : Bool := false
  dropped : Bool := false
  deriving DecidableEq, Repr

/-- A message that waits for a buffer (R301) or for its release (R395). -/
structure HeldMsg where
  ref : CmdRef := {}
  id : Nat := 0
  region : Bool := false
  slot : Nat := 0
  type : Nat := 0
  op : Nat := 0
  flags : Nat := 0
  urgent : Bool := false
  wca : Nat := 0
  plen : Nat := 255
  off : Nat := 0
  total : Nat := 0
  /-- bytes of its payload, and the payload once it has been read (R301) -/
  bytes : Nat := 0
  payload : List Byte := []
  since : Nat := 0
  /-- the pool buffer of a message held for its release: pool, handle (R301) -/
  buf : Option (Nat × Nat) := none
  hold : Bool := false
  /-- the owner its buffer is charged to (R299) -/
  owner : Nat := 0
  deriving DecidableEq, Repr

/-- Port-independent egress state. -/
structure Egress where
  ports : Map Port := []
  msgs : Map Message := []
  held : List HeldMsg := []
  waiting : List HeldMsg := []
  nextMsg : Nat := 0
  deriving DecidableEq, Repr

/-- Configuration of a queue (Table 12-5). The default weight depends on the class (Table 12-3). -/
structure QCfg where
  w : Nat
  shpRate : Nat := 0
  shpBurst : Nat := 9236
  polRate : Nat := 0
  polBurst : Nat := 9236
  deriving DecidableEq, Repr

/-- An entry of a coded-stripe ring (Table 11-2) with the stripe's bytes. -/
structure Entry where
  slot : Nat := 0
  sidx : Nat := 0
  frame : Nat := 0
  length : Nat := 0
  complete : Bool := false
  absent : Bool := false
  poison : Bool := false
  bytes : List Byte := []
  deriving DecidableEq, Repr

/-- A coded-stripe ring (R284). `owner` gives the (frame, slot, stripe) that holds a granule; `entries` are keyed by
their first granule. -/
structure CRing where
  z : Nat := 0
  built : Bool := false
  owner : Map (Option (Nat × Nat × Nat)) := []
  entries : Map (Option Entry) := []
  lost : List (Nat × Nat × Nat) := []
  bufs : List Nat := []
  deriving DecidableEq, Repr

/-- A buffer of a pool (R302). -/
structure PBuf where
  refs : Nat := 0
  owner : Nat := 0
  deriving DecidableEq, Repr

/-- A buffer pool (R297, R303). `used` counts the buffers charged to an owner; `rings` those held by rings. -/
structure Pool where
  cache : Nat := 1024
  bufs : Map PBuf := []
  used : Map Nat := []
  rings : Nat := 0
  level : Nat := 0
  deriving DecidableEq, Repr

/-- FIFOs and pools (chapter 11); rings are keyed by 32 × contract + port. -/
structure Buffers where
  rings : Map CRing := []
  poolA : Pool := {}
  poolB : Pool := {}
  poolC : Pool := {}
  extra : Nat := 0
  /-- `POOL_RSV` of owners whose value is not the reset value of R299 -/
  rsv : Map (Option Word) := []
  /-- reserves that a write has lowered and whose buffers are still in use (R299): key 128 × pool + owner -/
  rsvHeld : Map Nat := []
  deriving DecidableEq, Repr

/-! ## Tables (chapter 13) -/

/-- A learning-table entry (Table 13-1). -/
structure TEntry where
  valid : Bool := false
  mac : Nat := 0
  kind : Nat := 0
  slot : Option Nat := none
  port : Nat := 0
  lastPort : Nat := 0
  module : Nat := 0
  hit : Bool := false
  seenClear : Bool := false
  pinned : Bool := false
  deferred : Bool := false
  moves : Nat := 0
  winStart : Nat := 0
  deriving DecidableEq, Repr

/-- A learn event (R326). -/
inductive LearnEv where
  | telemetry (mac slot port tick : Nat)
  | notice (op mac module port : Nat)
  | learn (ref : CmdRef) (mac slot port : Nat)
  | remove (ref : CmdRef) (mac : Nat)
  deriving DecidableEq, Repr

/-- A learn event in the queue, with its receipt tick and its place among events of one tick: ports 0-31, peer ports 32
and 33, commands 34 (R326). -/
structure QLearn where
  at_ : Nat := 0
  rank : Nat := 0
  ev : LearnEv
  deriving DecidableEq, Repr

/-- A prefix of the trie (R333). -/
structure Prefix where
  wca : Nat := 0
  len : Nat := 0
  mask : BitVec 32 := 0
  deriving DecidableEq, Repr

/-- A table command held behind an audit (R336). -/
inductive HeldTbl where
  | ev (e : LearnEv)
  | lpm (ref : CmdRef) (delete : Bool) (p : Prefix)
  deriving DecidableEq, Repr

/-- A running audit (R336). -/
structure Audit where
  ref : CmdRef := {}
  prefixes : Bool := false
  statics : Bool := false
  repair : Bool := false
  records : List (List Byte) := []
  report : Nat := 0
  reportBytes : Nat := 0
  deriving DecidableEq, Repr

/-- The endpoint tables. `badNodes` are trie nodes with an uncorrectable error (R338): stage and index. -/
structure Tables where
  entries : Map TEntry := []
  queue : List QLearn := []
  sweep : Nat := 0
  /-- time of the sweeper's next visit, 1/16 tick (R331) -/
  visitAt : Nat := 0
  prefixes : List Prefix := []
  badNodes : List (Nat × Nat) := []
  audit : Option Audit := none
  held : List HeldTbl := []
  /-- ADD notices still to be spread (R335): entry indices -/
  spread : List Nat := []
  seqNotice : Nat := 0
  /-- static entries and prefixes in the firmware's copy (R451) -/
  fwStatic : List (Nat × Nat × Nat) := []
  fwPrefixes : List Prefix := []
  deriving DecidableEq, Repr

/-- A peer port (R519). `wire` holds the fold frames sent, oldest first: the model has no command for their receipt by the
neighbour, so they stay listed until the link goes down. -/
structure Peer where
  linkUp : Bool := false
  lanes : BitVec 4 := 0
  fec : Bool := false
  wire : List (List Byte) := []
  deriving DecidableEq, Repr

/-! ## The Birset link (chapter 14) -/

/-- Link states (Table 14-9). -/
inductive LState where
  | down | train | active | recovery | degraded
  deriving DecidableEq, Repr

/-- A transaction (Table 14-4). -/
inductive Txn where
  | mrd (tag addr len : Nat)
  | mwr (addr : Nat) (bytes : List Byte)
  | cpl (tag : Nat) (status : Nat) (last : Bool) (off : Nat) (bytes : List Byte)
  deriving DecidableEq, Repr

/-- The engine that waits for a module read (R359). -/
inductive ReadFor where
  | descriptors (ring first count : Nat)
  /-- part idx of the piece on a DMA channel: bytes to drop before the wanted ones, wanted bytes (R428, R431) -/
  | piece (chan idx skip take : Nat)
  /-- the flushing read of a barrier (R434): transfer -/
  | barrier (xfer : Nat)
  /-- nobody waits any more -/
  | engine
  deriving DecidableEq, Repr

/-- A module read in flight (R356, R359). -/
structure MRead where
  for_ : ReadFor := .engine
  addr : Nat := 0
  len : Nat := 0
  at_ : Nat := 0
  host : Bool := false
  poison : Bool := false
  data : List Byte := []
  /-- offset at which the next CPL begins, and whether a CPL without data came (R356) -/
  next : Nat := 0
  hole : Bool := false
  deriving DecidableEq, Repr

/-- What the adapter's last management flit of TRAIN said (Table 14-7). -/
structure PeerMgmt where
  state : Nat := 0
  good : BitVec 4 := 0
  set : BitVec 4 := 0
  epoch : Word := 0
  limMrd : Nat := 0
  limMwr : Nat := 0
  deriving DecidableEq, Repr

/-- The Birset link. -/
structure Link where
  lstate : LState := .down
  since : Nat := 0
  /-- lanes locked and deskewed at the module (R363), lanes good at both ends, lane set in use -/
  lanesMod : BitVec 4 := 0
  lanesGood : BitVec 4 := 0
  lanesUsed : BitVec 4 := 0
  /-- in TRAIN: the adapter's last management flit, and how many showed the module's set in RUN without a break -/
  peer : Option PeerMgmt := none
  peerRun : Nat := 0
  epochHost : Word := 0
  epochMod : Word := 0
  /-- the adapter's epoch the module last held across DOWN (R365) -/
  epochHeld : Option Word := none
  slot : Nat := 0
  lastMgmt : Nat := 0
  /-- next DATA sequence number; last one acknowledged -/
  seq : Nat := 0
  acked : Nat := 4095
  replay : List (Nat × List Byte) := []
  /-- DATA flits of the replay buffer still to be resent -/
  resend : List (Nat × List Byte) := []
  resends : Nat := 0
  ackSlot : Nat := 0
  /-- receiver: expected number E, NAK to send, NAK outstanding -/
  expect : Nat := 0
  nak : Bool := false
  nakSent : Bool := false
  limMrd : Nat := 0
  limMwr : Nat := 0
  usedMrd : BitVec 32 := 0
  usedMwr : BitVec 32 := 0
  retMrd : BitVec 32 := 0
  retMwr : BitVec 32 := 0
  /-- credits the module returns: cumulative, and not yet sent in CCNT -/
  giveMrd : BitVec 32 := 0
  giveMwr : BitVec 32 := 0
  oweMrd : Nat := 0
  oweMwr : Nat := 0
  /-- transactions to send, and the bytes of the one being sent -/
  txq : List Txn := []
  txPart : List Byte := []
  /-- the transaction that `txPart` belongs to -/
  txCur : Option Txn := none
  rxPart : List Byte := []
  /-- received transactions not yet handled, host MRD tags busy -/
  rxq : List Txn := []
  hostTags : List Nat := []
  reads : Map (Option MRead) := []
  quarantine : Map (Option Nat) := []
  flit : List Byte := []
  /-- level of `READY` and when it last rose (R367) -/
  ready : Bool := false
  readyAt : Nat := 0
  deriving DecidableEq, Repr

/-! ## Rings (chapter 15) -/

/-- A submission ring. -/
structure Sq where
  baseLo : Word := 0
  baseHi : Word := 0
  cfg : Word := 0
  fetch : Nat := 0
  tail : Nat := 0
  err : Bool := false
  held : Option Desc := none
  fenced : Option Desc := none
  deriving DecidableEq, Repr

/-- A completion ring. `pend` are the entries written and not covered by the head: time written and `URGENT_CPL`. -/
structure Cq where
  baseLo : Word := 0
  baseHi : Word := 0
  cfg : Word := 0
  coal : Word := 1
  tail : Nat := 0
  head : Nat := 0
  phase : Bool := true
  full : Bool := false
  pend : List (Nat × Bool) := []
  deriving DecidableEq, Repr

/-- A telemetry frame in the host buffer (R388): offset, bytes, completion's CQ position. -/
structure TlmUse where
  off : Nat := 0
  len : Nat := 0
  pos : Nat := 0
  deriving DecidableEq, Repr

/-- A descriptor that has been fetched and has not started (R381): ring, completion ring, descriptor, tick. -/
structure Fetched where
  sq : Nat
  cq : Nat
  d : Desc
  at_ : Nat
  deriving DecidableEq, Repr

/-- The ring engine. -/
structure Rings where
  sqs : Map Sq := []
  cqs : Map Cq := []
  /-- descriptors fetched and not yet started, in fetch order (R381) -/
  fetched : List Fetched := []
  inflight : List CmdRef := []
  waiting : List Completion := []
  /-- position in the class cycle and the last ring served per class (R380) -/
  cyc : Nat := 0
  last : Map Nat := []
  tlmPtr : Nat := 0
  tlmUsed : List TlmUse := []
  deriving DecidableEq, Repr

/-! ## Memory and DMA (chapters 16 and 17) -/

/-- A DRAM channel. -/
structure Channel where
  linkEcc : Nat := 0
  outer : Nat := 0
  ue : Nat := 0
  pins : BitVec 16 := 0
  tap0 : Int := 0
  tap1 : Int := 0
  /-- trained (R404): the taps of each lane's read and write sweep that it was set to, and its eye width -/
  trained : Bool := false
  rd0 : Nat := 0
  wr0 : Nat := 0
  rd1 : Nat := 0
  wr1 : Nat := 0
  width0 : Nat := 0
  width1 : Nat := 0
  limit0 : Bool := false
  limit1 : Bool := false
  fastRefresh : Bool := false
  /-- last all-bank refresh and last read of MR4 (R409) -/
  refAt : Nat := 0
  mr4At : Nat := 0
  lfsr : Word := 0
  /-- banks marked for RFM (R410) -/
  rfm : BitVec 16 := 0
  /-- open row of a bank (R408) -/
  rows : Map (Option Nat) := []
  /-- corrections per pin within the last second (R415): time and pin -/
  corr : List (Nat × Nat) := []
  /-- cached check lines, most recent first (R414) -/
  cache : List Nat := []
  /-- arbiter: waiting requests in order of arrival, holder, last port granted per rank, preempted ports -/
  queue : List MemReq := []
  arrived : List (Nat × Nat) := []
  holder : Option MemReq := none
  /-- bursts of the transfer still allowed (R419) -/
  left : Nat := 0
  lastPort : Map Nat := []
  preempted : List Nat := []
  hints : Map (Option Nat) := []
  deriving DecidableEq, Repr

/-- Memory. `dram` lists device bytes that differ from 0 (entry 8 of the log). -/
structure Mem where
  dram : Map Byte := []
  channels : Map Channel := []
  trained : Bool := false
  trainFail : Bool := false
  attempts : Nat := 0
  lastUe : Nat := 0
  patrolPos : Nat := 0
  patrolRun : Bool := false
  patrolStart : Nat := 0
  /-- codewords that hold an uncorrectable error: their numbers -/
  bad : List Nat := []
  rank45 : Nat := 2
  rank46 : Nat := 2
  waits : Map Nat := []
  /-- DRAM objects placed by the firmware: address, bytes (R403) -/
  placed : List (Nat × Nat) := []
  scratch : Nat := 0
  deriving DecidableEq, Repr

/-- A piece of a transfer (R428): transfer number, offset, bytes. -/
structure Piece where
  xfer : Nat := 0
  off : Nat := 0
  len : Nat := 0
  deriving DecidableEq, Repr

/-- A host read of a piece (R428, R431): its place in the piece, the widened address and length, and the bytes wanted of it. -/
structure ReadPart where
  idx : Nat := 0
  addr : Nat := 0
  len : Nat := 0
  skip : Nat := 0
  take : Nat := 0
  deriving DecidableEq, Repr

/-- A busy channel: its piece, reads not yet issued, reads in flight, data that has come by part. -/
structure Chan where
  piece : Piece := {}
  todo : List ReadPart := []
  inflight : Nat := 0
  data : Map (List Byte) := []
  /-- how reads of the piece failed: 0 none did, 1 with poisoned data only, 2 with a host access error (R359) -/
  fail : Nat := 0
  deriving DecidableEq, Repr

/-- A transfer of `DMA_COPY` (R432). -/
structure Xfer where
  ref : CmdRef := {}
  cls : Nat := 0
  srcHost : Bool := false
  dstHost : Bool := false
  barrier : Bool := false
  /-- flattened source and destination ranges: address, bytes -/
  src : List (Nat × Nat) := []
  dst : List (Nat × Nat) := []
  pieces : Nat := 0
  /-- last address that each channel wrote (R434), flushing reads in flight -/
  flush : Map Nat := []
  flushing : Nat := 0
  deriving DecidableEq, Repr

/-- The DMA engine. -/
structure Dma where
  channels : Map (Option Chan) := []
  waiting : List Piece := []
  xfers : Map (Option Xfer) := []
  next : Nat := 0
  deriving DecidableEq, Repr

/-! ## Interrupts and faults (chapter 18) -/

/-- The interrupt controller: one bit per source 0-2047 (R440). At reset sources 1-1,087 are masked (Table 18-8). -/
structure Intc where
  pend : BitVec 2048 := 0
  mask : BitVec 2048 := BitVec.ofNat 2048 (2 ^ 1088 - 2)
  svc : BitVec 2048 := 0
  claimer : Map (Option Nat) := []
  asleep : BitVec 4 := 0
  deriving DecidableEq, Repr

/-- Sheepdog timer of a fault group (R452-R454). -/
structure Dog where
  armed : BitVec 16 := 0
  deadline : Option Nat := none
  deriving DecidableEq, Repr

/-- The fault collector. `l3` lists the sources whose L3 action came last, with its time (R454). -/
structure Faults where
  dogs : Map Dog := []
  l3 : List (Nat × Nat) := []
  restartCause : Word := 0
  restartTick : Dword := 0
  factory : Bool := false
  avail : Map Avail := []
  deriving DecidableEq, Repr

/-! ## Power, clocks, start-up, NVM (chapter 19) -/

/-- Domain states (Table 19-1). -/
inductive DState where
  | on | gated | retain | off
  deriving DecidableEq, Repr

/-- A power domain: its state, the state it is entering or the wake in progress with the time it ends, a wake request
that waits for the entry (R463), and an L3 restart in progress (R467). -/
structure Domain where
  state : DState := .off
  entering : Option (DState × Nat) := none
  waking : Option Nat := none
  wakeReq : Bool := false
  restarting : Bool := false
  deriving DecidableEq, Repr

/-- Phases of the module (Table 19-6, without the values that are conditions of other blocks). -/
inductive Phase where
  | off | reset | restarting | training | running | stopped
  deriving DecidableEq, Repr

/-- Power, clocks and start-up. Temperatures are signed 1/16 °C patterns. -/
structure Power where
  phase : Phase := .reset
  tempStop : Bool := false
  domains : Map Domain := []
  tolerance : Nat := 100
  clkin : Bool := true
  clkinSince : Nat := 0
  /-- when power-good rose last (R511) -/
  goodAt : Option Nat := none
  clkCounted : Bool := false
  pllLocked : Bool := false
  resetLow : Option Nat := none
  temps : List (BitVec 16) := []
  tref : BitVec 16 := 0
  over100 : Bool := false
  over105 : Bool := false
  stopAt : Option Nat := none
  /-- `PEAK_LEFT` in µs (R68) -/
  peakLeft : Nat := 120000000
  throttled : Bool := false
  /-- the tick from which the allowance may be updated again (R68) -/
  peakAt : Nat := 0
  fansFailed : BitVec 4 := 0
  fanSpeed : Nat := 0
  bootStatus : Word := 0
  mainsLost : Option Nat := none
  deriving DecidableEq, Repr

/-- The settings of one store (R482): registers by offset, and the indirect ones: scaler sets 4-15, `PRX_LUT` and `POOL_RSV`. -/
structure Settings where
  regs : Map Word := []
  taps : Map (List Int) := []
  loaded : Map (BitVec 64) := []
  lut : Map (BitVec 10) := []
  rsv : Map (Option Word) := []
  deriving DecidableEq, Repr

/-- A settings bank (Table 19-10): empty, invalid, or valid with sequence number, wear and records. -/
structure Bank where
  empty : Bool := true
  valid : Bool := false
  seq : Nat := 0
  wear : Nat := 0
  settings : Settings := {}
  deriving DecidableEq, Repr

/-- A firmware slot (R484): an image with its release, or empty. -/
structure FwSlot where
  empty : Bool := true
  release : Nat := 0
  deriving DecidableEq, Repr

/-- A command of the NVM controller that writes or waits (R481). A store holds its snapshot once it writes; a stage
holds the release of its image, none where the image is bad (R484). -/
inductive NvmJob where
  | store (ref : CmdRef) (snapshot : Settings)
  | stage (ref : CmdRef) (release : Option Nat)
  deriving DecidableEq, Repr

/-- A trim: the value in force and a staged one (R485). -/
structure Trim where
  value : BitVec 16 := 0
  staged : Option (BitVec 16) := none
  deriving DecidableEq, Repr

/-- The NVM and its factory area. Factory values are 0 (entry 10 of the log). -/
structure Nvm where
  bankA : Bank := {}
  bankB : Bank := {}
  slot0 : FwSlot := { empty := false, release := 0 }
  slot1 : FwSlot := {}
  running1 : Bool := false
  staged : Bool := false
  /-- the `FIRMWARE_ACTIVATE` that marked the staged slot to run (R484) -/
  activated : Option CmdRef := none
  writing : Option NvmJob := none
  waiting : List NvmJob := []
  silicon : Nat := 0
  calCount : Nat := 0
  calTime : Word := 0
  macBase : Nat := 0
  trimFactory : Map (BitVec 16) := []
  trims : Map Trim := []
  deriving DecidableEq, Repr

/-! ## Tallies and trace (chapter 20), and the panel (chapter 21) -/

/-- A tagged work item (R491, Table 20-2). -/
structure Traced where
  kind : Nat := 0
  stream : Nat := 0
  contract : Nat := 0
  cid : Nat := 0
  sq : Nat := 0
  tFetch : Nat := 0
  ingest : Option Nat := none
  decStart : Option Nat := none
  decDone : Option Nat := none
  compose : Option Nat := none
  encStart : Option Nat := none
  lastSent : Option Nat := none
  present : Option Nat := none
  frame : Option Nat := none
  concealed : Bool := false
  /-- `FRAME_TAG` of a raw item; content number and place in output order of a decoded picture -/
  key : Option Nat := none
  cvs : Nat := 0
  order : Int := 0
  deriving DecidableEq, Repr

/-- A snapshot buffer (R489). -/
structure Snap where
  tick : Option Nat := none
  values : Map (BitVec 48) := []
  deriving DecidableEq, Repr

/-- Tallies, snapshots and trace. -/
structure Tally where
  counts : Map (BitVec 48) := []
  snaps : Map Snap := []
  traceEn : Bool := false
  interval : Nat := 1
  ringAddr : Nat := 0
  ringBytes : Nat := 0
  wptr : Nat := 0
  traceSeq : Nat := 0
  drop : Nat := 0
  lfsr : Word := 0
  items : List Traced := []
  staged : List (List Byte) := []
  deriving DecidableEq, Repr

/-- A cage and its plug-in module (R500): 0-7 EGR-A to EGR-H, 8 PEER-E, 9 PEER-W, 10 HOST. -/
structure Cage where
  present : Bool := false
  classMw : Nat := 0
  lowPower : Bool := false
  deriving DecidableEq, Repr

/-- The state of the module. `free` counts the free values drawn; `pending` is the queue of commands that wait. -/
structure State where
  wt : WallTime := {}
  contracts : Map Contract := []
  streams : Map Stream := []
  decs : Map DecCore := []
  comp : Compose := {}
  corr : Correct := {}
  enc : Enc := {}
  prx : Proxy := {}
  drovers : Map Drover := []
  eg : Egress := {}
  buf : Buffers := {}
  qcfg : Map QCfg := []
  tbl : Tables := {}
  peerE : Peer := {}
  peerW : Peer := {}
  link : Link := {}
  rings : Rings := {}
  mem : Mem := {}
  dma : Dma := {}
  intc : Intc := {}
  flt : Faults := {}
  pwr : Power := {}
  nvm : Nvm := {}
  tly : Tally := {}
  cages : Map Cage := []
  /-- RW, W1C and WO registers by window offset (chapter 22) -/
  regs : Map Word := []
  /-- selectors per agent: 2^26 × agent + offset (R514) -/
  sels : Map Word := []
  /-- `_HI` latches and `TBL_DATA` per agent: 2^26 × agent + offset (R513, R514) -/
  latches : Map Word := []
  free : Nat := 0
  pending : List Instr := []
  deriving DecidableEq, Repr

/-- The module right after power-good (R473): the always-on domain runs, `DEVSTATE` is RESET, every other domain is
OFF, every register holds its reset value (Table 22-2), nothing is listed in memory and no command waits. -/
def State.reset : State := {}

end Sys2Proof.Machine
end

