-- ==== Sys2Proof/Machine/Ops.lean ====
section
/-! DEFINITION. The named operations that the meanings share: stored registers, interrupt sources, fault sources,
tallies, free values, device memory, transactions to the host and completions. -/

namespace Sys2Proof.Machine

/-- Outcome of a meaning. -/
abbrev Out := Host.Outcome State Fault Refusal

/-- Ticks in a microsecond and in a millisecond (R17: 160 MHz). -/
def usTicks (n : Nat) : Nat := 160 * n
def msTicks (n : Nat) : Nat := 160000 * n

/-! ## Stored registers -/

/-- A stored register (RW, W1C, RWS); an unlisted one holds its reset value. -/
def State.reg (s : State) (off : Nat) : Word := mget (regReset off) s.regs off

/-- Store a register. -/
def State.setReg (s : State) (off : Nat) (v : Word) : State :=
  { s with regs := mset (regReset off) s.regs off v }

/-- Number of an agent: the host 0, CC0-CC3 1-4. -/
def agentNo : Agent → Nat
  | .host => 0
  | .cc i => i.val + 1

/-- An agent's copy of a selector (R514). -/
def State.sel (s : State) (a : Agent) (off : Nat) : Word := mget 0 s.sels (0x4000000 * agentNo a + selHome off)

/-- Write an agent's copy of a selector. -/
def State.setSel (s : State) (a : Agent) (off : Nat) (v : Word) : State :=
  { s with sels := mset 0 s.sels (0x4000000 * agentNo a + selHome off) v }

/-- An agent's latch of a `_HI` register or of `TBL_DATA` (R513, R514). -/
def State.latch (s : State) (a : Agent) (off : Nat) : Word := mget 0 s.latches (0x4000000 * agentNo a + off)

/-- Load an agent's latch. -/
def State.setLatch (s : State) (a : Agent) (off : Nat) (v : Word) : State :=
  { s with latches := mset 0 s.latches (0x4000000 * agentNo a + off) v }

/-- Apply a function to one block of the state. -/
def State.modWt (s : State) (f : WallTime → WallTime) : State := { s with wt := f s.wt }
def State.modLink (s : State) (f : Link → Link) : State := { s with link := f s.link }
def State.modRings (s : State) (f : Rings → Rings) : State := { s with rings := f s.rings }
def State.modMem (s : State) (f : Mem → Mem) : State := { s with mem := f s.mem }
def State.modDma (s : State) (f : Dma → Dma) : State := { s with dma := f s.dma }
def State.modPwr (s : State) (f : Power → Power) : State := { s with pwr := f s.pwr }
def State.modNvm (s : State) (f : Nvm → Nvm) : State := { s with nvm := f s.nvm }
def State.modTbl (s : State) (f : Tables → Tables) : State := { s with tbl := f s.tbl }
def State.modEg (s : State) (f : Egress → Egress) : State := { s with eg := f s.eg }
def State.modBuf (s : State) (f : Buffers → Buffers) : State := { s with buf := f s.buf }
def State.modTly (s : State) (f : Tally → Tally) : State := { s with tly := f s.tly }
def State.modFlt (s : State) (f : Faults → Faults) : State := { s with flt := f s.flt }

/-- Units of the arrays. -/
def State.contract (s : State) (c : Nat) : Contract := mget {} s.contracts c
def State.modContract (s : State) (c : Nat) (f : Contract → Contract) : State :=
  { s with contracts := mmod {} s.contracts c f }
def State.stream (s : State) (n : Nat) : Stream := mget {} s.streams n
def State.modStream (s : State) (n : Nat) (f : Stream → Stream) : State :=
  { s with streams := mmod {} s.streams n f }
/-- Core 15 is the spare after reset (Table 4-12). -/
def decReset (n : Nat) : DecCore := { role := if n = 15 then .spare else .active }
def State.dec (s : State) (n : Nat) : DecCore := mget (decReset n) s.decs n
def State.modDec (s : State) (n : Nat) (f : DecCore → DecCore) : State :=
  { s with decs := mmod (decReset n) s.decs n f }
/-- Core 15 is the spare after reset (Table 8-4). -/
def encReset (n : Nat) : EncCore := { role := if n = 15 then .spare else .active }
def State.encCore (s : State) (n : Nat) : EncCore := mget (encReset n) s.enc.cores n
def State.modEncCore (s : State) (n : Nat) (f : EncCore → EncCore) : State :=
  { s with enc := { s.enc with cores := mmod (encReset n) s.enc.cores n f } }
def State.drover (s : State) (n : Nat) : Drover := mget {} s.drovers n
def State.modDrover (s : State) (n : Nat) (f : Drover → Drover) : State :=
  { s with drovers := mmod {} s.drovers n f }
def State.port (s : State) (p : Nat) : Port := mget {} s.eg.ports p
def State.modPort (s : State) (p : Nat) (f : Port → Port) : State :=
  s.modEg fun e => { e with ports := mmod {} e.ports p f }
def State.channel (s : State) (c : Nat) : Channel := mget {} s.mem.channels c
def State.modChannel (s : State) (c : Nat) (f : Channel → Channel) : State :=
  s.modMem fun m => { m with channels := mmod {} m.channels c f }
def State.domain (s : State) (d : Nat) : Domain := mget {} s.pwr.domains d
def State.modDomain (s : State) (d : Nat) (f : Domain → Domain) : State :=
  s.modPwr fun p => { p with domains := mmod {} p.domains d f }
def State.sq (s : State) (r : Nat) : Sq := mget {} s.rings.sqs r
def State.modSq (s : State) (r : Nat) (f : Sq → Sq) : State :=
  s.modRings fun x => { x with sqs := mmod {} x.sqs r f }
def State.cq (s : State) (r : Nat) : Cq := mget {} s.rings.cqs r
def State.modCq (s : State) (r : Nat) (f : Cq → Cq) : State :=
  s.modRings fun x => { x with cqs := mmod {} x.cqs r f }
def State.peer (s : State) (e : Nat) : Peer := if e = 0 then s.peerE else s.peerW
def State.modPeer (s : State) (e : Nat) (f : Peer → Peer) : State :=
  if e = 0 then { s with peerE := f s.peerE } else { s with peerW := f s.peerW }
def State.slot (s : State) (k : Nat) : LSlot := mget {} s.wt.slots k
def State.modSlot (s : State) (k : Nat) (f : LSlot → LSlot) : State :=
  s.modWt fun w => { w with slots := mmod {} w.slots k f }
def State.slice (s : State) (k : Nat) : Slice := mget {} s.comp.slices k
def State.modSlice (s : State) (k : Nat) (f : Slice → Slice) : State :=
  { s with comp := { s.comp with slices := mmod {} s.comp.slices k f } }

/-- A domain is ON, so that its registers can be reached (R7, R463). -/
def State.domainOn (s : State) (d : Nat) : Bool := (s.domain d).state == .on

/-- The module serves commands: start-up is complete and it has not stopped (R472, R529). -/
def State.serving (s : State) : Bool := s.pwr.phase == .running

/-! ## Interrupt sources (chapter 18) -/

/-- One bit of a word of all sources. -/
def srcBit (x : BitVec 2048) (n : Nat) : Bool := x.getLsbD n
def srcSet (x : BitVec 2048) (n : Nat) : BitVec 2048 := x ||| BitVec.ofNat 2048 (2 ^ n)
def srcClear (x : BitVec 2048) (n : Nat) : BitVec 2048 := x &&& ~~~ (BitVec.ofNat 2048 (2 ^ n))

/-- Sources that exist: 1-1,087 (R437). -/
def srcReal (n : Nat) : Bool := decide (0 < n) && decide (n < 1088)

/-- Edge sources; every other source is a level source (Tables 18-1, 4-14, 5-9, 8-6, 13-9; R104, R136, R154, R210, R255, R340,
R371, R439). -/
def srcEdge (n : Nat) : Bool :=
  [1, 2, 3, 289, 385, 641, 642, 705].contains n
  || (decide (32 ≤ n) && decide (n < 64)) || (decide (96 ≤ n) && decide (n < 128))
  || (decide (128 ≤ n) && decide (n < 256) && (n % 8 == 1 || n % 8 == 2))
  || (decide (256 ≤ n) && decide (n < 260))
  || (decide (320 ≤ n) && decide (n < 384) && (n % 4 == 1 || n % 4 == 2))
  || (decide (448 ≤ n) && decide (n < 512) && n % 2 == 1)

/-- `PRIO` and `TARGET` of a source (Table 18-10). -/
def State.prio (s : State) (n : Nat) : Nat := fld (s.reg (Off.srcCfg n)) 3 0
def State.target (s : State) (n : Nat) : Nat := fld (s.reg (Off.srcCfg n)) 6 4
def State.threshold (s : State) (t : Nat) : Nat := fld (s.reg (Off.thresh t)) 3 0

/-- Pending, not masked and not in service. -/
def State.ripe (s : State) : BitVec 2048 := s.intc.pend &&& ~~~ s.intc.mask &&& ~~~ s.intc.svc

/-- R441: a source is claimable by a target. -/
def claimableBy (s : State) (t n : Nat) : Bool :=
  srcReal n && srcBit s.ripe n && s.target n == t && decide (s.threshold t < s.prio n)

/-- The better of two sources: the higher priority, then the lower number (R442). 0 is no source. -/
def betterSrc (s : State) (a b : Nat) : Nat := if a = 0 then b else if s.prio a < s.prio b then b else a

/-- R442: the source a claim would return, 0 where none is claimable. -/
def claimWinner (s : State) (t : Nat) : Nat :=
  if s.ripe = 0 then 0
  else (List.range 1088).foldl (fun best n => if claimableBy s t n then betterSrc s best n else best) 0

/-- R387: the condition of one completion ring. -/
def cqCause (s : State) (c : Cq) : Bool :=
  bit c.cfg 31 &&
  (decide (fld c.coal 7 0 ≤ c.pend.length)
   || (match c.pend with
       | [] => false
       | (at_, _) :: _ => decide (at_ + usTicks (fld c.coal 25 16) ≤ s.wt.now))
   || c.pend.any fun e => e.2)

/-- R387: the cause of vector v. -/
def vecCause (s : State) (v : Nat) : Bool :=
  s.rings.cqs.any fun p => fld p.2.cfg 23 16 == v && cqCause s p.2

/-- A status register has a bit set that its enable register enables. -/
def enabledStatus (s : State) (st en : Nat) : Bool := s.reg st &&& s.reg en != 0

/-- The cause of a level source (R104, R136, R154, R210, R255, R282, R305, R321, R340, R371, R400, R426, R436, R439,
R520). -/
def levelCause (s : State) (n : Nat) : Bool :=
  if n = 4 then enabledStatus s Off.ringStatus Off.ringIntEn
  else if n = 5 then enabledStatus s Off.memStatus Off.memIntEn
  else if n = 6 then s.reg Off.wtStatus != 0
  else if n < 64 then false
  else if n < 96 then enabledStatus s (Off.fltStat (n - 64)) (Off.fltIntEn (n - 64))
  else if n < 128 then false
  else if n < 256 then n % 8 == 0 && enabledStatus s (Off.decErr ((n - 128) / 8)) (Off.decIntEn ((n - 128) / 8))
  else if n = 260 then enabledStatus s Off.compStatus Off.compIntEn
  else if n = 288 then enabledStatus s Off.corrStatus Off.corrIntEn
  else if n < 320 then false
  else if n < 384 then n % 4 == 0 && enabledStatus s (Off.encStatus ((n - 320) / 4)) (Off.encIntEn ((n - 320) / 4))
  else if n = 384 then enabledStatus s Off.prxStatus Off.prxIntEn
  else if n < 448 then false
  else if n < 512 then n % 2 == 0 && enabledStatus s (Off.drvStatus ((n - 448) / 2)) (Off.drvIntEn ((n - 448) / 2))
  else if n < 544 then enabledStatus s (Off.egPortStatus (n - 512)) (Off.egPortIntEn (n - 512))
  else if n = 544 then enabledStatus s Off.poolStatus Off.poolIntEn
  else if n < 576 then false
  else if n < 608 then enabledStatus s (Off.fifoStatus (n - 576)) (Off.fifoIntEn (n - 576))
  else if n = 608 then enabledStatus s Off.schedStatus Off.schedIntEn
  else if n = 640 then enabledStatus s Off.tblStatus Off.tblIntEn
  else if n = 704 then enabledStatus s Off.linkStatus Off.linkIntEn
  else if n = 736 ∨ n = 737 then enabledStatus s (Off.peerStatus (n - 736)) (Off.peerIntEn (n - 736))
  else if n < 768 then false
  else if n < 1024 then vecCause s (n - 768)
  else if n = 1024 then enabledStatus s Off.dmaStatus Off.dmaIntEn
  else false

/-- The level source that a status or enable register drives, 0 where it drives none. -/
def srcOfStatus (off : Nat) : Nat :=
  if off = Off.ringStatus ∨ off = Off.ringIntEn then 4
  else if off = Off.memStatus ∨ off = Off.memIntEn then 5
  else if off = Off.wtStatus then 6
  else if off / 65536 = 4 then 64 + (off - 0x40000) / 32
  else if off / 65536 = 0x10 then 128 + 8 * ((off - 0x100000) / 4096)
  else if off / 65536 = 0x11 then 260
  else if off / 65536 = 0x12 then 288
  else if off / 65536 = 0x13 then 320 + 4 * ((off - 0x130000) / 4096)
  else if off / 65536 = 0x14 then 384
  else if off / 65536 = 0x15 ∨ off / 65536 = 0x16 then 448 + 2 * ((off - 0x150000) / 4096)
  else if off / 65536 = 0x20 then 512 + (off - 0x200000) / 256
  else if off / 65536 = 0x21 then if off < 0x211000 then 544 else 576 + (off - 0x211000) / 32
  else if off / 65536 = 0x22 then 608
  else if off / 65536 = 0x23 then 640
  else if off / 65536 = 6 then 704
  else if off / 65536 = 0x24 then 736 + (off - 0x240000) / 256
  else if off / 65536 = 0x25 then 1024
  else 0

/-- Values of `DEVSTATE` in the order of Table 19-6. STORING holds while a store is writing. -/
def devState (s : State) : Nat :=
  match s.pwr.phase with
  | .stopped => 6
  | .restarting => 5
  | .off => 0
  | .reset => 0
  | .training => 1
  | .running =>
    if claimWinner s 4 ≠ 0 then 3
    else match s.nvm.writing with
      | some (.store _ _) => 4
      | _ => 2

/-- Set a pending bit; nothing else. -/
def pendRaw (s : State) (n : Nat) : State := { s with intc := { s.intc with pend := srcSet s.intc.pend n } }

/-- Source 1 (Table 18-1): `DEVSTATE` changed between two states. An event in service is lost (R440). -/
def devEvent (s0 s1 : State) : State :=
  if devState s0 = devState s1 ∨ srcBit s1.intc.svc 1 then s1 else pendRaw s1 1

/-- R440: an event pends a source unless the source is in service. Reserved sources have no bit (R437). -/
def pendSrc (s : State) (n : Nat) : State :=
  if srcReal n && !srcBit s.intc.svc n then devEvent s (pendRaw s n) else s

/-- R440: a level source is pended while its cause holds and it is not in service. -/
def levelSample (s : State) (n : Nat) : State := if levelCause s n then pendSrc s n else s

/-- A hardware set of status bits, and the level source they drive. A set and an access are commands one after the other, so
no two meet in one clock of R523. -/
def setStatus (s : State) (off mask : Nat) : State :=
  levelSample (s.setReg off (s.reg off ||| BitVec.ofNat 32 mask)) (srcOfStatus off)

/-! ## Tallies and free values -/

/-- Count n events at a tally (R487: 48 bits, wrapping). -/
def tallyAdd (s : State) (i n : Nat) : State :=
  s.modTly fun t => { t with counts := mmod 0 t.counts i fun v => v + BitVec.ofNat 48 n }

/-- Draw a free value (entry 3 of the log). -/
def drawFree (s : State) : Nat × State := (Config.freeNat s.free, { s with free := s.free + 1 })

/-! ## Fault sources (R450-R452) -/

/-- Escalation level of fault source f (Table 18-2): 0 L1, 1 L2, 2 L3, 3 L4; reserved sources have none. -/
def fltLevel (f : Nat) : Option Nat :=
  let g := f / 16
  let i := f % 16
  if g < 2 then some 1
  else if g = 2 then if i < 4 then some 1 else if i = 4 then some 0 else if i = 5 then some 2 else none
  else if g = 3 then if i = 0 then some 0 else if i = 1 then some 2 else none
  else if g < 12 then if i % 4 = 0 then some 2 else some 0
  else if g = 12 then if i < 5 then some 0 else if 8 ≤ i then some 2 else none
  else if g = 13 then if i < 3 then some 0 else none
  else if g = 14 ∨ g = 15 then if i < 2 then some 0 else if i = 2 then some 2 else none
  else if g = 16 then if i = 0 then some 3 else if i < 4 then some 0 else none
  else if g = 17 then if i = 2 then some 3 else if i < 4 then some 0 else none
  else if g = 18 then if i < 4 then some 3 else none
  else if g = 19 then if i < 2 then some 2 else none
  else if g = 20 then if i = 0 then some 0 else none
  else if g = 21 then if i = 0 then some 2 else none
  else none

/-- L4 sources that act in the clock they are raised (Table 18-2). -/
def fltImmediate (f : Nat) : Bool := f == 256 || f == 274

/-- R452: raising a source sets its sticky bit; a source of level L2-L4 that is not immediate is armed and starts the
group's timer where it does not run. The immediate action of the block is the caller's. -/
def raiseFault (s : State) (f : Nat) : State :=
  match fltLevel f with
  | none => s
  | some l =>
    let g := f / 16
    let s := setStatus s (Off.fltStat g) (2 ^ (f % 16))
    if l = 0 ∨ fltImmediate f then s
    else
      let dl := s.wt.now + usTicks (s.reg (Off.fltDog g)).toNat
      s.modFlt fun x => { x with dogs := mmod {} x.dogs g fun dg =>
        { armed := dg.armed ||| BitVec.ofNat 16 (2 ^ (f % 16)),
          deadline := match dg.deadline with | some t => some t | none => some dl } }

/-! ## Device memory (chapter 16) -/

/-- One byte of device memory; a byte that nothing has written reads 0 (entry 8 of the log). -/
def memByte (s : State) (a : Nat) : Byte := mget 0 s.mem.dram a

/-- n bytes of device memory. -/
def memRead (s : State) (a n : Nat) : List Byte := (List.range n).map fun i => memByte s (a + i)

/-- Write bytes from an address. -/
def dramWrite : Map Byte → Nat → List Byte → Map Byte
  | m, _, [] => m
  | m, a, b :: bs => dramWrite (mset 0 m a b) (a + 1) bs

/-- Codewords of 64 bytes that a range touches (R411). -/
def codewords (a n : Nat) : List Nat := if n = 0 then [] else (List.range ((a + n - 1) / 64 - a / 64 + 1)).map (· + a / 64)

/-- Some codeword of a range holds an uncorrectable error (R416). -/
def memBad (s : State) (a n : Nat) : Bool := (codewords a n).any s.mem.bad.contains

/-- R416: the part of a write to a .. b that is kept: a codeword that holds an uncorrectable error and is not written whole is
left out. Only the first and the last codeword can be written in part. -/
def writeSpan (bad : List Nat) (a b : Nat) : Nat × Nat :=
  let part := fun (w : Nat) => bad.contains w && (decide (64 * w < a) || decide (b < 64 * w + 64))
  (if part (a / 64) then min b (64 * (a / 64) + 64) else a, if part (b / 64) then max a (64 * (b / 64)) else b)

/-- Write device memory: a whole codeword that is written is good again; a write of part of an uncorrectable one is dropped and
sets `POISON_WRITE` (R416). -/
def memWrite (s : State) (a : Nat) (bs : List Byte) : State :=
  let w := writeSpan s.mem.bad a (a + bs.length)
  let s1 := s.modMem fun m => { m with
    dram := dramWrite m.dram w.1 (slice bs (w.1 - a) (w.2 - w.1))
    bad := m.bad.filter fun w => !(decide (a ≤ 64 * w) && decide (64 * w + 64 ≤ a + bs.length)) }
  if w = (a, a + bs.length) then s1 else setStatus s1 Off.memStatus (2 ^ 4)

/-- Bytes of device memory (Table 16-1). -/
def dramBytes : Nat := 0xE00000000

/-- n bytes at an address lie in device memory and meet no placed object. -/
def roomAt (placed : List (Nat × Nat)) (n a : Nat) : Bool :=
  decide (a + n ≤ dramBytes) && placed.all fun p => decide (a + n ≤ p.1) || decide (p.1 + p.2 ≤ a)

/-- R401, R403: where n bytes go: at the page that a free value names where there is room, else behind the first object that
leaves room; always on a 4 KiB boundary (R99). -/
def placeAddr (placed : List (Nat × Nat)) (n want : Nat) : Nat :=
  let a := want % (dramBytes / 4096) * 4096
  if roomAt placed n a then a
  else ((0 :: placed.map fun p => ceilDiv (p.1 + p.2) 4096 * 4096).find? (roomAt placed n)).getD a

/-- The firmware places an object of n bytes in device memory at an address the spec leaves open (R403): a free value within
R401 that meets no other object. -/
def place (s : State) (n : Nat) : Nat × State :=
  let a := placeAddr s.mem.placed n (Config.freeNat s.free)
  (a, { s with free := s.free + 1, mem := { s.mem with placed := s.mem.placed ++ [(a, n)] } })

/-- Release a placed object. -/
def unplace (s : State) (a : Nat) : State :=
  s.modMem fun m => { m with placed := m.placed.filter fun p => p.1 != a }

/-! ## Ports -/

/-- Put a fold frame on the wire of peer port e; nothing leaves a port whose link is down (R519). -/
def peerSend (s : State) (e : Nat) (bs : List Byte) : State :=
  if (s.peer e).linkUp then s.modPeer e fun p => { p with wire := p.wire ++ [bs] } else s

/-- R272: the other end of a port's ring pair. -/
def pairOf (s : State) (p : Nat) : Option Nat :=
  let c := s.reg (Off.egPortCfg p)
  let q := fld c 12 8
  let d := s.reg (Off.egPortCfg q)
  if bit c 14 && bit d 14 && fld d 12 8 == p && q != p then some q else none

/-- The logical port of a port: the lower-numbered port of its ring pair (Table 13-1). -/
def logicalPort (s : State) (p : Nat) : Nat := match pairOf s p with
  | some q => min p q
  | none => p

/-- `PAIR_EN` of a port is set. -/
def pairEn (s : State) (p : Nat) : Bool := bit (s.reg (Off.egPortCfg p)) 14
def pairNamed (s : State) (p : Nat) : Nat := fld (s.reg (Off.egPortCfg p)) 12 8

/-- Port p names q in a pairing that is not mutual (R272). -/
def nonMutual (s : State) (p q : Nat) : Bool := pairEn s p && pairNamed s p == q && pairOf s p != some q

/-- `PAIR_MISMATCH` of a port whose domain is ON. -/
def markMismatch (s : State) (p : Nat) : State := if s.domainOn (46 + p / 4) then setStatus s (Off.egPortStatus p) 0x40 else s

/-- R272: the non-mutual pairings of a port set `PAIR_MISMATCH` on both ports. -/
def checkPairs (s : State) (p : Nat) : State :=
  ((List.range 32).filter fun q => nonMutual s p q || nonMutual s q p).foldl (fun t q => markMismatch (markMismatch t p) q) s

/-! ## Transactions to the host -/

/-- The link carries transactions (R362). -/
def linkUp (s : State) : Bool :=
  match s.link.lstate with
  | .active => true
  | .degraded => true
  | .recovery => true
  | _ => false

/-- Queue a transaction for the host. -/
def sendTxn (s : State) (t : Txn) : State := s.modLink fun l => { l with txq := l.txq ++ [t] }

/-- Host writes of a block of bytes in MWRs of at most 512 B that keep within 4 KiB pages (R356), fuel first. -/
def mwrPieces : Nat → Nat → List Byte → List Txn
  | 0, _, _ => []
  | _, _, [] => []
  | n + 1, a, bs =>
    let k := min 512 (4096 - a % 4096)
    .mwr a (bs.take k) :: mwrPieces n (a + k) (bs.drop k)

/-- Write bytes to host memory. -/
def hostWrite (s : State) (a : Nat) (bs : List Byte) : State :=
  s.modLink fun l => { l with txq := l.txq ++ mwrPieces (bs.length + 1) a bs }

/-! ## Launch ticks and the frame boundary (R20, R21) -/

/-- R20: the launch tick of frame n, a 64-bit result. -/
def launchTick (c : Contract) (n : Nat) : Nat := (c.t0 + n * c.pnum / c.pden) % 2 ^ 64

/-- Work outside contracts is held: above 105 °C (R478), or while `THROTTLED` is set (R68; the level to which R68 holds it is none,
entry 128 of the log). -/
def extraHeld (s : State) : Bool := s.pwr.over105 || s.pwr.throttled

/-- The value of `WALLTIME`. -/
def State.wallNow (s : State) : Nat := s.wt.wall.toNat

/-- The offset of a relative slot in frame n; a layout may have moved it (R59). -/
def timeFor (l : LSlot) (n : Nat) : Int := l.moves.foldl (fun d m => if m.1 ≤ n then m.2 else d) l.time

/-- R23, R27: the tick at which a slot fires next; one armed late fires on the tick after it was armed. -/
def fireTick (s : State) (l : LSlot) : Int := match l.late with
  | some w => (w : Int) + 1
  | none => if l.rel then (launchTick (s.contract l.contract) l.next : Int) + timeFor l l.next else l.time

/-- Actions that exist (Table 2-2). -/
def realAction (a : Nat) : Bool := decide (1 ≤ a) && decide (a ≤ 0xC)

/-- Relative slots of contract n. -/
def slotOf (n : Nat) (l : LSlot) : Bool := l.rel && realAction l.action && l.contract == n

/-- The `FRAME_BOUNDARY` slot of contract n. -/
def boundarySlot (s : State) (n : Nat) : Option LSlot :=
  (s.wt.slots.find? fun p => slotOf n p.2 && p.2.action == 1).map fun p => p.2

/-- The first frame whose launch tick lies after t. -/
def firstAfter (c : Contract) (t : Int) : Nat :=
  let need : Int := t + 1 - c.t0
  if need ≤ 0 then 0 else ceilDiv (need.toNat * c.pden) c.pnum

/-- R21: the frame from which a command takes effect whose completion is written now: the first one whose boundary has not
come, with the offset that the command itself gives the boundary where it gives one (entry 115 of the log). -/
def effectFrame (s : State) (n : Nat) (early : Option Int) : Nat := match boundarySlot s n with
  | none => 0
  | some l =>
    let pass := fun (f : Nat) (d : Int) => max f (firstAfter (s.contract n) ((s.wallNow : Int) - d))
    let f0 := if fireTick s l ≤ (s.wallNow : Int) then l.next + 1 else l.next
    let f1 := l.moves.foldl (fun f m => if m.1 ≤ f then pass f m.2 else f) f0
    match early with
    | some d => pass f1 d
    | none => f1

/-- R21, R52: the completion of a deferred command is written: its frame is fixed, and its slots fire from that frame on. -/
def fixDeferred (s : State) (n f : Nat) (x : Deferred) : State :=
  let moved := fun (k : Nat) (l : LSlot) =>
    let ds := (x.moves.filter fun m => m.1 == k).map fun m => (f, m.2)
    let bs := if slotOf n l && l.action == 1 then (x.early.map fun d => (f, d)).toList else []
    let l1 := { l with moves := l.moves ++ ds ++ bs }
    if x.adds.contains k then { l1 with armed := true, next := f } else l1
  let s1 := s.modWt fun w => { w with slots := w.slots.map fun p => (p.1, moved p.1 p.2) }
  s1.modContract n fun c => { c with deferred := c.deferred.erase x ++ [{ x with frame := f, wait := none }] }

/-- The deferred command of contract n whose completion is c. -/
def deferredOf (s : State) (c : Completion) : Option (Nat × Deferred) := match c.defer, c.ref with
  | some n, some ref => ((s.contract n).deferred.find? fun x => x.wait == some ref).map fun x => (n, x)
  | _, _ => none

/-! ## Completions (R377-R387) -/

/-- Entries of a ring: 2^`LOG2`. -/
def ringSize (cfg : Word) : Nat := 2 ^ fld cfg 4 0

/-- 64-bit base of a ring. -/
def ringBase (lo hi : Word) : Nat := lo.toNat + 2 ^ 32 * hi.toNat

/-- R378: a completion ring is enabled and has room. -/
def cqRoom (s : State) (r : Nat) : Bool :=
  let c := s.cq r
  bit c.cfg 31 && (c.tail + 1) % ringSize c.cfg != c.head

/-- The 32 bytes of a completion (Table 15-3). -/
def cplBytes (c : Completion) (head : Nat) (phase : Bool) : List Byte :=
  leBytes 8 c.r0.toNat ++ leBytes 8 c.r1.toNat ++ leBytes 8 c.r2.toNat ++ leBytes 2 c.cid ++ leBytes 2 head
    ++ leBytes 2 c.sqId ++ leBytes 1 c.status ++ leBytes 1 (128 * b2n phase + 32 * c.kind)

/-- R378, R379, R387: write one completion at its ring's tail as one MWR and sample the ring's vector. -/
def putCpl (s : State) (c : Completion) : State :=
  let q := s.cq c.cq
  let head := match c.head with
    | some h => h
    | none => if c.kind = 0 then (s.sq c.sqId).fetch else 0
  let s := sendTxn s (.mwr (ringBase q.baseLo q.baseHi + 32 * q.tail) (cplBytes c head q.phase))
  let t := (q.tail + 1) % ringSize q.cfg
  let s := s.modCq c.cq fun q => { q with
    tail := t, phase := if t = 0 then !q.phase else q.phase, pend := q.pend ++ [(s.wt.now, c.urgent)] }
  let s := match c.ref with
    | some ref => s.modRings fun x => { x with inflight := x.inflight.erase ref }
    | none => s
  levelSample s (768 + fld q.cfg 23 16)

/-- A completion is written. That of a deferred command reports the frame from which it takes effect (R21, R52). -/
def writeCpl (s : State) (c : Completion) : State := match deferredOf s c with
  | some (n, x) =>
    let f := effectFrame s n x.early
    putCpl (fixDeferred s n f x) { c with r0 := BitVec.ofNat 64 f }
  | none => putCpl s c

/-- Completions can be written: the link is up and the module has not stopped (R365, R529). -/
def cplOpen (s : State) : Bool := linkUp s && s.pwr.phase != .stopped

/-- Write every waiting completion whose ring has room, each ring in order (R385, R386). -/
def drainCpl : List Completion → List Completion → State → State
  | [], kept, s => s.modRings fun x => { x with waiting := kept.reverse }
  | c :: cs, kept, s =>
    if cplOpen s && cqRoom s c.cq && !kept.any (fun k => k.cq == c.cq) then drainCpl cs kept (writeCpl s c)
    else drainCpl cs (c :: kept) s

/-- R386: a completion that finds its enabled ring full sets `CQ_STATE.FULL` and `RING_STATUS.CQ_FULL`. -/
def markFull (s : State) (r : Nat) : State :=
  if cplOpen s && bit (s.cq r).cfg 31 && !cqRoom s r then
    setStatus (s.modCq r fun q => { q with full := true }) Off.ringStatus (2 ^ 4)
  else s

/-- Offer a completion: written at once where nothing of its ring waits and there is room, else it waits (R386). -/
def offerCpl (s : State) (c : Completion) : State :=
  if cplOpen s && cqRoom s c.cq && !s.rings.waiting.any (fun k => k.cq == c.cq) then writeCpl s c
  else markFull (s.modRings fun x => { x with waiting := x.waiting ++ [c] }) c.cq

/-- Complete a command with a status (Table 15-4) and its results. A command that is no longer in flight, because an
epoch change or a restart ended it (R365, R458), completes with nothing. -/
def complete (s : State) (ref : CmdRef) (status r0 r1 r2 : Nat) : State :=
  if s.rings.inflight.contains ref then
    offerCpl s { ref := some ref, cq := ref.cq, r0 := BitVec.ofNat 64 r0, r1 := BitVec.ofNat 64 r1,
                 r2 := BitVec.ofNat 64 r2, cid := ref.cid, sqId := ref.sq, status := status, urgent := ref.urgent }
  else s

/-- Complete a deferred command of contract n (R52). -/
def completeDeferred (s : State) (ref : CmdRef) (n : Nat) : State :=
  if s.rings.inflight.contains ref then
    offerCpl s { ref := some ref, cq := ref.cq, cid := ref.cid, sqId := ref.sq, status := 0, urgent := ref.urgent, defer := some n }
  else s

/-- Complete with a status and results of 0. -/
def completeWith (s : State) (ref : CmdRef) (status : Nat) : State := complete s ref status 0 0 0

/-- R216, R388: completions of `KIND` 1 and 2 are dropped where their ring is full. True where it was written. -/
def offerOrDrop (s : State) (c : Completion) : Bool × State :=
  if cplOpen s && cqRoom s c.cq && !s.rings.waiting.any (fun k => k.cq == c.cq) then (true, writeCpl s c) else (false, s)

namespace St
/-- Status codes (Table 15-4). -/
abbrev ok : Nat := 0
abbrev invalidField : Nat := 1
abbrev noResource : Nat := 2
abbrev stateConflict : Nat := 3
abbrev contractRefused : Nat := 4
abbrev timeout : Nat := 5
abbrev aborted : Nat := 6
abbrev poisonedData : Nat := 7
abbrev hostAccessError : Nat := 8
abbrev concealed : Nat := 9
abbrev policedDrop : Nat := 10
abbrev unsupportedTool : Nat := 11
abbrev nvmFailed : Nat := 12
end St

end Sys2Proof.Machine
end

