-- ==== Sys2Proof/Machine/Pictures.lean ====
section
/-! DEFINITION. Picture slots in DRAM (R73, R99, R100): sizes, addresses, the metadata page, and device reads that find
decoded pictures at their addresses. -/

namespace Sys2Proof.Machine

/-- Chroma subsampling shifts (Table 4-9): sx and sy of 4:0:0, 4:2:0, 4:2:2 and 4:4:4. -/
def chromaSx (chroma : Nat) : Nat := if chroma = 3 then 0 else 1
def chromaSy (chroma : Nat) : Nat := if chroma ≤ 1 then 1 else 0

/-- Rounded up to 4 KiB. -/
def page4k (n : Nat) : Nat := ceilDiv n 4096 * 4096

/-- Tiles of 64 × 64 luma px. -/
def tilesX (w : Nat) : Nat := ceilDiv w 64
def lumaPlane (w h : Nat) : Nat := tilesX w * tilesX h * 8192
/-- Bytes of a chroma tile (Table 4-9). -/
def chromaTile (chroma : Nat) : Nat := (64 >>> chromaSx chroma) * (64 >>> chromaSy chroma) * 4
def chromaPlane (w h chroma : Nat) : Nat := tilesX w * tilesX h * chromaTile chroma

/-- R99: bytes of a picture slot. -/
def slotBytes (w h chroma : Nat) : Nat := 4096 + page4k (lumaPlane w h) + page4k (chromaPlane w h chroma)

/-- R73: bytes of the picture store of a stream record. -/
def storeBytes (r : StreamRec) : Nat := (r.dpb + 2) * slotBytes r.width r.height r.chroma

/-- R99: offset of a luma sample within its plane. -/
def lumaAddr (w x y : Nat) : Nat := ((y >>> 6) * tilesX w + (x >>> 6)) * 8192 + ((y % 64) * 64 + x % 64) * 2

/-- R99: offset of the Cb sample of a chroma pair within its plane. -/
def chromaAddr (w chroma xc yc : Nat) : Nat :=
  let cw := 64 >>> chromaSx chroma
  let ch := 64 >>> chromaSy chroma
  (yc / ch * tilesX w + xc / cw) * chromaTile chroma + (yc % ch * cw + xc % cw) * 4

/-- A sample as the standard's decoding process gives it from the data (R70). -/
def dataSample (d : PicData) (plane x y : Nat) : Nat := Config.decodedSample d plane x y

/-- The CTU that a sample of a plane lies in. -/
def ctuAt (p : Picture) (plane x y : Nat) : Nat :=
  let lx := if plane = 0 then x else x <<< chromaSx p.chroma
  let ly := if plane = 0 then y else y <<< chromaSy p.chroma
  ly / p.ctu * p.cols + lx / p.ctu

/-- A concealed CTU (R91, R101). -/
def ctuConcealed (p : Picture) (i : Nat) : Bool := p.conceal.contains i || p.cut.contains i

/-- `CONCEALED_CTUS` (Table 4-10). -/
def concealedCtus (p : Picture) : Nat := p.conceal.length + (p.cut.filter fun i => !p.conceal.contains i).length

/-- A sample of a decoded picture (R70, R91): a concealed CTU shows the co-located sample of the stand-in; a mid-grey picture
and the chroma of a 4:0:0 picture are 2^(d-1) (R93, R70). -/
def picSample (p : Picture) (plane x y : Nat) : Nat :=
  if p.midgrey || (p.chroma == 0 && plane != 0) then 2 ^ (p.depth - 1)
  else if ctuConcealed p (ctuAt p plane x y) then match p.under with
    | some d => dataSample d plane x y % 2 ^ p.depth
    | none => 2 ^ (p.depth - 1)
  else dataSample p.data plane x y % 2 ^ p.depth

/-- Codec code of the metadata (Table 4-10). -/
def codecCode (c : Codec) : Nat :=
  match c with
  | .raw => 0
  | .hevc => 1
  | .av1 => 2
  | .vvc => 3

/-- n bytes of a list, filled with zeros. -/
def padTo (n : Nat) (bs : List Byte) : List Byte := (bs ++ zeros n).take n

/-- R100: the metadata page's first 256 bytes (Table 4-10). -/
def metadata (codec : Codec) (p : Picture) : List Byte :=
  leBytes 2 p.width ++ leBytes 2 p.height ++ leBytes 1 p.chroma ++ leBytes 1 p.depth
    ++ leBytes 1 (b2n p.concealed + 2 * b2n p.standin + 4 * b2n p.grain + 8 * b2n p.midgrey) ++ leBytes 1 (codecCode codec)
    ++ leBytes 8 (toPat 64 p.order) ++ leBytes 8 p.decFrame ++ leBytes 4 p.colour.toNat ++ leBytes 4 (concealedCtus p)
    ++ padTo 24 p.mdcv ++ leBytes 4 p.cll.toNat ++ zeros 3 ++ leBytes 1 (min 160 p.grainBytes.length)
    ++ padTo 160 p.grainBytes ++ zeros 32

/-- R99: the sample stored at a byte offset of a plane's tiles, beyond the picture repeating its last column and row. -/
def planeByte (p : Picture) (chromaPl : Bool) (o : Nat) : Byte :=
  let t := if chromaPl then chromaTile p.chroma else 8192
  let tile := o / t
  let tx := tile % tilesX p.width
  let ty := tile / tilesX p.width
  let k := (o % t) / 2
  let v :=
    if chromaPl then
      let cw := 64 >>> chromaSx p.chroma
      let ch := 64 >>> chromaSy p.chroma
      let x := min (tx * cw + k / 2 % cw) ((p.width - 1) >>> chromaSx p.chroma)
      let y := min (ty * ch + k / 2 / cw) ((p.height - 1) >>> chromaSy p.chroma)
      picSample p (1 + k % 2) x y
    else picSample p 0 (min (tx * 64 + k % 64) (p.width - 1)) (min (ty * 64 + k / 64) (p.height - 1))
  BitVec.ofNat 8 (if o % 2 = 0 then v else v / 256)

/-- The byte of a picture slot at an offset. -/
def slotByte (codec : Codec) (rec : StreamRec) (p : Picture) (o : Nat) : Byte :=
  let lumaEnd := 4096 + page4k (lumaPlane rec.width rec.height)
  if o < 256 then (metadata codec p).getD o 0
  else if o < 4096 then 0
  else if o < lumaEnd then if o - 4096 < lumaPlane p.width p.height then planeByte p false (o - 4096) else 0
  else if o - lumaEnd < chromaPlane p.width p.height p.chroma then planeByte p true (o - lumaEnd) else 0

/-- The decoded picture that a device address lies in, with the offset in its slot. -/
def pictureAt (s : State) (a : Nat) : Option (Stream × Picture × Nat) :=
  s.streams.findSome? fun p =>
    let x := p.2
    if x.codec = .raw ∨ x.state = .closed ∨ a < x.storeAddr ∨ x.storeAddr + storeBytes x.record ≤ a then none
    else
      let n := slotBytes x.record.width x.record.height x.record.chroma
      (x.pictures.find? fun q => q.slot == (a - x.storeAddr) / n).map fun q => (x, q, (a - x.storeAddr) % n)

/-- A byte of device memory as an engine reads it. -/
def devByte (s : State) (a : Nat) : Byte :=
  match pictureAt s a with
  | some (x, p, o) => slotByte x.codec x.record p o
  | none => memByte s a

/-- n bytes of device memory as an engine reads them. -/
def devRead (s : State) (a n : Nat) : List Byte := (List.range n).map fun i => devByte s (a + i)

end Sys2Proof.Machine
end

