-- ==== Sys2Proof/Machine/UnitFormat.lean ====
section
/-! DEFINITION. The formats in which the host submits units and configuration records (R72, R75, R77): byte streams of NAL
units with a start code each, and OBUs with their sizes. The NAL unit types and OBU fields are those of the standards that
R70 names (entry 118 of the log). -/

namespace Sys2Proof.Machine

/-! ## NAL units (HEVC, VVC) -/

/-- Cut a byte stream at its start codes 00 00 01: the bytes before the first, then what follows each. The number counts
start-code bytes still to be skipped; `cur` holds the current part reversed. -/
def splitNal : List Byte → Nat → List Byte → List (List Byte)
  | [], _, cur => [cur.reverse]
  | b :: bs, 0, cur =>
    if b == 0 && bs.take 2 == [0, 1] then cur.reverse :: splitNal bs 2 [] else splitNal bs 0 (b :: cur)
  | _ :: bs, k + 1, cur => splitNal bs k cur

/-- The NAL units of a byte stream; none where bytes stand before the first start code or a unit has no header. -/
def nalUnits (bs : List Byte) : Option (List (List Byte)) :=
  match splitNal bs 0 [] with
  | [] => none
  | lead :: ns => if lead.all (· == 0) && !ns.isEmpty && ns.all (fun n => decide (2 ≤ n.length)) then some ns else none

/-- `nal_unit_type` of the two standards. -/
def nalType (codec : Codec) (n : List Byte) : Nat := if codec = .hevc then fld (n.getD 0 0) 6 1 else fld (n.getD 1 0) 7 3

/-- A NAL unit of coded picture data. -/
def isVcl (codec : Codec) (n : List Byte) : Bool := decide (nalType codec n < if codec = .hevc then 32 else 12)

/-- A NAL unit that begins a picture: the first slice segment of HEVC; the picture header of VVC, alone or in a slice. -/
def beginsPicture (codec : Codec) (n : List Byte) : Bool :=
  (isVcl codec n && bit (n.getD 2 0) 7) || (codec == .vvc && nalType codec n == 19)

/-! ## OBUs (AV1) -/

/-- An OBU: type, temporal and spatial identifiers where it has an extension, and all its bytes. -/
structure Obu where
  type : Nat
  layer : Option (Nat × Nat)
  bytes : List Byte

/-- A size in the leb128 form, at most eight bytes, with what follows it. -/
def leb128 : Nat → Nat → List Byte → Option (Nat × List Byte)
  | 0, _, _ => none
  | _, _, [] => none
  | n + 1, k, b :: bs =>
    let v := b.toNat % 128 * 2 ^ (7 * k)
    if b.toNat < 128 then some (v, bs) else (leb128 n (k + 1) bs).map fun r => (v + r.1, r.2)

/-- The OBUs of a unit; none where one has no `obu_has_size_field` or its size runs over. The first number bounds them. -/
def obus : Nat → List Byte → Option (List Obu)
  | _, [] => some []
  | 0, _ => none
  | n + 1, b :: bs =>
    let ext := bit b 2
    match leb128 8 0 (if ext then bs.drop 1 else bs) with
    | none => none
    | some (size, rest) =>
      if !bit b 1 || decide (rest.length < size) then none
      else (obus n (rest.drop size)).map fun os =>
        ⟨fld b 6 3, if ext then some (fld (bs.getD 0 0) 7 5, fld (bs.getD 0 0) 4 3) else none,
          (b :: bs).take (bs.length + 1 - (rest.length - size))⟩ :: os

/-- R72: an OBU of the operating point; those of other layers are dropped, but for sequence headers and temporal delimiters. -/
def inOpPoint (idc : BitVec 12) (o : Obu) : Bool :=
  o.type == 1 || o.type == 2 || idc == 0 || match o.layer with
    | some (t, sp) => bit idc t && bit idc (8 + sp)
    | none => true

/-! ## Units (R77) -/

/-- The unit is in its format and holds exactly one access unit or temporal unit. -/
def unitFormat (codec : Codec) (bs : List Byte) : Bool :=
  if codec = .av1 then match obus bs.length bs with
    | some os => !os.isEmpty && decide (os.countP (fun o => o.type == 2) ≤ 1)
    | none => false
  else match nalUnits bs with
    | some ns => ns.countP (beginsPicture codec) == 1
    | none => false

/-- A unit of AV1 that carries an `OBU_TILE_LIST` (Table 4-2). -/
def hasTileList (codec : Codec) (bs : List Byte) : Bool :=
  codec == .av1 && match obus bs.length bs with
    | some os => os.any fun o => o.type == 8
    | none => false

/-- What the decoder decodes of a unit: of AV1 the OBUs of the operating point (R72). -/
def unitData (codec : Codec) (idc : BitVec 12) (bs : List Byte) : List Byte :=
  if codec = .av1 then match obus bs.length bs with
    | some os => (os.filter (inOpPoint idc)).flatMap fun o => o.bytes
    | none => bs
  else bs

/-- How a picture stands to random access (Table 4-7, R95). -/
inductive PicKind where
  | other | idr | cra | bla | gdr | rasl
  deriving DecidableEq, Repr

/-- Kind of a picture from its NAL unit type. -/
def nalKind (codec : Codec) (t : Nat) : PicKind :=
  if codec = .hevc then
    if 16 ≤ t ∧ t ≤ 18 then .bla else if t = 19 ∨ t = 20 then .idr else if t = 21 then .cra
    else if t = 8 ∨ t = 9 then .rasl else .other
  else if t = 7 ∨ t = 8 then .idr else if t = 9 then .cra else if t = 10 then .gdr else if t = 3 then .rasl else .other

/-- Kind of the picture of a unit. An AV1 unit shows its kind in its frame header (`UnitInfo.rap`). -/
def unitKind (codec : Codec) (bs : List Byte) : PicKind :=
  if codec = .av1 then .other
  else match (nalUnits bs).bind fun ns => ns.find? (isVcl codec) with
    | some n => nalKind codec (nalType codec n)
    | none => .other

/-! ## Configuration records (R72) -/

/-- The record holds the parameter sets that R72 lists, in the submission format. -/
def recordFormat (codec : Codec) (bs : List Byte) : Bool :=
  if codec = .av1 then match obus bs.length bs with
    | some os => os.countP (fun o => o.type == 1) == 1
    | none => false
  else match nalUnits bs with
    | some ns => (if codec = .hevc then [32, 33, 34] else [15, 16]).all fun t => ns.any fun n => nalType codec n == t
    | none => false

end Sys2Proof.Machine
end

