-- ==== Sys2Proof/Machine/Structure.lean ====
section
/-! DEFINITION. Dealing work to units (R84, R132), the parallel structure of a coded stream and its core count (Table 4-4), and
the formats of Table 4-1. -/

namespace Sys2Proof.Machine

/-! ## Dealing -/

/-- The slice with the lowest cost so far, the lowest number on a tie. -/
def cheapest : List (Nat × Nat) → Option (Nat × Nat)
  | [] => none
  | p :: ps => match cheapest ps with
    | some q => if p.2 ≤ q.2 then some p else some q
    | none => some p

/-- R132: deal paddocks to slices: the slice of each paddock, and the totals per slice. -/
def dealCosts : List Nat → List (Nat × Nat) → List Nat × List (Nat × Nat)
  | [], tot => ([], tot)
  | c :: cs, tot =>
    match cheapest tot with
    | none => ([], tot)
    | some q =>
      let r := dealCosts cs (tot.map fun p => if p.1 = q.1 then (p.1, p.2 + c) else p)
      (q.1 :: r.1, r.2)

/-- Largest of a list. -/
def maxOf (xs : List Nat) : Nat := xs.foldl max 0
/-- Sum of a list. -/
def sumOf (xs : List Nat) : Nat := xs.foldl (· + ·) 0

/-! ## Supported formats (Tables 4-1, 4-2) -/

/-- The standard of a profile. -/
def profileCodec : Profile → Codec
  | .av1Main => .av1
  | .av1High => .av1
  | .av1Professional => .av1
  | .vvcMain10 => .vvc
  | .vvcMain10x444 => .vvc
  | .vvcMultilayer => .vvc
  | .vvcOther => .vvc
  | _ => .hevc

/-- Table 4-1: the chroma formats and bit depths that a profile admits; none for a profile that is not supported. -/
def profileFormats : Profile → List Nat × List Nat
  | .hevcMain => ([1], [8])
  | .hevcMain10 => ([1], [8, 10])
  | .hevcMain12 => ([0, 1], [8, 10, 12])
  | .hevcMain422x10 => ([0, 1, 2], [8, 10])
  | .hevcMain444x10 => ([0, 1, 2, 3], [8, 10])
  | .hevcMain444x12 => ([0, 1, 2, 3], [8, 10, 12])
  | .av1Main => ([0, 1], [8, 10])
  | .av1High => ([0, 1, 3], [8, 10])
  | .vvcMain10 => ([0, 1], [8, 10])
  | .vvcMain10x444 => ([0, 1, 2, 3], [8, 10])
  | _ => ([], [])

/-- Highest level, times ten. -/
def topLevel (codec : Codec) : Nat := if codec = .av1 then 63 else 62

/-- Table 4-3: the limits of one stream. -/
def sizeOk (r : StreamRec) : Bool :=
  decide (64 ≤ r.width) && decide (r.width ≤ 8192) && decide (64 ≤ r.height) && decide (r.height ≤ 8192)
    && decide (r.width * r.height ≤ 35651584) && decide (r.dpb ≤ 16)

/-- R71: a sequence that Table 4-2 does not name: profile, level, layers, screen-content tools, formats and limits. -/
def seqSupported (codec : Codec) (r : StreamRec) : Bool :=
  profileCodec r.profile == codec && (profileFormats r.profile).1.contains r.chroma && (profileFormats r.profile).2.contains r.depth
    && decide (r.level ≤ topLevel codec) && decide (r.layers ≤ 1) && !r.screen && sizeOk r

/-! ## Parallel structure (R84) -/

/-- CTU columns and rows of a picture. -/
def ctuCols (r : StreamRec) : Nat := ceilDiv r.width r.ctu
def ctuRows (r : StreamRec) : Nat := ceilDiv r.height r.ctu

/-- Work units of a structure: their CTUs. -/
def workUnits (r : StreamRec) : Parallel → List (List Nat)
  | .units us => us
  | .wavefronts => (List.range (ctuRows r)).map fun y => (List.range (ctuCols r)).map (y * ctuCols r + ·)

/-- CTU rows as wavefronts count them: of VVC in units of 64 (R84). -/
def waveRows (codec : Codec) (r : StreamRec) : Nat := if codec = .vvc then ceilDiv r.height 64 else ctuRows r

/-- Table 4-4: c_s of one structure, dealt to eight cores. -/
def structCores (codec : Codec) (r : StreamRec) : Parallel → Rat
  | .units us =>
    let costs := us.map List.length
    let top := maxOf ((dealCosts costs ((List.range 8).map fun i => (i, 0))).2.map fun p => p.2)
    if top = 0 then 1 else min 8 ((sumOf costs : Nat) / (top : Rat))
  | .wavefronts => (min 4 (waveRows codec r / 16) : Nat)

/-- The largest c_s of the structures of a PPS; 1 where there is none, and where none gives more (entry 119 of the log). -/
def ppsCores (codec : Codec) (r : StreamRec) (ps : List Parallel) : Rat :=
  (ps.map (structCores codec r)).foldl max 1

/-- R84: c_s of a stream, the smallest over its PPS. -/
def coreCount (codec : Codec) (r : StreamRec) : Rat := match r.pps.map (ppsCores codec r) with
  | [] => 1
  | c :: cs => cs.foldl min c

/-- A PPS without any structure: the stream is decoded in picture pairs (Table 4-4). -/
def inPairs (r : StreamRec) : Bool := r.pps.isEmpty || r.pps.any List.isEmpty

/-- The structure of a PPS with the largest c_s. -/
def mainStruct (codec : Codec) (r : StreamRec) : List Parallel → Option Parallel
  | [] => none
  | p :: ps => match mainStruct codec r ps with
    | some q => if structCores codec r q ≤ structCores codec r p then some p else some q
    | none => some p

/-- R84, R90: the work units of a picture, each dealt to a core of the set; a picture without structure is one unit of the
first core. -/
def dealUnits (codec : Codec) (r : StreamRec) (ps : List Parallel) (cores : List Nat) : List (Nat × List Nat) :=
  match mainStruct codec r ps with
  | some p =>
    let us := workUnits r p
    (dealCosts (us.map List.length) (cores.map fun i => (i, 0))).1.zip us
  | none => (cores.take 1).map fun i => (i, List.range (ctuCols r * ctuRows r))

end Sys2Proof.Machine
end

