-- ==== Sys2Proof/Machine/Launch.lean ====
section
/-! DEFINITION. Launch ticks and launch slots (R20-R27, R524). -/

namespace Sys2Proof.Machine

/-- A contract is COMMITTED, RUNNING or DRAINING. -/
def contractActive (c : Contract) : Bool :=
  match c.state with
  | .committed => true
  | .running => true
  | .draining => true
  | _ => false

/-- Some contract is COMMITTED, RUNNING or DRAINING. -/
def anyActive (s : State) : Bool := s.contracts.any fun p => contractActive p.2

/-- Some contract is not FREE. -/
def anyContract (s : State) : Bool := s.contracts.any fun p => p.2.state != .free

/-- Keys of `selected` and `selPics` that the frames in composition use for stream n: the newest frame that was selected,
and an older one whose rows are not all written. -/
def usedKeys (c : Contract) (n : Nat) : List Nat :=
  (c.selFrame.toList ++ c.rowsComposing.map fun r => r.frame).map fun f => 2 * n + f % 2

/-- R23: a relative slot fires while its contract is RUNNING or DRAINING; the first boundary of a COMMITTED one makes it
run (R46). -/
def slotLive (s : State) (l : LSlot) : Bool :=
  !l.rel || match (s.contract l.contract).state with
    | .running => true
    | .draining => true
    | .committed => l.action == 1
    | _ => false

/-- R22: an armed slot whose fire tick has come. -/
def slotDue (s : State) (l : LSlot) : Bool :=
  l.armed && realAction l.action && slotLive s l && decide (fireTick s l ≤ (s.wallNow : Int))

/-- The tick on which a due slot fires: slots whose fire ticks the last tick passed fire together, also where it skipped
one of them (R22, R25). -/
def firedOn (s : State) (l : LSlot) : Int :=
  if (s.wt.prev.toNat : Int) < fireTick s l then (s.wallNow : Int) else fireTick s l

/-- R25: slot j fires before slot k: the earlier tick, then the order of Table 2-2 (the action's code), then the slot
number. -/
def firesBefore (s : State) (j : Nat) (lj : LSlot) (k : Nat) (lk : LSlot) : Bool :=
  let fj := firedOn s lj
  let fk := firedOn s lk
  decide (fj < fk) || (decide (fj = fk) && (decide (lj.action < lk.action) || (lj.action == lk.action && decide (j < k))))

/-- The slot is due and no other due slot fires before it. -/
def firesNow (s : State) (k : Nat) : Bool :=
  slotDue s (s.slot k) && !(s.wt.slots.any fun p => slotDue s p.2 && firesBefore s p.1 p.2 k (s.slot k))

/-- The argument of a relative slot in frame n: `FRAME_BOUNDARY` carries the frame's parity (Table 2-2, R131). -/
def argFor (l : LSlot) (n : Nat) : Nat := if l.action = 1 then n % 2 else l.arg

/-- R524: what firing does to the slot: an absolute slot is disarmed, a relative one goes on to the next frame and is
disarmed after n_last. -/
def firedSlot (s : State) (l : LSlot) : LSlot :=
  if l.rel then
    { l with next := l.next + 1, arg := argFor l (l.next + 1), late := none, time := timeFor l (l.next + 1)
             moves := l.moves.filter fun m => decide (l.next + 1 < m.1), armed := match (s.contract l.contract).nLast with
      | some n => decide (l.next < n)
      | none => true }
  else { l with armed := false, fired := true, ref := none }

/-- R13: the unit that a slot acts on in frame n. -/
def unitFor (l : LSlot) (n : Nat) : Nat := l.takeover.foldl (fun u t => if t.1 ≤ n then t.2 else u) l.unit

/-- A slot fires: its state, `SLOT_LATE` (R27) and the completion of the `LAUNCH_AT` that armed it (R26). -/
def fireSlot (s : State) (k : Nat) : State :=
  let l := s.slot k
  let s1 := s.modSlot k (firedSlot s)
  let s2 := if l.late.isSome then setStatus s1 Off.wtStatus (2 ^ 5) else s1
  match l.ref with
  | some ref => complete s2 ref St.ok (fireTick s l).toNat 0 0
  | none => s2

/-- Run a launch action on the slot that holds it. The row changes nothing where the slot does not fire now, holds
another action, or the module does not run (entry 12 of the log). A contract's steps start at their slots (R10). -/
def runLaunch (k : Fin 8192) (action : Nat) (s : State) (body : LSlot → State → State) : Out :=
  if s.serving && firesNow s k.val && (s.slot k.val).action == action then
    .next (body { s.slot k.val with unit := unitFor (s.slot k.val) (s.slot k.val).next } (fireSlot s k.val))
  else .next s

end Sys2Proof.Machine
end

