-- ==== Sys2Proof/Machine/Operands.lean ====
section
/-! DEFINITION. The operand forms of the descriptor commands: the header (Table 15-2), starting a command (R381-R383),
the fetched structures and the shared checks of R390. -/

namespace Sys2Proof.Machine

/-! ## The descriptor header -/

/-- `OPC`, `FLAGS` and `CID` of a descriptor (Table 15-2). -/
def dOpc (d : Desc) : Nat := descFld d 0 1
def dFence (d : Desc) : Bool := bit d 8
def dUrgent (d : Desc) : Bool := bit d 9
def dCid (d : Desc) : Nat := descFld d 2 2

/-- The header is legal for opcode `opc`, and every byte outside the operands' ranges is 0 (R384, Table 15-2). -/
def hdrOk (d : Desc) (opc : Nat) (ranges : List (Nat × Nat)) : Bool :=
  dOpc d == opc && decide (descFld d 1 1 < 4) && dCid d != 0xFFFF && descClean d ranges

/-! ## Starting a command -/

/-- The CQ that a ring names (Table 15-15). -/
def sqCqOf (q : Sq) : Nat := fld q.cfg 21 12

/-- The submit commands (Table 15-5, 0x04-0x06) and the stream they name. -/
def submitStream (d : Desc) : Option Nat := if 4 ≤ dOpc d ∧ dOpc d ≤ 6 then some (descFld d 8 1) else none

/-- The tag of a command presented at a ring. -/
def cmdRef (sq cq at_ : Nat) (d : Desc) : CmdRef :=
  { sq := sq, cq := cq, cid := dCid d, urgent := dUrgent d, submit := submitStream d, at_ := at_ }

/-- Submits in flight, of all streams and of one (R382, R383). -/
def submitsInFlight (s : State) : Nat := s.rings.inflight.countP fun r => r.submit.isSome
def streamInFlight (s : State) (st : Nat) : Nat := s.rings.inflight.countP fun r => r.submit == some st

/-- R382, R383: a submit finds its place, of 256 a stream and 16,128 in all. -/
def submitFits (s : State) (d : Desc) : Bool :=
  match submitStream d with
  | none => true
  | some st => decide (streamInFlight s st < 256) && decide (submitsInFlight s < 16128)

/-- R382: the ring holds a submit that finds no place; R383: `INFLIGHT_LIMIT` where the limit of all submits is met. -/
def holdSubmit (s : State) (r : Nat) (d : Desc) : State :=
  let s1 := s.modSq r fun q => { q with held := some d }
  if 16128 ≤ submitsInFlight s then setStatus s1 Off.ringStatus (2 ^ 5) else s1

/-- Remove the first fetched descriptor that matches. -/
def dropFetched : List Fetched → Nat → Desc → List Fetched
  | [], _, _ => []
  | f :: fs, sq, d => if f.sq = sq ∧ f.d = d then fs else f :: dropFetched fs sq d

/-- What starting a command gives: nothing yet, or the command with its tag. -/
inductive Start where
  | notYet (s : State)
  | go (ref : CmdRef) (s : State)

/-- A command of the ring fetched before the last one that carries tag `ref` is still in flight (R381). -/
def earlierInFlight : List CmdRef → CmdRef → Bool
  | [], _ => false
  | r :: rs, ref =>
    if r = ref then false
    else if r.sq = ref.sq then true
    else earlierInFlight rs ref

/-- R381: start the command of a descriptor. A fetched descriptor starts when it is the first of those fetched; one that
is not the first waits. A descriptor that no fetch brought is taken as fetched at this moment (entry 11 of the log). A
command with `FENCE` set starts only when every earlier command of its ring has completed; until then the ring holds it. -/
def startCmd (s : State) (sq : Nat) (d : Desc) : Start :=
  let found := s.rings.fetched.find? fun f => f.sq == sq && f.d == d
  match found with
  | some f =>
    if s.rings.fetched.head? = some f then
      let ref := cmdRef sq f.cq f.at_ d
      let s := s.modRings fun x => { x with fetched := dropFetched x.fetched sq d }
      if dFence d && earlierInFlight s.rings.inflight ref then
        .notYet (s.modSq sq fun q => { q with fenced := some d })
      else .go ref s
    else .notYet s
  | none =>
    if !submitFits s d then .notYet (holdSubmit s sq d) else
    let ref := cmdRef sq (sqCqOf (s.sq sq)) s.wt.now d
    let s1 := s.modRings fun x => { x with inflight := x.inflight ++ [ref] }
    if dFence d && earlierInFlight s.rings.inflight ref then
      .notYet (s1.modSq sq fun q => { q with fenced := some d })
    else .go ref s1

/-- Run a descriptor command (R389) while the module serves commands (R529). Work outside contracts starts here and holds no
launch slot (R14). -/
def runCmd (sq : Fin 1024) (d : Desc) (s : State) (body : CmdRef → State → State) : Out :=
  if s.serving then
    match startCmd s sq.val d with
    | .notYet t => .next t
    | .go ref t => .next (body ref t)
  else .next s

/-! ## Checks in the order of R390 -/

/-- A check that fails decides the status, and the command has no effect. -/
def check (ok : Bool) (status : Nat) (ref : CmdRef) (s : State) (k : State → State) : State :=
  if ok then k s else completeWith s ref status

/-- What a read of host memory brings: while the link is down it fails as a host access error (R365). -/
def hostSays (s : State) (h : HostData) : HostData := if linkUp s then h else .accessError

/-- The fetch of a host structure (Table 14-5). -/
def fetchOf (h : HostData) (ref : CmdRef) (s : State) (k : List Byte → State → State) : State :=
  match hostSays s h with
  | .ok bs => k bs s
  | .accessError => completeWith s ref St.hostAccessError
  | .poisoned => completeWith s ref St.poisonedData
  | .badList => completeWith s ref St.invalidField

end Sys2Proof.Machine
end

