-- ==== Sys2Proof/Machine/Tally.lean ====
section
/-! DEFINITION. Tallies, snapshots and tracing (chapter 20), and the launch actions that pend a host interrupt and take a
snapshot. -/

namespace Sys2Proof.Machine

/-! ## Snapshots (R489, R490) -/

/-- R489: copy all tallies into a buffer and record the tick. -/
def capture (s : State) (b : Nat) : State :=
  s.modTly fun t => { t with snaps := mset {} t.snaps b { tick := some s.wallNow, values := t.counts } }

/-- A snapshot buffer, never captured after reset. -/
def snapOf (s : State) (b : Nat) : Snap := mget {} s.tly.snaps b

/-- `SNAP_TICK` of a buffer: all ones where it was never captured. -/
def snapTick (s : State) (b : Nat) : Nat := match (snapOf s b).tick with
  | some t => t
  | none => 2 ^ 64 - 1

/-- The bytes of n tallies of a buffer, 8 bytes each (R489). -/
def snapBytes (x : Snap) (first n : Nat) : List Byte :=
  (List.range n).flatMap fun i => leBytes 8 (mget 0 x.values (first + i)).toNat

/-- `TALLY_SNAPSHOT`, the fields (Table 15-11, R489). -/
def snapFields (d : Desc) : Bool :=
  hdrOk d 0x60 [(8, 6), (16, 8)] && decide (descFld d 8 1 < 4) && decide (descFld d 9 1 < 2)
    && decide (1 ≤ descFld d 12 2) && decide (descFld d 12 2 ≤ 1024) && decide (descFld d 10 2 + descFld d 12 2 ≤ 1024)
    && descFld d 16 8 % 8 == 0

/-- `TALLY_SNAPSHOT` once its fields are good: capture unless `HELD`, write the tallies, report the tick. -/
def snapRun (ref : CmdRef) (d : Desc) (s : State) : State :=
  let b := descFld d 8 1
  let s1 := if descFld d 9 1 = 1 then s else capture s b
  let s2 := hostWrite s1 (descFld d 16 8) (snapBytes (snapOf s1 b) (descFld d 10 2) (descFld d 12 2))
  complete s2 ref St.ok (snapTick s1 b) 0 0

/-- `TALLY_SNAPSHOT` (R489, R490). -/
def execTallySnapshot (sq : Fin 1024) (d : Desc) (s : State) : Out :=
  runCmd sq d s fun ref s =>
    check (snapFields d) St.invalidField ref s fun s => snapRun ref d s

/-- Launch action 0x2: capture into the buffer that `ARG` names; nothing is written to the host (R489). -/
def execLaunchTallySnapshot (k : Fin 8192) (s : State) : Out :=
  runLaunch k 0x2 s fun l s => capture s (l.arg % 4)

/-- Launch action 0xC: pend the source that `ARG` names (R438). -/
def execHostInterrupt (k : Fin 8192) (s : State) : Out :=
  runLaunch k 0xC s fun l s => pendSrc s l.arg

/-- Saturating 32-bit count. -/
def sat32 (n : Nat) : Nat := min n (2 ^ 32 - 1)

/-- Availability counters of a contract (R460). -/
def State.avail (s : State) (c : Nat) : Avail := mget {} s.flt.avail c
def State.modAvail (s : State) (c : Nat) (f : Avail → Avail) : State :=
  s.modFlt fun x => { x with avail := mmod {} x.avail c f }

/-- R11: a late input of stream n in contract c: the tally of the stream and the contract's counter (R460). -/
def lateInput (s : State) (c n : Nat) : State :=
  (tallyAdd s n 1).modAvail c fun a => { a with late := sat32 (a.late + 1) }

/-! ## Tracing (R491-R493) -/

/-- R491: a new work item is tagged when the LFSR's low 16 bits are below 65,536 // interval. -/
def traceTag (s : State) (kind stream : Nat) (owner : Option Nat) (ref : CmdRef) (key : Option Nat) : State :=
  match owner with
  | none => s
  | some c =>
    if !s.tly.traceEn then s
    else
      let v := Config.lfsrStep s.tly.lfsr
      let s1 := s.modTly fun t => { t with lfsr := v }
      if v.toNat % 65536 < 65536 / s.tly.interval then
        s1.modTly fun t => { t with items := t.items ++
          [{ kind := kind, stream := stream, contract := c, cid := ref.cid, sq := ref.sq, tFetch := ref.at_, key := key }] }
      else s1

/-- Update the tagged items that meet a condition. -/
def traceMark (s : State) (p : Traced → Bool) (f : Traced → Traced) : State :=
  s.modTly fun t => { t with items := t.items.map fun x => if p x then f x else x }

/-- Offset of a stage after `T_FETCH`; all ones for a stage that was not passed (R492). -/
def stageOff (x : Traced) (t : Option Nat) : Nat := match t with
  | some n => (n - x.tFetch) % 2 ^ 32
  | none => 2 ^ 32 - 1

/-- The 64 bytes of a trace record (Table 20-2). -/
def traceRecord (x : Traced) (seq : Nat) (launch : Option Nat) (frame : Nat) (late breach : Bool) : List Byte :=
  leBytes 4 seq ++ leBytes 1 x.kind ++ leBytes 1 x.stream ++ leBytes 1 x.contract
    ++ leBytes 1 (b2n late + 2 * b2n x.concealed + 4 * b2n breach) ++ leBytes 2 x.cid ++ leBytes 2 x.sq ++ zeros 4
    ++ leBytes 8 x.tFetch ++ leBytes 4 (stageOff x x.ingest) ++ leBytes 4 (stageOff x x.decStart)
    ++ leBytes 4 (stageOff x x.decDone) ++ leBytes 4 (stageOff x x.compose) ++ leBytes 4 (stageOff x x.encStart)
    ++ leBytes 4 (stageOff x x.lastSent) ++ leBytes 4 (stageOff x x.present) ++ leBytes 4 (stageOff x launch)
    ++ leBytes 8 frame

/-- Write the staged records to the host ring in `SEQ` order, cyclically (R493). -/
def traceFlush (s : State) : State :=
  if !linkUp s || s.tly.ringBytes == 0 then s
  else s.tly.staged.foldl (fun s r =>
      (hostWrite s (s.tly.ringAddr + s.tly.wptr) r).modTly fun t => { t with wptr := (t.wptr + 64) % t.ringBytes })
    (s.modTly fun t => { t with staged := [] })

/-- R492, R493: write the record of an item; dropped while trace is held back, or where the 1 MiB staging ring is full. -/
def traceWrite (s : State) (x : Traced) (launch : Option Nat) (frame : Nat) (late breach : Bool) : State :=
  if extraHeld s || decide (16384 ≤ s.tly.staged.length) then s.modTly fun t => { t with drop := min (t.drop + 1) (2 ^ 32 - 1) }
  else traceFlush (s.modTly fun t =>
    { t with staged := t.staged ++ [traceRecord x t.traceSeq launch frame late breach], traceSeq := t.traceSeq + 1 })

/-- `TRACE_CONFIG`, the fields (Table 15-11, R493): the ring and the interval are checked where tracing is turned on. -/
def traceFields (d : Desc) : Bool :=
  hdrOk d 0x61 [(8, 1), (12, 16)] && decide (descFld d 8 1 < 2)
    && (descFld d 8 1 == 0 ||
      (decide (1 ≤ descFld d 12 4) && decide (descFld d 12 4 ≤ 65536) && decide (65536 ≤ descFld d 24 4)
        && decide (descFld d 24 4 ≤ 67108864) && descFld d 24 4 % 64 == 0 && descFld d 16 8 % 4 == 0))

/-- R491, R493: tracing turned on: record numbers and drops start at 0 and the LFSR is seeded; or turned off: the staged
records are written and the tagged items dropped. -/
def traceSet (s : State) (d : Desc) : State :=
  if descFld d 8 1 = 1 then
    s.modTly fun t => { t with traceEn := true, interval := descFld d 12 4, ringAddr := descFld d 16 8, ringBytes := descFld d 24 4,
                               wptr := 0, traceSeq := 0, drop := 0, lfsr := s.link.epochMod, items := [], staged := [] }
  else (traceFlush s).modTly fun t => { t with traceEn := false, items := [] }

/-- `TRACE_CONFIG` (R491-R493). -/
def execTraceConfig (sq : Fin 1024) (d : Desc) (s : State) : Out :=
  runCmd sq d s fun ref s =>
    check (traceFields d) St.invalidField ref s fun s =>
    check (!(s.tly.traceEn && descFld d 8 1 == 1)) St.stateConflict ref s fun s =>
    completeWith (traceSet s d) ref St.ok

end Sys2Proof.Machine
end

