-- ==== Sys2Proof/Machine/Streams.lean ====
section
/-! DEFINITION. Streams: opening, closing and the submits (R45-R48, R72-R82, R108-R111), and the fetches of their data. -/

namespace Sys2Proof.Machine

/-! ## Opening (R72-R74, R108) -/

/-- Bytes of a row of w px in a raw format (Table 5-2). -/
def rawRowBytes (fmt w : Nat) : Nat :=
  match fmt with
  | 0 => w * 9 / 2
  | 3 => w * 5 / 2
  | _ => w * 4

/-- `CODEC` of `STREAM_OPEN`. -/
def codecOf (n : Nat) : Option Codec :=
  match n with
  | 0 => some .raw
  | 1 => some .hevc
  | 2 => some .av1
  | 3 => some .vvc
  | _ => none

/-- `STREAM_OPEN` of a RAW stream: fields (R108). -/
def openRawFields (d : Desc) : Bool :=
  let fmt := descFld d 11 1
  let w := descFld d 28 2
  let h := descFld d 30 2
  let st := descFld d 32 4
  descFld d 10 1 == 0 && descFld d 12 4 == 0 && descFld d 24 4 == 0
    && decide (fmt < 4) && decide (1 ≤ w) && decide (1 ≤ h) && (w % 2 == 0 || fmt == 1 || fmt == 2)
    && st % 64 == 0 && decide (rawRowBytes fmt w ≤ st)

/-- `STREAM_OPEN` of a coded stream: fields (R74, Table 15-5). `OP_POINT` is for AV1 alone. -/
def openCodedFields (d : Desc) : Bool :=
  let ib := descFld d 12 4
  descFld d 11 1 == 0 && descFld d 28 8 == 0
    && (descFld d 10 1 == 0 || (descFld d 9 1 == 2 && decide (descFld d 10 1 < 32)))
    && decide (1048576 ≤ ib) && decide (ib ≤ 268435456) && ib % 65536 == 0
    && decide (1 ≤ descFld d 24 4) && decide (descFld d 24 4 ≤ 65536)

/-- `STREAM_OPEN`, the fields. -/
def openFields (d : Desc) : Bool :=
  hdrOk d 0x02 [(8, 8), (16, 12), (28, 8)] &&
    (match codecOf (descFld d 9 1) with
     | some .raw => openRawFields d
     | some _ => openCodedFields d
     | none => false)

/-- Bytes of all placed objects; the firmware's share of DRAM is 56 GiB (R401). -/
def placedBytes (s : State) : Nat := (s.mem.placed.map fun p => p.2).foldl (· + ·) 0
def fits (s : State) (n : Nat) : Bool := decide (placedBytes s + n ≤ 56 * 2 ^ 30)

/-- A stream that has just become OPEN. -/
def openStream (codec : Codec) (d : Desc) (rec : StreamRec) (sets : List (List Byte)) (store ibuf : Nat) : Stream :=
  { state := .open_, codec := codec, opPoint := descFld d 10 1, record := rec, seq := rec, sets := sets, ibufBytes := descFld d 12 4,
    ibufAddr := ibuf, storeAddr := store, rawFmt := descFld d 11 1,
    width := if codec = .raw then descFld d 28 2 else rec.width,
    height := if codec = .raw then descFld d 30 2 else rec.height, stride := descFld d 32 4 }

/-- The record that a RAW stream keeps. -/
def rawRecord (d : Desc) : StreamRec := { width := descFld d 28 2, height := descFld d 30 2 }

/-- Open a RAW stream: three frame buffers (R108). -/
def openRaw (ref : CmdRef) (d : Desc) (s : State) : State :=
  let n := 3 * (descFld d 32 4 * descFld d 30 2)
  check (fits s n) St.noResource ref s fun s =>
  let (a, s1) := place s n
  complete (s1.modStream (descFld d 8 1) fun _ => openStream .raw d (rawRecord d) [] a 0) ref St.ok a 0 0

/-- Open a coded stream: picture store and input buffer (R73). -/
def openCoded (ref : CmdRef) (d : Desc) (codec : Codec) (r : StreamRec) (bs : List Byte) (s : State) : State :=
  check (fits s (storeBytes r + descFld d 12 4)) St.noResource ref s fun s =>
  let (a, s1) := place s (storeBytes r)
  let (b, s2) := place s1 (descFld d 12 4)
  complete (s2.modStream (descFld d 8 1) fun _ => openStream codec d r [bs] a b) ref St.ok a 0 0

/-- The configuration record was read (R71, R72): refused, or opened. -/
def openParsed (ref : CmdRef) (d : Desc) (codec : Codec) (cfg : CfgParse) (bs : List Byte) (s : State) : State :=
  check (recordFormat codec bs) St.invalidField ref s fun s =>
  match cfg with
  | .malformed => completeWith s ref St.invalidField
  | .ok r => check (seqSupported codec r) St.unsupportedTool ref s fun s => openCoded ref d codec r bs s

/-- `STREAM_OPEN` (R48, R71-R74, R108). -/
def execStreamOpen (sq : Fin 1024) (d : Desc) (h : HostData) (cfg : CfgParse) (s : State) : Out :=
  runCmd sq d s fun ref s =>
    check (openFields d) St.invalidField ref s fun s =>
    check ((s.stream (descFld d 8 1)).state == .closed) St.stateConflict ref s fun s =>
    match codecOf (descFld d 9 1) with
    | some .raw => openRaw ref d s
    | some c => fetchOf h ref s fun bs s => openParsed ref d c cfg bs s
    | none => completeWith s ref St.invalidField

/-! ## Closing (R47, R82) -/

/-- A stream's buffers are freed and it is CLOSED (R82, Table 3-2). -/
def closedStream (s : State) (n : Nat) : State :=
  let x := s.stream n
  (unplace (unplace s x.storeAddr) x.ibufAddr).modStream n fun _ => {}

/-- R47: a FLUSHING stream with no submit left becomes CLOSED, and its `STREAM_CLOSE`s complete. -/
def tryClose (s : State) (n : Nat) : State :=
  let x := s.stream n
  if x.state = .flushing ∧ x.units.isEmpty ∧ x.rawQueue.isEmpty then
    x.closes.foldl (fun t r => completeWith t r St.ok) (closedStream s n)
  else s

/-- Table 3-3: a contract that is not FREE names the stream as a source, in the list in force or in a layout that waits for
its frame (R52). -/
def namesStream (c : Contract) (n : Nat) : Bool :=
  c.state != .free && (c.sources.any (fun x => x.stream == n) || c.deferred.any fun d => match d.change with
    | .layout _ xs _ => xs.any fun x => x.stream == n
    | _ => false)
def streamNamed (s : State) (n : Nat) : Bool := s.contracts.any fun p => namesStream p.2 n

/-- Units that are not being decoded yet, and the raw submits (R82). -/
def queuedRefs (x : Stream) : List CmdRef :=
  (x.units.filter fun u => u.phase != .decoding).map (fun u => u.ref) ++ x.rawQueue.map fun r => r.ref

/-- R82: the queued units of a stream end with `ABORTED`; the units being decoded go on. -/
def flushStream (s : State) (n : Nat) (ref : CmdRef) : State :=
  let x := s.stream n
  let s1 := s.modStream n fun x => { x with
    state := .flushing, closes := x.closes ++ [ref], units := x.units.filter fun u => u.phase == .decoding, rawQueue := [] }
  tryClose ((queuedRefs x).foldl (fun t r => completeWith t r St.aborted) s1) n

/-- `STREAM_CLOSE` once its fields are good. -/
def streamCloseRun (ref : CmdRef) (n : Nat) (s : State) : State :=
  match (s.stream n).state with
  | .closed => completeWith s ref St.ok
  | .flushing => s.modStream n fun x => { x with closes := x.closes ++ [ref] }
  | .open_ => flushStream s n ref

/-- `STREAM_CLOSE` (R47, R48, R82). -/
def execStreamClose (sq : Fin 1024) (d : Desc) (s : State) : Out :=
  runCmd sq d s fun ref s =>
    check (hdrOk d 0x03 [(8, 1)]) St.invalidField ref s fun s =>
    check (!streamNamed s (descFld d 8 1)) St.stateConflict ref s fun s =>
    streamCloseRun ref (descFld d 8 1) s

/-! ## Access units (R77-R80) -/

/-- Bytes that fetched and fetching units take in the input buffer. -/
def ibufRoom (x : Stream) (u : Au) : Bool := decide (x.ibufUsed + u.bytes ≤ x.ibufBytes)

/-- R78: the first unit that waits starts its fetch when the input buffer has room. -/
def startFetch : List Au → Nat → Nat → Nat × List Au
  | [], _, used => (used, [])
  | u :: us, total, used =>
    if u.phase = .waiting then
      if used + u.bytes ≤ total then (used + u.bytes, { u with phase := .fetching } :: us) else (used, u :: us)
    else
      let r := startFetch us total used
      (r.1, u :: r.2)

/-- Start the fetch of the first waiting unit of a stream where there is room. -/
def fetchNext (x : Stream) : Stream :=
  let r := startFetch x.units x.ibufBytes x.ibufUsed
  { x with ibufUsed := r.1, units := r.2 }

/-- A unit waits for room. -/
def anyWaiting (x : Stream) : Bool := x.units.any fun u => u.phase == .waiting

/-- The unit of an `AU_SUBMIT`. -/
def auOf (ref : CmdRef) (d : Desc) : Au :=
  { ref := ref, bytes := descFld d 24 4, addr := descFld d 16 8, sgl := bit d 73, eos := bit d 72 }

/-- R491: tag the work item of a submit. -/
def tagSubmit (s : State) (kind n : Nat) (ref : CmdRef) (key : Option Nat) : State :=
  if streamNamed s n then traceTag s kind n (s.stream n).owner ref key else s

/-- `AU_SUBMIT` accepted: the unit is queued, and its fetch starts where nothing waits before it and there is room. -/
def auAccept (ref : CmdRef) (d : Desc) (s : State) : State :=
  let n := descFld d 8 1
  let s := tagSubmit s 1 n ref none
  s.modStream n fun x =>
    let y := { x with submits := x.submits + 1, units := x.units ++ [auOf ref d] }
    if anyWaiting x then y else fetchNext y

/-- `AU_SUBMIT` (R48, R77, R78). The kind of the stream and the unit's size are checked against the stream, so after its
state (entry 14 of the log). -/
def execAuSubmit (sq : Fin 1024) (d : Desc) (s : State) : Out :=
  runCmd sq d s fun ref s =>
    check (hdrOk d 0x04 [(8, 2), (16, 12)] && decide (descFld d 9 1 < 4)) St.invalidField ref s fun s =>
    let x := s.stream (descFld d 8 1)
    check (x.state == .open_) St.stateConflict ref s fun s =>
    check (x.codec != .raw && decide (descFld d 24 4 ≤ x.ibufBytes / 2)) St.invalidField ref s fun s =>
    auAccept ref d s

/-- Status with which a fetch ends (Table 14-5, R430). 0 is a good fetch. -/
def fetchStatus (h : HostData) : Nat :=
  match h with
  | .ok _ => 0
  | .accessError => St.hostAccessError
  | .poisoned => St.poisonedData
  | .badList => St.invalidField

/-- The bytes that a fetch brought. -/
def fetchBytes : HostData → List Byte
  | .ok bs => bs
  | _ => []

/-- Table 4-7: a unit with these bytes and headers is a random-access point. -/
def isRap (codec : Codec) (bs : List Byte) (info : UnitInfo) : Bool :=
  info.rap || match unitKind codec bs with
    | .idr => true
    | .cra => true
    | .bla => true
    | _ => false

/-- Fill in what the fetch of the first fetching unit brought. -/
def auFetched (codec : Codec) (h : HostData) (info : UnitInfo) : List Au → List Au
  | [] => []
  | u :: us =>
    if u.phase = .fetching then
      let bs := (fetchBytes h).take u.bytes
      { u with phase := .complete, data := bs, info := info, rap := isRap codec bs info, bad := fetchStatus h } :: us
    else u :: auFetched codec h info us

/-- A unit whose fetch failed is not decoded (Table 4-6), nor one whose list is bad (R430). -/
def auDead (u : Au) : Bool := u.phase == .complete && (u.bad == St.hostAccessError || u.bad == St.invalidField)

/-- The bytes of a unit leave the input buffer. -/
def freeUnit (x : Stream) (u : Au) : Stream := { x with ibufUsed := x.ibufUsed - u.bytes }

/-- Cores of the window that admission gave a stream, in the contract that named it first (R85). -/
def streamWindow (s : State) (n : Nat) : Option Window :=
  match (s.stream n).owner with
  | some c => (s.contract c).windows.find? fun w => w.stream == n
  | none => none
def streamCores (s : State) (n : Nat) : List Nat :=
  match streamWindow s n with
  | some w => w.cores
  | none => []

/-- `ERR_CLASS` bit of `HOST_ACCESS`. -/
def hostAccessClass : Nat := 2 ^ 5

/-- Units at the head of the queue that are not decoded complete in order (R381): `HOST_ACCESS_ERROR` with its class. -/
def dropDead (n : Nat) : List Au → State → State
  | [], s => s
  | u :: us, s =>
    if auDead u then
      let host := u.bad == St.hostAccessError
      let s1 := s.modStream n fun x => { freeUnit x u with units := x.units.drop 1 }
      let s2 := if host then (streamCores s n).foldl (fun t c => setStatus t (Off.decErr c) hostAccessClass) s1 else s1
      dropDead n us (complete s2 u.ref u.bad 0 0 (if host then hostAccessClass else 0))
    else s

/-- The dead units at a stream's head complete, and a flushing stream may close. -/
def settle (s : State) (n : Nat) : State := tryClose (dropDead n (s.stream n).units s) n

/-- Tag of the first fetching unit. -/
def fetchingRef (x : Stream) : Option CmdRef := (x.units.find? fun u => u.phase == .fetching).map fun u => u.ref

/-- Trace stage `INGEST` of a submit. -/
def markIngest (s : State) (ref : CmdRef) : State :=
  traceMark s (fun t => t.sq == ref.sq && t.cid == ref.cid && t.ingest.isNone) fun t => { t with ingest := some s.wallNow }

/-- `AU_FETCH_COMPLETE`: the first fetching unit of the stream is complete (R78). -/
def execAuFetchComplete (st : Fin 256) (h : HostData) (info : UnitInfo) (s : State) : Out :=
  match fetchingRef (s.stream st.val) with
  | some ref =>
    .next (settle (markIngest (s.modStream st.val fun x => { x with units := auFetched x.codec (hostSays s h) info x.units }) ref) st.val)
  | none => .next s

/-- `UNIT_FETCH_RESUME`: decoding freed room for the fetch of the next unit (R78). -/
def execUnitFetchResume (st : Fin 256) (s : State) : Out := .next (s.modStream st.val fetchNext)

/-! ## Raw frames and slices (R109, R111) -/

/-- Some contract uses a frame buffer of a stream for its current frame (R109). -/
def bufInUse (s : State) (n b : Nat) : Bool :=
  s.contracts.any fun p => contractActive p.2 &&
    (usedKeys p.2 n).any fun k => mget none p.2.selected k == some b

/-- A raw frame buffer. -/
def rawBuf (x : Stream) (b : Nat) : RawBuf := mget {} x.bufs b

/-- A buffer that a new frame may take: neither in use nor the newest complete frame (R109, R111). -/
def bufFree (s : State) (n b : Nat) : Bool := !bufInUse s n b && (s.stream n).newest != some b

/-- An incomplete frame is in a buffer. -/
def bufPartial (r : RawBuf) : Bool := r.held && !r.complete

/-- The buffer a new frame takes: one without an incomplete frame first, then the lowest (entry 15 of the log). -/
def chooseBuf (s : State) (n : Nat) : Option Nat :=
  match [0, 1, 2].find? fun b => bufFree s n b && !bufPartial (rawBuf (s.stream n) b) with
  | some b => some b
  | none => [0, 1, 2].find? (bufFree s n)

/-- A buffer is taken for a new frame; an incomplete frame in it is abandoned and counts as a late input (R111). -/
def takeBuf (s : State) (n b : Nat) (tag : Nat) (sliced : Bool) : State :=
  let old := rawBuf (s.stream n) b
  let s1 := if bufPartial old then tallyAdd (s.modStream n fun x => { x with abandoned := some old.tag }) n 1 else s
  s1.modStream n fun x => { x with
    frameSeq := x.frameSeq + 1, bufs := mset {} x.bufs b { held := true, tag := tag, sliced := sliced, seq := x.frameSeq + 1 } }

/-- The buffer that carries a slice's tag (R111). -/
def bufOfTag (x : Stream) (tag : Nat) : Option Nat := [0, 1, 2].find? fun b => (rawBuf x b).held && (rawBuf x b).tag == tag

/-- Drop the head of the raw queue. -/
def popRaw (x : Stream) : Stream := { x with rawQueue := x.rawQueue.drop 1 }

/-- Give the head of the raw queue its buffer. -/
def headBuf (x : Stream) (b : Nat) : Stream :=
  match x.rawQueue with
  | [] => x
  | r :: rs => { x with rawQueue := { r with buf := some b } :: rs }

/-- The head of the raw queue takes its buffer and is fetched, or waits; a slice of an abandoned frame completes with
`ABORTED` and the next is tried (R109, R111). The number bounds the slices dropped. -/
def startRaw (n : Nat) : Nat → State → State
  | 0, s => s
  | k + 1, s =>
    match (s.stream n).rawQueue with
    | [] => s
    | r :: _ =>
      if r.buf.isSome then s
      else if r.slice.isSome && (bufOfTag (s.stream n) r.tag).isNone && (s.stream n).abandoned == some r.tag then
        startRaw n k (completeWith (s.modStream n popRaw) r.ref St.aborted)
      else
        match (if r.slice.isSome then bufOfTag (s.stream n) r.tag else none) with
        | some b => s.modStream n fun x => headBuf x b
        | none =>
          match chooseBuf s n with
          | some b => (takeBuf s n b r.tag r.slice.isSome).modStream n fun x => headBuf x b
          | none => s

/-- Try the head of a stream's raw queue. -/
def rawGo (s : State) (n : Nat) : State := tryClose (startRaw n ((s.stream n).rawQueue.length + 1) s) n

/-- Slices of a raw frame (R111). -/
def sliceCount (x : Stream) : Nat := ceilDiv x.height 64

/-- Rows of slice j. -/
def sliceRows (x : Stream) (j : Nat) : Nat := min 64 (x.height - 64 * j)

/-- A raw submit accepted. -/
def rawAccept (ref : CmdRef) (d : Desc) (slice : Option Nat) (s : State) : State :=
  let n := descFld d 8 1
  let s := tagSubmit s (if slice.isSome then 3 else 2) n ref (some (descFld d 12 4))
  let r : RawSubmit := { ref := ref, tag := descFld d 12 4, slice := slice, bytes := descFld d 24 4,
                         addr := descFld d 16 8, sgl := bit d 73 }
  rawGo (s.modStream n fun x => { x with submits := x.submits + 1, rawQueue := x.rawQueue ++ [r] }) n

/-- `RAW_FRAME_SUBMIT` (R48, R109). The stream's kind and the byte count are checked after its state (entry 14). -/
def execRawFrameSubmit (sq : Fin 1024) (d : Desc) (s : State) : Out :=
  runCmd sq d s fun ref s =>
    check (hdrOk d 0x05 [(8, 2), (12, 16)] && (descFld d 9 1 == 0 || descFld d 9 1 == 2)) St.invalidField ref s fun s =>
    let x := s.stream (descFld d 8 1)
    check (x.state == .open_) St.stateConflict ref s fun s =>
    check (x.codec == .raw && descFld d 24 4 == x.stride * x.height) St.invalidField ref s fun s =>
    rawAccept ref d none s

/-- `RAW_SLICE_SUBMIT` (R48, R111). -/
def execRawSliceSubmit (sq : Fin 1024) (d : Desc) (s : State) : Out :=
  runCmd sq d s fun ref s =>
    check (hdrOk d 0x06 [(8, 20)] && (descFld d 9 1 == 0 || descFld d 9 1 == 2)) St.invalidField ref s fun s =>
    let x := s.stream (descFld d 8 1)
    let j := descFld d 10 2
    check (x.state == .open_) St.stateConflict ref s fun s =>
    check (x.codec == .raw && decide (j < sliceCount x) && descFld d 24 4 == x.stride * sliceRows x j)
      St.invalidField ref s fun s =>
    rawAccept ref d (some j) s

/-- Device address of frame buffer b, and of the rows that a submit fills in it. -/
def bufAddr (x : Stream) (b : Nat) : Nat := x.storeAddr + b * (x.stride * x.height)
def rawDest (x : Stream) (r : RawSubmit) (b : Nat) : Nat :=
  bufAddr x b + (match r.slice with
    | some j => 64 * j * x.stride
    | none => 0)

/-- The slices of a buffer after slice j arrived. -/
def addSlice (r : RawBuf) (j : Nat) : RawBuf := if r.slices.contains j then r else { r with slices := j :: r.slices }

/-- What the arrival of a frame or slice does to the buffer: it is complete with its last slice (R111). -/
def arrived (x : Stream) (r : RawSubmit) (b : Nat) : RawBuf :=
  let old := rawBuf x b
  let new := match r.slice with
    | some j => addSlice old j
    | none => old
  if old.complete then new
  else { new with complete := r.slice.isNone || decide (sliceCount x ≤ new.slices.length) }

/-- A completed frame replaces the newest complete frame (R109). -/
def rawArrive (x : Stream) (r : RawSubmit) (b : Nat) : Stream :=
  let nb := arrived x r b
  let y := { popRaw x with bufs := mset {} x.bufs b nb }
  if nb.complete && !(rawBuf x b).complete then { y with newest := some b } else y

/-- A submit whose fetch failed leaves a frame buffer empty again, and a sliced frame without the slice. -/
def rawFail (x : Stream) (r : RawSubmit) (b : Nat) : Stream :=
  if r.slice.isSome && !(rawBuf x b).slices.isEmpty then popRaw x
  else { popRaw x with bufs := mset {} x.bufs b {} }

/-- `RAW_FETCH_DONE`: the data of the head of the raw queue is in its buffer (R391), or its fetch failed. -/
def rawDone (n : Nat) (h : HostData) (r : RawSubmit) (b : Nat) (s : State) : State :=
  match h with
  | .ok bs =>
    let s1 := memWrite s (rawDest (s.stream n) r b) (bs.take r.bytes)
    let s2 := markIngest (s1.modStream n fun x => rawArrive x r b) r.ref
    rawGo (complete s2 r.ref St.ok b 0 0) n
  | _ => rawGo (completeWith (s.modStream n fun x => rawFail x r b) r.ref (fetchStatus h)) n

/-- `RAW_FETCH_DONE` (R109, R111, R391). -/
def execRawFetchDone (st : Fin 256) (h : HostData) (s : State) : Out :=
  match (s.stream st.val).rawQueue with
  | [] => .next s
  | r :: _ =>
    match r.buf with
    | some b => .next (rawDone st.val (hostSays s h) r b s)
    | none => .next s

/-- `RAW_FETCH_RESUME`: a buffer qualifies now (R109, R111). -/
def execRawFetchResume (st : Fin 256) (s : State) : Out := .next (rawGo s st.val)

end Sys2Proof.Machine
end

