-- ==== Sys2Proof/Machine/DecodeCores.lean ====
section
/-! DEFINITION. The decode cores: decode starts (R81-R87), finished pictures and their status (R79, R89-R96), and the
repair after a takeover (R102). The decoding processes themselves are texts outside the spec: what decoding a unit gave
is the operand of PICTURE_DECODE_DONE. -/

namespace Sys2Proof.Machine

/-! ## Decode start -/

/-- Frame period of a contract in whole ticks (R60). -/
def periodTicks (c : Contract) : Nat := c.pnum / c.pden

/-- R83: the pictures that a window must decode. -/
def windowPictures (codec : Codec) (p : Nat) (src : Source) : Nat :=
  let m := if src.psrc < p then (p + src.psrc - 1) / src.psrc else 1
  if codec = .av1 ∧ 1 ≤ src.reorder then 2 * m else m

/-- The source record of a stream in a contract. -/
def sourceOf (c : Contract) (n : Nat) : Source := (c.sources.find? fun x => x.stream == n).getD {}

/-- Complete units at the head of a queue, in decode order. -/
def completeUnits (x : Stream) : List Au := x.units.filter fun u => u.phase == .complete

/-- Number of units before the newest random-access point of a list; 0 where it has none. -/
def newestRap (us : List Au) : Nat :=
  (us.length - 1) - (us.reverse.findIdx fun u => u.rap)

/-- R81: the number of units that an oversized backlog loses. -/
def backlogDrop (m reorder : Nat) (us : List Au) : Nat :=
  if m + reorder + 1 < us.length && (us.drop m).any (fun u => u.rap) then newestRap us else 0

/-- Drop the first k complete units of a queue. -/
def dropComplete : Nat → List Au → List Au
  | 0, us => us
  | _, [] => []
  | k + 1, u :: us => if u.phase = .complete then dropComplete k us else u :: dropComplete (k + 1) us

/-- R81: the units before the newest random-access point end with `ABORTED`, are tallied and set `BACKLOG_DROP`. Decoding
starts anew at that point (R95). -/
def applyBacklog (s : State) (n core m reorder : Nat) : State :=
  let us := completeUnits (s.stream n)
  let k := backlogDrop m reorder us
  if k = 0 then s
  else
    let gone := us.take k
    let s1 := s.modStream n fun x => gone.foldl freeUnit { x with units := dropComplete k x.units, needRap := true }
    let s2 := gone.foldl (fun t u => completeWith t u.ref St.aborted) s1
    setStatus (tallyAdd s2 (320 + 4 * core + 2) k) (Off.decErr core) (2 ^ 8)

/-! ## What a unit is (R71, R76, R77, R83, R95) -/

/-- The sequence and the PPS structures that a unit is decoded with. -/
def seqOf (x : Stream) (u : Au) : StreamRec := u.info.seq.getD x.seq
def ppsOf (x : Stream) (u : Au) : List Parallel := u.info.pps.getD ((seqOf x u).pps.headD [])

/-- R76: the sequence exceeds the stream record. -/
def tooBig (x : Stream) (r : StreamRec) : Bool :=
  decide (x.record.width < r.width) || decide (x.record.height < r.height) || decide (x.record.chroma < r.chroma)
    || decide (x.record.depth < r.depth)

/-- The bytes of the unit are poisoned (Table 4-6). -/
def poisonedUnit (u : Au) : Bool := u.bad == St.poisonedData

/-- R77: the unit is in another format, or holds more than one access or temporal unit. -/
def badFormat (x : Stream) (u : Au) : Bool := !poisonedUnit u && !unitFormat x.codec u.data

/-- R71, R76, R83: the unit, or the sequence it belongs to, is not supported. -/
def unsupportedUnit (x : Stream) (u : Au) : Bool :=
  (x.unsupported && !u.rap) || (!poisonedUnit u &&
    (!seqSupported x.codec (seqOf x u) || tooBig x (seqOf x u) || hasTileList x.codec u.data
      || (x.codec == .av1 && decide (2 < u.info.frames))))

/-- R95: a RASL unit of a CRA or BLA picture at which decoding started. -/
def skippedUnit (x : Stream) (u : Au) : Bool := x.skipRasl && unitKind x.codec u.data == .rasl && !unsupportedUnit x u

/-- The decoder works on the unit. -/
def decodesUnit (x : Stream) (u : Au) : Bool :=
  !unsupportedUnit x u && !skippedUnit x u && !poisonedUnit u && !badFormat x u

/-! ## Taking units (R87, R88) -/

/-- The core that a slot's takeovers lead to (R13). -/
def lastUnit (l : LSlot) : Nat := (l.takeover.getLast?.map fun t => t.2).getD l.unit

/-- The decode-start slot belongs to a window that its contract still gives the stream. -/
def liveDecode (s : State) (l : LSlot) : Bool :=
  l.rel && l.action == 3 && (s.contract l.contract).windows.any fun w => w.stream == l.arg && w.cores.contains (lastUnit l)

/-- The core set of a stream in a frame of contract c: the units of its slots (R13), each once. -/
def frameCores (s : State) (c n frame : Nat) : List Nat :=
  ((s.wt.slots.filter fun p => liveDecode s p.2 && p.2.contract == c && p.2.arg == n).map fun p => unitFor p.2 frame).foldl
    (fun xs i => if xs.contains i then xs else xs ++ [i]) []

/-- Pictures that a unit costs in its window; a unit that is not decoded costs none. -/
def unitCost (x : Stream) (u : Au) : Nat := if unsupportedUnit x u then 0 else u.info.frames

/-- R88: the cores that decode the i-th unit taken in a window; in picture pairs they alternate. -/
def coresFor (x : Stream) (cores : List Nat) (i : Nat) : List Nat :=
  if inPairs x.record then match cores[(x.picCount + i) % max 1 cores.length]? with
    | some c => [c]
    | none => []
  else cores

/-- A unit taken in the window of `frame`; of a pair the second picture notes the first. Work dealt to a core that has been
retired is left (R13, R101). -/
def takenUnit (s : State) (x : Stream) (cores : List Nat) (frame i : Nat) (prev : Option Int) (u : Au) : Au :=
  let cs := coresFor x cores i
  { u with phase := .decoding, decFrame := frame, cores := cs, cut := cs.filter fun c => (s.dec c).role == .retired
           second := if inPairs x.record && cores.length == 2 && i % 2 == 1 then prev else none }

/-- R87: complete units, in decode order, become units being decoded, up to m pictures; the first one always. -/
def takeUnits (cost : Au → Nat) (take : Nat → Option Int → Au → Au) : Nat → Nat → Option Int → List Au → List Au
  | _, _, _, [] => []
  | m, i, prev, u :: us =>
    if u.phase = .complete then
      if cost u ≤ m ∨ i = 0 then take i prev u :: takeUnits cost take (m - cost u) (i + 1) (some u.info.order) us else u :: us
    else if u.phase = .decoding then u :: takeUnits cost take m i prev us
    else u :: us

/-- Units are being decoded. -/
def decoding (x : Stream) : Bool := x.units.any fun u => u.phase == .decoding

/-- A stream has had its turn: frames of period P that it showed or idled through cover its own period, each of them a tick
longer at most. -/
def frameDue (p psrc k : Nat) : Bool := decide (psrc ≤ k * (p + 1))

/-- R11: at the decode start a picture is due and fewer than m have arrived. A stream that has shown none yet counts at its
composition start, and one that has ended does not count (entry 21 of the log). -/
def lateAu (p m : Nat) (src : Source) (x : Stream) : Bool :=
  x.shown.isSome && !x.needRap && frameDue p src.psrc (x.idleWins + 1)
    && decide (((completeUnits x).map fun u => u.info.frames).foldl (· + ·) 0 < m)

/-- Trace stage `DEC_START`. -/
def markDecStart (s : State) (us : List Au) : State :=
  us.foldl (fun t u => if u.phase = .decoding then
      traceMark t (fun i => i.sq == u.ref.sq && i.cid == u.ref.cid && i.decStart.isNone) fun i => { i with decStart := some s.wallNow }
    else t) s

/-- R88: the second picture of a pair waits for the first where it refers to it. -/
def waitsForFirst (x : Stream) (u : Au) : Bool := match u.second with
  | some o => u.info.refs.contains o && x.units.any fun v => v.phase == .decoding && v.info.order == o
  | none => false

/-- A core works on a unit of a stream. -/
def coreBusy (x : Stream) (core : Nat) : Bool :=
  x.units.any fun u => u.phase == .decoding && u.cores.contains core && !u.cut.contains core && !waitsForFirst x u

/-- The cores show what the stream's units give them to do. -/
def refreshCores (s : State) (n : Nat) : State :=
  (List.range 16).foldl (fun t c =>
    let d := t.dec c
    if d.role == .active && d.act != 2 && coreBusy (s.stream n) c then t.modDec c fun d => { d with act := 1, stream := some n }
    else if d.stream == some n && d.act == 1 then t.modDec c fun d => { d with act := 0, stream := none } else t) s

/-- The decode start of a stream, done once per frame for its whole core set. -/
def streamDecodeStart (s : State) (c n core frame : Nat) : State :=
  let src := sourceOf (s.contract c) n
  let p := periodTicks (s.contract c)
  let m := windowPictures (s.stream n).codec p src
  let s1 := if lateAu p m src (s.stream n) then lateInput s c n else s
  let s2 := applyBacklog s1 n core m src.reorder
  let x := s2.stream n
  let us := takeUnits (unitCost x) (takenUnit s2 x (frameCores s2 c n frame) frame) m 0 none x.units
  let busy := us.any fun u => u.phase == .decoding
  let s3 := s2.modStream n fun y => { y with units := us, pictureDone := !busy, idleWins := if busy then 0 else y.idleWins + 1 }
  refreshCores (markDecStart s3 us) n

/-- The slot is the first of the live decode-start slots of its stream in its contract. -/
def firstOfSet (s : State) (k : Nat) (l : LSlot) : Bool :=
  !(s.wt.slots.any fun p => decide (p.1 < k) && liveDecode s p.2 && p.2.contract == l.contract && p.2.arg == l.arg)

/-- R102: a repair still running at the core's decode start is abandoned. -/
def abandonRepair (s : State) (core : Nat) : State :=
  if (s.dec core).repair.isSome then s.modDec core fun d => { d with repair := none, act := 0, stream := none } else s

/-- `DECODE_START` on core `UNIT` for stream `ARG`: the first slot of the set starts the window. -/
def decodeStartOp (s : State) (k : Nat) (l : LSlot) : State :=
  let s1 := abandonRepair s l.unit
  if liveDecode s l && firstOfSet s k l then streamDecodeStart s1 l.contract l.arg l.unit l.next else s1

/-- `DECODE_START` (launch action 0x3; R81, R83, R87). -/
def execDecodeStart (k : Fin 8192) (s : State) : Out :=
  runLaunch k 0x3 s fun l s => decodeStartOp s k.val l

/-! ## Places in output order and the stand-in (R89, R93) -/

/-- Output order of pictures: coded sequences in turn, the order count within one. -/
def before (c1 : Nat) (o1 : Int) (c2 : Nat) (o2 : Int) : Bool := decide (c1 < c2) || (c1 == c2 && decide (o1 < o2))
def picBefore (p q : Picture) : Bool := before p.cvs p.order q.cvs q.order

/-- The later of two pictures in output order. -/
def laterPic (a : Option Picture) (q : Picture) : Option Picture := match a with
  | none => some q
  | some p => if picBefore p q then some q else some p

/-- The coded sequence the picture belongs to: after the end of a sequence (R80) a new one begins in any case, so that no
earlier picture serves as a reference. -/
def cvsOf (x : Stream) (u : Au) : Nat := if u.info.newSeq || x.needRap then x.cvs + 1 else x.cvs

/-- R93: the stand-in for a picture at a place in output order: the latest correctly decoded picture before it. -/
def standIn (x : Stream) (cvs : Nat) (order : Int) : Option Picture :=
  (x.pictures.filter fun p => !p.concealed && !p.standin && !p.hidden && before p.cvs p.order cvs order).foldl laterPic none

/-- The mid-grey picture (R93). -/
def midGrey (x : Stream) : Picture :=
  { width := x.record.width, height := x.record.height, chroma := x.record.chroma, depth := x.record.depth,
    standin := true, midgrey := true, concealed := true, colour := 0xFFFFFFFF }

/-- A copy of the stand-in (R91, R98). -/
def standInCopy (x : Stream) (cvs : Nat) (order : Int) : Picture := match standIn x cvs order with
  | some p => { p with standin := true, concealed := true, under := some p.data, available := false }
  | none => midGrey x

/-! ## References (R93) -/

/-- A reference picture of a unit, where it has been received. -/
def refPic (x : Stream) (u : Au) (o : Int) : Option Picture :=
  x.pictures.find? fun p => p.cvs == cvsOf x u && p.order == o
def refPics (x : Stream) (u : Au) : List Picture := u.info.refs.filterMap (refPic x u)

/-- References that were never received; a frame to be shown that was never decoded counts among them. -/
def missingRefs (x : Stream) (u : Au) : Bool :=
  u.info.refs.any (fun o => (refPic x u o).isNone) || (u.info.shows && (refPic x u u.info.order).isNone)

/-- The numbers of the pictures that a unit refers to: the stand-in takes the place of a missing one. -/
def refNumbers (x : Stream) (u : Au) : List (Option Nat) :=
  u.info.refs.map fun o => match refPic x u o with
    | some p => some p.content
    | none => (standIn x (cvsOf x u) u.info.order).map fun p => p.content

/-! ## Errors and marks (R91-R95, R101) -/

/-- The whole picture is concealed: a parameter, the unit's bytes, an unsupported unit, or no unit in its format (Table 4-6). -/
def fullConceal (x : Stream) (u : Au) (o : DecOutcome) : Bool :=
  poisonedUnit u || unsupportedUnit x u || badFormat x u || o.paramError || (u.info.shows && missingRefs x u)

/-- Error classes that conceal, in the layout of `DEC_ERR` (Table 4-13): syntax, parameter, missing reference, poison. -/
def concealClasses (x : Stream) (u : Au) (o : DecOutcome) : Nat :=
  let dec := decodesUnit x u
  b2n (badFormat x u || (dec && o.syntaxError)) + 2 * b2n (dec && o.paramError) + 8 * b2n (dec && missingRefs x u)
    + 16 * b2n (poisonedUnit u || (dec && o.poisonedRef))

/-- The unit met an error of its own. -/
def ownError (x : Stream) (u : Au) (o : DecOutcome) : Bool := concealClasses x u o != 0 || unsupportedUnit x u

/-- R95: the picture lies before the recovery point of the GDR picture at which decoding started. -/
def recovering (x : Stream) (u : Au) : Bool :=
  !u.rap && ((match x.recovery with
    | some r => decide (u.info.order < r)
    | none => false) || (unitKind x.codec u.data == .gdr && (x.needRap || x.concealing)))

/-- R91: an error, or a reference that an error marked, concealed the picture; R94: only until concealment ends. -/
def errorMark (x : Stream) (u : Au) (o : DecOutcome) : Bool :=
  ownError x u o || recovering x u || (x.concealing && (refPics x u).any fun p => p.concealed && !p.blamed)

/-- The CTUs of the work units that retired cores held (R101). -/
def cutCtus (x : Stream) (u : Au) : List Nat :=
  if u.cut.isEmpty then []
  else ((dealUnits x.codec (seqOf x u) (ppsOf x u) u.cores).filter fun p => u.cut.contains p.1).flatMap fun p => p.2

/-- R101, R102: a retired core, or a reference that it left concealed, marked the picture. -/
def cutMark (x : Stream) (u : Au) : Bool :=
  decodesUnit x u && (!(cutCtus x u).isEmpty || (x.blaming && (refPics x u).any fun p => p.concealed && p.blamed))

/-- The unit's picture is marked CONCEALED. -/
def marked (x : Stream) (u : Au) (o : DecOutcome) : Bool := errorMark x u o || cutMark x u

/-- R92: the status of a unit. -/
def unitStatus (x : Stream) (u : Au) (o : DecOutcome) : Nat :=
  if concealClasses x u o &&& 16 ≠ 0 then St.poisonedData
  else if unsupportedUnit x u then St.unsupportedTool
  else if skippedUnit x u || marked x u o then St.concealed
  else St.ok

/-- R89: a picture later in output order is available already. -/
def reorderOverflow (x : Stream) (cvs : Nat) (order : Int) : Bool := match x.shown with
  | some p => before cvs order p.cvs p.order
  | none => false

/-- R96: a picture marked CONCEALED is not checked. -/
def hashBad (x : Stream) (u : Au) (o : DecOutcome) : Bool := o.hashMismatch && decodesUnit x u && !marked x u o

/-- R90: the PPS gives a smaller c_s than admission used. -/
def structLower (x : Stream) (u : Au) : Bool :=
  decodesUnit x u && decide (ppsCores x.codec (seqOf x u) (ppsOf x u) < coreCount x.codec x.record)

/-- The unit brings a picture that is to be shown: all but a RASL unit that is skipped (R95). -/
def makesPicture (x : Stream) (u : Au) : Bool := !skippedUnit x u

/-- `ERR_CLASS` of the unit, in the layout of `DEC_ERR` (R79, R92). -/
def errClass (x : Stream) (u : Au) (o : DecOutcome) : Nat :=
  concealClasses x u o + 4 * b2n (unsupportedUnit x u)
    + 2 ^ 6 * b2n (makesPicture x u && !unsupportedUnit x u && reorderOverflow x (cvsOf x u) u.info.order)
    + 2 ^ 7 * b2n (structLower x u) + 2 ^ 9 * b2n (hashBad x u o)

/-! ## Storing the picture (R73, R89, R91, R99) -/

/-- A contract shows a picture of the stream. -/
def picInUse (s : State) (n slot : Nat) : Bool :=
  s.contracts.any fun p => contractActive p.2 &&
    (usedKeys p.2 n).any fun k => (match mget none p.2.selPics k with
     | some q => q.slot == slot
     | none => false)

/-- A picture that the store may give up when it is full: shown before, not shown now, not in use, no reference that the unit
uses or keeps, and not the latest correct one, which may have to stand in (R93; entry 16 of the log). -/
def evictable (s : State) (n : Nat) (x : Stream) (u : Au) (p : Picture) : Bool :=
  (p.available || p.hidden || (match x.shown with
    | some q => picBefore p q
    | none => false))
  && !(match x.shown with
    | some q => q.slot == p.slot
    | none => false) && !picInUse s n p.slot && !(p.cvs == cvsOf x u && (u.info.refs ++ u.info.keeps).contains p.order)
  && !(match standIn x (cvsOf x u) u.info.order with
    | some q => q.slot == p.slot
    | none => false)

/-- Drop the first picture of a list that meets a condition. -/
def dropFirst (f : Picture → Bool) : List Picture → List Picture
  | [] => []
  | p :: ps => if f p then ps else p :: dropFirst f ps

/-- Pictures kept once there is room for one more (R73: DPB size + 2 slots). Where none may go, the first one goes that no
contract shows. -/
def keptPictures (s : State) (n : Nat) (x : Stream) (u : Au) : List Picture :=
  if x.pictures.length < x.record.dpb + 2 then x.pictures
  else if x.pictures.any (evictable s n x u) then dropFirst (evictable s n x u) x.pictures
  else dropFirst (fun p => !picInUse s n p.slot) x.pictures

/-- The lowest slot that no kept picture holds. -/
def freePicSlot (ps : List Picture) : Nat :=
  ((List.range (ps.length + 1)).find? fun k => !ps.any fun p => p.slot == k).getD 0

/-- What a picture of the unit is decoded from. -/
def picData (x : Stream) (u : Au) (index : Nat) : PicData :=
  ⟨index, codecCode x.codec, if u.info.sets then x.sets ++ [u.data] else x.sets,
    unitData x.codec (x.record.opIdc.getD x.opPoint 0) u.data, refNumbers x u⟩

/-- The picture as decoded (Table 4-10), with the CTUs that errors and retired cores concealed over the stand-in. -/
def decodedPicture (x : Stream) (u : Au) (o : DecOutcome) : Picture :=
  { data := picData x u 0, under := (standIn x (cvsOf x u) u.info.order).map fun p => p.data, conceal := o.conceal
    cut := cutCtus x u, ctu := (seqOf x u).ctu, cols := ctuCols (seqOf x u), width := o.width, height := o.height
    chroma := o.chroma, depth := o.depth, grain := o.grain, colour := o.colour, mdcv := o.mdcv, cll := o.cll
    grainBytes := o.grainBytes, maxLum := o.maxLum, siting := o.siting }

/-- The picture that a unit brings. One concealed in full is a copy of the stand-in with every CTU counted as concealed. -/
def newPicture (x : Stream) (u : Au) (o : DecOutcome) (slot : Nat) : Picture :=
  let base : Picture :=
    if fullConceal x u o then
      { standInCopy x (cvsOf x u) u.info.order with
        conceal := List.range (ctuCols (seqOf x u) * ctuRows (seqOf x u)), cut := [], ctu := (seqOf x u).ctu, cols := ctuCols (seqOf x u) }
    else decodedPicture x u o
  { base with content := x.picCount, cvs := cvsOf x u, order := u.info.order, slot := slot, concealed := marked x u o
              blamed := !errorMark x u o && cutMark x u, decFrame := u.decFrame, available := false, hidden := false }

/-- `N_reorder` of a stream: that of the contract that named it first, else its record's. -/
def reorderDepth (s : State) (n : Nat) : Nat := match (s.stream n).owner with
  | some c => (sourceOf (s.contract c) n).reorder
  | none => (s.stream n).record.reorder

/-- R89: a picture becomes available when `reorder` pictures later in output order have been decoded, or at the end of a
sequence (R80). A picture before the newest available one never does (entry 17 of the log). -/
def becomes (ps : List Picture) (shown : Option Picture) (reorder : Nat) (eos : Bool) (p : Picture) : Bool :=
  !p.available && !p.hidden && (eos || decide (reorder ≤ ps.countP fun q => picBefore p q)) &&
    (match shown with
     | some q => picBefore q p
     | none => true)

/-- Make pictures available; the newest available one is the latest in output order. -/
def release (x : Stream) (reorder : Nat) (eos : Bool) : Stream :=
  let ps := x.pictures.map fun p => if becomes x.pictures x.shown reorder eos p then { p with available := true } else p
  { x with pictures := ps, shown := (ps.filter fun p => p.available).foldl laterPic x.shown }

/-- A picture joins the store. -/
def addPicture (s : State) (n : Nat) (u : Au) (make : Nat → Picture) : State :=
  let kept := keptPictures s n (s.stream n) u
  s.modStream n fun x => { x with pictures := kept ++ [make (freePicSlot kept)], picCount := x.picCount + 1 }

/-- The picture of a unit joins the store; a frame that AV1 does not show goes first, and a shown one that was decoded before
only comes out of hiding. -/
def storePicture (s : State) (n : Nat) (u : Au) (o : DecOutcome) : State :=
  let x := s.stream n
  if u.info.shows && !fullConceal x u o then
    s.modStream n fun y => { y with
      pictures := y.pictures.map fun p => if p.cvs = cvsOf x u ∧ p.order = u.info.order then { p with hidden := false } else p }
  else
    let s1 := match u.info.hidden with
      | some h => if fullConceal x u o then s else addPicture s n u fun k =>
          { newPicture x u o k with order := h, hidden := true, data := picData x u 1 }
      | none => s
    addPicture s1 n u fun k => { newPicture x u o k with content := (s1.stream n).picCount }

/-! ## The end of a unit -/

/-- The cores that took part in decoding a unit (R79): those that were dealt work and stayed in service. -/
def workedCores (x : Stream) (u : Au) : List Nat :=
  if decodesUnit x u then
    u.cores.filter fun c => !u.cut.contains c && (dealUnits x.codec (seqOf x u) (ppsOf x u) u.cores).any fun p => p.1 == c
  else []

/-- A mask of cores. -/
def coreMask (cs : List Nat) : Nat := (List.range 16).foldl (fun m c => if cs.contains c then m + 2 ^ c else m) 0

/-- A core met an error that lies in certain CTUs; where no core can be told, every core did. -/
def metError (x : Stream) (u : Au) (o : DecOutcome) (c : Nat) : Bool :=
  let deal := dealUnits x.codec (seqOf x u) (ppsOf x u) u.cores
  let hit := fun (i : Nat) => deal.any fun p => p.1 == i && p.2.any o.conceal.contains
  hit c || !u.cores.any hit

/-- R88: the pair of this unit was decoded overlapped: it refers to no picture of the pair. -/
def pairOverlap (u : Au) : Bool := match u.second with
  | some o => !u.info.refs.contains o
  | none => false

/-- Tallies and error bits of the cores (R88, R90, R103, Table 20-1, Table 4-13). -/
def reportCores (s : State) (x : Stream) (u : Au) (o : DecOutcome) : State :=
  let cls := errClass x u o
  u.cores.foldl (fun t c =>
    let worked := (workedCores x u).contains c
    let t1 := if worked then tallyAdd t (320 + 4 * c) u.info.frames else t
    let t2 := if worked && hashBad x u o then tallyAdd t1 (320 + 4 * c + 3) 1 else t1
    let t3 := if worked && pairOverlap u then tallyAdd t2 (320 + 4 * c + 1) 1 else t2
    let bits := if metError x u o c then cls else cls &&& 0x3EE
    if bits = 0 then t3 else setStatus t3 (Off.decErr c) bits) s

/-- The unit leaves the queue and its bytes leave the input buffer. -/
def removeUnit (x : Stream) (u : Au) : Stream :=
  let us := x.units.erase u
  { freeUnit x u with units := us, pictureDone := !us.any fun v => v.phase == .decoding }

/-- R71: the stand-in picture that a stream shows while it is not supported, in the place of what it showed. -/
def outputStandIn (x : Stream) : Picture :=
  { standInCopy x (x.cvs + 2) 0 with
    cvs := (x.shown.map fun p => p.cvs).getD 0
    order := (x.shown.map fun p => p.order).getD (-(2 : Int) ^ 63) }

/-- R94: concealment ends at a random-access point that is itself decoded without error. -/
def cleanRap (x : Stream) (u : Au) (o : DecOutcome) : Bool := u.rap && !ownError x u o

/-- R95: whether RASL units that follow are skipped: after a BLA picture, and after a CRA picture at which decoding started. -/
def skipAfter (x : Stream) (u : Au) : Bool := match unitKind x.codec u.data with
  | .bla => true
  | .cra => x.needRap || x.concealing
  | .idr => false
  | _ => x.skipRasl

/-- The stream after a unit: concealment (R94), marks (R102), support (R71), sequence and parameter sets (R77), the end of a
sequence (R80). `x` is the stream as the unit found it. -/
def afterUnit (x : Stream) (u : Au) (o : DecOutcome) (y : Stream) : Stream :=
  let un := unsupportedUnit x u
  let skip := skippedUnit x u
  { y with
    concealing := if cleanRap x u o then false else x.concealing || (!skip && (ownError x u o || recovering x u))
    blaming := if cleanRap x u o && (cutCtus x u).isEmpty then false else x.blaming || cutMark x u
    unsupported := un, cvs := if skip then x.cvs else cvsOf x u, needRap := u.eos || (skip && x.needRap)
    skipRasl := skipAfter x u
    recovery := if u.rap then none
      else if unitKind x.codec u.data == .gdr && (x.needRap || x.concealing) then u.info.recovery else x.recovery
    seq := if un then x.seq else seqOf x u, sets := if u.info.sets then x.sets ++ [u.data] else x.sets
    shown := if un then some (outputStandIn x) else y.shown }

/-- Trace stage `DEC_DONE`. -/
def markDecDone (s : State) (u : Au) (made : Option Picture) (concealed : Bool) : State :=
  traceMark s (fun i => i.sq == u.ref.sq && i.cid == u.ref.cid && i.decDone.isNone)
    fun i => { i with decDone := some s.wallNow, concealed := concealed, key := made.map fun p => p.content,
                      cvs := (made.map fun p => p.cvs).getD 0, order := (made.map fun p => p.order).getD 0 }

/-- The picture that a unit brought to the store. -/
def madePicture (x y : Stream) (u : Au) : Option Picture :=
  if makesPicture x u then y.pictures.find? fun p => p.cvs == cvsOf x u && p.order == u.info.order else none

/-- `PICTURE_DECODE_DONE` of the unit at the head of those being decoded. -/
def pictureDone (s : State) (n : Nat) (u : Au) (o : DecOutcome) : State :=
  let x := s.stream n
  let reorder := reorderDepth s n
  let s1 := if makesPicture x u then storePicture s n u o else s
  let s2 := s1.modStream n fun y => removeUnit (afterUnit x u o (release y reorder u.eos)) u
  let s3 := reportCores (markDecDone s2 u (madePicture x (s2.stream n) u) (marked x u o)) x u o
  let s4 := complete s3 u.ref (unitStatus x u o) (toPat 64 u.info.order) u.decFrame
    (errClass x u o + coreMask (workedCores x u) * 65536)
  settle (refreshCores s4 n) n

/-- `PICTURE_DECODE_DONE` (R79, R89-R96). -/
def execPictureDecodeDone (st : Fin 256) (o : DecOutcome) (s : State) : Out :=
  match (s.stream st.val).units.find? fun u => u.phase == .decoding with
  | some u => .next (pictureDone s st.val u o)
  | none => .next s

/-! ## Repair (R102) -/

/-- A repaired picture: its units are overwritten, and it is CONCEALED no longer unless an error marked it. -/
def repairedPic (p : Picture) : Picture :=
  if p.cut.isEmpty then p else { p with cut := [], concealed := p.concealed && !p.blamed, blamed := false }

/-- The repair has re-decoded what the retired core left, and pictures decoded from now on are not marked on its account. -/
def repaired (x : Stream) : Stream :=
  { x with blaming := false, units := x.units.map fun u => { u with cut := [] }, pictures := x.pictures.map repairedPic
           shown := x.shown.map repairedPic }

/-- `REPAIR_DONE`: the repair finished by the core's first decode start (R102, Table 4-14). -/
def execRepairDone (core : Fin 16) (s : State) : Out :=
  match (s.dec core.val).repair with
  | some n =>
    let s1 := (s.modStream n repaired).modDec core.val fun d => { d with repair := none, act := 0, stream := none }
    .next (pendSrc s1 (130 + 8 * core.val))
  | none => .next s

end Sys2Proof.Machine
end

