-- ==== Sys2Proof/Machine/Records.lean ====
section
/-! DEFINITION. The structures that contract commands fetch: the proposal header and its layer, source and endpoint
records (Tables 15-7 to 15-9, Table 5-1), and the rules of their contents (R75, R105, R129, R138, R155, R189, R392). -/

namespace Sys2Proof.Machine

/-- n items of k bytes from an offset. -/
def items (bs : List Byte) (off k n : Nat) : List (List Byte) := (List.range n).map fun i => slice bs (off + k * i) k

/-! ## Layer records (Table 5-1) -/

/-- A layer record read. -/
def parseLayer (r : List Byte) : Layer :=
  { src := u8 r 0, en := u8 r 1 % 2 == 1, mirror := u8 r 1 / 2 % 2 == 1, rot := u8 r 1 / 4 % 4,
    grainEn := u8 r 1 / 16 % 2 == 1, keyEn := u8 r 1 / 32 % 2 == 1, premul := u8 r 1 / 64 % 2 == 1,
    blend := u8 r 2, hset := u8 r 3 % 16, vset := u8 r 3 / 16,
    cropX := leAt r 4 2, cropY := leAt r 6 2, cropW := leAt r 8 2, cropH := leAt r 10 2,
    dstX := sext 16 (leAt r 12 2), dstY := sext 16 (leAt r 14 2), dstW := leAt r 16 2, dstH := leAt r 18 2,
    galpha := leAt r 20 2, transfer := u8 r 22, primaries := u8 r 23, matrix := u8 r 24, range := u8 r 25,
    sdrWhite := leAt r 26 2, keyLo := [leAt r 28 2, leAt r 30 2, leAt r 32 2],
    keyHi := [leAt r 34 2, leAt r 36 2, leAt r 38 2], seam := u8 r 40, edge := u8 r 41 }

/-- Width and height of the rotated image (R114). -/
def rotW (l : Layer) : Nat := if l.rot % 2 = 0 then l.cropW else l.cropH
def rotH (l : Layer) : Nat := if l.rot % 2 = 0 then l.cropH else l.cropW

/-- R115: a scaling ratio lies in 1/4 to 16. -/
def ratioOk (dst src : Nat) : Bool := decide (src ≤ 4 * dst) && decide (dst ≤ 16 * src)

/-- The source's chroma is subsampled along x, along y: 4:2:0, 4:2:2 and YCC422P10. -/
def subX (st : Stream) (x : Source) : Bool := if st.codec = .raw then st.rawFmt == 3 else x.chroma == 1 || x.chroma == 2
def subY (st : Stream) (x : Source) : Bool := st.codec != .raw && x.chroma == 1

/-- A crop lies within its source and is even on subsampled axes (Table 5-1). -/
def cropOk (l : Layer) (st : Stream) (x : Source) : Bool :=
  decide (16 ≤ l.cropW) && decide (16 ≤ l.cropH) && decide (l.cropX + l.cropW ≤ x.width) && decide (l.cropY + l.cropH ≤ x.height)
    && (!subX st x || (l.cropX % 2 == 0 && l.cropW % 2 == 0)) && (!subY st x || (l.cropY % 2 == 0 && l.cropH % 2 == 0))

/-- A bit of `SEAM`: send to PEER-E and PEER-W, receive from PEER-E and PEER-W. -/
def seamBit (l : Layer) (i : Nat) : Bool := l.seam / 2 ^ i % 2 == 1

/-- R126: a layer's part and the neighbour's on a peer port meet at a vertical border, the sender's part on the side that its send
bit names, with the same ry, `DST_Y`, `DST_H` and paddock rows (entry 126 of the log). -/
def seamMeets (c : Contract) (l : Layer) (port : Nat) (nb : List Byte) : Bool :=
  let m := parseLayer nb
  m.dstY == l.dstY && m.dstH == l.dstH && rotH m == rotH l && leAt nb 64 2 == c.regY && leAt nb 66 2 == c.regH
    && seamBit m (3 - port) == seamBit l port && seamBit m (1 - port) == seamBit l (2 + port)
    && (if port = 0 then m.dstX + m.dstW == l.dstX else l.dstX + l.dstW == m.dstX)

/-- R126: a seam needs a fold, and a neighbour whose part of the layer meets this one, on every port that it uses. -/
def seamOk (s : State) (c : Contract) (l : Layer) (i : Nat) : Bool :=
  l.seam == 0 || (bit (s.reg Off.foldCfg) 4 && [0, 1].all fun p =>
    !(seamBit l p || seamBit l (2 + p)) || seamMeets c l p (Config.neighbourLayer s.wt.wall.toNat p i))

/-- R105: reserved values and ranges of the i-th layer record of a contract. -/
def layerOk (s : State) (c : Contract) (srcs : List Source) (r : List Byte) (i : Nat) : Bool :=
  let l := parseLayer r
  decide (u8 r 1 < 128) && decide (l.blend ≤ 2) && decide (1 ≤ l.dstW) && decide (l.dstW ≤ 32767) && decide (1 ≤ l.dstH)
    && decide (l.dstH ≤ 32767) && (l.range == 0 || l.range == 1 || l.range == 255) && decide (l.sdrWhite ≤ 10000)
    && decide (l.seam < 16) && seamOk s c l i && decide (l.edge < 2) && zeroAt r 42 22
    && ratioOk l.dstW (rotW l) && ratioOk l.dstH (rotH l)
    && (match srcs.find? fun x => x.stream == l.src with
        | some x => cropOk l (s.stream l.src) x
        | none => false)

/-! ## Source records (Table 15-8) -/

/-- A source record read. -/
def parseSource (r : List Byte) : Source :=
  { stream := u8 r 0, chroma := u8 r 1, depth := u8 r 2, reorder := u8 r 3, width := leAt r 4 2, height := leAt r 6 2,
    psrc := leAt r 8 8 }

/-- R75: the figures of a source agree with its stream. A stream that is not OPEN is a matter of its state. -/
def sourceAgrees (st : Stream) (x : Source) : Bool :=
  if st.state != .open_ then true
  else x.width == st.width && x.height == st.height &&
    (if st.codec = .raw then x.chroma == 0 && x.depth == 0 && x.reorder == 0
     else x.chroma == st.record.chroma && x.depth == st.record.depth && decide (st.record.reorder ≤ x.reorder)
       && (!st.record.hidden || decide (1 ≤ x.reorder)))

/-- A source record's ranges and R75. -/
def sourceOk (s : State) (x : Source) : Bool :=
  decide (x.chroma < 4) && (x.depth == 0 || x.depth == 8 || x.depth == 10 || x.depth == 12) && decide (x.reorder ≤ 16)
    && decide (1 ≤ x.psrc) && sourceAgrees (s.stream x.stream) x

/-- No value is listed twice. -/
def noRepeat : List Nat → Bool
  | [] => true
  | x :: xs => !xs.contains x && noRepeat xs

/-- The rules of a source list (R392). -/
def sourcesOk (s : State) (xs : List Source) : Bool := xs.all (sourceOk s) && noRepeat (xs.map fun x => x.stream)

/-- Every named stream is OPEN (Table 3-3). -/
def sourcesOpen (s : State) (xs : List Source) : Bool := xs.all fun x => (s.stream x.stream).state == .open_

/-! ## Endpoint records (Table 15-9) -/

/-- An endpoint record read. -/
def parseEndpoint (r : List Byte) : Endpoint :=
  { slot := leAt r 0 2, port := u8 r 2, ring := u8 r 3 % 2 == 1, sward := u8 r 3 / 2 % 2 == 1, xform := u8 r 3 / 4 % 2 == 1,
    tileX := leAt r 4 2, tileY := leAt r 6 2, tileW := leAt r 8 2, tileH := leAt r 10 2, depth := u8 r 12,
    qiMax := u8 r 13, qiInit := u8 r 14, rfp := u8 r 15, budget := leAt r 16 4 }

/-- Table 8-1: S_max, the size of a stripe coded entirely in RAW tufts. -/
def stripeMax (e : Endpoint) : Nat := 16 + ceilDiv (e.tileW / 8 * (9 + 32 * (3 * e.depth + 2 * b2n e.xform))) 8

/-- R62: the stripe floor, with T the tufts of the stripe in all three components. -/
def stripeFloor (e : Endpoint) : Nat := 16 + ceilDiv (2 * (3 * (e.tileW / 8))) 8

/-- R142, R155, R189, Table 15-9: the fields of a Sward and of a raw endpoint. -/
def swardOk (e : Endpoint) : Bool :=
  e.tileW % 8 == 0 && decide (8 ≤ e.tileW) && decide (e.tileW ≤ 16384) && e.tileH % 4 == 0 && decide (4 ≤ e.tileH)
    && decide (e.tileH ≤ 8192) && e.tileY % 4 == 0 && e.depth != 8 && decide (e.qiMax < 32) && decide (e.qiInit ≤ e.qiMax)
    && decide (e.budget ≤ stripeMax e)
def rawEpOk (e : Endpoint) : Bool := !e.xform && e.qiMax == 0 && e.qiInit == 0 && e.rfp == 0 && e.budget == 0

/-- Ranges of an endpoint record. -/
def endpointOk (s : State) (r : List Byte) : Bool :=
  let e := parseEndpoint r
  decide (e.slot < 16384) && decide (e.port < 32) && decide (u8 r 3 < 8) && [8, 10, 12, 14, 16].contains e.depth
    && decide (1 ≤ e.tileW) && decide (1 ≤ e.tileH) && zeroAt r 20 12 && (if e.sward then swardOk e else rawEpOk e)
    && (!e.ring || (pairOf s e.port).isSome)

/-- Two tiles share a pixel. -/
def tilesMeet (a b : Endpoint) : Bool :=
  decide (a.tileX < b.tileX + b.tileW) && decide (b.tileX < a.tileX + a.tileW)
    && decide (a.tileY < b.tileY + b.tileH) && decide (b.tileY < a.tileY + a.tileH)

/-- R138: no pixel lies in two tiles. -/
def tilesApart : List Endpoint → Bool
  | [] => true
  | e :: es => !es.any (tilesMeet e) && tilesApart es

/-- R138: a tile lies inside the region. -/
def tileInside (c : Contract) (e : Endpoint) : Bool :=
  decide (256 * c.regX ≤ e.tileX) && decide (e.tileX + e.tileW ≤ 256 * (c.regX + c.regW))
    && decide (256 * c.regY ≤ e.tileY) && decide (e.tileY + e.tileH ≤ 256 * (c.regY + c.regH))

/-! ## The proposal block (R392, Table 15-7) -/

/-- Records of a proposal block. -/
def nLayers (bs : List Byte) : Nat := u8 bs 36
def nSrc (bs : List Byte) : Nat := u8 bs 37
def nEp (bs : List Byte) : Nat := leAt bs 38 2
def layerRecs (bs : List Byte) : List (List Byte) := items bs 64 64 (nLayers bs)
def sourceRecs (bs : List Byte) : List (List Byte) := items bs (64 + 64 * nLayers bs) 16 (nSrc bs)
def endpointRecs (bs : List Byte) : List (List Byte) := items bs (64 + 64 * nLayers bs + 16 * nSrc bs) 32 (nEp bs)

/-- The contract that a proposal block describes. `GUARD` 0 means 32,000. -/
def parseProposal (bs : List Byte) : Contract :=
  { t0 := leAt bs 0 8, pnum := leAt bs 8 8, pden := leAt bs 16 2,
    guard := if leAt bs 20 4 = 0 then 32000 else leAt bs 20 4, latencyMax := leAt bs 24 4,
    regX := leAt bs 28 2, regY := leAt bs 30 2, regW := leAt bs 32 2, regH := leAt bs 34 2,
    background := [leAt bs 40 2, leAt bs 42 2, leAt bs 44 2],
    layers := (layerRecs bs).map parseLayer, sources := (sourceRecs bs).map parseSource,
    endpoints := (endpointRecs bs).map parseEndpoint }

/-- Ranges of the header (Table 15-7). -/
def headerOk (bs : List Byte) : Bool :=
  decide (leAt bs 14 2 = 0) && decide (1 ≤ leAt bs 16 2) && zeroAt bs 18 2
    && (leAt bs 20 4 == 0 || (decide (8000 ≤ leAt bs 20 4) && decide (leAt bs 20 4 ≤ 320000)))
    && decide (1 ≤ leAt bs 24 4) && decide (1 ≤ leAt bs 32 2) && decide (1 ≤ leAt bs 34 2) && decide (nLayers bs ≤ 64)
    && decide (nSrc bs ≤ 64) && decide (1 ≤ nEp bs) && decide (nEp bs ≤ 16384) && zeroAt bs 46 18

/-- `BYTES` of the block that the counts give (R392). -/
def blockBytes (bs : List Byte) : Nat := 64 + 64 * nLayers bs + 16 * nSrc bs + 32 * nEp bs

/-- Width and height of the canvas in paddocks. -/
def canvasW (s : State) : Nat := fld (s.reg Off.canvasSize) 6 0
def canvasH (s : State) : Nat := fld (s.reg Off.canvasSize) 21 16

/-- Two regions share a paddock (R129). -/
def regionsMeet (a b : Contract) : Bool :=
  decide (a.regX < b.regX + b.regW) && decide (b.regX < a.regX + a.regW)
    && decide (a.regY < b.regY + b.regH) && decide (b.regY < a.regY + a.regH)

/-- R129: the region lies on the canvas and meets no region of another contract that is not FREE. -/
def regionOk (s : State) (n : Nat) (c : Contract) : Bool :=
  decide (c.regX + c.regW ≤ canvasW s) && decide (c.regY + c.regH ≤ canvasH s)
    && !s.contracts.any fun p => p.1 != n && p.2.state != .free && regionsMeet p.2 c

/-- The contents of a proposal block, step 4 of R390. -/
def proposalOk (s : State) (n : Nat) (bs : List Byte) : Bool :=
  let c := parseProposal bs
  headerOk bs && bs.length == blockBytes bs && sourcesOk s c.sources && (layerRecs bs).zipIdx.all (fun p => layerOk s c c.sources p.1 p.2)
    && (endpointRecs bs).all (endpointOk s) && noRepeat (c.endpoints.map fun e => e.slot) && regionOk s n c
    && c.endpoints.all (tileInside c) && tilesApart c.endpoints

/-- An endpoint slot belongs to another contract that is not FREE (Table 3-3). -/
def slotTaken (s : State) (n slot : Nat) : Bool :=
  s.contracts.any fun p => p.1 != n && p.2.state != .free && p.2.endpoints.any fun e => e.slot == slot

/-- The objects that a proposal block names are in states that allow it (Table 3-3). -/
def proposalStates (s : State) (n : Nat) (c : Contract) : Bool :=
  sourcesOpen s c.sources && !c.endpoints.any fun e => slotTaken s n e.slot

/-- The endpoint of a contract at a slot. -/
def endpointAt (c : Contract) (slot : Nat) : Option Endpoint := c.endpoints.find? fun e => e.slot == slot

/-- The ports of an endpoint: its port, and the other end of its ring pair. -/
def epPorts (s : State) (e : Endpoint) : List Nat :=
  if e.ring then match pairOf s e.port with
    | some q => [e.port, q]
    | none => [e.port]
  else [e.port]

/-! ## Pixels of the canvas (R131, R137) -/

/-- The endpoint whose tile holds a pixel (R137). -/
def lampEndpoint (c : Contract) (px py : Nat) : Option Endpoint :=
  c.endpoints.find? fun e => decide (e.tileX ≤ px) && decide (px < e.tileX + e.tileW) && decide (e.tileY ≤ py) && decide (py < e.tileY + e.tileH)

/-- R131: the device address of a paddock of frame n. -/
def canvasBase (s : State) (n : Nat) : Nat := if n % 2 = 0 then s.comp.canvasBase0 else s.comp.canvasBase1
def padAddr (s : State) (n col row : Nat) : Nat := canvasBase s n + (row * canvasW s + col) * 393216

/-- R131: the device address of a canvas pixel of frame n. -/
def pxAddr (s : State) (n px py : Nat) : Nat := padAddr s n (px / 256) (py / 256) + (256 * (py % 256) + px % 256) * 6

end Sys2Proof.Machine
end

