-- ==== Sys2Proof/Machine/Admission.lean ====
section
/-! DEFINITION. Admission (R2, R41, R55-R67, R84-R86, R132, R133, R190, R191, R284, R525): the loads of a contract, the intervals
of R60, the refusal reasons and the report of Table 3-9. Rates are exact: pixels or bytes per tick (6.25 ns), so that
1 Gpx/s is 6.25 px per tick. -/

namespace Sys2Proof.Machine

/-! ## What a contract asks for -/

/-- Overlap of two spans. -/
def overlap (a la b lb : Int) : Nat := (min (a + la) (b + lb) - max a b).toNat

/-- Canvas px of a layer within a rectangle. -/
def layerCover (l : Layer) (x w y h : Nat) : Nat := overlap l.dstX l.dstW x w * overlap l.dstY l.dstH y h

/-- R132: source px consumed for covered px, rounded up. -/
def sourcePx (l : Layer) (cover : Nat) : Nat := ceilDiv (cover * (rotW l * rotH l)) (l.dstW * l.dstH)

/-- The larger of canvas px covered and source px consumed, over the layers that are shown. -/
def layersPx (ls : List Layer) (x w y h : Nat) : Nat :=
  ls.foldl (fun t l =>
    let c := layerCover l x w y h
    if l.en && c != 0 then t + max c (sourcePx l c) else t) 0

/-- R132: cost of the paddock at a column of the region and a row of the canvas. -/
def paddockCost (ls : List Layer) (col row : Nat) : Nat := max 65536 (layersPx ls (256 * col) 256 (256 * row) 256)

/-- Costs of a row's paddocks, in raster order. -/
def rowCosts (c : Contract) (ls : List Layer) (k : Nat) : List Nat :=
  (List.range c.regW).map fun i => paddockCost ls (c.regX + i) (c.regY + k)

/-- Active compositor slices (R134). -/
def activeSlices (s : State) : List Nat := (List.range 4).filter fun i => (s.slice i).role == .active

/-- The highest slice total over the rows (R133). -/
def sliceMax (s : State) (c : Contract) (ls : List Layer) : Nat :=
  maxOf ((List.range c.regH).map fun k => maxOf ((dealCosts (rowCosts c ls k) ((activeSlices s).map fun i => (i, 0))).2.map fun p => p.2))

/-- Rows of a tile within canvas paddock row k. -/
def tileRows (e : Endpoint) (k : Nat) : Nat := overlap e.tileY e.tileH (256 * k : Nat) 256

/-- Stripes of a Sward endpoint in a canvas paddock row (R155, R156). -/
def stripesIn (e : Endpoint) (k : Nat) : Nat := if e.sward then tileRows e k / 4 else 0

/-- First stripe index of an endpoint in a canvas paddock row. -/
def firstStripe (e : Endpoint) (k : Nat) : Nat := (256 * k - e.tileY) / 4

/-- Bits per px of the pack format of a raw depth (R525). -/
def packBits (b : Nat) : Nat :=
  match b with
  | 16 => 48
  | 14 => 42
  | 12 => 36
  | 10 => 30
  | _ => 24

/-- Estimate of R525 for an endpoint and canvas paddock row: frames, payload, raw-bypass px. -/
def estimate (e : Endpoint) (k : Nat) : Nat × Nat × Nat :=
  if e.sward then (stripesIn e k * ceilDiv e.budget 9166, stripesIn e k * e.budget, 0)
  else
    let px := tileRows e k * e.tileW
    let pay := ceilDiv (px * packBits e.depth) 8
    (ceilDiv pay 9166, pay, px)

/-- The map image that counts for an endpoint: the one loaded last. -/
def countedMap (c : Contract) (slot : Nat) : Option MapImage :=
  c.deferred.foldl (fun m d => match d.change with
    | .map img => if img.slot = slot then some img else m
    | _ => m) (mget none c.maps slot)

/-- Declared or estimated figures of an endpoint in a canvas paddock row (R525). -/
def figures (c : Contract) (e : Endpoint) (k : Nat) : Nat × Nat × Nat :=
  match countedMap c e.slot with
  | some img => match img.rows.find? fun r => r.prow == k with
    | some r => (r.frames, r.payload, r.fetchPx)
    | none => (0, 0, 0)
  | none => estimate e k

/-- The layers and sources that count: those of the layout loaded last. -/
def countedLayers (c : Contract) : List Layer :=
  c.deferred.foldl (fun m d => match d.change with
    | .layout ls _ _ => ls
    | _ => m) c.layers
def countedSources (c : Contract) : List Source :=
  c.deferred.foldl (fun m d => match d.change with
    | .layout _ xs _ => xs
    | _ => m) c.sources

/-- Endpoints in ascending order of slot (R190, R240). -/
def insertEp (e : Endpoint) : List Endpoint → List Endpoint
  | [] => [e]
  | x :: xs => if e.slot ≤ x.slot then e :: x :: xs else x :: insertEp e xs
def sortEps (es : List Endpoint) : List Endpoint := es.foldr insertEp []

/-- The ports a contract uses. -/
def contractPorts (s : State) (c : Contract) : List Nat :=
  (List.range 32).filter fun p => c.endpoints.any fun e => (epPorts s e).contains p

/-- Class-0 bytes of a port in a canvas paddock row (Table 3-6). -/
def portRowBytes (s : State) (c : Contract) (p k : Nat) : Nat :=
  sumOf ((c.endpoints.filter fun e => (epPorts s e).contains p).map fun e =>
    let f := figures c e k
    f.2.1 + 70 * f.1)

/-- Canvas rows of a contract. -/
def canvasRows (c : Contract) : List Nat := (List.range c.regH).map (· + c.regY)

/-- Px of the Sward endpoints in a row, and raw-bypass px (Table 3-6). -/
def swardPx (c : Contract) (k : Nat) : Nat :=
  sumOf (c.endpoints.map fun e => if e.sward then tileRows e k * e.tileW else 0)
def bypassPx (c : Contract) (k : Nat) : Nat := sumOf (c.endpoints.map fun e => (figures c e k).2.2)

/-- Granules of a stripe of an endpoint (R284). -/
def stripeGranules (e : Endpoint) : Nat := ceilDiv (e.budget + 16) 256

/-- Sward endpoints on a port, in slot order. -/
def portSward (s : State) (c : Contract) (p : Nat) : List Endpoint :=
  sortEps (c.endpoints.filter fun e => e.sward && (epPorts s e).contains p)

/-- R284: T_k, the granules of a port's stripes in a row, and Z, those of its ring. -/
def ringT (es : List Endpoint) (k : Nat) : Nat := sumOf (es.map fun e => stripesIn e k * stripeGranules e)
def ringZ (s : State) (c : Contract) (p : Nat) : Nat :=
  let es := portSward s c p
  if es.isEmpty then 0 else maxOf ((canvasRows c).map (ringT es)) + 8 * maxOf (es.map stripeGranules)

/-- R190: the stripes of a row: slot, stripe index, px. -/
def rowStripes (c : Contract) (k : Nat) : List (Nat × Nat × Nat) :=
  (sortEps (c.endpoints.filter fun e => e.sward)).flatMap fun e =>
    (List.range (stripesIn e k)).map fun i => (e.slot, firstStripe e k + i, 4 * e.tileW)

/-- R190: the run of each stripe, of m runs. -/
def runsOf (m tot : Nat) : Nat → List (Nat × Nat × Nat) → List (Nat × Nat × Nat × Nat)
  | _, [] => []
  | acc, (slot, k, px) :: xs => (min (m - 1) (acc * m / tot), slot, k, px) :: runsOf m tot (acc + px) xs

/-- The stripes of a row with their runs: 15 of them (R190). -/
def rowRunsOf (m : Nat) (c : Contract) (k : Nat) : List (Nat × Nat × Nat × Nat) :=
  let xs := rowStripes c k
  runsOf m (max 1 (sumOf (xs.map fun x => x.2.2))) 0 xs
def rowRuns (c : Contract) (k : Nat) : List (Nat × Nat × Nat × Nat) := rowRunsOf 15 c k

/-- R191: the largest run total over the rows. -/
def runMax (c : Contract) : Nat :=
  maxOf ((canvasRows c).map fun k =>
    let xs := rowRuns c k
    maxOf ((List.range 15).map fun j => sumOf ((xs.filter fun x => x.1 == j).map fun x => x.2.2.2)))

/-! ## Streams of a contract (R83-R86) -/

/-- Three times the chroma factor, and five times the depth factor (Table 3-6). -/
def chroma3 (c : Nat) : Nat := if c = 3 then 6 else if c = 2 then 4 else 3
def depth5 (d : Nat) : Nat := if d = 12 then 6 else 5

/-- R83: lumak, the weighted luma load of a window. -/
def lumak (codec : Codec) (p : Nat) (x : Source) : Rat :=
  (x.width * x.height * chroma3 x.chroma * depth5 x.depth * windowPictures codec p x : Nat) / (15 : Rat)

/-- Decode bytes of a window, 12 per luma px times the chroma factor (Table 3-6). -/
def decBytes (codec : Codec) (p : Nat) (x : Source) : Nat :=
  x.width * x.height * 4 * chroma3 x.chroma * windowPictures codec p x

/-- The contract decodes the stream in its own windows (R85). -/
def decodes (s : State) (n : Nat) (x : Source) : Bool :=
  (s.stream x.stream).codec != .raw && ((s.stream x.stream).owner.isNone || (s.stream x.stream).owner == some n)

/-- Sum of rates. -/
def total (xs : List Rat) : Rat := xs.foldl (· + ·) 0

/-- R66: the decode load of a source, weighted luma px per tick at its own rate. Table 3-5 divides by Wd instead; the model
follows R66, as R61 and the example of 4.4 do (entry 120 of the log). -/
def decodeRate (codec : Codec) (x : Source) : Rat := lumak codec x.psrc x / (x.psrc : Rat)

/-- Watts of decoding a source at its own rate (R61): 3.2 per Gpx/s and 0.05 per GB/s; 1 px per tick is 0.16 Gpx/s. -/
def decodeWatts (codec : Codec) (x : Source) : Rat :=
  decodeRate codec x * (64 / 125) + (decBytes codec x.psrc x : Rat) / (x.psrc : Rat) * (1 / 125)

/-- A decode rate, decode bytes per tick and watts over the windows of a contract. A window placed for a layout that waits
counts with that layout's source record (R55). -/
def windowSource (c : Contract) (w : Window) : Source :=
  ((countedSources c ++ c.sources).find? fun x => x.stream == w.stream).getD {}
def windowRate (s : State) (c : Contract) : Rat :=
  total (c.windows.map fun w => decodeRate (s.stream w.stream).codec (windowSource c w))
def windowBytes (s : State) (c : Contract) : Rat :=
  total (c.windows.map fun w =>
    (decBytes (s.stream w.stream).codec (periodTicks c) (windowSource c w) : Rat) / (w.wd : Rat))
def windowWatts (s : State) (c : Contract) : Rat :=
  total (c.windows.map fun w => decodeWatts (s.stream w.stream).codec (windowSource c w))

/-- ceil160 and floor160 (R60). -/
def ceil160 (r : Rat) : Nat := (Rat.ceil (r / 160)).toNat * 160
def floor160 (n : Nat) : Nat := n / 160 * 160

/-! ## The totals of the other contracts (R55) -/

/-- Contracts that count beside contract n. -/
def counted (s : State) (n : Nat) : List Contract :=
  (s.contracts.filter fun p => p.1 != n && p.2.state != .free).map fun p => p.2

/-- Largest W_pix, W_enc and window bytes (twice) over the rows of a contract (Table 3-6). -/
def wPix (c : Contract) : Nat :=
  maxOf ((List.range c.regH).map fun k =>
    max (65536 * c.regW) (layersPx (countedLayers c) (256 * c.regX) (256 * c.regW) (256 * (c.regY + k)) 256))
def wEnc (c : Contract) : Nat := maxOf ((canvasRows c).map (swardPx c))
/-- Table 3-6, "raw input read 4.5 if RAW". DESIGN CHOICE: a contract with any RAW source counts it for all canvas px of the row
(entry 121 of the log). -/
def hasRaw (s : State) (c : Contract) : Bool := (countedSources c).any fun x => (s.stream x.stream).codec == .raw
def winBytes2 (s : State) (c : Contract) : Nat :=
  maxOf ((canvasRows c).map fun k =>
    65536 * c.regW * (if hasRaw s c then 27 else 18) + 36 * swardPx c k + 12 * bypassPx c k)

/-- W·ticks of the part of the die power that scales with S (R61). -/
def wTh (s : State) (c : Contract) : Rat :=
  (56 / 125 : Rat) * wPix c + (48 / 125 : Rat) * wEnc c + (1 / 125 : Rat) * ((winBytes2 s c : Nat) / (2 : Rat))

/-- The load of a contract at interval S: pixel path, encoder, memory, and its watts. -/
structure Load where
  pix : Rat
  enc : Rat
  mem : Rat
  watts : Rat

/-- Add loads. -/
def Load.add (a b : Load) : Load := ⟨a.pix + b.pix, a.enc + b.enc, a.mem + b.mem, a.watts + b.watts⟩

/-- The load of a contract at an interval, without its decoding. -/
def loadAt (s : State) (c : Contract) (S : Nat) : Load :=
  ⟨(wPix c : Rat) / S, (wEnc c : Rat) / S, (winBytes2 s c : Rat) / 2 / S, wTh s c / S⟩

/-- Watts of the streams that a proposed contract decodes. -/
def ownDecodeWatts (s : State) (n : Nat) (c : Contract) : Rat :=
  total (((countedSources c).filter (decodes s n)).map fun x => decodeWatts (s.stream x.stream).codec x)

/-- The total of the counted contracts beside n. -/
def otherLoad (s : State) (n : Nat) : Load :=
  s.contracts.foldl (fun t p =>
    if p.1 = n ∨ p.2.state = .free then t
    else (t.add (loadAt s p.2 p.2.stage)).add ⟨0, 0, windowBytes s p.2, windowWatts s p.2⟩) ⟨0, 0, 0, 0⟩

/-- Decode rate of the counted contracts beside n. -/
def otherDecode (s : State) (n : Nat) : Rat := total ((counted s n).map (windowRate s))

/-- Largest row bytes of a port in a contract. -/
def portMax (s : State) (c : Contract) (p : Nat) : Nat := maxOf ((canvasRows c).map (portRowBytes s c p))

/-- Class-0 byte rate of a port from the counted contracts beside n. -/
def otherPort (s : State) (n p : Nat) : Rat := total ((counted s n).map fun c => (portMax s c p : Rat) / c.stage)

/-- Ports that carry class 0 for any counted contract or for c. -/
def classPorts (s : State) (n : Nat) (c : Contract) : List Nat :=
  (List.range 32).filter fun p => (contractPorts s c).contains p || (counted s n).any fun d => (contractPorts s d).contains p

/-- R61: peer ports in use. DESIGN CHOICE: those whose link is up on a module of a fold (entry 121 of the log). -/
def peerPorts (s : State) : Nat :=
  if bit (s.reg Off.foldCfg) 4 then b2n s.peerE.linkUp + b2n s.peerW.linkUp else 0

/-- Capacities (Table 3-5), per tick. The pixel path of three slices is 7.68 Gpx/s (R134). -/
def capPix (s : State) : Rat := if (activeSlices s).length < 4 then 16 * ((activeSlices s).length : Nat) else 256 / 5
def capEnc : Rat := 60
def capDec : Rat := 375 / 8
def capMem : Rat := 5125 / 2
/-- 90 % of line rate in bytes per tick: 25GBASE-R, or 10GBASE-R where `RATE` selects it. -/
def capPort (s : State) (p : Nat) : Rat := if bit (s.reg (Off.egPortCfg p)) 0 then 225 / 32 else 1125 / 64
/-- Host-link ingest in bytes per tick for the lanes in use (R57, R364). -/
def capHost (s : State) : Rat :=
  match s.link.lstate with
  | .degraded => if ((List.range 4).countP fun i => bit s.link.lanesUsed i) = 1 then 5287500 / 80000 else 10575000 / 80000
  | _ => 21150000 / 80000

/-- Bytes per tick that a source brings in: 4.5 B per px of a raw source (Table 1-5); the spec gives no figure for a
coded source (entry 5 of the log). -/
def ingest (s : State) (x : Source) : Rat :=
  if (s.stream x.stream).codec = .raw then (x.width * x.height * 9 : Nat) / (2 * x.psrc : Rat)
  else (Config.codedFrameBytes x.width x.height : Rat) / x.psrc

/-- Add a source to a list that holds each stream once, with the shortest period named for it (entry 110 of the log). -/
def addSource : List Source → Source → List Source
  | [], x => [x]
  | y :: ys, x => if y.stream = x.stream then { y with psrc := min y.psrc x.psrc } :: ys else y :: addSource ys x

/-- All sources of the counted contracts and of c, each stream once. -/
def allSources (s : State) (n : Nat) (c : Contract) : List Source :=
  ((counted s n).flatMap countedSources ++ countedSources c).foldl addSource []

/-- Granules of the rings of a contract (R284). -/
def ringGranules (s : State) (c : Contract) : Nat := sumOf ((List.range 32).map (ringZ s c))

/-- Peer ports over which a contract sends seam strips. -/
def seamPorts (c : Contract) : List Nat :=
  (List.range 2).filter fun e => (countedLayers c).any fun l => l.en && l.seam / 2 ^ e % 2 == 1

/-- Launch slots of a contract (Table 3-6) with given numbers of decode slots. -/
def slotCount (s : State) (c : Contract) (decSlots : Nat) : Nat :=
  let ports := (contractPorts s c).length
  1 + decSlots + c.regH * (min 4 c.regW + 15 + ports) + c.regH * (seamPorts c).length + 2 * ports

/-- Launch slots in use beside contract n, and those that it holds itself. -/
def slotsHeld (s : State) (f : Nat → Bool) : Nat :=
  s.wt.slots.countP fun p => decide (p.1 < 7936) && p.2.action != 0 && p.2.rel && f p.2.contract
def otherSlots (s : State) (n : Nat) : Nat := slotsHeld s (· != n)

end Sys2Proof.Machine
end

