-- ==== Sys2Proof/Machine/Evaluate.lean ====
section
/-! DEFINITION. The evaluation of a proposal (R57-R65): decode windows and core sets (R85, R86), the intervals S and Wd
(R60), the first check that fails (R63) and the report (Table 3-9). -/

namespace Sys2Proof.Machine

/-! ## Decode windows (R85, R86) -/

/-- A window placed on cores: the period of its contract, its start relative to L(n) and its length. -/
structure Busy where
  t0 : Nat
  pnum : Nat
  pden : Nat
  start : Int
  len : Nat
  cores : List Nat

/-- C0 of a contract with stage interval S (R59). -/
def c0At (c : Contract) (S : Nat) : Int := -(c.guard + (c.regH + 2) * S : Nat)

/-- A window of a contract as placed (Table 3-7). -/
def busyOf (c : Contract) (w : Window) : Busy :=
  ⟨c.t0, c.pnum, c.pden, c0At c c.stage - w.wd - w.shift, w.wd, w.cores⟩

/-- All windows of the counted contracts beside n. -/
def placedWindows (s : State) (n : Nat) : List Busy := (counted s n).flatMap fun c => c.windows.map (busyOf c)

/-- Two windows overlap, taken modulo the period. -/
def windowsMeet (p : Nat) (a : Int) (la : Nat) (b : Int) (lb : Nat) : Bool :=
  decide ((b - a) % p < la) || decide ((a - b) % p < lb)

/-- The cores that are counted: those in service, the spare excepted (R57). -/
def countedCores (s : State) : List Nat := (List.range 16).filter fun i => (s.dec i).role == .active

/-- No window is on the core; only windows of the same T0, `PNUM` and `PDEN` are on it (R85). -/
def coreFree (bs : List Busy) (i : Nat) : Bool := !bs.any fun b => b.cores.contains i
def coreShares (bs : List Busy) (c : Contract) (i : Nat) : Bool :=
  bs.all fun b => !b.cores.contains i || (b.t0 == c.t0 && b.pnum == c.pnum && b.pden == c.pden)

/-- Later of two ends. -/
def laterEnd (a : Option Int) (b : Int) : Option Int := match a with
  | none => some b
  | some x => some (max x b)

/-- R86: the end of the latest window of length wd that ends by c0 and overlaps none on the cores, modulo the period. -/
def latestEnd (p : Nat) (c0 : Int) (wd : Nat) (bs : List Busy) (cores : List Nat) : Option Int :=
  let on := bs.filter fun b => b.cores.any cores.contains
  let ends := c0 :: on.map fun b => c0 - (c0 - b.start) % p
  (ends.filter fun e => !on.any fun b => windowsMeet p (e - wd) wd b.start b.len).foldl laterEnd none

/-- The choices of k members of a list, in the list's order. -/
def choices : Nat → List Nat → List (List Nat)
  | 0, _ => [[]]
  | _ + 1, [] => []
  | k + 1, x :: xs => (choices k xs).map (x :: ·) ++ choices (k + 1) xs

/-- The core sets to try for k cores: free cores alone where there are enough, else every set of free and shareable cores, those
with the most free cores first (entry 18 of the log). -/
def coreSets (s : State) (c : Contract) (bs : List Busy) (k : Nat) : List (List Nat) :=
  let free := (countedCores s).filter (coreFree bs)
  if k ≤ free.length then [free.take k]
  else choices k (free ++ (countedCores s).filter fun i => !coreFree bs i && coreShares bs c i)

/-- Outcome of forming a core set: the window and whether it shares a core, or the `DETAIL` of the refusal. -/
inductive SetOut where
  | ok (w : Window) (shared : Bool)
  | fail (detail : Nat)

/-- Try core sets: each needs an interval, and the latency with the shift must be met (R86). -/
def trySets (c : Contract) (bs : List Busy) (x : Source) (wd : Nat) (S : Nat) : Bool → List (List Nat) → SetOut
  | lat, [] => .fail (if lat then 1 else 2)
  | lat, cores :: rest =>
    if !bs.any (fun b => b.cores.any cores.contains) then .ok ⟨x.stream, cores, 0, wd⟩ false
    else match latestEnd (periodTicks c) (c0At c S) wd bs cores with
      | none => trySets c bs x wd S lat rest
      | some e =>
        let shift := (c0At c S - e).toNat
        if x.reorder * x.psrc + c.guard + shift + wd + (c.regH + 2) * S ≤ c.latencyMax then .ok ⟨x.stream, cores, shift, wd⟩ true
        else trySets c bs x wd S true rest

/-- R85: cores of a stream's set; 2 for picture pairs. -/
def setSize (x : Stream) : Nat := if inPairs x.record then 2 else (Rat.ceil (coreCount x.codec x.record)).toNat

/-- R85: form the set of one stream. A pair that finds no second core takes one. -/
def formSet (s : State) (c : Contract) (bs : List Busy) (x : Source) (wd S : Nat) : SetOut :=
  let st := s.stream x.stream
  match trySets c bs x wd S false (coreSets s c bs (setSize st)) with
  | .ok w sh => .ok w sh
  | .fail d => if inPairs st.record then trySets c bs x wd S false (coreSets s c bs 1) else .fail d

/-- Windows of a contract's own streams, formed one after another. -/
structure Windows where
  wins : List (Source × Window × Bool)
  fail : Option Nat

/-- R85, R86: form the sets of all streams that the contract decodes. -/
def formSets (s : State) (c : Contract) (S : Nat) : List Busy → List (Source × Nat) → Windows
  | _, [] => ⟨[], none⟩
  | bs, (x, wd) :: rest =>
    match formSet s c bs x wd S with
    | .fail d => ⟨[], some d⟩
    | .ok w sh =>
      let b : Busy := ⟨c.t0, c.pnum, c.pden, c0At c S - wd - w.shift, wd, w.cores⟩
      let r := formSets s c S (bs ++ [b]) rest
      ⟨(x, w, sh) :: r.wins, r.fail⟩

/-- R60: Wd_need of a stream with the decode rate that is left; none where nothing is left. 0.5 Gpx/s is 25/8 px per tick. -/
def wdNeed (st : Stream) (c : Contract) (x : Source) (left : Rat) : Option Nat :=
  let k := lumak st.codec (periodTicks c) x
  if left ≤ 0 then none else some (ceil160 (max (k / (coreCount st.codec st.record * (25 / 8))) (k / left)))

/-- Wd_need of the streams in turn. DESIGN CHOICE: each later stream finds `left_decode` less the loads of the earlier ones of
the same proposal (entry 122 of the log). -/
def wdNeeds (s : State) (c : Contract) : Rat → List Source → Option (List (Source × Nat))
  | _, [] => some []
  | left, x :: xs =>
    let st := s.stream x.stream
    match wdNeed st c x left, wdNeeds s c (left - decodeRate st.codec x) xs with
    | some wd, some r => some ((x, wd) :: r)
    | _, _ => none

/-! ## The terms of S_need (R60, R61, R133, R191) -/

/-- A term of S_need: the reason, its port, and W / left; none where nothing is left. -/
structure Term where
  reason : Nat
  port : Nat
  val : Option Rat

/-- W / left. -/
def quot (w left : Rat) : Option Rat := if w = 0 then some 0 else if left ≤ 0 then none else some (w / left)

/-- The larger of two terms. -/
def maxTerm (a b : Option Rat) : Option Rat := match a, b with
  | some x, some y => some (max x y)
  | _, _ => none

/-- `SUSTAIN_W` in watts. -/
def sustain (s : State) : Rat := (fld (s.reg Off.admitSustain) 15 0 : Rat) / 10

/-- Watts that do not scale with the proposal's interval, the 30 W static included (R61). -/
def fixedWatts (s : State) (n : Nat) (c : Contract) : Rat :=
  30 + (otherLoad s n).watts + (7 / 20 : Rat) * ((classPorts s n c).length : Nat) + (1 / 2 : Rat) * (peerPorts s : Nat)
    + ownDecodeWatts s n c

/-- The terms in table order (Table 3-8). `dec` is the rate of decode bytes of the proposal's own windows; DESIGN CHOICE: at Wd_need
they come off `left_memory` before the memory term (entry 122 of the log). -/
def sTerms (s : State) (n : Nat) (c : Contract) (dec : Rat) : List Term :=
  let o := otherLoad s n
  let ls := countedLayers c
  let lp := capPix s - o.pix
  let le := capEnc - o.enc
  let lt := sustain s - fixedWatts s n c
  [⟨2, 255, maxTerm (quot (wPix c : Nat) lp) (quot (sliceMax s c ls : Nat) (16 * lp / (256 / 5)))⟩,
   ⟨3, 255, maxTerm (quot (wEnc c : Nat) le) (quot (runMax c : Nat) (4 * le / capEnc))⟩,
   ⟨4, 255, quot ((winBytes2 s c : Nat) / 2) (capMem - o.mem - dec)⟩]
  ++ (contractPorts s c).map (fun p => ⟨5, p, quot (portMax s c p : Nat) (capPort s p - otherPort s n p)⟩)
  ++ [⟨6, 255, if lt ≤ 0 then none else some (wTh s c / lt)⟩]

/-- The term that sets S_need: one with nothing left, else the largest, the first on a tie. -/
def setter : List Term → Term
  | [] => ⟨2, 255, some 0⟩
  | t :: ts =>
    let r := setter ts
    match t.val, r.val with
    | none, _ => t
    | some _, none => r
    | some a, some b => if b ≤ a then t else r

/-! ## The verdict -/

/-- The outcome of an evaluation (Tables 3-8, 3-9). A figure is none where the spec gives the report no value for it: what
depends on S where R60 finds none (entry 5 of the log). -/
structure Verdict where
  reason : Nat := 0
  detail : Nat := 0
  port : Nat := 255
  slot : Nat := 65535
  latMin : Option Nat := none
  latGiven : Nat := 0
  stage : Nat := 0
  decWin : Nat := 0
  due : Option Nat := none
  loads : List (Option Nat) := []
  slotsUsed : Nat := 0
  dieW : Option Nat := none
  windows : List Window := []

/-- A reason with its detail, port and endpoint slot. -/
structure Refuse where
  reason : Nat
  detail : Nat
  port : Nat := 255
  slot : Nat := 65535

/-- Wd + e of a source: of its window in this proposal, else of the window of the contract that decodes it (R85); 0 for RAW
sources, which have none (entry 123 of the log). -/
def decodePart (s : State) (ws : List (Source × Window)) (x : Source) : Nat :=
  match (ws.find? fun p => p.1.stream == x.stream).map (fun p => p.2) <|> streamWindow s x.stream with
  | some w => w.wd + w.shift
  | none => 0

/-- The largest latency over the source paths, beyond (R + 2) × S and the guard: N_reorder × P_src + Wd + e (R65). -/
def pathExtra (s : State) (c : Contract) (ws : List (Source × Window)) : Nat :=
  maxOf ((countedSources c).map fun x => x.reorder * x.psrc + decodePart s ws x)

/-- The largest Wd + e, by which the first source is due before C0 (Table 3-10). -/
def dueExtra (s : State) (c : Contract) (ws : List (Source × Window)) : Nat := maxOf ((countedSources c).map (decodePart s ws))

/-- `DEC_WIN`: the largest Wd of the coded sources. -/
def largestWd (s : State) (c : Contract) (ws : List (Source × Window)) : Nat :=
  maxOf ((countedSources c).map fun x =>
    (((ws.find? fun p => p.1.stream == x.stream).map (fun p => p.2) <|> streamWindow s x.stream).map fun w => w.wd).getD 0)

/-- The latency at interval S, and the ticks before L(n) at which the first source is due (R65). -/
def latencyAt (s : State) (c : Contract) (ws : List (Source × Window)) (S : Nat) : Nat :=
  pathExtra s c ws + c.guard + (c.regH + 2) * S
def dueAt (s : State) (c : Contract) (ws : List (Source × Window)) (S : Nat) : Nat := dueExtra s c ws + c.guard + (c.regH + 2) * S

/-- R62: the first Sward endpoint below the stripe floor. -/
def belowFloor (c : Contract) : Option Endpoint := c.endpoints.find? fun e => e.sward && decide (e.budget < stripeFloor e)

/-- Spares are gone (R64). -/
def spareLost (s : State) : Bool :=
  (List.range 16).any fun i => (s.dec i).role == .retired || (s.encCore i).role == .retired

/-- Bytes of the rings of the counted contracts and of c. -/
def poolBytes (s : State) (n : Nat) (c : Contract) : Nat := 256 * (sumOf ((counted s n).map (ringGranules s)) + ringGranules s c)
/-- Bytes per tick of all sources. -/
def ingestAll (s : State) (n : Nat) (c : Contract) : Rat := total ((allSources s n c).map (ingest s))

/-- The checks after `THERMAL` (R63): `HOST_LINK`, `POOL`, `SLOTS`, `BUDGET`. -/
def lateChecks (s : State) (n : Nat) (c : Contract) (slots : Nat) : Option Refuse :=
  if capHost s < ingestAll s n c then some ⟨7, 0, 255, 65535⟩
  else if 40 * 2 ^ 20 < poolBytes s n c then some ⟨8, 0, 255, 65535⟩
  else if 7936 < slots then some ⟨9, 0, 255, 65535⟩
  else match belowFloor c with
    | some e => some ⟨10, 0, 255, e.slot⟩
    | none => none

/-- 16-bit figure of Table 3-9, 4,096 = capacity, rounded down (entry 19 of the log). -/
def loadFig (r : Rat) : Nat := min 65535 (Rat.floor (r * 4096)).toNat

/-- Decode bytes per tick of windows. -/
def winBytes (s : State) (c : Contract) (ws : List (Source × Nat)) : Rat :=
  total (ws.map fun p => (decBytes (s.stream p.1.stream).codec (periodTicks c) p.1 : Rat) / (p.2 : Rat))

/-- What a report tells of the interval: S, the decode bytes per tick and the watts. -/
structure AtInterval where
  S : Nat
  decB : Rat
  watts : Rat

/-- The figures of an interval and the needed or chosen windows. -/
def atInterval (s : State) (n : Nat) (c : Contract) (S : Nat) (ws : List (Source × Nat)) : AtInterval :=
  ⟨S, winBytes s c ws, fixedWatts s n c + wTh s c / (S : Rat)⟩

/-- The eight loads of the report: those that depend on S where one exists, and decode, host link and pool in any case. -/
def reportLoads (s : State) (n : Nat) (c : Contract) (decR : Rat) (a : Option AtInterval) : List (Option Nat) :=
  let o := otherLoad s n
  let of_ := fun (f : AtInterval → Rat) => a.map fun x => loadFig (f x)
  [some (loadFig ((otherDecode s n + decR) / capDec)), of_ fun a => (o.pix + (loadAt s c a.S).pix) / capPix s,
   of_ fun a => (o.enc + (loadAt s c a.S).enc) / capEnc, of_ fun a => (o.mem + (loadAt s c a.S).mem + a.decB) / capMem,
   of_ fun a => (classPorts s n c).foldl (fun (t : Rat) p => max t ((otherPort s n p + (portMax s c p : Rat) / a.S) / capPort s p)) 0,
   some (loadFig (ingestAll s n c / capHost s)), some (loadFig ((poolBytes s n c : Nat) / ((40 * 2 ^ 20 : Nat) : Rat))),
   of_ fun a => a.watts / sustain s]

/-- Complete a verdict with its report figures. -/
def withFigures (s : State) (n : Nat) (c : Contract) (own : List Source) (a : Option AtInterval) (slots : Nat) (v : Verdict) : Verdict :=
  { v with
    loads := reportLoads s n c (total (own.map fun x => decodeRate (s.stream x.stream).codec x)) a
    slotsUsed := slots, dieW := a.map fun x => (Rat.floor (x.watts * 10)).toNat }

/-- The streams that a contract decodes itself. -/
def ownDecoded (s : State) (n : Nat) (c : Contract) : List Source := (countedSources c).filter (decodes s n)

/-- A refused evaluation. `LAT_MIN` and `DUE_OFFSET` are given where the intervals exist (entry 5 of the log). -/
def refuse (r : Refuse) (latMin : Option Nat := none) (due : Option Nat := none) : Verdict :=
  { reason := r.reason, detail := r.detail, port := r.port, slot := r.slot, latMin := latMin, due := due }

/-- R60: S_fit; 0 where the period leaves no room. -/
def sFit (c : Contract) : Nat := floor160 ((periodTicks c - c.guard) / c.regH)

/-- A window shares a core with another one, placed or of the same proposal (R86). -/
def sharesCore (bs : List Busy) (ws : List Window) (w : Window) : Bool :=
  bs.any (fun b => b.cores.any w.cores.contains) || ws.any fun v => v.stream != w.stream && v.cores.any w.cores.contains

/-- Wd of a window with its share of the slack (R60): none for a stream that shares a core (R86). DESIGN CHOICE: of several
streams each takes its own slack, and `DEC_WIN` is the largest Wd (entry 122 of the log). -/
def widen (c : Contract) (S : Nat) (x : Source) (w : Window) (shared : Bool) : Window :=
  if shared then w
  else
    let slack := c.latencyMax - (x.reorder * x.psrc + c.guard + w.wd + (c.regH + 2) * S)
    { w with wd := min (min (periodTicks c) x.psrc) (w.wd + floor160 slack) }

/-- Launch slots with a contract proposed. -/
def slotsWith (s : State) (n : Nat) (c : Contract) (ws : List Window) : Nat :=
  otherSlots s n + slotCount s c (sumOf (ws.map fun w => w.cores.length))
/-- The same where no core set exists: with ceil(c_s) cores for each stream. -/
def slotsAsked (s : State) (n : Nat) (c : Contract) (own : List Source) : Nat :=
  otherSlots s n + slotCount s c (sumOf (own.map fun x => setSize (s.stream x.stream)))

/-- R60 accepts: S and the windows, and the checks that follow. DESIGN CHOICE: S takes no slack where a stream shares a core, since its
shift is fixed from S_need (R86; entry 122 of the log). -/
def acceptIntervals (s : State) (n : Nat) (c : Contract) (sNeed latMin : Nat) (placed : List (Source × Window)) : Verdict :=
  let wins := placed.map fun p => p.2
  let shares := sharesCore (placedWindows s n) wins
  let S := if wins.any shares then sNeed else min (sFit c) (sNeed + floor160 ((c.latencyMax - latMin) / (c.regH + 2)))
  let ws := placed.map fun p => (p.1, widen c S p.1 p.2 (shares p.2))
  let slots := slotsWith s n c wins
  withFigures s n c (ws.map fun p => p.1) (some (atInterval s n c S (ws.map fun p => (p.1, p.2.wd)))) slots
    (match lateChecks s n c slots with
     | some f => refuse f (some latMin) (some (dueAt s c ws S))
     | none => { latMin := some latMin, latGiven := latencyAt s c ws S, stage := S, decWin := largestWd s c ws,
                 due := some (dueAt s c ws S), windows := ws.map fun p => p.2 })

/-- R60 with S_need and the needed windows known: its refusal, or S and the windows. A term of a coded stream always sets Wd_need, and
`DECODE` is the first reason, so with one a refusal names it whichever condition failed (R63; entry 124 of the log). -/
def chooseIntervals (s : State) (n : Nat) (c : Contract) (t : Term) (sNeed : Nat) (needs : List (Source × Nat)) : Verdict :=
  let own := needs.map fun p => p.1
  let r := formSets s c sNeed (placedWindows s n) needs
  let placed := r.wins.map fun p => (p.1, p.2.1)
  let bad := fun (f : Refuse) (lat : Option Nat) => withFigures s n c own none (slotsAsked s n c own) (refuse f lat)
  let by_ := fun (detail : Nat) => if needs.isEmpty then (⟨t.reason, detail, t.port, 65535⟩ : Refuse) else ⟨1, detail, 255, 65535⟩
  let latMin := latencyAt s c placed sNeed
  let late := needs.any (fun p => decide (min (periodTicks c) p.1.psrc < p.2)) || decide (sFit c < sNeed)
  match late, r.fail with
  | true, some _ => bad (by_ 2) none
  | true, none => bad (by_ 2) (some latMin)
  | false, some d => bad ⟨1, d, 255, 65535⟩ none
  | false, none => if c.latencyMax < latMin then bad (by_ 1) (some latMin) else acceptIntervals s n c sNeed latMin placed

/-- R64: a proposal is refused before every other check when a spare is gone. -/
def lostVerdict (v : Verdict) : Verdict :=
  { v with reason := 11, detail := 0, port := 255, slot := 65535, latGiven := 0, stage := 0, decWin := 0, windows := [] }

/-- R57-R63: the evaluation of a proposal of contract n while every spare is in place. -/
def evaluateFull (s : State) (n : Nat) (c : Contract) : Verdict :=
  let own := ownDecoded s n c
  let bad := fun (f : Refuse) => withFigures s n c own none (slotsAsked s n c own) (refuse f)
  match wdNeeds s c (capDec - otherDecode s n) own with
    | none => bad ⟨1, 2, 255, 65535⟩
    | some needs =>
      let t := setter (sTerms s n c (winBytes s c needs))
      match t.val with
      | none => bad (if needs.isEmpty || t.reason == 6 then ⟨t.reason, 2, t.port, 65535⟩ else ⟨1, 2, 255, 65535⟩)
      | some v => chooseIntervals s n c t (ceil160 v) needs

/-- R57-R64: the evaluation of a proposal of contract n. -/
def evaluate (s : State) (n : Nat) (c : Contract) : Verdict :=
  if spareLost s then lostVerdict (evaluateFull s n c) else evaluateFull s n c

/-! ## Re-admission at the existing S and Wd (R53) -/

/-- The windows a contract keeps for the streams it still decodes. -/
def keptWindows (c : Contract) : List Window :=
  c.windows.filter fun w => (countedSources c).any fun x => x.stream == w.stream

/-- Streams that a changed source list adds to those decoded. -/
def addedStreams (s : State) (n : Nat) (c : Contract) : List Source :=
  (ownDecoded s n c).filter fun x => !(c.windows.any fun w => w.stream == x.stream)

/-- R53: a term above the existing interval. -/
def overTerm (S : Nat) (ts : List Term) : Option Term := ts.find? fun t => match t.val with
  | none => true
  | some v => decide ((S : Rat) < v)

/-- R60: lat_min of a contract whose windows stand, from the needed windows and the largest term of S_need. -/
def leastLatency (s : State) (c : Contract) (ws : List (Source × Window)) (needs : Option (List (Source × Nat))) (v : Option Rat) :
    Option Nat :=
  match needs, v with
  | some ns, some r =>
    let need := fun (p : Source × Window) => ((ns.find? fun q => q.1.stream == p.1.stream).map fun q => q.2).getD p.2.wd
    some (latencyAt s c (ws.map fun p => (p.1, { p.2 with wd := need p })) (ceil160 r))
  | _, _ => none

/-- A window that stands is too short for what its stream needs now, or missing. -/
def windowShort (ws : List Window) (needs : Option (List (Source × Nat))) : Bool := match needs with
  | none => true
  | some ns => ns.any fun p => match ws.find? fun w => w.stream == p.1.stream with
    | some w => decide (w.wd < p.2)
    | none => true

/-- Launch slots of a contract whose change adds windows: those it holds stay with it until it is FREE (R524). -/
def slotsAfter (s : State) (n : Nat) (c : Contract) (added : List Window) : Nat :=
  otherSlots s n + slotsHeld s (· == n) + sumOf (added.map fun w => w.cores.length)
    + (seamPorts c).countP (fun e => !s.wt.slots.any fun p => p.2.rel && p.2.contract == n && p.2.action == 7 && p.2.unit == e) * c.regH

/-- R53: re-admission of a changed contract at its interval and window; a load that does not fit is refused with the
period detail (entry 20 of the log). R64 speaks of proposals alone. -/
def readmit (s : State) (n : Nat) (c : Contract) : Verdict :=
  let adds := (addedStreams s n c).map fun x => (x, min (min (periodTicks c) x.psrc) c.wd)
  let own := ownDecoded s n c
  let needs := wdNeeds s c (capDec - otherDecode s n) own
  let r := formSets s c c.stage (placedWindows s n ++ (keptWindows c).map (busyOf c)) adds
  let added := r.wins.map fun p => p.2.1
  let ws := keptWindows c ++ added
  let srcWs := ws.map fun w => (windowSource c w, w)
  let terms := sTerms s n c (winBytes s c (srcWs.map fun p => (p.1, p.2.wd)))
  let low := leastLatency s c srcWs needs (setter terms).val
  let slots := slotsAfter s n c added
  let due := dueAt s c srcWs c.stage
  let done := withFigures s n c own (some (atInterval s n c c.stage (srcWs.map fun p => (p.1, p.2.wd)))) slots
  let bad := fun (f : Refuse) => done (refuse f (if r.fail.isSome then none else low) (if r.fail.isSome then none else some due))
  if r.fail.isSome || windowShort ws needs then bad ⟨1, 2, 255, 65535⟩
  else match overTerm c.stage terms with
    | some t => bad ⟨t.reason, 2, t.port, 65535⟩
    | none =>
      let lat := latencyAt s c srcWs c.stage
      if c.latencyMax < lat then bad ⟨1, 1, 255, 65535⟩
      else match lateChecks s n c slots with
        | some f => bad f
        | none => done { latMin := low, latGiven := lat, stage := c.stage, decWin := largestWd s c srcWs, due := some due, windows := c.windows ++ added }

/-! ## The report (Table 3-9) -/

/-- A figure of the report, saturated at the width of its field; a FREE VALUE where the verdict has none (entry 5 of the log). -/
def figure (s : State) (i : Nat) (w : Nat) (v : Option Nat) : List Byte :=
  leBytes w (match v with
    | some x => min x (256 ^ w - 1)
    | none => Config.freeNat (s.free + i))

/-- The 64 bytes of the admission report. -/
def reportBytes (s : State) (v : Verdict) : List Byte :=
  leBytes 1 v.reason ++ leBytes 1 v.detail ++ leBytes 1 v.port ++ zeros 1 ++ figure s 8 4 v.latMin
    ++ leBytes 4 (min v.latGiven 0xFFFFFFFF) ++ leBytes 4 v.stage ++ leBytes 4 v.decWin ++ figure s 9 4 v.due
    ++ v.loads.zipIdx.flatMap (fun p => figure s p.2 2 p.1) ++ leBytes 2 v.slot ++ leBytes 2 (min v.slotsUsed 65535)
    ++ figure s 10 2 v.dieW ++ zeros 18

/-- The verdict leaves a figure of the report open. -/
def reportOpen (v : Verdict) : Bool := v.latMin.isNone || v.due.isNone || v.dieW.isNone || v.loads.any Option.isNone

/-- R63: write the report to `REPORT_ADDR`. -/
def writeReport (s : State) (addr : Nat) (v : Verdict) : State :=
  let s1 := hostWrite s addr (reportBytes s v)
  if reportOpen v then { s1 with free := s1.free + 11 } else s1

end Sys2Proof.Machine
end

