-- ==== Sys2Proof/Machine/Pools.lean ====
section
/-! DEFINITION. The buffer pools (R283, R297-R305, R528): reserves, occupancy and levels, allocation and reference counts, handle
caches, and the buffers that coded-stripe rings take (R298). Pools are numbered 0 A, 1 B, 2 C. -/

namespace Sys2Proof.Machine

/-- Buffers, ring limits, kept buffers and granules per buffer of a pool (Table 11-5). -/
def poolCount (p : Nat) : Nat := if p = 0 then 32768 else if p = 1 then 8192 else 2720
def poolRingMax (p : Nat) : Nat := if p = 0 then 23296 else if p = 1 then 7008 else 2336
def poolKept (p : Nat) : Nat := if p = 0 then 9472 else if p = 1 then 1184 else 384
def poolGran (p : Nat) : Nat := if p = 0 then 1 else if p = 1 then 8 else 36

/-- A pool of the buffers. -/
def Buffers.pool (b : Buffers) (p : Nat) : Pool := if p = 0 then b.poolA else if p = 1 then b.poolB else b.poolC
def Buffers.modPool (b : Buffers) (p : Nat) (f : Pool → Pool) : Buffers :=
  if p = 0 then { b with poolA := f b.poolA } else if p = 1 then { b with poolB := f b.poolB } else { b with poolC := f b.poolC }
def State.pool (s : State) (p : Nat) : Pool := s.buf.pool p
def State.modPool (s : State) (p : Nat) (f : Pool → Pool) : State := s.modBuf fun b => b.modPool p f

/-- Reset reserve of an owner, port × 4 + class (R299). -/
def rsvReset (o : Nat) : Word := if o % 4 = 0 then 0x02000000 else 0x01040020
/-- `POOL_RSV` of an owner. -/
def rsvOf (b : Buffers) (o : Nat) : Word := (mget none b.rsv o).getD (rsvReset o)
/-- A pool's part of a reserve word. -/
def rsvPart (w : Word) (p : Nat) : Nat := if p = 0 then fld w 15 0 else if p = 1 then fld w 23 16 else fld w 31 24
def rsvSet (b : Buffers) (p o : Nat) : Nat := rsvPart (rsvOf b o) p

/-- Sum of the reserves of a pool's owners, as they are set. -/
def sumSet (b : Buffers) (p : Nat) : Nat := sumOf ((List.range 128).map (rsvSet b p))

/-- Buffers of a pool charged to an owner. -/
def usedBy (b : Buffers) (p o : Nat) : Nat := mget 0 (b.pool p).used o

/-- R299: the reserve in force: a lowered one takes effect as the owner's buffers are freed. -/
def reserve (b : Buffers) (p o : Nat) : Nat := max (rsvSet b p o) (min (mget 0 b.rsvHeld (128 * p + o)) (usedBy b p o))

/-- Sum of the reserves in force of a pool's owners. -/
def sumReserves (b : Buffers) (p : Nat) : Nat := sumOf ((List.range 128).map (reserve b p))

/-- Buffers of a pool in use by frames, and those used beyond the owners' reserves (R300). -/
def usedAll (b : Buffers) (p : Nat) : Nat := sumOf ((b.pool p).used.map fun x => x.2)
def beyond (b : Buffers) (p : Nat) : Nat := sumOf ((b.pool p).used.map fun x => x.2 - reserve b p x.1)

/-- R300: the shared region of a pool. -/
def sharedRegion (b : Buffers) (p : Nat) : Int := (poolCount p : Int) - (b.pool p).rings - sumReserves b p

/-- Table 11-6 in eightieths: thresholds and release points. -/
def levelUpAt (l : Nat) : Int := if l = 1 then 60 else if l = 2 then 70 else 76
def levelDownAt (l : Nat) : Int := if l = 1 then 55 else if l = 2 then 65 else 71

/-- R300: the level of a pool, with hysteresis. -/
def levelOf (b : Buffers) (p : Nat) : Nat :=
  let u : Int := 80 * beyond b p
  let r := sharedRegion b p
  let at_ := fun (l : Nat) => decide (levelUpAt l * r ≤ u) || (decide (l ≤ (b.pool p).level) && decide (levelDownAt l * r ≤ u))
  if at_ 3 then 3 else if at_ 2 then 2 else if at_ 1 then 1 else 0

/-- `POOL_LEVEL` (R300). -/
def poolTop (b : Buffers) : Nat := max b.poolA.level (max b.poolB.level b.poolC.level)

/-- R300: take new levels; `LEVEL_UP` where `POOL_LEVEL` rose (Table 11-9). -/
def relevel (s : State) : State :=
  let b := s.buf
  let b1 : Buffers := { b with poolA := { b.poolA with level := levelOf b 0 }, poolB := { b.poolB with level := levelOf b 1 }, poolC := { b.poolC with level := levelOf b 2 } }
  let s1 := { s with buf := b1 }
  if poolTop b < poolTop b1 then setStatus s1 Off.poolStatus 1 else s1

/-- R297: the smallest pool whose buffer holds n bytes. -/
def poolFor (n : Nat) : Nat := if n ≤ 256 then 0 else if n ≤ 2048 then 1 else 2

/-- Buffers of a pool that built rings hold. -/
def builtBufs (b : Buffers) (p : Nat) : Nat :=
  sumOf (b.rings.map fun r => if r.2.built then r.2.bufs.getD (2 - p) 0 else 0)

/-- Buffers of a pool that neither a frame nor a built ring holds. -/
def freeBufs (b : Buffers) (p : Nat) : Nat := poolCount p - usedAll b p - builtBufs b p

/-- R299, R301: an owner finds a reserved or a shared buffer, and a handle in the cache. -/
def canAlloc (b : Buffers) (p o : Nat) : Bool :=
  (decide (usedBy b p o < reserve b p o) || decide ((beyond b p : Int) < sharedRegion b p))
    && decide (0 < (b.pool p).cache) && decide (0 < freeBufs b p)

/-- The lowest handle without a buffer in use. -/
def freeHandle (m : Map PBuf) : Nat := ((List.range (m.length + 1)).find? fun h => (mfind m h).isNone).getD 0

/-- Allocate a buffer for an owner with a reference count (R302). -/
def allocBuf (s : State) (p o refs : Nat) : Nat × State :=
  let h := freeHandle (s.pool p).bufs
  (h, relevel (s.modPool p fun x => { x with
    cache := x.cache - 1, bufs := mset {} x.bufs h { refs := refs, owner := o }, used := mmod 0 x.used o (· + 1) }))

/-- Fault source `POOL_DOUBLE_FREE` and its status bit (R302, Table 18-2). -/
def doubleFree (s : State) : State := setStatus s Off.poolStatus (2 ^ 3)

/-- A buffer whose count reached 0 is freed (R302). -/
def freeBuf (s : State) (p h : Nat) : State :=
  let o := (mget {} (s.pool p).bufs h).owner
  let held := min (mget 0 s.buf.rsvHeld (128 * p + o)) (usedBy s.buf p o - 1)
  relevel ((s.modPool p fun x => { x with
    cache := min 1024 (x.cache + 1), bufs := mset {} x.bufs h {}, used := mmod 0 x.used o (· - 1) }).modBuf
      fun b => { b with rsvHeld := mset 0 b.rsvHeld (128 * p + o) held })

/-- R303: refill a cache below 256 handles with 256 from the free ring. -/
def refill (s : State) (p : Nat) : State :=
  let x := s.pool p
  if x.cache < 256 ∧ x.cache + 256 ≤ freeBufs s.buf p then s.modPool p fun x => { x with cache := x.cache + 256 } else s

/-- R303: spill 256 handles of a cache above 768. -/
def spill (s : State) (p : Nat) : State :=
  if 768 < (s.pool p).cache then s.modPool p fun x => { x with cache := x.cache - 256 } else s

/-- `POOL_CACHE_REFILL` (R303). -/
def execPoolCacheRefill (pool : Fin 3) (s : State) : Out := .next (refill s pool.val)

/-- `POOL_CACHE_SPILL` (R303). -/
def execPoolCacheSpill (pool : Fin 3) (s : State) : Out := .next (spill s pool.val)

/-! ## Buffers of coded-stripe rings (R298) -/

/-- Key of a ring: 32 × contract + port. -/
def ringKey (c p : Nat) : Nat := 32 * c + p
def State.ring (s : State) (c p : Nat) : CRing := mget {} s.buf.rings (ringKey c p)
def State.modRing (s : State) (c p : Nat) (f : CRing → CRing) : State :=
  s.modBuf fun b => { b with rings := mmod {} b.rings (ringKey c p) f }

/-- Buffers of a pool that rings may still take, and the free granules above pool C. -/
def ringRoom (b : Buffers) (p : Nat) : Nat := poolRingMax p - (b.pool p).rings
def extraRoom (b : Buffers) : Nat := 384 - b.extra

/-- Granules of a plan: buffers of C, B and A, and granules. -/
def planGran (plan : List Nat) : Nat := 36 * plan.getD 0 0 + 8 * plan.getD 1 0 + plan.getD 2 0 + plan.getD 3 0

/-- A plan that fills whole buffers only, so that none of the limit is left unused; a last one where A and the granules run out. -/
def tightPlan (b : Buffers) (z : Nat) : List Nat :=
  let nc := min (z / 36) (ringRoom b 2)
  let nb := min ((z - 36 * nc) / 8) (ringRoom b 1)
  let na := min (z - 36 * nc - 8 * nb) (ringRoom b 0)
  let ng := min (z - 36 * nc - 8 * nb - na) (extraRoom b)
  if planGran [nc, nb, na, ng] = z then [nc, nb, na, ng]
  else if nb < ringRoom b 1 then [nc, nb + 1, 0, 0]
  else if nc < ringRoom b 2 then [nc + 1, 0, 0, 0]
  else [nc, nb, na, ng]

/-- R298: the buffers of a ring of z granules: pool C first, then B, then A, then the 384 granules: [C, B, A, granules]. A
last buffer may be filled in part; where the limits would then not hold the ring, only whole buffers are taken. -/
def ringPlan (b : Buffers) (z : Nat) : List Nat :=
  let nc := min (ceilDiv z 36) (ringRoom b 2)
  let z1 := z - 36 * nc
  let nb := min (ceilDiv z1 8) (ringRoom b 1)
  let z2 := z1 - 8 * nb
  let na := min z2 (ringRoom b 0)
  let plan := [nc, nb, na, min (z2 - na) (extraRoom b)]
  if z ≤ planGran plan then plan else tightPlan b z

/-- Charge a plan to the pools, or give it back. -/
def chargePlan (b : Buffers) (plan : List Nat) : Buffers :=
  { b with poolC := { b.poolC with rings := b.poolC.rings + plan.getD 0 0 }, poolB := { b.poolB with rings := b.poolB.rings + plan.getD 1 0 },
           poolA := { b.poolA with rings := b.poolA.rings + plan.getD 2 0 }, extra := b.extra + plan.getD 3 0 }
def returnPlan (b : Buffers) (plan : List Nat) : Buffers :=
  { b with poolC := { b.poolC with rings := b.poolC.rings - plan.getD 0 0 }, poolB := { b.poolB with rings := b.poolB.rings - plan.getD 1 0 },
           poolA := { b.poolA with rings := b.poolA.rings - plan.getD 2 0 }, extra := b.extra - plan.getD 3 0 }

/-- Reserve the ring of a contract and port when a proposal is accepted (R298). -/
def reserveRing (c : Nat) (s : State) (p z : Nat) : State :=
  if z = 0 then s
  else
    let plan := ringPlan s.buf z
    (s.modBuf fun b => chargePlan b plan).modRing c p fun _ => { z := z, bufs := plan }

/-- Buffers that the unbuilt rings of a contract need of a pool. -/
def wantedBufs (b : Buffers) (c p : Nat) : Nat :=
  sumOf (b.rings.map fun r => if r.1 / 32 = c ∧ !r.2.built then r.2.bufs.getD (2 - p) 0 else 0)

/-- R298: the rings of a contract are laid out at its `CONTRACT_COMMIT`, with what the limits leave then. -/
def planRings (s : State) (c : Nat) : State :=
  let mine := s.buf.rings.filter fun r => r.1 / 32 == c && !r.2.built
  let b1 := mine.foldl (fun b r => returnPlan b r.2.bufs) s.buf
  relevel { s with buf := mine.foldl (fun b r =>
    let plan := ringPlan b r.2.z
    { chargePlan b plan with rings := mset {} b.rings r.1 { r.2 with bufs := plan } }) b1 }

/-- R298: every buffer that the rings of a contract need is free of frames, and the limits hold them. -/
def ringsBuildable (s : State) (c : Nat) : Bool :=
  (s.buf.rings.all fun r => r.1 / 32 != c || decide (r.2.z ≤ planGran r.2.bufs)) &&
  [0, 1, 2].all fun p => decide (usedAll s.buf p + builtBufs s.buf p + wantedBufs s.buf c p ≤ poolCount p)

/-- A cache holds no more handles than there are free buffers (R303). -/
def trimCache (b : Buffers) (p : Nat) : Buffers := b.modPool p fun x => { x with cache := min x.cache (freeBufs b p) }

/-- Build the rings of a contract: the handles of their buffers are no longer free. -/
def buildRings (s : State) (c : Nat) : State :=
  s.modBuf fun b =>
    let b1 : Buffers := { b with rings := b.rings.map fun r => if r.1 / 32 = c then (r.1, { r.2 with built := true }) else r }
    trimCache (trimCache (trimCache b1 0) 1) 2

/-- The rings of a contract return when it becomes FREE (R298). -/
def freeRings (s : State) (c : Nat) : State :=
  let mine := s.buf.rings.filter fun r => r.1 / 32 == c
  relevel (s.modBuf fun b => { mine.foldl (fun b r => returnPlan b r.2.bufs) b with rings := b.rings.filter fun r => r.1 / 32 != c })

/-- `POOL_RING_USE`: granules held by rings, built or reserved. -/
def ringUse (b : Buffers) : Nat := b.poolA.rings + 8 * b.poolB.rings + 36 * b.poolC.rings + b.extra

end Sys2Proof.Machine
end

