-- ==== Sys2Proof/Machine/Contracts.lean ====
section
/-! DEFINITION. Contract commands (R46-R54, R57-R63, R298, R392, R393): proposing, committing, releasing and changing the
layout; the relative launch slots of a contract (Table 3-7, R524). -/

namespace Sys2Proof.Machine

/-! ## Relative launch slots (Table 3-7) -/

/-- Encoder cores in service. -/
def activeEnc (s : State) : List Nat := (List.range 16).filter fun i => (s.encCore i).role == .active

/-- A relative slot. -/
def relSlot (n : Nat) (action unit arg : Nat) (d : Int) : LSlot :=
  { time := d, rel := true, contract := n, unit := unit, action := action, arg := arg }

/-- Decode-start slots (R85, R86). -/
def decodeSlots (n : Nat) (c : Contract) : List LSlot :=
  c.windows.flatMap fun w => w.cores.map fun i => relSlot n 3 i w.stream (c0At c c.stage - w.wd - w.shift)

/-- Slots of paddock row k. -/
def rowSlots (s : State) (n : Nat) (c : Contract) (k : Nat) : List LSlot :=
  let at_ := fun (j : Int) => c0At c c.stage + j * c.stage
  ((activeSlices s).take (min 4 c.regW)).map (fun i => relSlot n 4 i k (at_ k))
    ++ ((activeEnc s).take 15).map (fun i => relSlot n 5 i k (at_ (k + 1)))
    ++ (contractPorts s c).map (fun p => relSlot n 6 p k (at_ (k + 2)))
    ++ (seamPorts c).map (fun e => relSlot n 7 e k (at_ (k - 1)))

/-- BEACON and PRESENT slots. -/
def guardSlots (s : State) (n : Nat) (c : Contract) : List LSlot :=
  (contractPorts s c).flatMap fun p => [relSlot n 8 p 0 (-(c.guard : Int)), relSlot n 9 p 0 (-(c.guard : Int))]

/-- All slots of a contract but `FRAME_BOUNDARY`. -/
def stepSlots (s : State) (n : Nat) (c : Contract) : List LSlot :=
  decodeSlots n c ++ (List.range c.regH).flatMap (rowSlots s n c) ++ guardSlots s n c

/-- The least offset. -/
def leastTime (ls : List LSlot) : Int := ls.foldl (fun t l => min t l.time) 0

/-- R59: the relative slots of a contract; `FRAME_BOUNDARY` at the least offset (R21). -/
def contractSlots (s : State) (n : Nat) (c : Contract) : List LSlot :=
  let ls := stepSlots s n c
  relSlot n 1 0 0 (leastTime ls) :: ls

/-- Put slots into the free places among 0-7,935, lowest first (R24). The first number bounds the search. -/
def placeSlots : Nat → Nat → List LSlot → Map LSlot → Map LSlot
  | 0, _, _, m => m
  | _, _, [], m => m
  | f + 1, k, l :: ls, m =>
    if (mget {} m k).action = 0 then placeSlots f (k + 1) ls (mset {} m k l) else placeSlots f (k + 1) (l :: ls) m

/-- Place slots of a contract. -/
def addSlots (s : State) (ls : List LSlot) : State := s.modWt fun w => { w with slots := placeSlots 7936 0 ls w.slots }

/-- Arm the slots of a contract from frame n0 on (R524). -/
def armSlots (s : State) (n n0 : Nat) : State :=
  s.modWt fun w => { w with slots := w.slots.map fun p => if slotOf n p.2 then (p.1, { p.2 with armed := true, next := n0, arg := argFor p.2 n0 }) else p }

/-- R524: the slots hold their places until the contract is FREE. -/
def dropSlots (s : State) (n : Nat) : State := s.modWt fun w => { w with slots := w.slots.filter fun p => !slotOf n p.2 }

/-! ## Proposing -/

/-- `CONTRACT_PROPOSE`, the fields (Table 15-6, Table 3-4). -/
def proposeFields (d : Desc) : Bool :=
  hdrOk d 0x10 [(8, 1), (16, 12), (32, 8)] && decide (descFld d 8 1 < 64) && descFld d 32 8 % 64 == 0
    && decide (64 ≤ descFld d 24 4) && decide (descFld d 24 4 ≤ 529472)

/-- R193, R207: bytes of the stores of a Sward endpoint: two reconstruction stores, its state record. -/
def recBytes (e : Endpoint) : Nat := e.tileW * e.tileH * 6
def recordBytes (e : Endpoint) : Nat := e.tileH / 4 * (4 + 2 * (e.tileW / 8))
/-- Sward stripes of a contract, 16 B of status each (R207). -/
def swardStripes (c : Contract) : Nat := sumOf (c.endpoints.map fun e => if e.sward then e.tileH / 4 else 0)
def proposalBytes (c : Contract) : Nat :=
  sumOf (c.endpoints.map fun e => if e.sward then 2 * recBytes e + recordBytes e else 0) + 32 * swardStripes c

/-- R193: place the stores of a Sward endpoint. -/
def placeEndpoint (s : State) (e : Endpoint) : State :=
  if !e.sward then s
  else
    let (a, s1) := place s (recBytes e)
    let (b, s2) := place s1 (recBytes e)
    let (c, s3) := place s2 (recordBytes e)
    { s3 with enc := { s3.enc with codes := mset {} s3.enc.codes e.slot { recBase0 := a, recBase1 := b, stateBase := c } } }

/-- R207: place the two status arrays of a contract. -/
def placeStat (s : State) (n : Nat) (c : Contract) : State :=
  if swardStripes c = 0 then s
  else
    let (a, s1) := place s (16 * swardStripes c)
    let (b, s2) := place s1 (16 * swardStripes c)
    { s2 with enc := { s2.enc with stat := mset 0 (mset 0 s2.enc.stat (2 * n) a) (2 * n + 1) b } }

/-- The streams of a contract that no contract named before belong to it (R85). -/
def ownStreams (s : State) (n : Nat) (xs : List Source) : State :=
  xs.foldl (fun t x => if (t.stream x.stream).owner.isNone then t.modStream x.stream fun y => { y with owner := some n } else t) s

/-- An accepted proposal: the contract is PROPOSED, its stores, rings and slots are taken (R24, R193, R298). -/
def acceptProposal (s : State) (n : Nat) (c : Contract) (v : Verdict) : State :=
  let c1 : Contract := { c with state := .proposed, stage := v.stage, wd := v.decWin, windows := v.windows }
  let s1 := s.modContract n fun _ => c1
  let s2 := ownStreams s1 n c.sources
  let s3 := placeStat (c.endpoints.foldl placeEndpoint s2) n c
  let s4 := (contractPorts s c).foldl (fun t p => reserveRing n t p (ringZ s c p)) s3
  relevel (addSlots s4 (contractSlots s n c1))

/-- The admission step of a proposal (R57-R63, R393): the report, then the completion. -/
def proposeAdmit (ref : CmdRef) (d : Desc) (c : Contract) (s : State) : State :=
  let n := descFld d 8 1
  let v := evaluate s n c
  let s1 := writeReport s (descFld d 32 8) v
  if v.reason = 0 then complete (acceptProposal s1 n c v) ref St.ok 0 0 0
  else complete s1 ref St.contractRefused (v.reason + 256 * v.detail) 0 0

/-- `CONTRACT_PROPOSE` once its block was fetched (R390 steps 4-6). -/
def proposeBlock (ref : CmdRef) (d : Desc) (bs : List Byte) (s : State) : State :=
  let n := descFld d 8 1
  check (bs.length == descFld d 24 4 && proposalOk s n bs) St.invalidField ref s fun s =>
  check (proposalStates s n (parseProposal bs)) St.stateConflict ref s fun s =>
  check (fits s (proposalBytes (parseProposal bs))) St.noResource ref s fun s =>
  proposeAdmit ref d (parseProposal bs) s

/-- `CONTRACT_PROPOSE` (R57, R390-R393). -/
def execContractPropose (sq : Fin 1024) (d : Desc) (h : HostData) (s : State) : Out :=
  runCmd sq d s fun ref s =>
    check (proposeFields d) St.invalidField ref s fun s =>
    check ((s.contract (descFld d 8 1)).state == .free) St.stateConflict ref s fun s =>
    fetchOf h ref s fun bs s => proposeBlock ref d bs s

/-! ## Committing (R37, R49, R50, R298) -/

/-- Key of an endpoint's coefficient stores. -/
def coefKey (n slot : Nat) : Nat := 16384 * n + slot

/-- R49: every endpoint has a map list and a coefficient plane. -/
def commitLoaded (s : State) (n : Nat) : Bool :=
  (s.contract n).endpoints.all fun e =>
    (mget none (s.contract n).maps e.slot).isSome && (mget {} s.corr.coefs (coefKey n e.slot)).inForce.isSome

/-- The offset of the contract's frame boundary (R21). -/
def boundaryOffset (s : State) (n : Nat) : Int :=
  match boundarySlot s n with
  | some l => l.time
  | none => 0

/-- R50: the smallest frame whose boundary lies at least 160,000 ticks ahead. -/
def autoFirst (c : Contract) (wall : Nat) (d : Int) : Nat :=
  let need : Int := (wall : Int) + 160000 - d - c.t0
  if need ≤ 0 then 0 else ceilDiv (need.toNat * c.pden) c.pnum

/-- The boundary of frame f lies at least 160,000 ticks ahead. -/
def firstOk (s : State) (n f : Nat) : Bool :=
  decide ((s.wallNow : Int) + 160000 ≤ launchTick (s.contract n) f + boundaryOffset s n)

/-- Acceptance of a commit: n0 is fixed, the slots are armed, the contract is COMMITTED (R50, R524), and its availability
counters start from 0 (R460). -/
def commitAccept (s : State) (n : Nat) (ref : CmdRef) (n0 : Nat) : State :=
  let s1 := ((buildRings s n).modFlt fun x => { x with avail := mset {} x.avail n {} }).modContract n fun c => { c with state := .committed, n0 := n0, commit := none, nextLaunch := n0 }
  complete (armSlots s1 n n0) ref St.ok n0 s.comp.canvasBase0 s.comp.canvasBase1

/-- A commit whose rings can be built is accepted, or refused where the frame it names is too near (R50). -/
def commitDecide (s : State) (n : Nat) (ref : CmdRef) (atFrame : Bool) (first : Nat) : State :=
  if atFrame then
    if firstOk s n first then commitAccept s n ref first
    else completeWith (s.modContract n fun c => { c with commit := none }) ref St.invalidField
  else commitAccept s n ref (autoFirst (s.contract n) s.wallNow (boundaryOffset s n))

/-- `CONTRACT_COMMIT` once its fields and states are good: it waits until every ring can be built (R298). -/
def commitTry (s : State) (n : Nat) (ref : CmdRef) (atFrame : Bool) (first : Nat) : State :=
  let s1 := planRings s n
  if ringsBuildable s1 n then commitDecide s1 n ref atFrame first
  else s1.modContract n fun c => { c with commit := some (ref, atFrame, first) }

/-- `CONTRACT_COMMIT`, the fields (Table 15-6, R50). -/
def commitFields (s : State) (d : Desc) : Bool :=
  hdrOk d 0x11 [(8, 2), (16, 8)] && decide (descFld d 8 1 < 64) && decide (descFld d 9 1 < 2)
    && (descFld d 9 1 == 1 || (descFld d 16 8 == 0 && !bit (s.reg Off.foldCfg) 4))

/-- The states in which a commit is valid (Table 3-3, R37, R49). A commit that already waits is in the way. -/
def commitStates (s : State) (n : Nat) : Bool :=
  (s.contract n).state == .proposed && s.wt.tstate == .locked && (s.contract n).commit.isNone && commitLoaded s n

/-- `CONTRACT_COMMIT` (R37, R49, R50, R298). -/
def execContractCommit (sq : Fin 1024) (d : Desc) (s : State) : Out :=
  runCmd sq d s fun ref s =>
    check (commitFields s d) St.invalidField ref s fun s =>
    check (commitStates s (descFld d 8 1)) St.stateConflict ref s fun s =>
    commitTry s (descFld d 8 1) ref (descFld d 9 1 == 1) (descFld d 16 8)

/-- `CONTRACT_COMMIT_ACCEPT`: the rings of a waiting commit can be built now (R298). -/
def execContractCommitAccept (c : Fin 64) (s : State) : Out :=
  match (s.contract c.val).commit with
  | some (ref, atFrame, first) =>
    if s.serving && ringsBuildable s c.val then .next (commitDecide s c.val ref atFrame first) else .next s
  | none => .next s

/-! ## Releasing (R51) -/

/-- Device addresses that a contract's map images hold. -/
def mapBases (c : Contract) : List Nat :=
  (c.maps ++ c.sets.flatMap fun f => f.maps).filterMap fun p => p.2.map fun m => m.base

/-- The coefficient stores of a contract are freed (R146). -/
def freeCoefs (s : State) (n : Nat) : State :=
  let mine := s.corr.coefs.filter fun p => p.1 / 16384 == n
  let s1 := mine.foldl (fun t p => unplace t p.2.base) s
  { s1 with corr := { s1.corr with
    coefs := s1.corr.coefs.filter fun p => p.1 / 16384 != n
    curves := s1.corr.curves.filter fun p => p.1 / 4 != n
    drifts := s1.corr.drifts.filter fun p => p.1 / 8 != n } }

/-- The drift gains of an endpoint are gone; its temperature readings stay. -/
def dropGains (c : Contract) (p : Nat × EpDrift) : Nat × EpDrift :=
  if c.endpoints.any fun e => e.slot == p.1 then (p.1, { p.2 with gains := [], stale := false }) else p

/-- The encoder stores of a contract's endpoints are freed. -/
def freeCodes (s : State) (n : Nat) (c : Contract) : State :=
  let s1 := c.endpoints.foldl (fun t e =>
    let k := mget {} t.enc.codes e.slot
    unplace (unplace (unplace t k.recBase0) k.recBase1) k.stateBase) s
  let s2 := unplace (unplace s1 (mget 0 s1.enc.stat (2 * n))) (mget 0 s1.enc.stat (2 * n + 1))
  { s2 with
    enc := { s2.enc with
      codes := s2.enc.codes.filter fun p => !c.endpoints.any fun e => e.slot == p.1
      stat := s2.enc.stat.filter fun p => p.1 / 2 != n }
    corr := { s2.corr with eps := s2.corr.eps.map (dropGains c) } }

/-- R217: the proxy of a contract that becomes FREE stops with `ABORTED`. -/
def stopProxyOf (s : State) (n : Nat) : State :=
  if s.prx.state = .running ∧ s.prx.contract = n then
    { s with prx := { s.prx with state := .stopping, endStatus := St.aborted, captures := s.prx.captures.take 1, due := [] } }
  else s

/-- No contract owns the streams of a contract that is FREE. -/
def disownStreams (s : State) (n : Nat) : State :=
  { s with streams := s.streams.map fun p => if p.2.owner = some n then (p.1, { p.2 with owner := none }) else p }

/-- A contract becomes FREE: every resource returns (R51, R146, R148, R149, R217, R298, R524). -/
def freeContract (s : State) (n : Nat) : State :=
  let c := s.contract n
  let s1 := freeRings (dropSlots s n) n
  let s2 := (mapBases c).foldl unplace (freeCodes (freeCoefs s1 n) n c)
  let keep := fun (x : Drover) => { x with ready := x.ready.filter fun r => r.contract != n }
  let s3 : State := { s2 with
    drovers := s2.drovers.map fun p => (p.1, keep p.2)
    comp := { s2.comp with waits := s2.comp.waits.filter fun w => w.2.contract != n } }
  (stopProxyOf (disownStreams s3 n) n).modContract n fun _ => {}

/-- All ones: a contract that never ran (Table 15-6). -/
def allOnes64 : Nat := 2 ^ 64 - 1

/-- The releases of a contract complete. -/
def completeReleases (s : State) (rs : List CmdRef) (r0 : Nat) : State := rs.foldl (fun t r => complete t r St.ok r0 0 0) s

/-- R51: the release of a contract that does not run. A commit that waits finds the contract no longer PROPOSED. -/
def releaseIdle (s : State) (n : Nat) (ref : CmdRef) : State :=
  let s1 := match (s.contract n).commit with
    | some (r, _, _) => completeWith s r St.stateConflict
    | none => s
  complete (freeContract s1 n) ref St.ok allOnes64 0 0

/-- The tick at which a DRAINING contract becomes FREE (Table 3-1). -/
def drainTick (c : Contract) : Nat := launchTick c (c.nLast.getD 0 + b2n c.blankOut)

/-- The drain of a contract has ended. -/
def drained (s : State) (c : Contract) : Bool := c.state == .draining && decide (drainTick c ≤ s.wallNow)

/-- Table 3-1: a DRAINING contract becomes FREE, and its releases complete with n_last. -/
def drainEnd (s : State) (n : Nat) : State :=
  let c := s.contract n
  completeReleases (freeContract s n) c.releases (c.nLast.getD 0)

/-- A slot of a draining contract still fires for frames up to n_last only. -/
def drainSlot (n last : Nat) (l : LSlot) : LSlot :=
  if slotOf n l then { l with armed := l.armed && decide (l.next ≤ last) } else l

/-- R51: a RUNNING contract drains: no slot fires for a frame after n_last. -/
def beginDrain (s : State) (n : Nat) (ref : CmdRef) (blank : Bool) : State :=
  let last := (s.contract n).frame.getD 0
  let s1 := s.modContract n fun c => { c with state := .draining, nLast := some last, blankOut := blank, releases := [ref] }
  s1.modWt fun w => { w with slots := w.slots.map fun p => (p.1, drainSlot n last p.2) }

/-- `CONTRACT_RELEASE` by state (R51). -/
def releaseRun (s : State) (n : Nat) (ref : CmdRef) (blank : Bool) : State :=
  match (s.contract n).state with
  | .free => complete s ref St.ok allOnes64 0 0
  | .proposed => releaseIdle s n ref
  | .committed => releaseIdle s n ref
  | .draining => s.modContract n fun c => { c with releases := c.releases ++ [ref] }
  | .running =>
    let s1 := beginDrain s n ref blank
    if drained s1 (s1.contract n) then drainEnd s1 n else s1

/-- `CONTRACT_RELEASE` (R48, R51). -/
def execContractRelease (sq : Fin 1024) (d : Desc) (s : State) : Out :=
  runCmd sq d s fun ref s =>
    check (hdrOk d 0x12 [(8, 2)] && decide (descFld d 8 1 < 64) && decide (descFld d 9 1 < 2)) St.invalidField ref s fun s =>
    releaseRun s (descFld d 8 1) ref (descFld d 9 1 == 1)

/-! ## Layout (R52, R53) -/

/-- `RESULT0` of a command that takes effect at once (R52). -/
def fromFirst : Nat := 2 ^ 64 - 1

/-- A command's change is deferred; its frame is fixed when its completion is written (R21, R52). -/
def defer_ (s : State) (n : Nat) (x : Deferred) : State := s.modContract n fun c => { c with deferred := c.deferred ++ [x] }

/-- `LAYOUT_UPDATE`, the fields. -/
def layoutFields (d : Desc) : Bool :=
  hdrOk d 0x13 [(8, 3), (16, 12), (32, 14)] && decide (descFld d 8 1 < 64) && decide (descFld d 9 1 ≤ 64)
    && decide (descFld d 10 1 ≤ 64) && descFld d 24 4 == 64 * descFld d 9 1 + 16 * descFld d 10 1 && descFld d 32 8 % 64 == 0

/-- Layers, sources and background that the command carries; `NSRC` 0 keeps the source list. -/
def layoutSources (c : Contract) (d : Desc) (bs : List Byte) : List Source :=
  if descFld d 10 1 = 0 then countedSources c else (items bs (64 * descFld d 9 1) 16 (descFld d 10 1)).map parseSource
def layoutLayers (d : Desc) (bs : List Byte) : List Layer := (items bs 0 64 (descFld d 9 1)).map parseLayer
def layoutBackground (d : Desc) : List Nat := [descFld d 40 2, descFld d 42 2, descFld d 44 2]

/-- The contents of the records (R105, R392). -/
def layoutOk (s : State) (c : Contract) (d : Desc) (bs : List Byte) : Bool :=
  let xs := layoutSources c d bs
  bs.length == descFld d 24 4 && (descFld d 10 1 == 0 || sourcesOk s xs) && (items bs 0 64 (descFld d 9 1)).zipIdx.all fun p => layerOk s c xs p.1 p.2

/-- Decode starts and seam sends of a contract with new windows and layers (Table 3-7). -/
def layoutSlots (s : State) (n : Nat) (c : Contract) : List LSlot :=
  (stepSlots s n c).filter fun l => l.action == 3 || l.action == 7

/-- The slot of contract n that holds the action, unit and argument of l (R13: the unit that has taken it over). -/
def heldSlot (s : State) (n : Nat) (l : LSlot) : Option (Nat × LSlot) :=
  s.wt.slots.find? fun p => slotOf n p.2 && p.2.action == l.action && p.2.arg == l.arg &&
    ((p.2.takeover.getLast?.map fun t => t.2).getD p.2.unit) == l.unit

/-- Slots that the contract lacks, and new offsets of those that it has. -/
def missingSlots (s : State) (n : Nat) (c : Contract) : List LSlot :=
  (layoutSlots s n c).filter fun l => (heldSlot s n l).isNone
def movedSlots (s : State) (n : Nat) (c : Contract) : List (Nat × Int) :=
  (layoutSlots s n c).filterMap fun l => (heldSlot s n l).map fun p => (p.1, l.time)

/-- The offset that a slot has once every change of it that waits has come (R21, R52). -/
def lastTime (c : Contract) (k : Nat) (l : LSlot) : Int :=
  (((l.moves.map fun m => m.2) ++ (c.deferred.flatMap fun d => d.moves.filter fun m => m.1 == k).map fun m => m.2).getLast?).getD l.time
def lastBoundary (s : State) (n : Nat) : Int := match boundarySlot s n with
  | some l => ((l.moves.map fun m => m.2) ++ (s.contract n).deferred.filterMap fun d => d.early).getLast?.getD l.time
  | none => 0

/-- The least offset of a contract's slots once some of them have moved (R21). -/
def leastOffset (s : State) (n : Nat) (moves : List (Nat × Int)) : Int :=
  (s.wt.slots.filter fun p => slotOf n p.2 && p.2.action != 1).foldl (fun t p =>
    min t (((moves.find? fun m => m.1 == p.1).map fun m => m.2).getD (lastTime (s.contract n) p.1 p.2))) 0

/-- Launch slots that one map holds and another does not. -/
def newSlots (old new : Map LSlot) : List Nat :=
  new.filterMap fun p => if (mget {} old p.1).action = 0 then some p.1 else none

/-- An accepted layout: it waits for its boundary; windows and slots of added streams are placed, and the boundary moves to
the least offset (R21, R52, R53, R59). -/
def acceptLayout (s : State) (n : Nat) (ref : CmdRef) (ch : Change) (xs : List Source) (v : Verdict) : State :=
  let s1 := ownStreams (s.modContract n fun c => { c with windows := v.windows }) n xs
  let c : Contract := { s1.contract n with layers := countedLayers { s1.contract n with deferred := [{ change := ch }] } }
  let s2 := addSlots s1 (missingSlots s1 n c)
  let moves := movedSlots s1 n c
  let least := leastOffset s2 n moves
  defer_ s2 n { change := ch, wait := some ref, adds := newSlots s1.wt.slots s2.wt.slots, moves := moves
                early := if least = lastBoundary s1 n then none else some least }

/-- `LAYOUT_UPDATE` once its records are good: re-admission (R53). -/
def layoutAdmit (ref : CmdRef) (d : Desc) (bs : List Byte) (s : State) : State :=
  let n := descFld d 8 1
  let c := s.contract n
  let xs := layoutSources c d bs
  let ch := Change.layout (layoutLayers d bs) xs (layoutBackground d)
  let v := readmit s n { c with deferred := c.deferred ++ [{ change := ch }] }
  let s1 := writeReport s (descFld d 32 8) v
  if v.reason = 0 then completeDeferred (acceptLayout s1 n ref ch xs v) ref n
  else complete s1 ref St.contractRefused (v.reason + 256 * v.detail) 0 0

/-- COMMITTED or RUNNING (Table 3-3). -/
def layoutState (c : Contract) : Bool := c.state == .committed || c.state == .running

/-- `LAYOUT_UPDATE` (R52, R53, R105). -/
def execLayoutUpdate (sq : Fin 1024) (d : Desc) (h : HostData) (s : State) : Out :=
  runCmd sq d s fun ref s =>
    check (layoutFields d) St.invalidField ref s fun s =>
    let c := s.contract (descFld d 8 1)
    check (layoutState c) St.stateConflict ref s fun s =>
    fetchOf h ref s fun bs s =>
    check (layoutOk s c d bs) St.invalidField ref s fun s =>
    check (sourcesOpen s (layoutSources c d bs)) St.stateConflict ref s fun s =>
    layoutAdmit ref d bs s

end Sys2Proof.Machine
end

