-- ==== Sys2Proof/Machine/Tables.lean ====
section
/-! DEFINITION. The endpoint tables (chapter 13): the learning table with its serial queue, sweeper and lookups, the LPM
trie, learn notices across a fold, ECC errors, and the audit against the host's shadow. A MAC address is a number with
octet 1 in its highest byte. -/

namespace Sys2Proof.Machine

/-! ## Entries and lookups (R322-R324) -/

/-- R322: the bucket of a MAC address. -/
def bucketOf (mac : Nat) : Nat := (crc32 (beBytes 6 mac)).toNat % 8192

/-- The entries as listed: index and entry, valid ones only. -/
def liveEntries (t : Tables) : List (Nat × TEntry) := t.entries.filter fun p => p.2.valid

/-- An entry is local: dynamic or static. -/
def isLocal (e : TEntry) : Bool := e.kind != 2

/-- The local entry of a MAC, and the remote entry of a MAC from a module. -/
def localEntry (t : Tables) (mac : Nat) : Option (Nat × TEntry) :=
  (liveEntries t).find? fun p => p.2.mac == mac && isLocal p.2
def remoteEntry (t : Tables) (mac j : Nat) : Option (Nat × TEntry) :=
  (liveEntries t).find? fun p => p.2.mac == mac && !isLocal p.2 && p.2.module == j

/-- The entry bound to a slot. -/
def boundEntry (t : Tables) (slot : Nat) : Option (Nat × TEntry) :=
  (liveEntries t).find? fun p => p.2.slot == some slot && isLocal p.2

/-- R324: a lookup by slot, while PD61 is ON (R451). -/
def lookupSlot (s : State) (slot : Nat) : Option TEntry :=
  if !s.domainOn 61 then none
  else match boundEntry s.tbl slot with
    | some (_, e) => if e.deferred then none else some e
    | none => none

/-- R322: the lowest free way of a MAC's bucket. -/
def freeWay (t : Tables) (mac : Nat) : Option Nat :=
  [0, 1, 2, 3].map (4 * bucketOf mac + ·) |>.find? fun i => !(mget {} t.entries i).valid

/-- Write an entry. -/
def putEntry (s : State) (i : Nat) (e : TEntry) : State := s.modTbl fun t => { t with entries := mset {} t.entries i e }

/-- `DRV_FLOOD_MAC` of a port (R236). -/
def floodMac (s : State) (p : Nat) : Nat := (s.reg (Off.drvFloodHi p)).toNat * 2 ^ 32 + (s.reg (Off.drvFloodLo p)).toNat

/-! ## Learn notices (R335, Table 13-4) -/

/-- The fold is enabled, and the module's number. -/
def foldEn (s : State) : Bool := bit (s.reg Off.foldCfg) 4
def moduleNo (s : State) : Nat := fld (s.reg Off.foldCfg) 3 0

/-- The last four bytes of a fold frame: CRC-32 over the bytes before. -/
def withCrc (bs : List Byte) : List Byte := bs ++ leBytes 4 (crc32 bs).toNat

/-- The 64 bytes of a learn notice; `op` 1 ADD, 2 REMOVE. -/
def noticeBytes (s : State) (op : Nat) (e : TEntry) : List Byte :=
  withCrc (leBytes 1 0x20 ++ leBytes 1 1 ++ leBytes 1 (moduleNo s) ++ leBytes 1 0 ++ leBytes 4 (s.reg Off.foldId).toNat
    ++ leBytes 2 s.tbl.seqNotice ++ leBytes 1 op ++ zeros 1 ++ beBytes 6 e.mac ++ leBytes 2 (e.slot.getD 0xFFFF)
    ++ leBytes 1 e.port ++ zeros 39)

/-- R335: send a notice of a local entry on both peer ports. -/
def sendNotice (s : State) (op : Nat) (e : TEntry) : State :=
  if foldEn s && isLocal e then
    (peerSend (peerSend s 0 (noticeBytes s op e)) 1 (noticeBytes s op e)).modTbl fun t => { t with seqNotice := (t.seqNotice + 1) % 65536 }
  else s

/-- Write a local entry and announce it where it is new, has moved, or changed its binding. -/
def putAnnounce (s : State) (i : Nat) (e : TEntry) : State :=
  let old := mget {} s.tbl.entries i
  let s1 := putEntry s i e
  if old.valid && old.port == e.port && old.slot == e.slot && old.kind == e.kind then s1 else sendNotice s1 1 e

/-- R332: remove the entry at an index; a local one is announced. -/
def removeEntry (s : State) (i : Nat) : State :=
  let e := mget {} s.tbl.entries i
  if e.valid then sendNotice (putEntry s i {}) 2 e else s

/-- A tally of the tables. -/
def fullBucket (s : State) : State := tallyAdd (setStatus s Off.tblStatus 1) 973 1

/-- Fault source `LOOP_SUSPECT`, its status bit and source 641. -/
def loopSuspect (s : State) (bits : Nat) : State := pendSrc (raiseFault (setStatus s Off.tblStatus bits) (16 * 14)) 641

/-- R335: another module holds a local MAC. The entry of the higher module number is deferred; both are kept. -/
def foldConflict (s : State) (i j r : Nat) : State :=
  let s1 :=
    if j < moduleNo s then putEntry s i { mget {} s.tbl.entries i with deferred := true }
    else putEntry s r { mget {} s.tbl.entries r with deferred := true }
  loopSuspect s1 0x18

/-- The remote entries of a MAC. -/
def remotesOf (t : Tables) (mac : Nat) : List (Nat × TEntry) := (liveEntries t).filter fun p => p.2.mac == mac && !isLocal p.2

/-- A local entry was created beside remote entries: each is a conflict. -/
def conflictsNew (s : State) (i mac : Nat) : State :=
  (remotesOf s.tbl mac).foldl (fun t p => foldConflict t i p.2.module p.1) s

/-! ## Slot binding (R329, Table 13-2) -/

/-- Slot conflict: status bit and tally. -/
def slotConflict (s : State) : State := tallyAdd (setStatus s Off.tblStatus 4) 975 1

/-- Take a slot from the entry that is bound to it. -/
def unbindSlot (s : State) (slot : Nat) : State :=
  match boundEntry s.tbl slot with
  | some (i, e) => putAnnounce s i { e with slot := none }
  | none => s

/-- Table 13-2: the binding of entry i after a learn event that carries slot s. -/
def bindDynamic (s : State) (i slot : Nat) : State :=
  let e := mget {} s.tbl.entries i
  if e.kind ≠ 0 then s
  else if slot = 0xFFFF then putAnnounce s i { e with slot := none }
  else if e.slot = some slot then s
  else match boundEntry s.tbl slot with
    | none => putAnnounce s i { e with slot := some slot }
    | some (_, o) =>
      if o.kind = 1 ∨ o.hit then slotConflict (putAnnounce s i { e with slot := none })
      else
        let s1 := unbindSlot s slot
        putAnnounce s1 i { e with slot := some slot }

/-- The binding after the port rules: a number that is no slot leaves the entry as it is. -/
def bindLearn (s : State) (i slot : Nat) : State :=
  if 16384 ≤ slot ∧ slot ≠ 0xFFFF then slotConflict s else bindDynamic s i slot

/-! ## Applying learn events (R327, R328, R330, R335) -/

/-- A learn that was applied. -/
def applied (s : State) : State := tallyAdd s 968 1
def refused (s : State) : State := tallyAdd s 970 1

/-- R328: the move counter after a move at a tick: window start and count. -/
def moveCount (e : TEntry) (now : Nat) : TEntry :=
  if e.moves = 0 ∨ e.winStart + 160000000 ≤ now then { e with winStart := now, moves := 1 } else { e with moves := e.moves + 1 }

/-- R328: a move of a dynamic entry to another logical port. -/
def applyMove (s : State) (i : Nat) (e : TEntry) (slot p now : Nat) : State :=
  let c := moveCount e now
  if 4 < c.moves then refused (loopSuspect (putEntry s i { c with pinned := true }) 8)
  else bindLearn (tallyAdd (applied (putAnnounce s i { c with port := logicalPort s p, lastPort := p, hit := true })) 969 1) i slot

/-- R327: a TELEMETRY event. -/
def applyTelemetry (s : State) (mac slot p now : Nat) : State :=
  match localEntry s.tbl mac with
  | none => match freeWay s.tbl mac with
    | none => fullBucket s
    | some i =>
      let s1 := putAnnounce s i { valid := true, mac := mac, port := logicalPort s p, lastPort := p, hit := true }
      bindLearn (applied (conflictsNew s1 i mac)) i slot
  | some (i, e) =>
    if e.port = logicalPort s p then bindLearn (applied (putEntry s i { e with hit := true, lastPort := p })) i slot
    else if e.kind = 0 ∧ !e.pinned then applyMove s i e slot p now
    else refused s

/-- The firmware's copy of the static entries (R451): MAC, slot, port. -/
def fwLearn (s : State) (mac slot port : Nat) : State :=
  s.modTbl fun t => { t with fwStatic := (t.fwStatic.filter fun x => x.1 != mac) ++ [(mac, slot, port)] }
def fwForget (s : State) (mac : Nat) : State := s.modTbl fun t => { t with fwStatic := t.fwStatic.filter fun x => x.1 != mac }

/-- R330: write a static entry at an index. The slot moves to it. -/
def writeStatic (s : State) (i mac slot p : Nat) : State :=
  let d := (mget {} s.tbl.entries i).deferred
  let s1 := if (mget {} s.tbl.entries i).slot = some slot then s else unbindSlot s slot
  putAnnounce s1 i { valid := true, mac := mac, kind := 1, slot := some slot, port := logicalPort s p, lastPort := p, hit := true, deferred := d }

/-- R330: a static learn; none where the bucket is full (R322). -/
def learnStatic (s : State) (mac slot p : Nat) : Option Nat × State :=
  match localEntry s.tbl mac with
  | some (i, _) => (some i, applied (fwLearn (writeStatic s i mac slot p) mac slot p))
  | none => match freeWay s.tbl mac with
    | none => (none, fullBucket s)
    | some i => (some i, applied (conflictsNew (fwLearn (writeStatic s i mac slot p) mac slot p) i mac))

/-- R330: remove the local entry of a MAC. -/
def removeMac (s : State) (mac : Nat) : State :=
  match localEntry s.tbl mac with
  | some (i, _) => fwForget (removeEntry s i) mac
  | none => fwForget s mac

/-- R335: an ADD notice of module j. -/
def applyAdd (s : State) (mac j port : Nat) : State :=
  match remoteEntry s.tbl mac j with
  | some (i, e) => putEntry s i { e with port := port, lastPort := port }
  | none => match freeWay s.tbl mac with
    | none => fullBucket s
    | some r =>
      let s1 := putEntry s r { valid := true, mac := mac, kind := 2, port := port, lastPort := port, module := j }
      match localEntry s.tbl mac with
      | some (i, _) => foldConflict s1 i j r
      | none => s1

/-- A local entry deferred on account of a module that no longer holds its MAC returns to active. -/
def undefer (s : State) (mac : Nat) : State :=
  match localEntry s.tbl mac with
  | some (i, e) =>
    if e.deferred && !((remotesOf s.tbl mac).any fun p => decide (p.2.module < moduleNo s)) then putEntry s i { e with deferred := false }
    else s
  | none => s

/-- R335: a REMOVE notice of module j, and the loss of one of its entries. -/
def applyRemove (s : State) (mac j : Nat) : State :=
  match remoteEntry s.tbl mac j with
  | some (i, _) => undefer (putEntry s i {}) mac
  | none => s

/-- R335: every remote entry of a module goes. -/
def dropModule (s : State) (j : Nat) : State :=
  ((liveEntries s.tbl).filter fun p => !isLocal p.2 && p.2.module == j).foldl (fun t p => applyRemove t p.2.mac j) s

/-- R326: apply one event. -/
def applyEvent (s : State) : LearnEv → State
  | .telemetry mac slot p tick => applyTelemetry s mac slot p tick
  | .notice op mac j port => if op = 1 then applyAdd s mac j port else applyRemove s mac j
  | .learn ref mac slot p => match learnStatic s mac slot p with
    | (some i, t) => complete t ref St.ok i 0 0
    | (none, t) => completeWith t ref St.noResource
  | .remove ref mac => completeWith (removeMac s mac) ref St.ok

/-! ## The learn queue (R326) -/

/-- Events in order of receipt tick, then of place. -/
def insertEv (q : QLearn) : List QLearn → List QLearn
  | [] => [q]
  | x :: xs => if x.at_ < q.at_ ∨ (x.at_ = q.at_ ∧ x.rank ≤ q.rank) then x :: insertEv q xs else q :: x :: xs

/-- An event that is lost. -/
def lostEvent (s : State) : State := tallyAdd s 974 1

/-- R326: a TELEMETRY event or a notice arrives. -/
def offerEvent (s : State) (rank : Nat) (e : LearnEv) : State :=
  if !s.domainOn 61 then lostEvent s
  else if 4096 ≤ s.tbl.queue.length then lostEvent (setStatus s Off.tblStatus 2)
  else s.modTbl fun t => { t with queue := insertEv ⟨s.wt.now, rank, e⟩ t.queue }

/-! ## The LPM trie (R333, R334) -/

/-- Stage of a prefix length: 1 for 0-8. -/
def stageOf (len : Nat) : Nat := if len ≤ 8 then 1 else if len ≤ 16 then 2 else if len ≤ 24 then 3 else 4

/-- The node of stage j that a WCA passes through. -/
def nodeOf (j wca : Nat) : Nat := wca / 2 ^ (32 - 8 * (j - 1))

/-- Distinct numbers. -/
def distinct : List Nat → List Nat
  | [] => []
  | x :: xs => x :: (distinct xs).filter (· != x)

/-- The nodes of stage j that a set of prefixes needs. -/
def trieNodes (ps : List Prefix) (j : Nat) : List Nat :=
  distinct ((ps.filter fun p => decide (j ≤ stageOf p.len)).map fun p => nodeOf j p.wca)

/-- Nodes of a stage (Table 13-3). -/
def stageNodes (j : Nat) : Nat := if j = 2 then 1024 else if j = 3 then 4096 else 8192
def freeNodes (ps : List Prefix) (j : Nat) : Nat := stageNodes j - (trieNodes ps j).length

/-- The trie holds a set of prefixes. -/
def trieFits (ps : List Prefix) : Bool := decide (ps.length ≤ 65536) && [2, 3, 4].all fun j => decide ((trieNodes ps j).length ≤ stageNodes j)

/-- Bits of a WCA below a length are 0. -/
def prefixClean (wca len : Nat) : Bool := decide (len ≤ 32) && wca % 2 ^ (32 - len) == 0

/-- Insert a prefix or replace its port set. -/
def insertPrefix (ps : List Prefix) (p : Prefix) : List Prefix :=
  if ps.any fun x => x.wca == p.wca && x.len == p.len then ps.map fun x => if x.wca = p.wca ∧ x.len = p.len then p else x
  else ps ++ [p]
def deletePrefix (ps : List Prefix) (wca len : Nat) : List Prefix := ps.filter fun x => !(x.wca == wca && x.len == len)

/-- Set the prefixes of the trie and the firmware's copy. -/
def setPrefixes (s : State) (ps : List Prefix) : State := s.modTbl fun t => { t with prefixes := ps, fwPrefixes := ps }

/-- R338: a lookup of a WCA reaches stage j: no node on the way is bad. -/
def reaches (t : Tables) (wca j : Nat) : Bool := [1, 2, 3, 4].all fun i => decide (j < i) || !t.badNodes.contains (i, nodeOf i wca)

/-- A prefix contains a WCA. -/
def contains_ (p : Prefix) (wca : Nat) : Bool := p.wca / 2 ^ (32 - p.len) == wca / 2 ^ (32 - p.len)

/-- R334: the longest installed prefix of at most `len` bits that contains a WCA. -/
def lpmLookup (t : Tables) (wca len : Nat) : Option Prefix :=
  t.prefixes.foldl (fun best p =>
    if decide (p.len ≤ len) && contains_ p wca && reaches t wca (stageOf p.len) then
      match best with
      | some b => if b.len < p.len then some p else some b
      | none => some p
    else best) none

/-- The lookup, which misses while PD61 is not ON (R451). -/
def lookupWca (s : State) (wca len : Nat) : Option Prefix := if s.domainOn 61 then lpmLookup s.tbl wca len else none

/-- R334: the port set of a mask: the partner of every paired port is added. -/
def portSet (s : State) (mask : BitVec 32) : List Nat :=
  (List.range 32).filter fun p => bit mask p || (match pairOf s p with
    | some q => bit mask q
    | none => false)

/-- `LPM_INSERT` and `LPM_DELETE` (R333). -/
def runLpm (s : State) (ref : CmdRef) (delete : Bool) (p : Prefix) : State :=
  let ps := if delete then deletePrefix s.tbl.prefixes p.wca p.len else insertPrefix s.tbl.prefixes p
  if delete || trieFits ps then complete (setPrefixes s ps) ref St.ok ps.length 0 0 else completeWith s ref St.noResource

/-! ## Held table commands (R326, R336) -/

/-- A table command may go on: no audit runs, PD61 is ON, and the queue has room for a learn event. -/
def heldReady (s : State) : HeldTbl → Bool
  | .ev _ => s.tbl.audit.isNone && s.domainOn 61 && decide (s.tbl.queue.length < 4096)
  | .lpm _ _ _ => s.tbl.audit.isNone && s.domainOn 61

/-- A table command goes on: its event enters the queue, or the trie changes. -/
def runHeld (s : State) : HeldTbl → State
  | .ev e => s.modTbl fun t => { t with queue := insertEv ⟨s.wt.now, 34, e⟩ t.queue }
  | .lpm ref delete p => runLpm s ref delete p

/-- Let every waiting table command go on that can, in order. -/
def drainHeld (s : State) : State :=
  s.tbl.held.foldl (fun t h => if heldReady t h then runHeld t h else t.modTbl fun x => { x with held := x.held ++ [h] })
    (s.modTbl fun t => { t with held := [] })

/-- A table command goes on or waits. -/
def offerHeld (s : State) (h : HeldTbl) : State :=
  if heldReady s h && s.tbl.held.isEmpty then runHeld s h else s.modTbl fun t => { t with held := t.held ++ [h] }

/-! ## Commands -/

/-- The MAC of a descriptor: octets in wire order at bytes 8-13. -/
def descMac (d : Desc) : Nat := beNat (leBytes 6 (descFld d 8 6))

/-- `TABLE_LEARN` (R326, R330). -/
def execTableLearn (sq : Fin 1024) (d : Desc) (s : State) : Out :=
  runCmd sq d s fun ref s =>
    check (hdrOk d 0x30 [(8, 9)] && decide (descFld d 14 2 < 16384) && decide (descFld d 16 1 < 32)) St.invalidField ref s fun s =>
    offerHeld s (.ev (.learn ref (descMac d) (descFld d 14 2) (descFld d 16 1)))

/-- `TABLE_REMOVE` (R326, R330). -/
def execTableRemove (sq : Fin 1024) (d : Desc) (s : State) : Out :=
  runCmd sq d s fun ref s =>
    check (hdrOk d 0x31 [(8, 6)]) St.invalidField ref s fun s =>
    offerHeld s (.ev (.remove ref (descMac d)))

/-- `LPM_INSERT` (R333, R334). -/
def execLpmInsert (sq : Fin 1024) (d : Desc) (s : State) : Out :=
  runCmd sq d s fun ref s =>
    check (hdrOk d 0x32 [(8, 5), (16, 4)] && prefixClean (descFld d 8 4) (descFld d 12 1)) St.invalidField ref s fun s =>
    offerHeld s (.lpm ref false ⟨descFld d 8 4, descFld d 12 1, BitVec.ofNat 32 (descFld d 16 4)⟩)

/-- `LPM_DELETE` (R333, R334). -/
def execLpmDelete (sq : Fin 1024) (d : Desc) (s : State) : Out :=
  runCmd sq d s fun ref s =>
    check (hdrOk d 0x33 [(8, 5)] && prefixClean (descFld d 8 4) (descFld d 12 1)) St.invalidField ref s fun s =>
    offerHeld s (.lpm ref true ⟨descFld d 8 4, descFld d 12 1, 0⟩)

/-- `LEARN_EVENT_APPLY` (R326, R327): one event while PD61 is ON; a waiting table command may enter the room it leaves. -/
def learnApply (s : State) : State :=
  match s.tbl.queue with
  | [] => s
  | q :: qs => if s.domainOn 61 then drainHeld (applyEvent (s.modTbl fun t => { t with queue := qs }) q.ev) else s
def execLearnEventApply (s : State) : Out := .next (learnApply s)

/-- R331: ticks between two visits times 16: `AGE_SWEEP` s / 32,768. -/
def sweepStep (s : State) : Nat := fld (s.reg Off.tblCfg) 25 16 * 78125

/-- R331: one visit of the sweeper. -/
def sweepOne (s : State) : State :=
  let i := s.tbl.sweep
  let e := mget {} s.tbl.entries i
  let s1 := s.modTbl fun t => { t with sweep := (t.sweep + 1) % 32768, visitAt := t.visitAt + sweepStep s }
  if !e.valid || e.kind != 0 then s1
  else if e.hit then putEntry s1 i { e with hit := false, seenClear := false }
  else if !e.seenClear then putEntry s1 i { e with seenClear := true }
  else tallyAdd (removeEntry s1 i) 971 1

/-- The visit whose time has come. -/
def sweepVisit (s : State) : State := if s.tbl.visitAt ≤ 16 * s.wt.now then sweepOne s else s

/-- `AGE_SWEEP_VISIT` (R331). -/
def execAgeSweepVisit (s : State) : Out := .next (sweepVisit s)

/-! ## Receiving notices (R335) -/

/-- R30: a fold message is forwarded on the opposite port with `HOPS` raised, unless it is the module's own or `HOPS` has
reached 15. Byte 3 is `HOPS`; the CRC is written anew. -/
def forwardFold (s : State) (e : Nat) (bs : List Byte) (own : Bool) : State :=
  if own || decide (15 ≤ u8 bs 3) then s
  else peerSend s (1 - e) (withCrc ((bs.take 3 ++ leBytes 1 (u8 bs 3 + 1) ++ bs.drop 4).take 60))

/-- A fold frame of n bytes has the right CRC, version and fold (Tables 2-3, 5-6, 13-4). -/
def foldFrameOk (s : State) (n : Nat) (bs : List Byte) : Bool :=
  bs.length == n && (crc32 (bs.take (n - 4))).toNat == leAt bs (n - 4) 4 && u8 bs 1 == 1
    && leAt bs 4 4 == (s.reg Off.foldId).toNat

/-- A fold frame is discarded for its version, fold or CRC: its tally and `FRAME_DISCARD` (Table 22-3). -/
def foldDiscard (s : State) (e t : Nat) : State := setStatus (tallyAdd s t 1) (Off.peerStatus e) 4

/-- The fields of a notice (Table 13-4). -/
def noticeOk (bs : List Byte) : Bool := u8 bs 0 == 0x20 && decide (u8 bs 2 < 16) && (u8 bs 10 == 1 || u8 bs 10 == 2)

/-- `LEARN_NOTICE_RECEIVE`: discarded and tallied, or forwarded and queued. A module's own notice teaches nothing. -/
def noticeReceive (s : State) (e : Nat) (bs : List Byte) : State :=
  if !foldEn s || !(s.peer e).linkUp then s
  else if !foldFrameOk s 64 bs then foldDiscard s e 996
  else if !noticeOk bs then tallyAdd s 996 1
  else if u8 bs 2 = moduleNo s then s
  else offerEvent (forwardFold s e bs false) (32 + e) (.notice (u8 bs 10) (beNat (slice bs 12 6)) (u8 bs 2) (u8 bs 20))

/-- `LEARN_NOTICE_RECEIVE` (R335). -/
def execLearnNoticeReceive (e : Fin 2) (bytes : List Byte) (s : State) : Out := .next (noticeReceive s e.val bytes)

/-- `ADD_NOTICE_SPREAD_SEND`: one of the notices that R335 spreads over 100 ms. -/
def spreadSend (s : State) : State :=
  match s.tbl.spread with
  | [] => s
  | i :: is =>
    let s1 := s.modTbl fun t => { t with spread := is }
    if (mget {} s.tbl.entries i).valid then sendNotice s1 1 (mget {} s.tbl.entries i) else s1
def execAddNoticeSpreadSend (s : State) : Out := .next (spreadSend s)

/-- R335: the local entries whose ADD notices are to be spread. -/
def startSpread (s : State) : State :=
  s.modTbl fun t => { t with spread := ((liveEntries t).filter fun p => isLocal p.2).map fun p => p.1 }

/-! ## ECC (R338) -/

/-- Fault source `TBL_UE` and its status bit. -/
def tblUe (s : State) : State := raiseFault (setStatus s Off.tblStatus 0x40) (16 * 14 + 1)

/-- `TABLE_ECC_ERROR` (R338). -/
def eccError (s : State) : TblErr → State
  | .corrected => tallyAdd (setStatus s Off.tblStatus 0x20) 976 1
  | .entry i => tblUe (removeEntry s i.val)
  | .node j i => tblUe (s.modTbl fun t => { t with badNodes := if t.badNodes.contains (j.val + 1, i) then t.badNodes else t.badNodes ++ [(j.val + 1, i)] })
def execTableEccError (err : TblErr) (s : State) : Out := .next (if s.domainOn 61 then eccError s err else s)

/-- `TRIE_NODE_REBUILD` (R338). -/
def execTrieNodeRebuild (stage : Fin 4) (i : Nat) (s : State) : Out :=
  .next (s.modTbl fun t => { t with badNodes := t.badNodes.erase (stage.val + 1, i) })

/-! ## The audit (R336, R337) -/

/-- R336: a shadow record is well formed. -/
def shadowOk (r : List Byte) : Bool :=
  if u8 r 0 = 1 then zeroAt r 2 2 && zeroAt r 12 4 && prefixClean (leAt r 4 4) (u8 r 1)
  else u8 r 0 == 2 && zeroAt r 1 1 && zeroAt r 11 5 && decide (leAt r 2 2 < 16384) && decide (u8 r 10 < 32)

/-- Fields of shadow records. -/
def shadowPrefix (r : List Byte) : Prefix := ⟨leAt r 4 4, u8 r 1, BitVec.ofNat 32 (leAt r 8 4)⟩
def shadowMac (r : List Byte) : Nat := beNat (slice r 4 6)

/-- Bytes 4-15 of a prefix and of a static entry (Table 13-5). -/
def prefixTail (p : Prefix) : List Byte := leBytes 4 p.wca ++ leBytes 4 p.mask.toNat ++ zeros 4
def staticTail (e : TEntry) : List Byte := beBytes 6 e.mac ++ leBytes 1 e.port ++ zeros 5

/-- A mismatch found: kind, type, whether it was repaired, the value reported. -/
abbrev Mismatch := Nat × Nat × Bool × List Byte

/-- Compare one shadow record with the tables, and repair. -/
def auditRecord (a : Audit) (acc : List Mismatch × State) (r : List Byte) : List Mismatch × State :=
  let s := acc.2
  if u8 r 0 = 1 then
    if !a.prefixes then acc
    else
      let p := shadowPrefix r
      let ps := insertPrefix s.tbl.prefixes p
      let fixed := a.repair && trieFits ps
      let t := if fixed then setPrefixes s ps else s
      match s.tbl.prefixes.find? fun x => x.wca == p.wca && x.len == p.len with
      | none => (acc.1 ++ [(1, 1, fixed, prefixTail p)], t)
      | some x => if x.mask = p.mask then acc else (acc.1 ++ [(3, 1, fixed, prefixTail x)], t)
  else if !a.statics then acc
  else
    let mac := shadowMac r
    let fix := if a.repair then learnStatic s mac (leAt r 2 2) (u8 r 10) else (none, s)
    match localEntry s.tbl mac with
    | some (_, e) =>
      if e.kind = 1 then
        if e.slot = some (leAt r 2 2) ∧ e.port = logicalPort s (u8 r 10) then acc
        else (acc.1 ++ [(3, 2, a.repair, staticTail e)], fix.2)
      else (acc.1 ++ [(1, 2, fix.1.isSome, slice r 4 12)], fix.2)
    | none => (acc.1 ++ [(1, 2, fix.1.isSome, slice r 4 12)], fix.2)

/-- Prefixes and static entries of the table that the shadow does not list. -/
def auditExtras (a : Audit) (acc : List Mismatch × State) : List Mismatch × State :=
  let s := acc.2
  let extraP := if a.prefixes then s.tbl.prefixes.filter fun p =>
      !a.records.any fun r => u8 r 0 == 1 && leAt r 4 4 == p.wca && u8 r 1 == p.len
    else []
  let extraE := if a.statics then (liveEntries s.tbl).filter fun q =>
      q.2.kind == 1 && !a.records.any fun r => u8 r 0 == 2 && shadowMac r == q.2.mac
    else []
  let s1 := if a.repair then extraP.foldl (fun t p => setPrefixes t (deletePrefix t.tbl.prefixes p.wca p.len)) s else s
  let s2 := if a.repair then extraE.foldl (fun t q => removeMac t q.2.mac) s1 else s1
  (acc.1 ++ extraP.map (fun p => (2, 1, a.repair, prefixTail p)) ++ extraE.map (fun q => (2, 2, a.repair, staticTail q.2)), s2)

/-- The 16 bytes of a mismatch record (Table 13-6). -/
def mismatchBytes (m : Mismatch) : List Byte := leBytes 1 m.1 ++ leBytes 1 m.2.1 ++ leBytes 1 (b2n m.2.2.1) ++ zeros 1 ++ m.2.2.2

/-- R337: the end of an audit. What the shadow does not list goes first, so that a shadow that fits finds room. -/
def auditEnd (s : State) (a : Audit) : State :=
  let x := auditExtras a ([], s)
  let r := a.records.foldl (auditRecord a) ([], x.2)
  let all := r.1 ++ x.1
  let fit := a.reportBytes / 16
  let s1 := hostWrite r.2 a.report ((all.take fit).flatMap mismatchBytes)
  let s2 := if all.isEmpty then s1 else pendSrc (setStatus s1 Off.tblStatus 0x80) 642
  let s3 := complete (s2.modTbl fun t => { t with audit := none }) a.ref St.ok all.length (min fit all.length) 0
  drainHeld s3

/-- `SHADOW_AUDIT`, the fields. -/
def auditFields (d : Desc) : Bool :=
  hdrOk d 0x34 [(9, 1), (16, 12), (32, 12)] && decide (descFld d 9 1 < 8) && descFld d 40 4 % 16 == 0 && descFld d 32 8 % 4 == 0

/-- A running audit. -/
def auditOf (ref : CmdRef) (d : Desc) (bs : List Byte) : Audit :=
  { ref := ref, prefixes := (descFld d 9 1).testBit 0, statics := (descFld d 9 1).testBit 1, repair := (descFld d 9 1).testBit 2,
    records := (List.range (descFld d 24 4)).map (fun i => slice bs (16 * i) 16), report := descFld d 32 8, reportBytes := descFld d 40 4 }

/-- `SHADOW_AUDIT` (R336). -/
def execShadowAudit (sq : Fin 1024) (d : Desc) (h : HostData) (s : State) : Out :=
  runCmd sq d s fun ref s =>
    check (auditFields d) St.invalidField ref s fun s =>
    check s.tbl.audit.isNone St.stateConflict ref s fun s =>
    fetchOf h ref s fun bs s =>
    check (bs.length == 16 * descFld d 24 4 && (auditOf ref d bs).records.all shadowOk) St.invalidField ref s fun s =>
    s.modTbl fun t => { t with audit := some (auditOf ref d bs) }

/-- `SHADOW_AUDIT_DONE` (R337). A running audit is suspended while R478 or R68 holds it or the tables restart. -/
def execShadowAuditDone (s : State) : Out :=
  .next (match s.tbl.audit with
    | some a => if extraHeld s || !s.domainOn 61 then s else auditEnd s a
    | none => s)

end Sys2Proof.Machine
end

