-- ==== Sys2Proof/Machine/Egress.lean ====
section
/-! DEFINITION. The egress ports and their scheduler (chapters 10 and 12): transport frames, the order of service, weighted
fair queueing, shapers, policers, the age limit, link changes, and the frames that a port receives. A frame's bytes start
with its destination MAC address and end without the FCS. -/

namespace Sys2Proof.Machine

/-! ## Transport frames (R259, Tables 10-2 to 10-8) -/

/-- The source MAC address of a port. -/
def portMac (s : State) (p : Nat) : Nat := s.nvm.macBase + p

/-- `EG_ETHERTYPE` and `EG_GROUP_MAC`. -/
def ethertype (s : State) : Nat := fld (s.reg Off.egEthertype) 15 0
def groupMac (s : State) : Nat := fld (s.reg Off.egGroupMacHi) 15 0 * 2 ^ 32 + (s.reg Off.egGroupMacLo).toNat

/-- The 14-byte Ethernet header. -/
def ethHeader (s : State) (p dst : Nat) : List Byte := beBytes 6 dst ++ beBytes 6 (portMac s p) ++ beBytes 2 (ethertype s)

/-- Bytes 0-7 of the transport header; `SEQ` is written when the frame leaves. -/
def commonHeader (type cls p slot seq : Nat) : List Byte :=
  beBytes 1 type ++ beBytes 1 (16 + 4 * cls) ++ beBytes 1 0 ++ beBytes 1 p ++ beBytes 2 slot ++ beBytes 2 seq

/-- A frame that a port builds (Table 10-6): bytes 8-31 of its header. -/
def builtFrame (s : State) (p dst type slot : Nat) (body : List Byte) : List Byte :=
  ethHeader s p dst ++ commonHeader type 0 p slot 0 ++ body

/-- R265, R266: `TURN` of a DELAY_RESP, from the request's receipt to this frame's first bit. -/
def withTurn (s : State) (t2 : Option Int) (bs : List Byte) : List Byte := match t2 with
  | some t => bs.take 24 ++ beBytes 4 (((s.wt.wall.toNat : Int) * 65536 + s.wt.frac.toNat - t) % 2 ^ 32).toNat ++ bs.drop 28
  | none => bs

/-- BEACON: `ORIGIN` is written as the frame leaves. -/
def beaconBytes (s : State) (p : Nat) : List Byte := builtFrame s p (groupMac s) 4 0xFFFF (zeros 24)
/-- PRESENT of a contract's frame. -/
def presentBytes (s : State) (p c n launch : Nat) : List Byte :=
  builtFrame s p (groupMac s) 3 0xFFFF (beBytes 8 n ++ beBytes 1 c ++ zeros 7 ++ beBytes 8 launch)
/-- BLANK for a destination. -/
def blankBytes (s : State) (p dst slot effect c : Nat) : List Byte :=
  builtFrame s p dst 0xA slot (beBytes 8 effect ++ beBytes 1 c ++ zeros 15)

/-- Length in bytes including FCS; the MAC pads to 60 B (R234). -/
def wireLen (bs : List Byte) : Nat := max 60 bs.length + 4

/-- `TYPE` of a frame, and its bytes with `SEQ` written. -/
def frameType (bs : List Byte) : Nat := u8 bs 14
def withSeq (bs : List Byte) (seq : Nat) : List Byte := bs.take 20 ++ beBytes 2 seq ++ bs.drop 22

/-- R265, R266: a BEACON with the port's wall time at its first bit. -/
def withOrigin (s : State) (bs : List Byte) : List Byte :=
  bs.take 22 ++ beBytes 8 s.wt.wall.toNat ++ beBytes 2 s.wt.frac.toNat ++ bs.drop 32

/-! ## Queue configuration and tokens (Tables 12-3, 12-5) -/

/-- Default weight of a class (Table 12-3). -/
def weightOf (cls : Nat) : Nat := if cls = 1 then 64 else if cls = 2 then 16 else 4
def qcfgReset (q : Nat) : QCfg := { w := weightOf (q % 4) }
def State.queueCfg (s : State) (q : Nat) : QCfg := mget (qcfgReset q) s.qcfg q

/-- The state of a queue on a port. -/
def qstate (x : Port) (q : Nat) : QState := mget {} x.queues q
def modQueue (x : Port) (q : Nat) (f : QState → QState) : Port := { x with queues := mmod {} x.queues q f }

/-- Tokens after growth at a rate (100 kbit/s) up to a burst (bytes). -/
def grown (tokens at_ now rate burst : Nat) : Nat := min (12800 * burst) (tokens + (now - at_) * rate)

/-- Shaper and policer tokens of a queue now, and a port's urgent tokens (R314-R316), 1/12,800 B. -/
def shpTokens (s : State) (x : Port) (q : Nat) : Nat :=
  let c := s.queueCfg q
  grown (qstate x q).shpTokens (qstate x q).shpAt s.wt.now c.shpRate c.shpBurst
def polTokens (s : State) (x : Port) (q : Nat) : Nat :=
  let c := s.queueCfg q
  grown (qstate x q).polTokens (qstate x q).polAt s.wt.now c.polRate c.polBurst
def urgTokens (s : State) (p : Nat) : Nat :=
  grown (s.port p).urgTokens (s.port p).urgAt s.wt.now (fld (s.reg (Off.urgRate p)) 11 0) (fld (s.reg (Off.urgBurst p)) 15 0)

/-- R314: the head of a queue is eligible. -/
def eligible (s : State) (x : Port) (q : Nat) (f : Frame) : Bool :=
  (s.queueCfg q).shpRate == 0 || decide (12800 * (wireLen f.bytes + 20) ≤ shpTokens s x q)

/-! ## Weighted fair queueing (R312) -/

/-- Finish tag of a head frame that starts at S. -/
def finishTag (s : State) (q : Nat) (start : BitVec 32) (f : Frame) : BitVec 32 :=
  start + BitVec.ofNat 32 (((wireLen f.bytes + 20) <<< 12) / (s.queueCfg q).w)

/-- R308, R312, R313: tag a frame that becomes the head: a waking queue starts at V, a backlogged one at its last finish. -/
def tagHead (s : State) (q : Nat) (v : BitVec 32) (idle : Bool) (x : QState) : QState :=
  match x.frames with
  | [] => x
  | f :: _ =>
    let start := if idle then v else x.f
    { x with s := start, f := finishTag s q start f }

/-- Tags compared by their signed difference; on a tie the lower queue number. -/
def tagBefore (a : Nat × BitVec 32) (b : Nat × BitVec 32) : Bool :=
  (a.2 - b.2).toInt < 0 || (a.2 == b.2 && decide (a.1 < b.1))

/-- Eligible heads: queue and finish tag. -/
def eligibleHeads (s : State) (x : Port) : List (Nat × BitVec 32) :=
  x.queues.filterMap fun p => match p.2.frames with
    | f :: _ => if eligible s x p.1 f then some (p.1, p.2.f) else none
    | [] => none

/-- The head that class 1-3 service chooses. -/
def wfqChoice (s : State) (x : Port) : Option Nat :=
  match eligibleHeads s x with
  | [] => none
  | h :: hs => some (hs.foldl (fun best a => if tagBefore a best then a else best) h).1

/-! ## Starting and ending transmission (R309) -/

/-- The data of a class-0 tile frame: a range of pixels of a raw endpoint (R530), or the stripes it moved bytes of; the whole
endpoint where the frame says neither. -/
def frameRanges (f : Frame) : List (Nat × Nat) :=
  if frameType f.bytes = 1 then [(beAt f.bytes 30 4, beAt f.bytes 34 2)]
  else if f.stripes.isEmpty then [(0, 2 ^ 32)]
  else f.stripes.map fun k => (k.2, 1)

/-- Keys of that data in `Contract.sent` and `Contract.unsent`: stripes, and above 65,535 the runs of pixels. -/
def frameKeys (f : Frame) : List Nat :=
  if frameType f.bytes = 1 then [65536 + 8192 * beAt f.bytes 30 4 + beAt f.bytes 34 2] else f.stripes.map fun k => k.2

/-- The data of a frame's body, and its PRESENT, count as sent on a port. -/
def noteSent (p : Nat) (f : Frame) (x : Contract) : Contract :=
  let gone := (frameKeys f).map fun k => (f.frame, p, f.queue / 4, k)
  let shown := if frameType f.bytes = 3 then [(f.frame, p)] else []
  { x with sent := x.sent ++ gone, presented := x.presented ++ shown }

/-- What a frame's first bit leaving does to the contract it belongs to: its stripes and its PRESENT count as sent. -/
def markSent (s : State) (p : Nat) (f : Frame) : State :=
  match f.contract with
  | none => s
  | some c =>
    let s1 := s.modContract c (noteSent p f)
    if frameType f.bytes = 3 then
      traceMark s1 (fun t => t.contract == c && t.frame == some f.frame && t.present.isNone) fun t => { t with present := some s.wallNow }
    else s1

/-- The frame carries a `SEQ` of its type: every frame but those of a drover whose type is not a tile type. -/
def numbered (f : Frame) : Bool := match f.src with
  | .drover _ => frameType f.bytes == 1 || frameType f.bytes == 2
  | _ => true

/-- The bytes of a frame as they leave: `SEQ` counts the frames of a type that the port has sent (Table 10-2), and a BEACON
carries its time. A routine of the common may write bytes of no tile type; those leave as they are. -/
def leavingBytes (s : State) (p : Nat) (f : Frame) : List Byte :=
  if numbered f then
    let b := withSeq f.bytes (mget 0 (s.port p).seqs (frameType f.bytes))
    if frameType f.bytes = 4 then withOrigin s b else withTurn s f.t2 b
  else f.bytes

/-- The next `SEQ` of a type. -/
def bumpSeq (x : Port) (type : Nat) : Port := { x with seqs := mmod 0 x.seqs type fun n => (n + 1) % 65536 }

/-- The frame's first bit leaves. -/
def startFrame (s : State) (p : Nat) (f : Frame) (built : Bool) : State :=
  let b := leavingBytes s p f
  let s1 := s.modPort p fun x =>
    let y := { x with current := some { f with bytes := b }, builtRun := if built then x.builtRun + 1 else 0 }
    if numbered f then bumpSeq y (frameType f.bytes) else y
  markSent s1 p f

/-- Take the head of a class 1-3 queue for transmission: V, shaper tokens, and the next head's tags. -/
def takeHead (s : State) (x : Port) (q : Nat) : Port :=
  let v := (qstate x q).f
  let cost := match (qstate x q).frames with
    | f :: _ => 12800 * (wireLen f.bytes + 20)
    | [] => 0
  let left := shpTokens s x q - cost
  let rated := (s.queueCfg q).shpRate != 0
  let spend := fun (y : QState) =>
    let y1 := { y with frames := y.frames.drop 1 }
    if rated then { y1 with shpTokens := left, shpAt := s.wt.now } else y1
  { modQueue x q (fun y => tagHead s q v false (spend y)) with v := v }

/-- Some queued frame could leave now. -/
def queuedReady (s : State) (x : Port) : Bool := !x.class0.isEmpty || (wfqChoice s x).isSome

/-- R309: an idle port whose link is up starts its next frame. -/
def portGo (s : State) (p : Nat) : State :=
  let x := s.port p
  if x.current.isSome || !x.linkUp then s
  else match x.portQ with
    | f :: fs =>
      if f.first ∨ x.builtRun < 2 ∨ !queuedReady s x then startFrame (s.modPort p fun y => { y with portQ := fs }) p f true
      else match x.class0 with
        | g :: gs => startFrame (s.modPort p fun y => { y with class0 := gs }) p g false
        | [] => match wfqChoice s x with
          | some q => match (qstate x q).frames with
            | g :: _ => startFrame (s.modPort p fun y => takeHead s y q) p g false
            | [] => s
          | none => s
    | [] => match x.class0 with
      | g :: gs => startFrame (s.modPort p fun y => { y with class0 := gs }) p g false
      | [] => match wfqChoice s x with
        | some q => match (qstate x q).frames with
          | g :: _ => startFrame (s.modPort p fun y => takeHead s y q) p g false
          | [] => s
        | none => s

/-! ## Copies of messages and references (R302, R394) -/

/-- What became of a copy. -/
inductive Fate where
  | sent | policed | dropped
  deriving DecidableEq, Repr

/-- R302: one decrement of a buffer's reference count; at 0 it is ignored and reported. -/
def decRef (s : State) (pool h : Nat) : State :=
  let b := mget {} (s.pool pool).bufs h
  if b.refs = 0 then raiseFault (doubleFree s) (16 * 12 + 4)
  else if b.refs = 1 then freeBuf s pool h
  else s.modPool pool fun x => { x with bufs := mset {} x.bufs h { b with refs := b.refs - 1 } }

/-- Status of a message whose copies are all gone: policed before dropped before sent. -/
def msgStatus (m : Message) : Nat := if m.policed then St.policedDrop else if m.dropped then St.timeout else St.ok

/-- R394: the fate of the copy on a port; the command completes with the last one. -/
def copyFate (s : State) (i p : Nat) (fate : Fate) : State :=
  let m := mget {} s.eg.msgs i
  let m1 : Message := { m with
    pending := m.pending - 1
    left := if fate = .sent then m.left ||| BitVec.ofNat 32 (2 ^ p) else m.left
    policed := m.policed || fate == .policed
    dropped := m.dropped || fate == .dropped }
  if m1.pending = 0 then
    let s1 := s.modEg fun e => { e with msgs := mset {} e.msgs i {} }
    if msgStatus m1 = St.ok then complete s1 m.ref St.ok m.id m1.left.toNat 0 else completeWith s1 m.ref (msgStatus m1)
  else s.modEg fun e => { e with msgs := mset {} e.msgs i m1 }

/-- Words of 16 B that a frame takes in the assembly FIFO. -/
def frameWords (n : Nat) : Nat := ceilDiv n 16

/-- A frame has gone, sent or not: its FIFO words or its reference are freed (R292, R302). -/
def releaseFrame (s : State) (p : Nat) (f : Frame) : State :=
  match f.src with
  | .port => s
  | .drover w => s.modPort p fun x => { x with asmRead := (x.asmRead + w) % 8192, asmUsed := x.asmUsed - w }
  | .buffer pool h => decRef s pool h

/-- R3, R40, R195: class-0 data of an endpoint is lost on a port, with the stripes that lose bytes; a PRESENT that was cut
off does not count as sent. -/
def noteLost (p : Nat) (f : Frame) (x : Contract) : Contract :=
  if frameType f.bytes = 3 then { x with presented := x.presented.filter fun y => y != (f.frame, p) }
  else { x with lost := x.lost ++ (frameRanges f).map fun r => (f.frame, p, f.queue / 4, r.1, r.2)
                unsent := x.unsent ++ (frameKeys f).map fun k => (f.frame, p, f.queue / 4, k) }

/-- Class-0 data or the PRESENT of a contract is lost on a port. -/
def markLost (s : State) (p : Nat) (f : Frame) : State :=
  match f.contract with
  | some c => s.modContract c (noteLost p f)
  | none => s

/-- A frame is dropped before it left: counted, freed, and its command told. -/
def dropFrame (s : State) (p : Nat) (f : Frame) (fate : Fate) : State :=
  let s1 := markLost (releaseFrame s p f) p f
  match f.msg with
  | some i => copyFate s1 i p fate
  | none => s1

/-- A tally of port p (Table 20-1). -/
def portTally (s : State) (p j n : Nat) : State := tallyAdd s (768 + 6 * p + j) n

/-- R40, R258: a frame that the port discards. -/
def discardFrame (s : State) (p : Nat) (f : Frame) : State := dropFrame (portTally s p 3 1) p f .dropped

/-- R258: a port whose link is down discards everything it holds. -/
def discardAll (s : State) (p : Nat) : State :=
  let x := s.port p
  let fs := x.current.toList ++ x.portQ ++ x.class0 ++ x.queues.flatMap fun q => q.2.frames
  fs.foldl (fun t f => discardFrame t p f)
    (s.modPort p fun y => { y with current := none, portQ := [], class0 := [], builtRun := 0,
                                   queues := y.queues.foldl (fun m q => mset {} m q.1 { q.2 with frames := [] }) [] })

/-- Let the port go on: send, or discard where its link is down. -/
def portKick (s : State) (p : Nat) : State := if (s.port p).linkUp then portGo s p else discardAll s p

/-! ## Enqueueing -/

/-- The age of a frame counts from its enqueue on the port (R318). -/
def stamped (s : State) (f : Frame) : Frame := { f with enq := s.wt.now }

/-- Port-built frames go first, in the order of their actions; a DELAY_RESP goes after those, and the BLANK of 120 °C before
all (R309). -/
def insertBuilt (f : Frame) (fs : List Frame) : List Frame :=
  if f.first then f :: fs
  else if frameType f.bytes = 6 then fs ++ [f]
  else (fs.filter fun g => frameType g.bytes != 6) ++ [f] ++ fs.filter fun g => frameType g.bytes == 6

/-- A port builds a frame. -/
def sendBuilt (s : State) (p : Nat) (f : Frame) : State :=
  portKick (s.modPort p fun x => { x with portQ := insertBuilt (stamped s f) x.portQ }) p

/-- A class-0 frame becomes visible. -/
def putClass0 (s : State) (p : Nat) (f : Frame) : State :=
  portKick (s.modPort p fun x => { x with class0 := x.class0 ++ [stamped s f] }) p

/-- A class 1-3 frame enters its queue. -/
def putQueue (s : State) (p : Nat) (f : Frame) : State :=
  let put := fun (v : BitVec 32) (y : QState) =>
    let y1 := { y with frames := y.frames ++ [stamped s f] }
    if y.frames.isEmpty then tagHead s f.queue v true y1 else y1
  portKick (s.modPort p fun x => modQueue x f.queue (put x.v)) p

/-- R315: a drop by a policer. -/
def policedDrop (s : State) (p : Nat) (f : Frame) (bit_ : Nat) : State :=
  dropFrame (setStatus (portTally s p 4 1) Off.schedStatus bit_) p f .policed

/-- R315, R316: a message frame is policed and enqueued. With `URG_POL_RATE` 0 every urgent message is dropped. -/
def enqueueMsg (s : State) (p : Nat) (f : Frame) : State :=
  let cost := 12800 * (wireLen f.bytes + 20)
  if f.cls = 0 then
    let t := urgTokens s p
    if fld (s.reg (Off.urgRate p)) 11 0 ≠ 0 ∧ cost ≤ t then putClass0 (s.modPort p fun x => { x with urgTokens := t - cost, urgAt := s.wt.now }) p f
    else policedDrop s p f 4
  else if (s.queueCfg f.queue).polRate = 0 then putQueue s p f
  else
    let t := polTokens s (s.port p) f.queue
    if cost ≤ t then
      putQueue (s.modPort p fun x => modQueue x f.queue fun y => { y with polTokens := t - cost, polAt := s.wt.now }) p f
    else policedDrop s p f 2

/-! ## Messages (R325, R334, R394, R395) -/

/-- A message's class, queue and frame length without FCS. -/
def msgClass (m : HeldMsg) : Nat := if m.urgent then 0 else if m.type = 7 then 1 else 2
def msgQueue (m : HeldMsg) : Nat := 4 * m.slot + msgClass m
def msgLen (m : HeldMsg) : Nat := 46 + m.bytes

/-- The endpoint of a contract that is not FREE at a slot. -/
def slotEndpoint (s : State) (slot : Nat) : Option Endpoint :=
  s.contracts.findSome? fun p => if p.2.state = .free then none else endpointAt p.2 slot

/-- R273, R325: destination MAC and port of a message to one slot; the flag tells that the lookup missed. -/
def slotRoute (s : State) (slot : Nat) : Option (Nat × Nat × Bool) :=
  match lookupSlot s slot with
  | some e => match pairOf s e.lastPort with
    | some q => some (e.mac, if (s.port e.lastPort).linkUp then e.lastPort else q, false)
    | none => some (e.mac, e.port, false)
  | none => match slotEndpoint s slot with
    | some e => let p := if e.ring then logicalPort s e.port else e.port; some (floodMac s p, p, true)
    | none => none

/-- Destination, ports and miss of a message (R325, R334). -/
def route (s : State) (m : HeldMsg) : Option (Nat × List Nat × Bool) :=
  if m.region then
    (lookupWca s (m.wca / 2 ^ (32 - m.plen) * 2 ^ (32 - m.plen)) m.plen).map fun p => (groupMac s, portSet s p.mask, false)
  else (slotRoute s m.slot).map fun r => (r.1, [r.2.1], r.2.2)

/-- The bytes of a message's copy for a port (R274, R275, Table 10-8). -/
def msgBytes (s : State) (m : HeldMsg) (wca dst p : Nat) : List Byte :=
  ethHeader s p dst ++ commonHeader m.type (msgClass m) p (if m.region then 0xFFFF else m.slot) 0
    ++ beBytes 4 m.id ++ beBytes 1 m.op ++ beBytes 1 m.flags ++ beBytes 2 m.payload.length ++ beBytes 4 wca
    ++ beBytes 1 m.plen ++ zeros 3 ++ beBytes 4 m.off ++ beBytes 4 m.total ++ m.payload

/-- R302, R306: enqueue a message whose buffer is held: one reference and one frame a port. A message to one slot carries
no WCA that the spec gives: the field is a free value. -/
def enqueueAll (s : State) (m : HeldMsg) (pool h dst : Nat) (ports : List Nat) : State :=
  let i := s.eg.nextMsg
  let (w, s0) := if m.region then (m.wca, s) else drawFree s
  let wca := w % 2 ^ 32
  let s1 := (s0.modEg fun e => { e with nextMsg := i + 1, msgs := mset {} e.msgs i { ref := m.ref, id := m.id, pending := ports.length } }).modPool pool
    fun x => { x with bufs := mmod {} x.bufs h fun b => { b with refs := ports.length } }
  ports.foldl (fun t p => enqueueMsg t p
    { bytes := msgBytes t m wca dst p, cls := msgClass m, queue := msgQueue m, src := .buffer pool h, msg := some i }) s1

/-- R325: send a message that holds a buffer; without a route it is freed and completes with `INVALID_FIELD`. A region whose
port set is empty has no copy to wait for. -/
def sendMessage (s : State) (m : HeldMsg) (pool h : Nat) : State :=
  match route s m with
  | none => completeWith (freeBuf s pool h) m.ref St.invalidField
  | some (dst, ports, miss) =>
    let s1 := if miss then tallyAdd s 972 1 else s
    if ports.isEmpty then complete (freeBuf s1 pool h) m.ref St.ok m.id 0 0 else enqueueAll s1 m pool h dst ports

/-- The owner charged with a message's buffer (R302): the lowest port of its set. -/
def msgOwner (s : State) (m : HeldMsg) : Nat := match route s m with
  | some (_, p :: _, _) => 4 * p + msgClass m
  | _ => msgClass m

/-- R301: with its buffer, a message's payload is read; then it is sent or held for its release. A read that fails frees the
buffer and decides the status. -/
def grantMessage (s : State) (m : HeldMsg) (data : HostData) : State :=
  let pool := poolFor (msgLen m)
  let (h, s1) := allocBuf s pool m.owner 1
  match hostSays s data with
  | .ok bs =>
    if bs.length ≠ m.bytes then completeWith (freeBuf s1 pool h) m.ref St.invalidField
    else if m.hold then s1.modEg fun e => { e with held := e.held ++ [{ m with payload := bs, buf := some (pool, h), since := s.wt.now }] }
    else sendMessage s1 { m with payload := bs } pool h
  | .accessError => completeWith (freeBuf s1 pool h) m.ref St.hostAccessError
  | .poisoned => completeWith (freeBuf s1 pool h) m.ref St.poisonedData
  | .badList => completeWith (freeBuf s1 pool h) m.ref St.invalidField

/-- R301: a message takes a buffer, or waits for one. A message with no route takes none. -/
def offerMessage (s : State) (m0 : HeldMsg) (data : HostData) : State :=
  let m := { m0 with owner := msgOwner s m0 }
  if !m.hold && (route s m).isNone then completeWith s m.ref St.invalidField
  else if canAlloc s.buf (poolFor (msgLen m)) m.owner then grantMessage s m data
  else tallyAdd (setStatus (s.modEg fun e => { e with waiting := e.waiting ++ [m] }) Off.poolStatus 2) 977 1

/-- Fields that both message commands share: the byte offsets of `TYPE`, `CTL_OP` or `OBJ` and host `FLAGS`. -/
def msgFields (d : Desc) (t o f : Nat) : Bool :=
  let type := descFld d t 1
  (type == 7 || type == 8) && decide (descFld d 13 1 < 8) && decide (descFld d 14 2 ≤ 9166)
    && (if type = 7 then decide (descFld d f 1 < 2) && descFld d 24 4 == 0 && descFld d 28 4 == 0
        else decide (descFld d f 1 < 4) && !(descFld d 13 1).testBit 0)
    && decide (descFld d o 1 < 256)

/-- A held message of a tag. -/
def heldOf (s : State) (sq cid : Nat) : Option HeldMsg := s.eg.held.find? fun m => m.ref.sq == sq && m.ref.cid == cid

/-- Some message waits with a tag, for its release or for its buffer. -/
def tagHeld (s : State) (sq cid : Nat) : Bool :=
  (heldOf s sq cid).isSome || s.eg.waiting.any fun m => m.hold && m.ref.sq == sq && m.ref.cid == cid

/-- The message of a descriptor. -/
def msgOf (ref : CmdRef) (d : Desc) (id : Nat) (region : Bool) (t o f : Nat) : HeldMsg :=
  { ref := ref, id := id, region := region, slot := if region then descFld d 32 2 else descFld d 8 2, type := descFld d t 1,
    op := descFld d o 1, flags := descFld d f 1, urgent := (descFld d 13 1).testBit 0, hold := (descFld d 13 1).testBit 1,
    wca := if region then descFld d 8 4 else 0, plen := if region then descFld d 12 1 else 255, off := descFld d 24 4,
    total := descFld d 28 4, bytes := descFld d 14 2 }

/-- A message command once its fields are good. -/
def msgRun (ref : CmdRef) (d : Desc) (region : Bool) (t o f : Nat) (h : HostData) (s : State) : State :=
  check (!((descFld d 13 1).testBit 1 && tagHeld s ref.sq ref.cid)) St.stateConflict ref s fun s =>
  check (h != .badList) St.invalidField ref s fun s =>
  let (id, s1) := drawFree s
  offerMessage s1 (msgOf ref d (id % 2 ^ 32) region t o f) h

/-- `ENDPOINT_SEND` (R325, R394, R395). -/
def execEndpointSend (sq : Fin 1024) (d : Desc) (h : HostData) (s : State) : Out :=
  runCmd sq d s fun ref s =>
    check (hdrOk d 0x28 [(8, 24)] && msgFields d 10 11 12 && decide (descFld d 8 2 < 16384)) St.invalidField ref s fun s =>
    msgRun ref d false 10 11 12 h s

/-- `REGION_SEND` (R334, R394, R395). -/
def execRegionSend (sq : Fin 1024) (d : Desc) (h : HostData) (s : State) : Out :=
  runCmd sq d s fun ref s =>
    check (hdrOk d 0x29 [(8, 5), (13, 24)] && msgFields d 34 35 36 && decide (descFld d 12 1 ≤ 32) && decide (descFld d 32 2 < 16384))
      St.invalidField ref s fun s =>
    msgRun ref d true 34 35 36 h s

/-- R395: a held message leaves the list. -/
def unhold (s : State) (m : HeldMsg) : State := s.modEg fun e => { e with held := e.held.erase m }

/-- `MESSAGE_RELEASE`, launch action 0xB (R395). -/
def releaseMessage (s : State) (arg : Nat) : State :=
  match heldOf s (arg / 65536) (arg % 65536) with
  | some m => match m.buf with
    | some (pool, h) => sendMessage (unhold s m) m pool h
    | none => s
  | none => tallyAdd s 999 1
def execMessageRelease (k : Fin 8192) (s : State) : Out := runLaunch k 0xB s fun l s => releaseMessage s l.arg

/-- `HELD_MESSAGE_TIMEOUT` (R395): 60 s without release. -/
def heldTimeout (s : State) (sq cid : Nat) : State :=
  match heldOf s sq cid with
  | some m =>
    if m.since + msTicks 60000 ≤ s.wt.now then
      let s1 := match m.buf with
        | some (pool, h) => freeBuf (unhold s m) pool h
        | none => unhold s m
      completeWith s1 m.ref St.timeout
    else s
  | none => s
def execHeldMessageTimeout (sq : Fin 1024) (cid : BitVec 16) (s : State) : Out := .next (heldTimeout s sq.val cid.toNat)

/-- `POOL_ALLOC_GRANT` (R301): the first waiting message that finds a buffer now goes on, with what its DMA read returns. -/
def allocGrant (s : State) (data : HostData) : State :=
  match s.eg.waiting.find? fun m => canAlloc s.buf (poolFor (msgLen m)) m.owner with
  | some m => grantMessage (s.modEg fun e => { e with waiting := e.waiting.erase m }) m data
  | none => s
def execPoolAllocGrant (h : HostData) (s : State) : Out := .next (allocGrant s h)

/-! ## End of a frame, shapers and ages -/

/-- Bytes and frames sent (Table 20-1). -/
def countSent (s : State) (p : Nat) (f : Frame) : State :=
  portTally (portTally s p (if f.cls = 0 then 0 else 1) (wireLen f.bytes)) p 2 1

/-- Table 20-2: the last class-0 byte of a frame left. -/
def traceSent (s : State) (f : Frame) : State :=
  match f.contract, f.src with
  | some c, .drover _ => traceMark s (fun t => t.contract == c && t.frame == some f.frame) fun t => { t with lastSent := some s.wallNow }
  | _, _ => s

/-- R294: a parity error that the port read from its assembly FIFO. The frame is sent; the word that was read is poisoned. -/
def asmParity (s : State) (p : Nat) (f : Frame) (parity : Bool) : State := match f.src with
  | .drover _ => if parity then setStatus s (Off.fifoStatus p) 1 else s
  | _ => s

/-- `FRAME_TX_END` (R309): the frame has left; the port chooses its next one. -/
def txEnd (s0 : State) (p : Nat) (parity : Bool) : State :=
  match (s0.port p).current with
  | none => s0
  | some f =>
    let s := asmParity s0 p f parity
    let s1 := traceSent (countSent (s.modPort p fun x => { x with current := none }) p f) f
    let s2 := releaseFrame s1 p f
    let s3 := match f.msg with
      | some i => copyFate s2 i p .sent
      | none => s2
    portGo s3 p
def execFrameTxEnd (p : Fin 32) (parity : Bool) (s : State) : Out := .next (txEnd s p.val parity)

/-- `SHAPER_TOKENS_READY` (R314): the head of a queue has become eligible. -/
def execShaperTokensReady (p : Fin 32) (q : Fin 65536) (s : State) : Out :=
  .next (match (qstate (s.port p.val) q.val).frames with
    | f :: _ => if eligible s (s.port p.val) q.val f then portGo s p.val else s
    | [] => s)

/-- `AGE_LIMIT` of a class in ticks (Table 12-6). -/
def ageLimit (s : State) (cls : Nat) : Nat := msTicks (fld (s.reg Off.ageLimit) (10 * cls - 1) (10 * cls - 10))

/-- R318: the head of a class 1-3 queue that is older than its limit is dropped. -/
def dropAged (s : State) (p q : Nat) : State :=
  match (qstate (s.port p) q).frames with
  | f :: _ =>
    if q % 4 != 0 && decide (f.enq + ageLimit s (q % 4) < s.wt.now) then
      let s1 := s.modPort p fun x => modQueue x q fun y => tagHead s q y.f false { y with frames := y.frames.drop 1 }
      let s2 := raiseFault (setStatus (portTally s1 p 5 1) Off.schedStatus 1) (16 * 12 + 1)
      portKick (dropFrame s2 p f .dropped) p
    else s
  | [] => s

/-- `AGE_DROP` (R318). -/
def execAgeDrop (p : Fin 32) (q : Fin 65536) (s : State) : Out := .next (dropAged s p.val q.val)

/-! ## Link changes (R258) -/

/-- The cage of a port holds a module in its normal power mode. -/
def cageReady (s : State) (p : Nat) : Bool :=
  let c := mget {} s.cages (p / 4)
  c.present && !c.lowPower

/-- R258: the link of a port may come up. -/
def linkMayRise (s : State) (p : Nat) : Bool :=
  s.domainOn (46 + p / 4) && bit (s.reg (Off.egPortCfg p)) 4 && cageReady s p && s.pwr.phase == .running && !(s.port p).linkUp

/-- `EGRESS_LINK_UP` (R258, R312: V is 0 when the link comes up). -/
def linkRise (s : State) (p : Nat) : State :=
  if linkMayRise s p then
    portGo (s.modPort p fun x => { x with linkUp := true, blockLock := true, fecAlign := fld (s.reg (Off.egPortCfg p)) 3 2 != 0, v := 0 }) p
  else s
def execEgressLinkUp (p : Fin 32) (s : State) : Out := .next (linkRise s p.val)

/-- A link goes down: the frame on the wire and every queued frame are discarded. `lock` and `align` tell whether the receiver
keeps its block lock and its FEC alignment. -/
def linkLost (s : State) (p : Nat) (lock align : Bool) : State :=
  let s1 := s.modPort p fun x => { x with linkUp := false, blockLock := lock, fecAlign := align }
  if (s.port p).linkUp then discardAll (setStatus s1 (Off.egPortStatus p) 1) p else s1

/-- The port holds its link down, and its receiver with it. -/
def linkFall (s : State) (p : Nat) : State := linkLost s p false false

/-- `EGRESS_LINK_DOWN` (R258, Table 10-13). A port without a cage module, or whose domain is not ON, receives nothing. -/
def execEgressLinkDown (p : Fin 32) (lock align : Bool) (s : State) : Out :=
  let live := s.domainOn (46 + p.val / 4) && bit (s.reg (Off.egPortCfg p.val)) 4 && cageReady s p.val
  let fec := fld (s.reg (Off.egPortCfg p.val)) 3 2 != 0
  .next (linkLost s p.val (live && lock) (live && lock && align && fec))

/-! ## Received frames (R257, R267, R279) -/

/-- EtherType of a received frame, and whether it carries a tag. -/
def rxType (bs : List Byte) : Nat := beAt bs 12 2
def rxTagged (bs : List Byte) : Bool := rxType bs == 0x8100 || rxType bs == 0x88A8

/-- A transport frame addressed to the port, of a type, with version 1. -/
def rxIs (s : State) (p type : Nat) (bs : List Byte) : Bool :=
  decide (46 ≤ bs.length) && rxType bs == ethertype s && beAt bs 0 6 == portMac s p && u8 bs 14 == type && u8 bs 15 / 16 == 1

/-- R279: the source of a frame from a module port is the port's ring-pair partner. -/
def fromPartner (s : State) (p : Nat) (bs : List Byte) : Bool := match pairOf s p with
  | some q => beAt bs 6 6 == portMac s q
  | none => false

/-- Table 10-15: an uncorrectable FEC codeword was received. -/
def fecBad (s : State) (p : Nat) (bad : Bool) : State :=
  if bad && (s.port p).fecAlign then setStatus s (Off.egPortStatus p) 2 else s

/-- R257, R279: a frame that is discarded: counted, and the status bit of its kind. -/
def rxDiscard (s : State) (p : Nat) (bs : List Byte) (fcsOk : Bool) : State :=
  let s1 := tallyAdd s 1001 1
  if !fcsOk || rxTagged bs then s1
  else if rxType bs = 0x8808 then setStatus s1 (Off.egPortStatus p) 0x20
  else if rxType bs ≠ ethertype s then s1
  else if u8 bs 17 ≠ 0xFF ∧ !fromPartner s p bs then setStatus s1 (Off.egPortStatus p) 8
  else setStatus s1 (Off.egPortStatus p) 4

/-- `RX_FRAME_DISCARD` (R279). DELAY_REQ and TELEMETRY for the port are no frames to discard while their FCS is right. A frame
that an uncorrectable FEC codeword garbled has a wrong FCS. -/
def execRxFrameDiscard (p : Fin 32) (frame : List Byte) (fcsOk fecUncorr : Bool) (s : State) : Out :=
  .next (if !(s.port p.val).linkUp || (fcsOk && !fecUncorr && (rxIs s p.val 5 frame || rxIs s p.val 9 frame)) then s
    else rxDiscard (fecBad s p.val fecUncorr) p.val frame (fcsOk && !fecUncorr))

/-- The second of wall time (R267). -/
def wallSecond (s : State) : Nat := s.wallNow / 160000000

/-- R267: a new second starts with a count of 0. -/
def dreqWindow (s : State) (p : Nat) : State :=
  if (s.port p).dreqSecond = wallSecond s then s
  else s.modPort p fun x => { x with dreqSecond := wallSecond s, dreqCount := 0 }
def execDelayReqWindowReset (p : Fin 32) (s : State) : Out := .next (dreqWindow s p.val)

/-- The DELAY_RESP to a DELAY_REQ (Table 10-6); `TURN` is written as the frame leaves. -/
def delayResp (s : State) (p : Nat) (bs : List Byte) : List Byte :=
  builtFrame s p (beAt bs 6 6) 6 (beAt bs 18 2) (slice bs 22 2 ++ zeros 6 ++ slice bs 38 8 ++ zeros 8)

/-- `EGRESS_DELAY_REQ_RECEIVE` (R265, R267): `age` is the time since the request's first bit, 2^-16 tick. -/
def delayReq (s : State) (p : Nat) (bs : List Byte) (age : Word) : State :=
  if !(s.port p).linkUp then s
  else if !rxIs s p 5 bs then rxDiscard s p bs true
  else
    let s1 := dreqWindow s p
    if 4096 ≤ (s1.port p).dreqCount then tallyAdd (setStatus s1 (Off.egPortStatus p) 0x10) 1000 1
    else sendBuilt (s1.modPort p fun x => { x with dreqCount := x.dreqCount + 1 }) p
      { bytes := delayResp s p bs, t2 := some ((s.wt.wall.toNat : Int) * 65536 + s.wt.frac.toNat - age.toNat) }
def execEgressDelayReqReceive (p : Fin 32) (frame : List Byte) (age : Word) (s : State) : Out := .next (delayReq s p.val frame age)

/-! ## Telemetry (R150, R278, R279, R326, R388) -/

/-- The value of the first record of a type; the number bounds the records. -/
def recordOf : Nat → List Byte → Nat → Option (List Byte)
  | 0, _, _ => none
  | n + 1, bs, type =>
    match bs with
    | t :: l :: rest => if t.toNat = type ∧ l.toNat ≤ rest.length then some (rest.take l.toNat) else recordOf n (rest.drop l.toNat) type
    | _ => none

/-- The LED temperature that a TELEMETRY carries, if valid. -/
def tlmTemp (bs : List Byte) : Option Int :=
  match recordOf 5000 (slice bs 46 (beAt bs 36 2)) 1 with
  | some v => if v.length = 2 ∧ beNat v ≠ 0x8000 then some (sext 16 (beNat v)) else none
  | none => none

/-- R150: a reading is noted with its tick; an earlier reading counts from now on. -/
def noteReading (s : State) (t : Int) (e : EpDrift) : EpDrift :=
  let e1 := match e.newest with
    | some (v, at_) => if at_ < s.wallNow then { e with temp := some v } else e
    | none => e
  let again := e.ended && (match e.newest with
    | some (_, at_) => at_ == s.wallNow
    | none => false)
  { e1 with newest := some (t, s.wallNow), lastValid := s.wt.now, stale := false, ended := e.stale || again }
def noteTemp (s : State) (slot : Nat) (bs : List Byte) : State :=
  match tlmTemp bs with
  | some t => if slot < 16384 then { s with corr := { s.corr with eps := mmod {} s.corr.eps slot (noteReading s t) } } else s
  | none => s

/-- R326: a TELEMETRY teaches the learning table. -/
def tlmLearn (s : State) (p slot : Nat) (bs : List Byte) : State :=
  let mac := beAt bs 6 6
  if s.domainOn 61 && (!bit (s.reg Off.tblCfg) 8 || (mac / 2 ^ 40) % 2 == 1) then s
  else offerEvent s p (.telemetry mac slot p s.wallNow)

/-- R388: the offset at which a frame of n bytes is placed: the next 64-byte boundary, or 0 where it would cross the end. -/
def tlmPlace (s : State) (n : Nat) : Nat :=
  if s.rings.tlmPtr + n ≤ fld (s.reg Off.tlmBytes) 28 0 then s.rings.tlmPtr else 0

/-- The place overlaps no frame that the host still holds and lies in the buffer. -/
def tlmRoom (s : State) (off n : Nat) : Bool :=
  decide (off + n ≤ fld (s.reg Off.tlmBytes) 28 0) && s.rings.tlmUsed.all fun u => decide (off + n ≤ u.off) || decide (u.off + u.len ≤ off)

/-- R388, R397: deliver a TELEMETRY to the host, or drop it. MWRs carry multiples of 4 bytes (R356); the filling after the
frame's last byte is a free value. -/
def tlmDeliver (s : State) (p slot : Nat) (bs : List Byte) : State :=
  let off := tlmPlace s bs.length
  let cq := fld (s.reg Off.tlmCfg) 9 0
  let fill := List.replicate ((4 - bs.length % 4) % 4) (BitVec.ofNat 8 (Config.freeNat s.free))
  let c : Completion := { cq := cq, r0 := s.wt.wall, r1 := BitVec.ofNat 64 (off + 2 ^ 32 * bs.length),
                          r2 := BitVec.ofNat 64 (p + 65536 * (slot % 16384)), cid := 0, kind := 2 }
  if tlmRoom s off bs.length && cplOpen s && cqRoom s cq && !s.rings.waiting.any (fun k => k.cq == cq) then
    let pos := (s.cq cq).tail
    let s1 := hostWrite { s with free := s.free + 1 } (ringBase (s.reg Off.tlmBaseLo) (s.reg Off.tlmBaseHi) + off) (bs ++ fill)
    (offerOrDrop s1 c).2.modRings fun x => { x with
      tlmPtr := ceilDiv (off + bs.length) 64 * 64, tlmUsed := x.tlmUsed ++ [{ off := off, len := bs.length, pos := pos }] }
  else tallyAdd (setStatus s Off.ringStatus (2 ^ 6)) 979 1

/-- R301: a TELEMETRY takes a buffer of owner (p, 3) on its way to the host. -/
def tlmHost (s : State) (p slot : Nat) (bs : List Byte) : State :=
  if !bit (s.reg Off.tlmCfg) 31 then s
  else if canAlloc s.buf (poolFor bs.length) (4 * p + 3) then
    let a := allocBuf s (poolFor bs.length) (4 * p + 3) 1
    freeBuf (tlmDeliver a.2 p slot bs) (poolFor bs.length) a.1
  else tallyAdd s 978 1

/-- `TELEMETRY_RECEIVE` (R279). -/
def telemetry (s : State) (p : Nat) (bs : List Byte) : State :=
  if !(s.port p).linkUp then s
  else if !rxIs s p 9 bs then rxDiscard s p bs true
  else tlmHost (tlmLearn (noteTemp s (beAt bs 18 2) bs) p (beAt bs 18 2) bs) p (beAt bs 18 2) bs
def execTelemetryReceive (p : Fin 32) (frame : List Byte) (s : State) : Out := .next (telemetry s p.val frame)

/-! ## Drift (R150) -/

/-- `CORR_STALE` in ticks. -/
def staleAfter (s : State) : Nat := msTicks (fld (s.reg Off.corrStale) 15 0)

/-- `DRIFT_STALE` (R150): an endpoint without a valid reading for `CORR_STALE` ms. -/
def driftStale (s : State) (slot : Nat) : State :=
  let e := mget {} s.corr.eps slot
  if (slotEndpoint s slot).isSome && (e.temp.isSome || e.newest.isSome) && !e.stale && decide (e.lastValid + staleAfter s ≤ s.wt.now) then
    setStatus { s with corr := { s.corr with eps := mset {} s.corr.eps slot { e with stale := true } } } Off.corrStatus 2
  else s
def execDriftStale (slot : Fin 16384) (s : State) : Out := .next (driftStale s slot.val)

end Sys2Proof.Machine
end

