-- ==== Sys2Proof/Machine/Correct.lean ====
section
/-! DEFINITION. Per-lamp correction (R137-R143, R150): matrix, drift gain, greyscale curve, depth with dither, and the
drift targets. -/

namespace Sys2Proof.Machine

/-! ## The matrix and the gain (R139, R140) -/

/-- R139: the accumulator of an output channel, before the clip. -/
def matrixAcc (m : List Int) (i : Nat) (rgb : List Nat) : Int :=
  ((List.range 3).foldl (fun t k => t + m.getD (3 * i + k) 0 * (rgb.getD k 0 : Int)) 8192) / 16384

/-- R139: the three channels, and the number of those that were clipped. -/
def matrixStage (m : List Int) (rgb : List Nat) : List Nat × Nat :=
  let vs := (List.range 3).map fun i => matrixAcc m i rgb
  (vs.map fun v => (clip 0 65535 v).toNat, vs.countP fun v => decide (v < 0) || decide (65535 < v))

/-- R140: the gain stage of a channel. -/
def gainStage (g v : Nat) : Nat := min ((v * g + 16384) >>> 15) 65535

/-! ## The curve (R141, R148) -/

/-- Entry k of a curve's channel: 4,096 entries each of R, G and B; the identity where none was loaded. -/
def curveEntry (curve : Option (List Nat)) (ch k : Nat) : Nat := match curve with
  | some e => e.getD (4096 * ch + k) 0
  | none => 16 * k

/-- R141: the curve stage of a channel. -/
def curveStage (curve : Option (List Nat)) (ch v : Nat) : Nat :=
  let i := v >>> 4
  let f := v % 16
  if i = 4095 then curveEntry curve ch 4095
  else
    let a : Int := curveEntry curve ch i
    let b : Int := curveEntry curve ch (i + 1)
    (a + ((b - a) * f + 8) / 16).toNat

/-! ## Depth and dither (R142) -/

/-- One bit pair of the ordered dither's threshold. -/
def bayerBit (x y k : Nat) : Nat :=
  let xb := (x >>> k) % 2
  let yb := (y >>> k) % 2
  ((xb ^^^ yb) * 2 + yb) <<< (2 * (3 - k))

/-- R142: the 16 × 16 ordered-dither threshold. -/
def bayer16 (x y : Nat) : Nat := bayerBit x y 0 + bayerBit x y 1 + bayerBit x y 2 + bayerBit x y 3

/-- R142: the offset that is added before the shift. -/
def ditherAdd (dither b n lx ly : Nat) : Nat :=
  let sh := 16 - b
  if dither = 0 then 1 <<< (sh - 1)
  else
    let ox := if dither = 2 then n * 5 % 16 else 0
    let oy := if dither = 2 then n * 3 % 16 else 0
    bayer16 ((lx + ox) % 16) ((ly + oy) % 16) >>> (8 - sh)

/-- R142: the drive code of a channel. -/
def depthStage (dither b n lx ly y : Nat) : Nat :=
  if b = 16 then y else min ((y + ditherAdd dither b n lx ly) >>> (16 - b)) (2 ^ b - 1)

/-! ## A lamp -/

/-- The nine coefficients of a lamp: its own, or the fallback (R145, R147). -/
def lampMatrix (r : CorrRec) (lamp : Nat) (poisoned : Bool) : List Int :=
  if r.uniform || poisoned then r.fallback else r.lamps.getD lamp r.fallback

/-- R137: the drive codes of a lamp, and the channels its matrix clipped. -/
def correctLamp (m : List Int) (gains : List Nat) (curve : Option (List Nat)) (dither b n lx ly : Nat) (rgb : List Nat) :
    List Nat × Nat :=
  let r := matrixStage m rgb
  ((List.range 3).map fun ch =>
    depthStage dither b n lx ly (curveStage curve ch (gainStage (gains.getD ch 32768) (r.1.getD ch 0))), r.2)

/-! ## Drift (R150, Table 6-2) -/

/-- `TEMP_DEFAULT` of a drift table and a gain of its entry k. The list holds `TEMP_DEFAULT`, then 64 entries of 3 gains. -/
def driftDefault (t : List Nat) : Int := sext 16 (t.getD 0 0)
def driftEntry (t : List Nat) (k ch : Nat) : Int := (t.getD (1 + 3 * k + ch) 0 : Nat)

/-- R150: the target gain of a channel at a temperature in 1/16 °C. -/
def driftTarget (t : List Nat) (temp : Int) (ch : Nat) : Int :=
  let p := (clip 0 2016 (temp + 640)).toNat
  let i := p / 32
  let f : Int := (p % 32 : Nat)
  if i = 63 then driftEntry t 63 ch
  else driftEntry t i ch + ((driftEntry t (i + 1) ch - driftEntry t i ch) * f + 16) / 32

/-- R150: one frame's step of a gain towards its target; a slew of 0 is no limit. -/
def driftStep (slew : Nat) (g target : Int) : Int := if slew = 0 then target else g + clip (-(slew : Int)) slew (target - g)

/-- R150: a temperature outside −40 to +86 °C. -/
def tempOut (temp : Int) : Bool := decide (temp < -640) || decide (1376 < temp)

end Sys2Proof.Machine
end

