-- ==== Sys2Proof/Machine/Exact.lean ====
section
/-! DEFINITION. The real functions of the input stage (R123, R125, R526) in fixed point with 96 fraction bits: logarithm, power and
sine by their series, the built-in scaler taps, the transfer functions and the primaries matrices. -/

namespace Sys2Proof.Machine

/-! ## Fixed point: an integer stands for itself / 2^96 -/

abbrev fxOne : Int := 0x1000000000000000000000000
/-- π, ln 2 and ln 10. -/
abbrev fxPi : Int := 0x3243F6A8885A308D313198A2E
abbrev fxLn2 : Int := 0xB17217F7D1CF79ABC9E3B398
abbrev fxLn10 : Int := 0x24D763776AAA2B05BA95B58AE

/-- The rational p / q. -/
def fxRat (p q : Int) : Int := p * fxOne / q
def fxMul (a b : Int) : Int := a * b / fxOne
def fxDiv (a b : Int) : Int := a * fxOne / b

/-- sin of an angle in 0 to π/2, by its power series: the sum and the last term. -/
def fxSin (r : Int) : Int :=
  ((List.range 24).foldl (fun (a : Int × Int) k =>
    (a.1 + a.2, -(fxMul (fxMul a.2 r) r) / ((2 * k + 2) * (2 * k + 3) : Nat))) (0, r)).1

/-- sin(π x) for x ≥ 0. -/
def fxSinPi (x : Int) : Int :=
  let y := x % (2 * fxOne)
  let z := if y < fxOne then y else y - fxOne
  let v := fxSin (fxMul fxPi (if 2 * z ≤ fxOne then z else fxOne - z))
  if y < fxOne then v else -v

/-- sinc(x) = sin(π x) / (π x), an even function; 1 at 0 (R526). -/
def fxSinc (x : Int) : Int :=
  let a : Int := x.natAbs
  if a = 0 then fxOne else fxDiv (fxSinPi a) (fxMul fxPi a)

/-- ln m for m in 1/2 to 1, by the series of the inverse hyperbolic tangent. -/
def fxLnHalf (m : Int) : Int :=
  let z := fxDiv (m - fxOne) (m + fxOne)
  2 * ((List.range 40).foldl (fun (a : Int × Int) k => (a.1 + a.2 / (2 * k + 1 : Nat), fxMul (fxMul a.2 z) z)) (0, z)).1

/-- ln x for x > 0: x = m 2^k with m in 1/2 to 1. -/
def fxLn (x : Int) : Int :=
  let k : Int := (Nat.log2 x.toNat : Int) - 95
  fxLnHalf (if 0 ≤ k then x / 2 ^ k.toNat else x * 2 ^ (-k).toNat) + k * fxLn2

/-- exp y: 2^k times the power series of a rest in 0 to ln 2. -/
def fxExp (y : Int) : Int :=
  let k := y / fxLn2
  let r := y - k * fxLn2
  let e := ((List.range 36).foldl (fun (a : Int × Int) n => (a.1 + a.2, fxMul a.2 r / (n + 1 : Nat))) (0, fxOne)).1
  if 0 ≤ k then e * 2 ^ k.toNat else e / 2 ^ (-k).toNat

/-- x^p for x ≥ 0 and p > 0. -/
def fxPow (x p : Int) : Int := if x ≤ 0 then 0 else fxExp (fxMul p (fxLn x))

/-! ## Built-in scaler sets 0 and 1 (R526, Table 5-4) -/

/-- The cutoff fc of a set: min(1, Wout / Win), for set 1 times 0.8. -/
def cutoff (set win wout : Nat) : Int :=
  let p := min win wout
  if set = 0 then fxRat p win else fxRat (4 * p) (5 * win)

/-- w[t]: the windowed sinc of a tap. Axis 0 is horizontal, with 4 lobes and 8 taps; axis 1 vertical, with 3 and 6. -/
def lanczosW (set axis win wout ph t : Nat) : Int :=
  let d := fxRat ((t : Int) * 64 - (if axis = 0 then 192 else 128) - ph) 64
  fxMul (fxSinc (fxMul (cutoff set win wout) d)) (fxSinc (d / (if axis = 0 then 4 else 3)))

/-- c[t] before the correction: floor(1,024 × w[t] / Σ w + 0.5). -/
def lanczosRaw (set axis win wout ph : Nat) : List Int :=
  let ws := (List.range (if axis = 0 then 8 else 6)).map fun t => lanczosW set axis win wout ph t
  let sum := ws.foldl (· + ·) 0
  ws.map fun w => (2048 * w + sum) / (2 * sum)

/-- The tap with the largest c[t], the lowest on a tie. -/
def largestTap (cs : List Int) : Nat :=
  (cs.zipIdx.foldl (fun (b : Option (Int × Nat)) c => match b with
    | some x => if x.1 < c.1 then some c else b
    | none => some c) none).elim 0 fun x => x.2

/-- R526: the taps of a phase; the largest one takes what is missing of 1,024. -/
def lanczosTaps (set axis win wout ph : Nat) : List Int :=
  let cs := lanczosRaw set axis win wout ph
  cs.modify (largestTap cs) fun c => c + 1024 - cs.foldl (· + ·) 0

/-! ## Transfer functions (R123) -/

/-- A stored value of 0-65,535 as E′, and the stored value of L, half up and clipped. -/
def fxCode (v : Nat) : Int := fxRat v 65535
def fxStore (l : Int) : Int := clip 0 65535 ((l * 65535 * 2 + fxOne) / (2 * fxOne))

/-- BT.1886: (`SDR_WHITE` / N) × E′^2.4. -/
def eotfSdr (nits white v : Nat) : Int := fxStore (fxPow (fxCode v) (fxRat 12 5) * white / nits)

/-- PQ: min(1, 10,000 × Y / N). -/
def eotfPq (nits v : Nat) : Int :=
  let p := fxPow (fxCode v) (fxRat 32 2523)
  let num := max (p - fxRat 3424 4096) 0
  let y := fxPow (fxDiv num (fxRat 2413 128 - fxMul (fxRat 2392 128) p)) (fxRat 16384 2610)
  fxStore (min fxOne (y * 10000 / nits))

/-- HLG scene light of a channel. -/
def hlgScene (v : Nat) : Int :=
  let e := fxCode v
  if 2 * e ≤ fxOne then fxMul e e / 3
  else (fxExp (fxDiv (e - fxRat 55991073 100000000) (fxRat 17883277 100000000)) + fxRat 28466892 100000000) / 12

/-- γ - 1 of HLG: 0.2 + 0.42 × log10(N / 1,000). -/
def hlgExp (nits : Nat) : Int :=
  fxRat 1 5 + fxMul (fxRat 42 100) (fxDiv (fxLn (fxRat nits 1000)) fxLn10)

/-- Ys of HLG. -/
def hlgYs (rgb : List Nat) : Int :=
  (fxRat 2627 10000 * hlgScene (rgb.getD 0 0) + fxRat 6780 10000 * hlgScene (rgb.getD 1 0)
    + fxRat 593 10000 * hlgScene (rgb.getD 2 0)) / fxOne

/-- HLG: Ys^(γ-1) × E of a channel; none where 0 stands to a power below 0, to which R123 gives no value. -/
def eotfHlg (nits : Nat) (rgb : List Nat) (i : Nat) : Option Int :=
  let y := hlgYs rgb
  if y ≤ 0 then (if 0 < hlgExp nits then some 0 else none)
  else some (fxStore (fxMul (fxExp (fxMul (hlgExp nits) (fxLn y))) (hlgScene (rgb.getD i 0))))

/-- R123: the stored value of the interpolated table: within `tol` codes of the exact one, and otherwise open. -/
def nearExact (tol free : Nat) (exact : Int) : Nat := (clip 0 65535 (exact + (free % (2 * tol + 1) : Nat) - tol)).toNat

/-! ## Primaries (R125) -/

/-- x and y of R, G and B of a primaries code, in 1/1,000 (H.273: 1 BT.709, 9 BT.2020, 12 P3-D65). PRESUMED: the spec names the
standard chromaticities without their numbers (entry 107 of the log). -/
def chroma3xy (code : Nat) : List (Rat × Rat) :=
  let f := fun (l : List (Nat × Nat)) => l.map fun p => ((p.1 : Rat) / 1000, (p.2 : Rat) / 1000)
  if code = 9 then f [(708, 292), (170, 797), (131, 46)]
  else if code = 12 then f [(680, 320), (265, 690), (150, 60)]
  else f [(640, 330), (300, 600), (150, 60)]

/-- XYZ of a chromaticity at Y = 1. -/
def xyzOf (p : Rat × Rat) : List Rat := [p.1 / p.2, 1, (1 - p.1 - p.2) / p.2]

/-- 3 × 3 matrices as lists of rows. -/
def mrow (m : List (List Rat)) (r c : Nat) : Rat := (m.getD r []).getD c 0
def mapply (m : List (List Rat)) (v : List Rat) : List Rat := m.map fun r => (List.range 3).foldl (fun a k => a + r.getD k 0 * v.getD k 0) 0
def mmul (a b : List (List Rat)) : List (List Rat) :=
  a.map fun r => (List.range 3).map fun c => (List.range 3).foldl (fun t k => t + r.getD k 0 * mrow b k c) 0
/-- A cofactor with its sign, and the inverse. -/
def mcof (m : List (List Rat)) (r c : Nat) : Rat :=
  mrow m ((r + 1) % 3) ((c + 1) % 3) * mrow m ((r + 2) % 3) ((c + 2) % 3)
    - mrow m ((r + 1) % 3) ((c + 2) % 3) * mrow m ((r + 2) % 3) ((c + 1) % 3)
def minv (m : List (List Rat)) : List (List Rat) :=
  let det := (List.range 3).foldl (fun t c => t + mrow m 0 c * mcof m 0 c) 0
  (List.range 3).map fun r => (List.range 3).map fun c => mcof m c r / det

/-- Linear RGB of a set of primaries to XYZ, with D65 (0.3127, 0.3290) as white. -/
def rgbToXyz (code : Nat) : List (List Rat) :=
  let cols := (chroma3xy code).map xyzOf
  let m := (List.range 3).map fun r => (List.range 3).map fun c => (cols.getD c []).getD r 0
  let s := mapply (minv m) (xyzOf (3127 / 10000, 3290 / 10000))
  m.map fun r => (List.range 3).map fun c => r.getD c 0 * s.getD c 0

/-- R125: a coefficient in signed 2.14. The spec does not say how the firmware rounds: the next lower or the next higher value. -/
def primariesCoef (from_ to_ r c : Nat) : Int :=
  (mrow (mmul (minv (rgbToXyz to_)) (rgbToXyz from_)) r c * 16384).floor + (Config.primariesRound from_ to_ r c % 2 : Nat)

end Sys2Proof.Machine
end

