-- ==== Sys2Proof/Machine/Colour.lean ====
section
/-! DEFINITION. Colour conversion of the input stage (R120-R125): the colour codes in force, Y′CbCr to R′G′B′, the key, the
transfer functions and the primaries. Samples of a decoded picture keep its bit depth until R121 makes 16-bit R′G′B′ of them. -/

namespace Sys2Proof.Machine

/-! ## Codes (R120, Table 5-5) -/

/-- Colour fields in force for a layer. -/
structure ColourSet where
  transfer : Nat
  primaries : Nat
  matrix : Nat
  full : Bool
  defaulted : Bool
  deriving DecidableEq, Repr

def transferListed (c : Nat) : Bool := [1, 6, 14, 15, 8, 16, 18].contains c
def primariesListed (c : Nat) : Bool := [1, 9, 12].contains c
/-- The identity matrix is for decoded pictures only (R121). -/
def matrixListed (decoded : Bool) (c : Nat) : Bool := (decoded && c == 0) || c == 1 || c == 9

/-- `CANVAS_PRIM` and `CANVAS_NITS` of `CANVAS_COLOUR`. -/
def canvasPrim (s : State) : Nat := fld (s.reg Off.canvasColour) 17 16
def canvasNits (s : State) : Nat := fld (s.reg Off.canvasColour) 13 0

/-- H.273 code of `CANVAS_PRIM`. -/
def primCode (p : Nat) : Nat := if p = 0 then 1 else if p = 1 then 9 else 12

/-- A byte of the picture's `COLOUR` field: primaries, transfer, matrix, range. -/
def colourByte (w : BitVec 32) (i : Nat) : Nat := fld w (8 * i + 7) (8 * i)

/-- A field with its override, and whether the default of Table 5-5 replaced it. -/
def resolve (field source : Nat) (listed : Nat → Bool) : Nat × Bool :=
  let v := if field = 255 then source else field
  if listed v then (v, false) else (1, true)

/-- R120 for a decoded picture. An absent range is limited range. -/
def pictureColour (l : Layer) (p : Picture) : ColourSet :=
  let t := resolve l.transfer (colourByte p.colour 1) transferListed
  let pr := resolve l.primaries (colourByte p.colour 0) primariesListed
  let m := resolve l.matrix (colourByte p.colour 2) (matrixListed true)
  let r := if l.range = 255 then colourByte p.colour 3 else l.range
  { transfer := t.1, primaries := pr.1, matrix := m.1, full := r == 1, defaulted := t.2 || pr.2 || m.2 }

/-- R120 for a raw source; a matrix means something for YCC422P10 only. -/
def rawColour (s : State) (l : Layer) (ycc : Bool) : ColourSet :=
  let t := resolve l.transfer 8 transferListed
  let pr := resolve l.primaries (primCode (canvasPrim s)) primariesListed
  let m := if ycc then resolve l.matrix 1 (matrixListed false) else (1, false)
  { transfer := t.1, primaries := pr.1, matrix := m.1, full := l.range != 0, defaulted := t.2 || pr.2 || m.2 }

/-! ## To R′G′B′ (R121) -/

/-- round(value × 65,535), half up, clipped to 0-65,535. -/
def store16 (v : Rat) : Nat := (clip 0 65535 (Rat.floor (v * 65535 + 1 / 2))).toNat

/-- Normalised luma and chroma of a d-bit sample. -/
def normY (full : Bool) (d y : Nat) : Rat :=
  if full then (y : Rat) / (2 ^ d - 1 : Nat) else ((y : Rat) - 16 * (2 ^ (d - 8) : Nat)) / (219 * (2 ^ (d - 8) : Nat))
def normC (full : Bool) (d c : Nat) : Rat :=
  if full then ((c : Rat) - (2 ^ (d - 1) : Nat)) / (2 ^ d - 1 : Nat) else ((c : Rat) - 128 * (2 ^ (d - 8) : Nat)) / (224 * (2 ^ (d - 8) : Nat))

/-- Kr and Kb of a matrix code (Table 5-5). -/
def matKr (m : Nat) : Rat := if m = 9 then 2627 / 10000 else 2126 / 10000
def matKb (m : Nat) : Rat := if m = 9 then 593 / 10000 else 722 / 10000

/-- R′, G′, B′ of a Y′CbCr sample. With the identity matrix the planes carry G′, B′ and R′. -/
def yccToRgb (k : ColourSet) (d y cb cr : Nat) : List Nat :=
  if k.matrix = 0 then [store16 (normY k.full d cr), store16 (normY k.full d y), store16 (normY k.full d cb)]
  else
    let yn := normY k.full d y
    let kr := matKr k.matrix
    let kb := matKb k.matrix
    let r := yn + 2 * (1 - kr) * normC k.full d cr
    let b := yn + 2 * (1 - kb) * normC k.full d cb
    [store16 r, store16 ((yn - kr * r - kb * b) / (1 - kr - kb)), store16 b]

/-- R′, G′, B′ of raw channels of 16 bits (R108). -/
def rawToRgb (k : ColourSet) (px : List Nat) : List Nat := px.map fun v => store16 (normY k.full 16 v)

/-! ## The key (R122) -/

/-- Every channel lies within the bounds of the key. -/
def inKey (l : Layer) (rgb : List Nat) : Bool :=
  (List.range 3).all fun i => decide (l.keyLo.getD i 0 ≤ rgb.getD i 0) && decide (rgb.getD i 0 ≤ l.keyHi.getD i 0)

/-- R122: the sample's alpha. -/
def keyedAlpha (l : Layer) (rgb : List Nat) (a : Nat) : Nat :=
  if l.keyEn then (a * (if inKey l rgb then 0 else 65535) + 32767) / 65535 else a

/-! ## Linear light (R123, R125) -/

/-- Reference white of a layer. -/
def sdrWhite (l : Layer) : Nat := if l.sdrWhite = 0 then 203 else l.sdrWhite

/-- R123: linear light of the channels R′, G′, B′: the exact value with the error of the stage's tables, which is free within the
bounds of R123 (entry 4 of the log). For HLG every channel depends on all three. -/
def linearise (nits white transfer : Nat) (rgb : List Nat) : List Nat :=
  if transfer = 8 then rgb
  else if transfer = 18 then
    let packed := rgb.getD 0 0 + 65536 * rgb.getD 1 0 + 65536 * 65536 * rgb.getD 2 0
    (List.range 3).map fun i =>
      let free := Config.transferError (18 + 256 * i) white nits packed
      (eotfHlg nits rgb i).elim (free % 65536) (nearExact 4 free)
  else if transfer = 16 then rgb.map fun v => nearExact 2 (Config.transferError 16 white nits v) (eotfPq nits v)
  else rgb.map fun v => nearExact 2 (Config.transferError 1 white nits v) (eotfSdr nits white v)

/-- R125: the conversion to the canvas primaries. -/
def toCanvasPrim (from_ to_ : Nat) (rgb : List Nat) : List Nat :=
  if from_ = to_ then rgb
  else (List.range 3).map fun r =>
    let acc : Int := (List.range 3).foldl (fun t k => t + primariesCoef from_ to_ r k * rgb.getD k 0) 8192
    (clip 0 65535 (acc / 16384)).toNat

/-- R124: MaxCLL of a picture (as coded, most significant byte first), and the risk that it or the mastering display's
maximum lies above the canvas. -/
def maxCll (p : Picture) : Nat := colourByte p.cll 0 * 256 + colourByte p.cll 1
def hdrRisk (nits : Nat) (p : Picture) : Bool := decide (nits < maxCll p) || decide (nits < p.maxLum)

/-! ## Blending (R130) -/

/-- R130: a layer's alpha. -/
def layerAlpha (a galpha : Nat) : Nat := (a * galpha + 32767) / 65535

/-- R130: one channel of a layer over what is below it. -/
def blendChannel (l : Layer) (a s d : Nat) : Nat :=
  let sp := if l.premul then (s * l.galpha + 32767) / 65535 else s
  let v :=
    if l.blend = 0 then
      if l.premul then sp + (d * (65535 - a) + 32767) / 65535 else (s * a + d * (65535 - a) + 32767) / 65535
    else if l.blend = 1 then (if l.premul then d + sp else d + (s * a + 32767) / 65535)
    else sp
  min v 65535

/-- R130: blend a sample of a layer. -/
def blendPixel (l : Layer) (rgb : List Nat) (alpha : Nat) (below : List Nat) : List Nat :=
  let a := layerAlpha alpha l.galpha
  (List.range 3).map fun i => blendChannel l a (rgb.getD i 0) (below.getD i 0)

end Sys2Proof.Machine
end

