-- ==== Sys2Proof/Machine/InputStage.lean ====
section
/-! DEFINITION. The input stage (R107-R125): reading a source, chroma upsampling, mirror and rotation, the key, polyphase
scaling with its edges and seam strips, and the step to linear light. Every function gives one sample of the image after its
step; a sample is R′, G′, B′ and A, or linear R, G, B and A. -/

namespace Sys2Proof.Machine

/-! ## Sources (R107, Table 5-2) -/

/-- The frame that a layer reads: a raw frame buffer of a stream at its device address, or a decoded picture. -/
inductive Src where
  | raw (x : Stream) (addr : Nat)
  | pic (p : Picture)

/-- Size of the source in luma px. -/
def Src.w : Src → Nat
  | .raw x _ => x.width
  | .pic p => p.width
def Src.h : Src → Nat
  | .raw x _ => x.height
  | .pic p => p.height

/-- Bits of a sample: 16 of a raw frame, whose samples are aligned (R108), or those of the picture. -/
def Src.depth : Src → Nat
  | .raw _ _ => 16
  | .pic p => p.depth

/-- The source carries Y′CbCr planes (R120). -/
def Src.ycc : Src → Bool
  | .raw x _ => x.rawFmt == 3
  | .pic _ => true

/-- Subsampling of the chroma axes: horizontal and vertical. -/
def Src.subX : Src → Bool
  | .raw _ _ => true
  | .pic p => chromaSx p.chroma == 1
def Src.subY : Src → Bool
  | .raw _ _ => false
  | .pic p => chromaSy p.chroma == 1

/-- Chroma sample location type that the source signals, 255 for none. -/
def Src.siting : Src → Nat
  | .raw _ _ => 255
  | .pic p => p.siting

/-- A byte of a raw frame; in an uncorrectable codeword it is a free value (R416). -/
def rawByte (s : State) (a : Nat) : Byte := if s.mem.bad.contains (a / 64) then Config.poisonByte a else memByte s a

/-- n bytes of a raw frame as a little-endian word. -/
def rawWord (s : State) (a n : Nat) : Nat := leNat ((List.range n).map fun i => rawByte s (a + i))

/-- Field of a word. -/
def bitsAt (v lo n : Nat) : Nat := (v >>> lo) % 2 ^ n

/-- R108: a sample of b bits left-aligned to 16, its top bits copied into the low bits left empty; b is at least 8. -/
def align16 (b v : Nat) : Nat := v <<< (16 - b) + v >>> (2 * b - 16)

/-- Bits of a two-bit alpha expanded to 16. -/
def alpha2 (a : Nat) : Nat := 21845 * a

/-- R, G, B and alpha of a raw RGB pixel, in 16 bits (R108). -/
def rawRgba (s : State) (x : Stream) (addr px py : Nat) : List Nat × Nat :=
  let row := addr + py * x.stride
  if x.rawFmt = 0 then
    let v := rawWord s (row + px / 2 * 9) 9
    let o := 36 * (px % 2)
    ([align16 12 (bitsAt v o 12), align16 12 (bitsAt v (o + 12) 12), align16 12 (bitsAt v (o + 24) 12)], 65535)
  else
    let v := rawWord s (row + 4 * px) 4
    if x.rawFmt = 1 then ([align16 10 (bitsAt v 0 10), align16 10 (bitsAt v 10 10), align16 10 (bitsAt v 20 10)], alpha2 (bitsAt v 30 2))
    else ([257 * bitsAt v 0 8, 257 * bitsAt v 8 8, 257 * bitsAt v 16 8], 257 * bitsAt v 24 8)

/-- A sample of a YCC422P10 frame in 16 bits: plane 0 Y, 1 Cb, 2 Cr at the plane's own position. -/
def rawYcc (s : State) (x : Stream) (addr plane px py : Nat) : Nat :=
  let row := addr + py * x.stride
  let pair := if plane = 0 then px / 2 else px
  let v := rawWord s (row + 5 * pair) 5
  align16 10 (if plane = 0 then bitsAt v (20 * (px % 2)) 10 else if plane = 1 then bitsAt v 10 10 else bitsAt v 30 10)

/-- Step 1 (R107, R97): the sample of a decoded picture, with its grain where the layer asks for it. The grain depends on
the parameters stored with the picture, and of chroma on the luma beside it. -/
def grainedSample (l : Layer) (p : Picture) (plane x y : Nat) : Nat :=
  let v := picSample p plane x y
  let lx := if plane = 0 then x else x <<< chromaSx p.chroma
  let ly := if plane = 0 then y else y <<< chromaSy p.chroma
  if l.grainEn && p.grain then
    Config.grainSample p.grainBytes plane x y v (picSample p 0 lx ly) (picSample p 0 (min (lx + 1) (p.width - 1)) ly) % 2 ^ p.depth
  else v

/-- A stored sample of a Y′CbCr source at a position of its plane. -/
def planeSample (s : State) (l : Layer) (src : Src) (plane x y : Nat) : Nat := match src with
  | .raw st a => rawYcc s st a plane x y
  | .pic p => grainedSample l p plane x y

/-! ## Chroma upsampling (R113) -/

/-- Horizontally centred and vertically centred sitings; the others are co-sited, at the top or the bottom. No signal is
co-sited horizontally and centred vertically (R113). -/
def centredX (t : Nat) : Bool := t == 1 || t == 3 || t == 5
def centredY (t : Nat) : Bool := t == 0 || t == 1 || t == 255
/-- A siting whose chroma rows lie on the odd luma rows. -/
def bottomY (t : Nat) : Bool := t == 4 || t == 5

/-- The taps of one axis for luma position p: chroma positions with weights of 1/16. -/
def chromaTaps (sub centred bottom : Bool) (p : Int) : List (Int × Int) :=
  if !sub then [(p, 16)]
  else
    let q := if bottom then p - 1 else p
    let j := q / 2
    let four := fun (a : Int) => [(a - 1, -1), (a, 9), (a + 1, 9), (a + 2, -1)]
    if centred then (if p % 2 = 0 then four (p / 2 - 1) else four (p / 2))
    else if q % 2 = 0 then [(j, 16)]
    else four j

/-- Nearest position of a plane of n samples. -/
def nearest (n : Nat) (p : Int) : Nat := (clip 0 ((n : Int) - 1) p).toNat

/-- Length of a chroma axis. -/
def chromaLen (sub : Bool) (n : Nat) : Nat := if sub then (n + 1) / 2 else n

/-- R113: a chroma sample at a luma position of the source. -/
def chromaAt (s : State) (l : Layer) (src : Src) (plane : Nat) (x y : Nat) : Nat :=
  let t := src.siting
  let xs := chromaTaps src.subX (centredX t) false x
  let ys := chromaTaps src.subY (centredY t) (bottomY t) y
  let nx := chromaLen src.subX src.w
  let ny := chromaLen src.subY src.h
  let sum : Int := ys.foldl (fun a v => xs.foldl (fun b u =>
    b + v.2 * u.2 * (planeSample s l src plane (nearest nx u.1) (nearest ny v.1) : Nat)) a) 0
  (clip 0 (2 ^ src.depth - 1 : Nat) ((sum + 128) / 256)).toNat

/-! ## R′G′B′ and the key (R120-R122) -/

/-- Colour fields in force for a layer and its source. -/
def colourOf (s : State) (l : Layer) (src : Src) : ColourSet := match src with
  | .raw x _ => rawColour s l (x.rawFmt == 3)
  | .pic p => pictureColour l p

/-- R′, G′, B′ of a source pixel before the key, and its own alpha. -/
def sourceRgba (s : State) (l : Layer) (k : ColourSet) (src : Src) (x y : Nat) : List Nat × Nat :=
  let ycc := (yccToRgb k src.depth (planeSample s l src 0 x y) (chromaAt s l src 1 x y) (chromaAt s l src 2 x y), 65535)
  match src with
  | .raw st a =>
    if st.rawFmt = 3 then ycc
    else
      let px := rawRgba s st a x y
      (rawToRgb k px.1, px.2)
  | .pic _ => ycc

/-- R114: the source position of rotated sample (u, v), crop origin included. -/
def unrotate (l : Layer) (u v : Nat) : Nat × Nat :=
  let x := if l.rot = 0 then u else if l.rot = 1 then v else if l.rot = 2 then l.cropW - 1 - u else l.cropW - 1 - v
  let y := if l.rot = 0 then v else if l.rot = 1 then l.cropH - 1 - u else if l.rot = 2 then l.cropH - 1 - v else u
  (l.cropX + (if l.mirror then l.cropW - 1 - x else x), l.cropY + y)

/-- Steps 1-5: R′, G′, B′, A of rotated sample (u, v). -/
def rotatedPx (s : State) (l : Layer) (src : Src) (u v : Nat) : List Nat :=
  let p := unrotate l u v
  let r := sourceRgba s l (colourOf s l src) src (min p.1 (src.w - 1)) (min p.2 (src.h - 1))
  r.1 ++ [keyedAlpha l r.1 r.2]

/-! ## Axes (R115, R116, R119) -/

/-- R115: the axis is halved first, and its length after that. -/
def halved (len out : Nat) : Bool := decide (2 * out < len)
def axisIn (len out : Nat) : Nat := if halved len out then (len + 1) / 2 else len

/-- R116: input position and phase of output sample i. -/
def scalePos (win wout i : Nat) : Int :=
  let step := win * 65536 / wout
  (i * step : Nat) + (step / 2 : Nat) - 32768
def scaleIp (win wout i : Nat) : Int := scalePos win wout i / 65536
def scalePh (win wout i : Nat) : Nat := (scalePos win wout i / 1024 % 64).toNat

/-- R119: the sample of an axis that a tap index reads under `EDGE`. -/
def edgeIndex (mirror : Bool) (n : Nat) (i : Int) : Nat :=
  let m := if mirror then (if i < 0 then -i else if (n : Int) ≤ i then 2 * ((n : Int) - 1) - i else i) else i
  nearest n m

/-- Samples of an axis that fall on an index after halving: one or two. -/
def pairOfAxis (len : Nat) (half : Bool) (j : Nat) : List Nat :=
  if !half then [j] else if 2 * j + 1 < len then [2 * j, 2 * j + 1] else [2 * j]

/-- Average of one or two pixels, rounded half up. -/
def averagePx (ps : List (List Nat)) : List Nat := match ps with
  | [p] => p
  | [p, q] => (List.range 4).map fun c => (p.getD c 0 + q.getD c 0 + 1) / 2
  | _ => []

/-! ## Scaler taps (R117, R118, R526) -/

/-- Key of a scaler half, and of a phase. Axis 0 is horizontal. -/
def halfKey (set axis : Nat) : Nat := 2 * set + axis
def phaseKey (set axis ph : Nat) : Nat := 64 * halfKey set axis + ph

/-- R118: a half is loaded once its 64 phases have been committed. -/
def halfLoaded (s : State) (set axis : Nat) : Bool := mget 0 s.comp.loaded (halfKey set axis) == BitVec.allOnes 64

/-- The set in force: set 2 for a half that is not loaded (R118). -/
def setInForce (s : State) (set axis : Nat) : Nat := if set < 4 ∨ halfLoaded s set axis then set else 2

/-- Coefficient of tap t at a phase. -/
def scaleTap (s : State) (set axis win wout ph t : Nat) : Int :=
  let k := setInForce s set axis
  let base := if axis = 0 then 3 else 2
  if k < 2 then (lanczosTaps k axis win wout ph).getD t 0
  else if k = 2 then (if t = base then 16 * (64 - ph : Nat) else if t = base + 1 then 16 * ph else 0)
  else if k = 3 then (if t = base + ph / 32 then 1024 else 0)
  else (mget [] s.comp.taps (phaseKey k axis ph)).getD t 0

/-- R116: one output channel from its tap values. -/
def scaleSum (taps : List (Int × Nat)) : Nat :=
  (clip 0 65535 ((taps.foldl (fun a p => a + p.1 * (p.2 : Int)) 512) / 1024)).toNat

/-! ## Seam strips as a source (R119, R127, R128) -/

/-- The stored strip sample of rotated row v at distance k = 1-16 from the edge. -/
def stripPx (s : State) (c n row layer port v k : Nat) : Option (List Nat) :=
  (s.comp.seams.find? fun f => f.contract == c && f.frame == n && f.row == row && f.layer == layer && f.port == port
    && decide (f.firstRow ≤ v) && decide (v < f.firstRow + f.rows)).map fun f =>
      let o := (16 * (v - f.firstRow) + (k - 1)) * 8
      [leAt f.samples o 2, leAt f.samples (o + 2) 2, leAt f.samples (o + 4) 2, leAt f.samples (o + 6) 2]

/-- The side of the rotated image on which a peer port's strip lies: the sender's part lies on the side that its send bit
names, and PEER-E of a module is joined to PEER-W of the next (R126; entry 32 of the log). True is the right edge. -/
def stripRight (port : Nat) : Bool := port == 1

/-- What the sampling of one layer needs. -/
structure Look where
  cn : Nat
  c : Contract
  n : Nat
  row : Nat
  layer : Nat
  l : Layer
  src : Src

/-- The strip of a side is used for this row (R128). -/
def Look.strip (k : Look) (right : Bool) : Option Nat :=
  [0, 1].find? fun p => stripRight p == right && k.c.strips.contains (k.n, k.row, k.layer, p)

/-- Columns of the rotated image beyond an edge, at pair or single distance m. -/
def stripCols (half : Bool) (m : Nat) : List Nat := if half then [2 * m - 1, 2 * m] else [m]

/-- R115: the image after pair averaging, horizontal first; v is inside the axis, u may lie in a strip. -/
def averaged (s : State) (k : Look) (u : Int) (v : Nat) : List Nat :=
  let lw := rotW k.l
  let lh := rotH k.l
  let hx := halved lw k.l.dstW
  let hy := halved lh k.l.dstH
  let win := axisIn lw k.l.dstW
  let rows := pairOfAxis lh hy v
  let inside := fun (r : Nat) => averagePx ((pairOfAxis lw hx (edgeIndex (k.l.edge == 1) win u)).map fun x => rotatedPx s k.l k.src x r)
  let beyond := if u < 0 then (-u).toNat else (u - (win - 1 : Nat)).toNat
  let strip := if u < 0 then k.strip false else if (win : Int) ≤ u then k.strip true else none
  let at_ := fun (r : Nat) => match strip with
    | some p => match ((stripCols hx beyond).map fun m => stripPx s k.cn k.n k.row k.layer p r m).reduceOption with
      | [] => inside r
      | ps => averagePx ps
    | none => inside r
  averagePx (rows.map at_)

/-! ## The two passes (R116) -/

/-- Horizontal pass at output column i, input row v. -/
def horizontal (s : State) (k : Look) (i v : Nat) : List Nat :=
  let win := axisIn (rotW k.l) k.l.dstW
  let ip := scaleIp win k.l.dstW i
  let ph := scalePh win k.l.dstW i
  let ins := (List.range 8).map fun t => (scaleTap s k.l.hset 0 win k.l.dstW ph t, averaged s k (ip + t - 3) v)
  (List.range 4).map fun ch => scaleSum (ins.map fun p => (p.1, p.2.getD ch 0))

/-- Input rows that output row j reads, tap by tap (R116, R119). -/
def tapRows (l : Layer) (j : Nat) : List Nat :=
  let hin := axisIn (rotH l) l.dstH
  (List.range 6).map fun (t : Nat) => edgeIndex (l.edge == 1) hin (scaleIp hin l.dstH j + t - 2)

/-- Vertical pass: the scaled sample of output (i, j): R′, G′, B′, A. -/
def scaled (s : State) (k : Look) (i j : Nat) : List Nat :=
  let hin := axisIn (rotH k.l) k.l.dstH
  let ph := scalePh hin k.l.dstH j
  let ins := (tapRows k.l j).zipIdx.map fun r => (scaleTap s k.l.vset 1 hin k.l.dstH ph r.2, horizontal s k i r.1)
  (List.range 4).map fun ch => scaleSum (ins.map fun p => (p.1, p.2.getD ch 0))

/-- Steps 6-8: linear R, G, B in the canvas primaries, and A, of a canvas pixel inside the layer. -/
def layerPx (s : State) (k : Look) (px py : Nat) : List Nat × Nat :=
  let v := scaled s k ((px : Int) - k.l.dstX).toNat ((py : Int) - k.l.dstY).toNat
  let col := colourOf s k.l k.src
  let lin := linearise (canvasNits s) (sdrWhite k.l) col.transfer (v.take 3)
  (toCanvasPrim col.primaries (primCode (canvasPrim s)) lin, v.getD 3 0)

/-! ## What a paddock row reads (R111, R127) -/

/-- Output rows of a layer within canvas paddock row k and the region: first and count. -/
def layerRows (c : Contract) (l : Layer) (row : Nat) : Nat × Nat :=
  let y0 : Int := max l.dstY (256 * (c.regY + row) : Nat)
  let y1 : Int := min (l.dstY + l.dstH) (256 * (c.regY + row + 1) : Nat)
  ((y0 - l.dstY).toNat, (y1 - y0).toNat)

/-- Output columns of a layer within the region: first and count. -/
def layerCols (c : Contract) (l : Layer) : Nat × Nat :=
  let x0 : Int := max l.dstX (256 * c.regX : Nat)
  let x1 : Int := min (l.dstX + l.dstW) (256 * (c.regX + c.regW) : Nat)
  ((x0 - l.dstX).toNat, (x1 - x0).toNat)

/-- Least and greatest of a list. -/
def spanOf : List Nat → Option (Nat × Nat)
  | [] => none
  | a :: as => some (as.foldl (fun t x => (min t.1 x, max t.2 x)) (a, a))

/-- Rotated rows that a layer reads for a paddock row, with their filter support: first and last. -/
def rowSpan (c : Contract) (l : Layer) (row : Nat) : Option (Nat × Nat) :=
  let r := layerRows c l row
  spanOf ((List.range r.2).flatMap fun j =>
    (tapRows l (r.1 + j)).flatMap (pairOfAxis (rotH l) (halved (rotH l) l.dstH)))

/-- Rotated columns that a layer reads within the region: first and last. -/
def colSpan (c : Contract) (l : Layer) : Option (Nat × Nat) :=
  let r := layerCols c l
  let win := axisIn (rotW l) l.dstW
  spanOf ((List.range r.2).flatMap fun i => (List.range 8).flatMap fun (t : Nat) =>
    pairOfAxis (rotW l) (halved (rotW l) l.dstW) (edgeIndex (l.edge == 1) win (scaleIp win l.dstW (r.1 + i) + t - 3)))

/-- Source rows that a layer reads for a paddock row: first and last. -/
def sourceRows (c : Contract) (l : Layer) (row : Nat) : Option (Nat × Nat) :=
  match colSpan c l, rowSpan c l row with
  | some us, some vs => spanOf [(unrotate l us.1 vs.1).2, (unrotate l us.2 vs.2).2]
  | _, _ => none

/-- R111: slices of a raw frame that the layers of a stream need for a paddock row. -/
def neededSlices (c : Contract) (n row : Nat) : List Nat :=
  (c.layers.filter fun l => l.en && l.src == n).flatMap fun l => match sourceRows c l row with
    | some r => (List.range (r.2 / 64 - r.1 / 64 + 1)).map (· + r.1 / 64)
    | none => []

end Sys2Proof.Machine
end

