-- ==== Sys2Proof/Machine/ProxyCode.lean ====
section
/-! DEFINITION. What the proxy encoder makes of a frame: the captured picture (R212), the search and the choice of modes (R214), the
rate modes (R215) and the access unit (R213). The measures that the encoder takes and the syntax of HEVC are opaque; the
candidates, the bounds and the order of the choices are those of the rules. -/

namespace Sys2Proof.Machine

/-! ## Capture (R212, R218) -/

/-- Entry k of `PRX_LUT` after reset: k >> 2; and entry k now. -/
def lutReset (k : Nat) : BitVec 10 := BitVec.ofNat 10 (k / 4)
def prxLut (s : State) (k : Nat) : BitVec 10 := mget (lutReset k) s.prx.lut k

/-- A channel averaged over a box, half up. -/
def boxAverage (codes : List Nat) : Nat := (2 * sumOf codes + codes.length) / (2 * max 1 codes.length)

/-- The depth of the drive codes at a canvas pixel (R137); outside every tile the codes are 0. -/
def codeDepth (c : Contract) (px py : Nat) : Nat := match lampEndpoint c px py with
  | some e => e.depth
  | none => 16

/-- Channel ch of the drive codes of a canvas pixel of frame n. -/
def driveCode (s : State) (n px py ch : Nat) : Nat := leNat (memRead s (pxAddr s n px py + 2 * ch) 2)

/-- 10-bit R′, G′, B′ of output pixel (i, j) of frame n. -/
def capturedRgb (s : State) (c : Contract) (n i j : Nat) : List Nat :=
  let p := s.prx
  let x := p.x + i * p.fx
  let y := p.y + j * p.fy
  (List.range 3).map fun ch =>
    let codes := (List.range p.fy).flatMap fun v => (List.range p.fx).map fun u => driveCode s n (x + u) (y + v) ch
    (prxLut s ((boxAverage codes <<< (16 - codeDepth c x y)) >>> 4)).toNat

/-- R212: a code within ±1 of the exact value, and otherwise open. -/
def within1 (free : Nat) (v : Rat) : Nat :=
  let lo := Rat.ceil (v - 1)
  let n := (Rat.floor (v + 1) - lo + 1).toNat
  (clip 0 1023 (lo + (free % max 1 n : Nat))).toNat

/-- BT.709 limited-range Y′, Cb, Cr of 10-bit full-range R′G′B′ (H.273). -/
def proxyYcc (rgb : List Nat) : List Nat :=
  let e := fun (i : Nat) => (rgb.getD i 0 : Rat) / 1023
  let y := 2126 / 10000 * e 0 + 7152 / 10000 * e 1 + 722 / 10000 * e 2
  let free := Config.proxyRound (rgb.getD 0 0 + 1024 * rgb.getD 1 0 + 1048576 * rgb.getD 2 0)
  [within1 (free 0) (4 * (219 * y + 16)), within1 (free 1) (4 * (224 * ((e 2 - y) / (2 * (1 - 722 / 10000))) + 128)),
   within1 (free 2) (4 * (224 * ((e 0 - y) / (2 * (1 - 2126 / 10000))) + 128))]

/-- Output size. -/
def Proxy.outW (p : Proxy) : Nat := p.w / p.fx
def Proxy.outH (p : Proxy) : Nat := p.h / p.fy

/-- A chroma plane averaged over 2 × 2. -/
def halvedPlane (w h ch : Nat) (px : List (List Nat)) : List Nat :=
  (List.range (w / 2 * (h / 2))).map fun k =>
    let o := k / (w / 2) * 2 * w + k % (w / 2) * 2
    ((([o, o + 1, o + w, o + w + 1].map fun i => (px.getD i []).getD ch 0).foldl (· + ·) 0) + 2) / 4

/-- R212: the captured picture of frame n. -/
def capturePlanes (s : State) (c : Contract) (n : Nat) : ProxyPlanes :=
  let w := s.prx.outW
  let h := s.prx.outH
  let px := (List.range (w * h)).map fun k => proxyYcc (capturedRgb s c n (k % w) (k / w))
  ⟨px.map fun v => v.getD 0 0, halvedPlane w h 1 px, halvedPlane w h 2 px⟩

/-! ## The motion window and the search (R214) -/

/-- R214: bytes of the proxy's window, its rows, and the reference rows that it holds for a CTU row: 24 above and 24 below. -/
def proxyWindowBytes : Nat := 1310720
def proxyWindowRows : Nat := 112
def windowHolds (ctuRow : Nat) (row : Int) : Bool :=
  decide (64 * (ctuRow : Int) - 24 ≤ row) && decide (row < 64 * (ctuRow : Int) - 24 + proxyWindowRows)

/-- The rows that a vector reads for a block of 16 rows lie in the window; dy in whole samples. -/
def vectorHeld (y : Nat) (dy : Int) : Bool := windowHolds (y / 64) (y + dy) && windowHolds (y / 64) (y + dy + 15)

/-- The steps -k to k. -/
def steps (k : Nat) : List Int := (List.range (2 * k + 1)).map fun (i : Nat) => (i : Int) - k

/-- Vectors around a centre, in raster order. -/
def around (v : Int × Int) (kx ky : Nat) (scale : Int) : List (Int × Int) :=
  (steps ky).flatMap fun dy => (steps kx).map fun dx => (v.1 + scale * dx, v.2 + scale * dy)

/-- The vector of least cost, the first on a tie. -/
def leastVector (cost : Int × Int → Nat) : Int × Int → List (Int × Int) → Int × Int
  | best, [] => best
  | best, v :: vs => leastVector cost (if cost v < cost best then v else best) vs

/-- R214: the search of a 16 × 16 block: ±64 and ±24 in steps of 4, then ±2 samples, then ±3/4; in quarter samples (entry 129 of
the log). -/
def searchBlock (f : ProxyPicture) (x y : Nat) : Int × Int :=
  let held := fun (vs : List (Int × Int)) => vs.filter fun v => vectorHeld y v.2
  let v1 := leastVector (Config.searchCost 1 f x y) (0, 0) (held (around (0, 0) 16 6 4))
  let v2 := leastVector (Config.searchCost 2 f x y) v1 (held (around v1 2 2 1))
  let q : Int × Int := (4 * v2.1, 4 * v2.2)
  leastVector (Config.searchCost 3 f x y) q ((around q 3 3 1).filter fun v => vectorHeld y (v.2 / 4) && vectorHeld y ((v.2 + 3) / 4))

/-- R214: SATD + λ × bits of one mode lies below that of another, with λ = 0.57 × 2^((QP − 12) / 3), compared by cubes. -/
def lowerCost (qp : Nat) (a b : Nat × Nat) : Bool :=
  let d : Int := 100 * ((a.1 : Int) - b.1)
  let e : Int := 57 * ((b.2 : Int) - a.2)
  decide (d ^ 3 * 2 ^ 12 < e ^ 3 * 2 ^ qp)

/-- Modes that a block may take (Table 8-8): all intra modes, and in a P picture the merge candidates and the vector found. -/
def blockModes (f : ProxyPicture) (x y : Nat) : List ProxyMode :=
  (List.range 35).map .intra ++
    if f.idr then []
    else (List.range (Config.mergeCount f x y % 6)).map .merge ++ [(fun (v : Int × Int) => .amvp v.1 v.2) (searchBlock f x y)]

/-- The mode of least cost at a QP, the first on a tie. -/
def leastProxyMode (f : ProxyPicture) (x y : Nat) : ProxyMode → List ProxyMode → ProxyMode
  | best, [] => best
  | best, m :: ms => leastProxyMode f x y (if lowerCost f.qp (Config.modeCost f x y m) (Config.modeCost f x y best) then m else best) ms
def proxyMode (f : ProxyPicture) (x y : Nat) : ProxyMode := leastProxyMode f x y (.intra 0) (blockModes f x y)

/-! ## Rate (R215) -/

/-- A QP at most 3 from another. -/
def near3 (q free : Nat) : Nat := (clip 0 51 ((q : Int) - 3 + (free % 7 : Nat))).toNat

/-- R215: the QP of the next picture. -/
def pictureQp (p : Proxy) (idr : Bool) (draw : Nat) : Nat :=
  if p.rcMode = 0 then (if idr then p.qp - 3 else p.qp)
  else match p.lastQp with
    | some q => near3 q (Config.rateQp draw 0)
    | none => Config.rateQp draw 0 % 52

/-- QPs of the quarters of CTU i: the picture's, in CAPPED mode within ±3 of it. -/
def ctuQps (p : Proxy) (qp draw i : Nat) : List Nat :=
  (List.range 4).map fun k => if p.rcMode = 0 then qp else near3 qp (Config.rateQp draw (4 * i + k + 1))

/-- The blocks of CTU i that lie in the coded picture: their positions. -/
def ctuBlocks (seq : ProxySeq) (i : Nat) : List (Nat × Nat) :=
  let cols := ceilDiv seq.codedW 64
  ((List.range 16).map fun k => (64 * (i % cols) + 16 * (k % 4), 64 * (i / cols) + 16 * (k / 4))).filter fun b =>
    decide (b.1 < seq.codedW) && decide (b.2 < seq.codedH)

/-- R215: 90 % of the CPB fullness has been reached; both in parts of 1/unit bit. -/
def reached90 (bits full unit : Nat) : Bool := decide (9 * full ≤ 10 * (bits * unit))

/-- The next CTU: coded with its QPs and modes, or cut short where the fullness is reached: skipped in a P picture, at QP 51
in an IDR picture. -/
def codeCtu (p : Proxy) (f : ProxyPicture) (draw i : Nat) (cut : Bool) : ProxyCtu :=
  if cut && !f.idr then { qps := List.replicate 4 f.qp, skipped := true }
  else { qps := if cut then List.replicate 4 51 else ctuQps p f.qp draw i
         blocks := (ctuBlocks f.seq i).map fun b => proxyMode f b.1 b.2 }

/-- Code the CTUs in turn: the picture, and whether it was cut short. `bits` are those so far, `full` the fullness of the CPB where
it counts. -/
def codeCtus (p : Proxy) (draw unit : Nat) (full : Option Nat) : List Nat → Nat → ProxyPicture → Bool → ProxyPicture × Bool
  | [], _, f, cut => (f, cut)
  | i :: is, bits, f, cut =>
    let now := cut || match full with
      | some n => reached90 bits n unit
      | none => false
    let g := { f with ctus := f.ctus ++ [codeCtu p f draw i now] }
    codeCtus p draw unit full is (bits + Config.ctuBits g) g now

/-! ## The access unit (R213, Table 8-8) -/

/-- The timing of the VUI: both divided by their greatest common divisor; absent where one needs more than 32 bits. -/
def proxyTiming (p : Proxy) : Option (Nat × Nat) :=
  let a := p.pnum * p.rateDiv
  let b := 160000000 * p.pden
  let g := max 1 (Nat.gcd a b)
  if a / g < 2 ^ 32 ∧ b / g < 2 ^ 32 then some (a / g, b / g) else none

/-- The sequence: the coded size is the output size rounded up to 8. -/
def proxySeq (p : Proxy) : ProxySeq :=
  { codedW := ceilDiv p.outW 8 * 8, codedH := ceilDiv p.outH 8 * 8, width := p.outW, height := p.outH, timing := proxyTiming p }

/-- Emulation prevention of the byte stream: a byte of at most 3 after two zero bytes is preceded by 3. The number counts the
zero bytes just passed (entry 118 of the log). -/
def escaped : Nat → List Byte → List Byte
  | _, [] => []
  | z, b :: bs =>
    if z ≥ 2 ∧ b.toNat ≤ 3 then 3 :: b :: escaped (if b = 0 then 1 else 0) bs
    else b :: escaped (if b = 0 then z + 1 else 0) bs

/-- A NAL unit in the byte stream: start code, header, payload. -/
def nalUnit (type : Nat) (payload : List Byte) : List Byte :=
  [0, 0, 0, 1, BitVec.ofNat 8 (2 * type), 1] ++ escaped 0 payload

/-- R213: an AUD in every unit, VPS, SPS and PPS before every IDR picture, and one slice: IDR_N_LP or trailing. -/
def accessUnit (f : ProxyPicture) : List Byte :=
  nalUnit 35 [if f.idr then 0x10 else 0x30]
    ++ (if f.idr then [32, 33, 34].flatMap fun t => nalUnit t (Config.proxySet t f.seq) else [])
    ++ nalUnit (if f.idr then 20 else 1) (Config.proxySlice f)

/-- The picture of a capture before its CTUs. -/
def newProxyPicture (p : Proxy) (idr : Bool) (poc draw : Nat) (planes : ProxyPlanes) : ProxyPicture :=
  { idr := idr, poc := poc, qp := pictureQp p idr draw, seq := proxySeq p, planes := planes, ref := p.refPic }

/-- R214, R215: a captured picture is coded. -/
def encodeProxy (p : Proxy) (idr : Bool) (poc draw unit full : Nat) (planes : ProxyPlanes) : ProxyPicture × Bool :=
  let f := newProxyPicture p idr poc draw planes
  codeCtus p draw unit (if p.rcMode = 1 then some full else none)
    (List.range (ceilDiv f.seq.codedW 64 * ceilDiv f.seq.codedH 64)) 0 f false

end Sys2Proof.Machine
end

