-- ==== Sys2Proof/Machine/Proxy.lean ====
section
/-! DEFINITION. The proxy encoder (8.9): starting and stopping, captures, and the delivery of access units. -/

namespace Sys2Proof.Machine

/-! ## Starting and stopping (R211, R217) -/

/-- Box factors of Table 8-7. -/
def boxFactor (f : Nat) : Bool := f == 1 || f == 2 || f == 4 || f == 8

/-- The ranges of Table 8-7 and the output size of R211. -/
def prxRanges (d : Desc) : Bool :=
  let fx := descFld d 9 1
  let fy := descFld d 10 1
  let w := descFld d 20 2
  let h := descFld d 22 2
  decide (descFld d 8 1 < 64) && boxFactor fx && boxFactor fy && decide (1 ≤ descFld d 11 1) && decide (descFld d 11 1 ≤ 16)
    && decide (descFld d 12 1 ≤ 1) && decide (descFld d 13 1 ≤ 51) && decide (descFld d 14 2 < 1024)
    && w % fx == 0 && h % fy == 0 && w / fx % 2 == 0 && h / fy % 2 == 0
    && decide (64 ≤ w / fx) && decide (w / fx ≤ 3840) && decide (64 ≤ h / fy) && decide (h / fy ≤ 2160)

/-- The rate fields, which mean something in CAPPED mode only. -/
def prxRate (d : Desc) : Bool :=
  descFld d 12 1 == 0 ||
    (decide (1000000 ≤ descFld d 24 4) && decide (descFld d 24 4 ≤ 40000000) && decide (descFld d 24 4 ≤ 60 * descFld d 28 4)
      && decide (descFld d 28 4 ≤ 40000000))

/-- `PROXY_START`, the fields (R211, R396, Table 8-7). -/
def prxFields (s : State) (d : Desc) : Bool :=
  hdrOk d 0x48 [(8, 26), (40, 12)] && prxRanges d && prxRate d && decide (descFld d 32 2 ≤ 600)
    && descFld d 40 8 % 64 == 0 && decide (2 ^ 20 ≤ descFld d 48 4) && decide (descFld d 48 4 ≤ 2 ^ 28)
    && descFld d 48 4 % 65536 == 0 && bit (s.cq (descFld d 14 2)).cfg 31

/-- R211: the contract is COMMITTED or RUNNING and the proxy is STOPPED. -/
def prxStates (s : State) (d : Desc) : Bool :=
  layoutState (s.contract (descFld d 8 1)) && s.prx.state == .stopped

/-- R211: the rectangle lies in the contract's region, and the pixel rate is at most 497,664,000 px/s. -/
def prxFits (c : Contract) (d : Desc) : Bool :=
  let x := descFld d 16 2
  let y := descFld d 18 2
  let w := descFld d 20 2
  let h := descFld d 22 2
  decide (256 * c.regX ≤ x) && decide (x + w ≤ 256 * (c.regX + c.regW))
    && decide (256 * c.regY ≤ y) && decide (y + h ≤ 256 * (c.regY + c.regH))
    && decide (w / descFld d 9 1 * (h / descFld d 10 1) * 160000000 * c.pden ≤ 497664000 * descFld d 11 1 * c.pnum)

/-- The proxy RUNNING with the fields of a `PROXY_START`. -/
def prxRunning (p : Proxy) (ref : CmdRef) (d : Desc) (c : Contract) : Proxy :=
  { p with
    state := .running, contract := descFld d 8 1, pnum := c.pnum, pden := c.pden, fx := descFld d 9 1, fy := descFld d 10 1, rateDiv := descFld d 11 1
    rcMode := descFld d 12 1, qp := descFld d 13 1, cq := descFld d 14 2, x := descFld d 16 2, y := descFld d 18 2
    w := descFld d 20 2, h := descFld d 22 2, bitrate := descFld d 24 4, cpbBits := descFld d 28 4
    idrPeriod := descFld d 32 2, outAddr := descFld d 40 8, outBytes := descFld d 48 4, wptr := 0, used := [], due := []
    captures := [], ref := ref, stopRefs := [], endStatus := St.ok, sinceIdr := 0, needIdr := true, cpb := 0, cpbFrame := none, lastQp := none }

/-- Apply a function to the proxy. -/
def State.modPrx (s : State) (f : Proxy → Proxy) : State := { s with prx := f s.prx }

/-- `PROXY_START` (R211, R396). -/
def execProxyStart (sq : Fin 1024) (d : Desc) (s : State) : Out :=
  runCmd sq d s fun ref s =>
    check (prxFields s d) St.invalidField ref s fun s =>
    check (prxStates s d) St.stateConflict ref s fun s =>
    check (prxFits (s.contract (descFld d 8 1)) d) St.invalidField ref s fun s =>
    completeWith (s.modPrx fun p => prxRunning p ref d (s.contract (descFld d 8 1))) ref St.ok

/-- R217: the proxy stops when the picture in progress is finished; the other captures are given up. -/
def prxStopping (p : Proxy) (refs : List CmdRef) (status : Nat) : Proxy :=
  { p with state := .stopping, stopRefs := p.stopRefs ++ refs, endStatus := status, captures := p.captures.take 1, due := [] }

/-- `PROXY_STOP` by state (R217). -/
def prxStop (s : State) (ref : CmdRef) : State :=
  match s.prx.state with
  | .stopped => completeWith s ref St.ok
  | .running => s.modPrx fun p => prxStopping p [ref] St.ok
  | .stopping => s.modPrx fun p => { p with stopRefs := p.stopRefs ++ [ref] }

/-- `PROXY_STOP` (R217). -/
def execProxyStop (sq : Fin 1024) (d : Desc) (s : State) : Out :=
  runCmd sq d s fun ref s =>
    check (hdrOk d 0x49 []) St.invalidField ref s fun s => prxStop s ref

/-! ## Captures (R212) -/

/-- The last paddock row of frame n of the proxy's contract has been written. -/
def prxRowWritten (s : State) (c n row : Nat) : State :=
  if s.prx.state = .running ∧ s.prx.contract = c ∧ row + 1 = (s.contract c).regH ∧ n % s.prx.rateDiv = 0 then
    s.modPrx fun p => { p with due := p.due ++ [n] }
  else s

/-- R212: a capture of frame n - 2 that has begun and has not finished paddock row k when row k of frame n composes is abandoned.
How fast a capture goes is open, so a free value tells whether it has (entry 130 of the log). -/
def captureLate (s : State) (n : Nat) (p : Capture × Nat) : Bool :=
  decide (p.1.frame + 2 ≤ n) && Config.freeNat (s.free + p.2) % 2 == 1

/-- R212: a row of frame n composes: captures of frame n - 2 that have not begun, or not finished that row, are abandoned. -/
def prxAbandon (s : State) (c n : Nat) : State :=
  if s.prx.contract ≠ c ∨ s.prx.state = .stopped then s
  else
    let kept := (s.prx.captures.zipIdx.filter fun p => !captureLate s n p).map fun p => p.1
    let due := s.prx.due.filter fun f => decide (n < f + 2)
    let s1 := { s with free := s.free + s.prx.captures.length, prx := { s.prx with due := due, captures := kept } }
    if due.length < s.prx.due.length ∨ kept.length < s.prx.captures.length then setStatus s1 Off.prxStatus 2 else s1

/-- R212: the next capture is made where a buffer is free; R68 holds it, R478 skips it. -/
def prxCapture (s : State) : State :=
  match s.prx.due with
  | [] => s
  | n :: rest =>
    if s.pwr.over105 then setStatus (s.modPrx fun p => { p with due := rest }) Off.prxStatus 1
    else if s.pwr.throttled then setStatus s Off.prxStatus 1
    else if s.prx.captures.length < 2 then
      s.modPrx fun p => { p with due := rest, captures := p.captures ++ [⟨n, capturePlanes s (s.contract p.contract) n⟩] }
    else s

/-- `PROXY_CAPTURE_START` (R212). -/
def execProxyCaptureStart (s : State) : Out := .next (prxCapture s)

/-! ## Access units (R213-R216, R396) -/

/-- The next picture is an IDR picture (Table 8-7, R216). -/
def prxIdr (p : Proxy) : Bool := p.needIdr || (p.idrPeriod != 0 && decide (p.idrPeriod ≤ p.sinceIdr))

/-- POC of the next picture. -/
def prxPoc (p : Proxy) : Nat := if prxIdr p then 0 else p.sinceIdr

/-- R215: bits that the CPB fills with from one captured frame to another, and its fullness before frame n, in
1/(160,000,000 × `PDEN`) bit. It starts full. -/
def cpbUnit (p : Proxy) : Nat := 160000000 * p.pden
def cpbFullness (p : Proxy) (n : Nat) : Nat :=
  let top := p.cpbBits * cpbUnit p
  match p.cpbFrame with
  | some m => min top (p.cpb + p.bitrate * (n - m) * p.pnum)
  | none => top

/-- The picture in progress as coded, and whether it was cut short (R215). -/
def prxPicture (s : State) (x : Capture) : ProxyPicture × Bool :=
  let p := s.prx
  encodeProxy p (prxIdr p) (prxPoc p) s.free (cpbUnit p) (cpbFullness p x.frame) x.planes

/-- Its AU, with trailing zero bytes up to a multiple of 4 (R356). -/
def prxAu (f : ProxyPicture) : List Byte :=
  let bs := accessUnit f
  bs ++ zeros ((4 - bs.length % 4) % 4)

/-- R216: the offset at which an AU of n bytes is placed, and whether the buffer has room there. -/
def prxPlace (p : Proxy) (n : Nat) : Nat := if p.wptr + n ≤ p.outBytes then p.wptr else 0
def prxRoom (p : Proxy) (off n : Nat) : Bool :=
  decide (off + n ≤ p.outBytes) && p.used.all fun u => decide (off + n ≤ u.1) || decide (u.1 + u.2.1 ≤ off)

/-- The `KIND` 1 completion (R396). -/
def prxCpl (p : Proxy) (frame off len poc : Nat) (isP last : Bool) (status : Nat) : Completion :=
  { cq := p.cq, r0 := BitVec.ofNat 64 frame, r1 := BitVec.ofNat 64 (off + 2 ^ 32 * len),
    r2 := BitVec.ofNat 64 (poc + 2 ^ 32 * b2n isP + 2 ^ 40 * b2n last), cid := p.ref.cid, sqId := p.ref.sq, status := status, kind := 1 }

/-- A picture that is not delivered: an IDR is followed by an IDR (R216). -/
def prxDropped (p : Proxy) (n full qp : Nat) : Proxy :=
  { p with captures := p.captures.drop 1, needIdr := p.needIdr || prxIdr p, cpb := full, cpbFrame := some n, lastQp := some qp }

/-- A picture that is delivered; it is the reference of the next one (R213). -/
def prxDelivered (p : Proxy) (n full bits off len pos qp ref : Nat) : Proxy :=
  { p with captures := p.captures.drop 1, needIdr := false, sinceIdr := if prxIdr p then 1 else p.sinceIdr + 1
           cpb := full - bits, cpbFrame := some n, wptr := off + len, used := p.used ++ [(off, len, pos)]
           lastQp := some qp, refPic := ref }

/-- R215, R216: the picture is coded; its AU finds room and is written with its completion, or it is dropped. True where it was
written. -/
def prxDeliver (s : State) (x : Capture) (last : Bool) (status : Nat) : Bool × State :=
  let p := s.prx
  let (f, cut) := prxPicture s x
  let au := prxAu f
  let s1 := { s with free := s.free + 1 }
  let s0 := if cut then setStatus s1 Off.prxStatus 8 else s1
  let full := cpbFullness p x.frame
  let bits := 8 * au.length * cpbUnit p
  let off := prxPlace p au.length
  let cpl := prxCpl p x.frame off au.length (prxPoc p) (!prxIdr p) last status
  if p.rcMode = 1 ∧ full < bits then (false, s0.modPrx fun p => prxDropped p x.frame full f.qp)
  else if prxRoom p off au.length && (offerOrDrop s0 cpl).1 then
    (true, (offerOrDrop (hostWrite s0 (p.outAddr + off) au) cpl).2.modPrx fun p =>
      prxDelivered p x.frame full (if p.rcMode = 1 then bits else 0) off au.length (s.cq p.cq).tail f.qp s.free)
  else (false, setStatus (s0.modPrx fun p => prxDropped p x.frame full f.qp) Off.prxStatus 4)

/-- `PROXY_AU_DONE` (R213-R216); encoding is held while `THROTTLED` is set (R68). -/
def prxAuDone (s : State) : State :=
  match s.prx.captures with
  | [] => s
  | x :: _ => if s.prx.state = .stopped ∨ s.pwr.throttled then s else (prxDeliver s x false St.ok).2
def execProxyAuDone (s : State) : Out := .next (prxAuDone s)

/-- The proxy is STOPPED; its output keeps what the host has not consumed. -/
def prxStopped (s : State) : State :=
  let refs := s.prx.stopRefs
  refs.foldl (fun t r => completeWith t r St.ok) (s.modPrx fun p => { p with state := .stopped, stopRefs := [], captures := [], due := [] })

/-- The final completion without an AU (R217). -/
def prxEnd (s : State) : State :=
  let p := s.prx
  let r := offerOrDrop s (prxCpl p 0 0 0 0 false true p.endStatus)
  if r.1 then r.2 else setStatus r.2 Off.prxStatus 4

/-- R217: the picture in progress is delivered with `END`, or `END` stands alone; then the proxy stops. -/
def prxStopDone (s : State) : State :=
  if s.prx.state = .stopping then
    match s.prx.captures with
    | [] => prxStopped (prxEnd s)
    | n :: _ =>
      let r := prxDeliver s n true s.prx.endStatus
      prxStopped (if r.1 then r.2 else prxEnd r.2)
  else s

/-- `PROXY_STOP_DONE` (R217). -/
def execProxyStopDone (s : State) : Out := .next (prxStopDone s)

/-! ## `PRX_LUT` (R218) -/

/-- A write of `PRX_LUT_DATA`: the entry at the agent's `PRX_LUT_SEL`, which then moves on; ignored unless STOPPED, or while
PD37 is not ON (R7, R517). -/
def lutWrite (s : State) (a : Agent) (v : Word) : State :=
  if s.prx.state = .stopped ∧ s.domainOn 37 then
    let k := (s.sel a Off.prxLutSel).toNat % 4096
    (s.modPrx fun p => { p with lut := mset (lutReset k) p.lut k (v.setWidth 10) }).setSel a Off.prxLutSel (BitVec.ofNat 32 ((k + 1) % 4096))
  else s

/-- `PRX_LUT_DATA_WRITE` (R218). -/
def execPrxLutDataWrite (a : Agent) (v : Word) (s : State) : Out := .next (lutWrite s a v)

end Sys2Proof.Machine
end

