-- ==== Sys2Proof/Machine/Compose.lean ====
section
/-! DEFINITION. Composition starts and finished paddock rows (R8, R9, R12, R66, R107-R143, R147): the selection of sources, seam strips,
the dealing of paddocks, and the pixels of the corrected canvas. -/

namespace Sys2Proof.Machine

/-! ## What holds for a frame (R21, R151) -/

/-- The set of frame n of a contract. -/
def setOf (c : Contract) (n : Nat) : Option FrameSet := c.sets.find? fun f => f.frame == n

/-- The contract with the layout of frame n. -/
def frameContract (c : Contract) (n : Nat) : Contract := match setOf c n with
  | some f => { c with layers := f.layers, sources := f.sources, background := f.background }
  | none => c

/-- R106: a layer that is shown and whose clipped rectangle is not empty. -/
def layerShown (c : Contract) (l : Layer) : Bool :=
  l.en && layerCover l (256 * c.regX) (256 * c.regW) (256 * c.regY) (256 * c.regH) != 0

/-- Streams that the shown layers read, each once. -/
def shownStreams (c : Contract) : List Nat :=
  ((c.layers.filter (layerShown c)).map fun l => l.src).foldl (fun xs n => if xs.contains n then xs else xs ++ [n]) []

/-! ## Selecting sources (R110, R111) -/

/-- A buffer may be selected for paddock row `row`: complete, or sliced with every slice that the row needs. -/
def rawReady (c : Contract) (n row : Nat) (b : RawBuf) : Bool :=
  b.held && (b.complete || (b.sliced && (neededSlices c n row).all b.slices.contains))

/-- The newest frame that may be selected. -/
def rawPick (c : Contract) (n row : Nat) (x : Stream) : Option Nat :=
  ([0, 1, 2].filter fun b => rawReady c n row (rawBuf x b)).foldl (fun best b => match best with
    | none => some b
    | some a => if (rawBuf x a).seq < (rawBuf x b).seq then some b else some a) none

/-- Key of the frame's selection of a stream. -/
def selKey (n f : Nat) : Nat := 2 * n + f % 2

/-- The selection is the frame that was shown before. -/
def repeated (c : Contract) (n f : Nat) (pick : Option Nat) : Bool := pick.isSome && mget none c.selected (selKey n (f + 1)) == pick

/-- R11: the selection is a late input: no frame, or the one shown before although the source's own period has passed since it
came (entry 21 of the log). -/
def rawLate (c : Contract) (psrc n f : Nat) (pick : Option Nat) : Bool :=
  pick.isNone || (repeated c n f pick && frameDue (periodTicks c) psrc (mget 0 c.repeats n))

/-- Select the source frame of stream n for frame f of contract k. -/
def selectStream (k f : Nat) (s : State) (n : Nat) : State :=
  let x := s.stream n
  let c := frameContract (s.contract k) f
  if x.codec = .raw then
    let pick := rawPick c n 0 x
    let shows := if repeated c n f pick then mget 0 c.repeats n + 1 else 1
    let s1 := s.modContract k fun d => { d with
      selected := mset none d.selected (selKey n f) pick, repeats := mset 0 d.repeats n shows }
    if rawLate c (sourceOf c n).psrc n f pick then lateInput s1 k n else s1
  else
    let s1 := s.modContract k fun d => { d with selPics := mset none d.selPics (selKey n f) x.shown }
    match x.shown with
    | none => lateInput s1 k n
    | some p => if hdrRisk (canvasNits s) p then setStatus s1 Off.compStatus 8 else s1

/-- The frame that a layer reads in frame f of contract c; none where it is left out (R11, R110). -/
def layerSrc (s : State) (c : Contract) (f : Nat) (l : Layer) : Option Src :=
  let x := s.stream l.src
  if x.codec = .raw then (mget none c.selected (selKey l.src f)).map fun b => .raw x (bufAddr x b)
  else (mget none c.selPics (selKey l.src f)).map .pic

/-- R120: one of the layer's colour fields is replaced by its default. -/
def layerDefaulted (s : State) (c : Contract) (f : Nat) (l : Layer) : Bool := match layerSrc s c f l with
  | some src => (colourOf s l src).defaulted
  | none => false

/-- R120: report the defaults of a frame, once a layer. -/
def reportDefaults (s : State) (c : Contract) (f : Nat) : State :=
  let n := (c.layers.filter (layerShown c)).countP (layerDefaulted s c f)
  if n = 0 then s else setStatus (tallyAdd s 965 n) Off.compStatus 4

/-- Some sequence number of a traced item's stage is there to be consumed. -/
def traceReady (t : Traced) : Bool := if t.kind = 1 then t.decDone.isSome else t.ingest.isSome

/-- The item belongs to the selected frame. -/
def traceTaken (key : Option Nat) (t : Traced) : Bool := t.frame.isNone && traceReady t && t.key == key && key.isSome

/-- The item will never be consumed once the selected frame has been: a raw one submitted before it, a picture before it in
output order (R492). -/
def tracePassed (before_ : Bool) (cvs : Nat) (order : Int) (t : Traced) : Bool :=
  t.frame.isNone && traceReady t && (if t.kind = 1 then before t.cvs t.order cvs order else before_)

/-- R491, R492: the items of a stream that frame f consumes, and the records of those that no frame will consume. -/
def traceConsume (s : State) (k f n : Nat) : State :=
  let x := s.stream n
  let c := s.contract k
  let pic := mget none c.selPics (selKey n f)
  let key := if x.codec = .raw then (mget none c.selected (selKey n f)).map fun b => (rawBuf x b).tag else pic.map fun p => p.content
  let mine := fun (t : Traced) => t.stream == n && t.contract == k
  match s.tly.items.findIdx? fun t => mine t && traceTaken key t with
  | none => s
  | some i =>
    let items := s.tly.items.zipIdx
    let gone := fun (p : Traced × Nat) => mine p.1 && !traceTaken key p.1
      && tracePassed (decide (p.2 < i)) ((pic.map fun p => p.cvs).getD 0) ((pic.map fun p => p.order).getD 0) p.1
    let s1 := (items.filter gone).foldl (fun t p => traceWrite { t with free := t.free + 1 } p.1 none (Config.freeNat t.free) true false) s
    let mark := fun (p : Traced × Nat) => if (mine p.1 && traceTaken key p.1) = true then { p.1 with frame := some f, compose := some s.wallNow } else p.1
    s1.modTly fun y => { y with items := (items.filter fun p => !gone p).map mark }

/-- The sources of frame f are selected (R110, R111): the composition start of row 0. -/
def selectFrame (s : State) (k f : Nat) : State :=
  let ns := shownStreams (frameContract (s.contract k) f)
  let s1 := ns.foldl (selectStream k f) (s.modContract k fun d =>
    { d with selFrame := some f, lateMarked := [], deal := activeSlices s, strips := d.strips.filter fun p => decide (f ≤ p.1 + 1) })
  let s2 := reportDefaults s1 (frameContract (s1.contract k) f) f
  ns.foldl (fun t n => traceConsume t k f n)
    { s2 with comp := { s2.comp with seams := s2.comp.seams.filter fun x => !(x.contract == k) || decide (f ≤ x.frame + 1) } }

/-- R111: a later row takes the slices it needs from the selected frame, or the rest of the frame uses the newest complete
frame of the stream. -/
def laterRow (k f row : Nat) (s : State) (n : Nat) : State :=
  let x := s.stream n
  let c := s.contract k
  match mget none c.selected (selKey n f) with
  | none => s
  | some b =>
    if x.codec ≠ .raw ∨ c.lateMarked.contains n ∨ rawReady (frameContract c f) n row (rawBuf x b) then s
    else lateInput (s.modContract k fun d =>
      { d with selected := mset none d.selected (selKey n f) x.newest, lateMarked := d.lateMarked ++ [n] }) k n

/-! ## Seam strips (R127, R128) -/

/-- `FRAME_TAG` of the frame that a layer reads. -/
def layerTag (s : State) (c : Contract) (f : Nat) (l : Layer) : Option Nat :=
  let x := s.stream l.src
  if x.codec = .raw then (mget none c.selected (selKey l.src f)).map fun b => (rawBuf x b).tag else none

/-- R128: every row of the strip has arrived with the frame's number and tag. -/
def stripWhole (s : State) (k : Nat) (c : Contract) (f row layer port : Nat) (l : Layer) : Bool :=
  match rowSpan c l row, layerTag s c f l with
  | some r, some tag => (List.range (r.2 - r.1 + 1)).all fun i =>
      s.comp.seams.any fun x => x.contract == k && x.frame == f && x.row == row && x.layer == layer && x.port == port
        && x.tag == tag && decide (x.firstRow ≤ r.1 + i) && decide (r.1 + i < x.firstRow + x.rows)
  | _, _ => false

/-- One side of a layer that receives a strip. -/
def seamSide (k f row : Nat) (s : State) (p : Nat × Nat × Layer) : State :=
  let c := frameContract (s.contract k) f
  if stripWhole s k c f row p.2.1 p.1 p.2.2 then
    s.modContract k fun d => { d with strips := d.strips ++ [(f, row, p.2.1, p.1)] }
  else setStatus (tallyAdd s 964 1) Off.compStatus 16

/-- Sides of shown layers that receive a strip for a row: port, layer number, layer. -/
def seamSides (s : State) (c : Contract) (f row : Nat) : List (Nat × Nat × Layer) :=
  c.layers.zipIdx.flatMap fun p =>
    if layerShown c p.1 && (layerSrc s c f p.1).isSome && (rowSpan c p.1 row).isSome then
      ([0, 1].filter fun e => p.1.seam / 2 ^ (2 + e) % 2 == 1).map fun e => (e, p.2, p.1)
    else []

/-- R127: the bytes of one seam frame: rows v, v + 1, … of the 16 columns nearest the border. -/
def seamBytes (s : State) (k : Nat) (f row layer port v n tag : Nat) (l : Layer) (src : Src) : List Byte :=
  let col := fun (d : Nat) => if stripRight (1 - port) then d else rotW l - 1 - d
  let px := (List.range n).flatMap fun r => (List.range 16).flatMap fun d => (rotatedPx s l src (col d) (v + r)).flatMap (leBytes 2)
  withCrc (leBytes 1 0x10 ++ leBytes 1 1 ++ leBytes 1 (moduleNo s) ++ leBytes 1 layer ++ leBytes 4 (s.reg Off.foldId).toNat
    ++ leBytes 1 k ++ leBytes 1 row ++ leBytes 2 v ++ leBytes 2 n ++ leBytes 4 tag ++ leBytes 8 f ++ zeros 2 ++ px)

/-- The raw frame that the sender would select now (R127): the one selected for the frame, else the newest that may be. -/
def senderBuf (s : State) (c : Contract) (f row : Nat) (l : Layer) : Option Nat :=
  let x := s.stream l.src
  if x.codec ≠ .raw then none
  else if row = 0 ∨ c.selFrame ≠ some f then rawPick c l.src 0 x
  else match mget none c.selected (selKey l.src f) with
    | some b => if rawReady c l.src row (rawBuf x b) then some b else x.newest
    | none => none

/-- The seam frames of one layer for a row, 64 rows a frame. -/
def sendStrip (k f row port : Nat) (s : State) (p : Layer × Nat) : State :=
  let c := frameContract (s.contract k) f
  match senderBuf s c f row p.1, rowSpan c p.1 row with
  | some b, some r =>
    let x := s.stream p.1.src
    let n := r.2 - r.1 + 1
    (List.range (ceilDiv n 64)).foldl (fun t i =>
      peerSend t port (seamBytes s k f row p.2 port (r.1 + 64 * i) (min 64 (n - 64 * i)) (rawBuf x b).tag p.1 (.raw x (bufAddr x b)))) s
  | _, _ => s

/-- `SEAM_STRIP_SEND` (launch action 0x7; R127). -/
def execSeamStripSend (k : Fin 8192) (s : State) : Out :=
  runLaunch k 0x7 s fun l s =>
    let c := frameContract (s.contract l.contract) l.next
    (c.layers.zipIdx.filter fun p => p.1.en && p.1.seam / 2 ^ l.unit % 2 == 1).foldl (sendStrip l.contract l.next l.arg l.unit) s

/-- A seam frame's fields as stored. -/
def parseSeam (e : Nat) (bs : List Byte) : Seam :=
  { port := e, layer := u8 bs 3, contract := u8 bs 8, row := u8 bs 9, firstRow := leAt bs 10 2, rows := leAt bs 12 2,
    tag := leAt bs 14 4, frame := leAt bs 18 8, samples := slice bs 28 (128 * leAt bs 12 2) }

/-- The same part of the same strip. -/
def sameStrip (a b : Seam) : Bool :=
  a.port == b.port && a.layer == b.layer && a.contract == b.contract && a.row == b.row && a.firstRow == b.firstRow && a.frame == b.frame

/-- `SEAM_FRAME_RECEIVE`: stored, or discarded with its tally (R127, Table 5-6). -/
def seamReceive (s : State) (e : Nat) (bs : List Byte) : State :=
  if !foldEn s || !(s.peer e).linkUp then s
  else if !foldFrameOk s (32 + 128 * leAt bs 12 2) bs then foldDiscard s e 995
  else if u8 bs 0 ≠ 0x10 ∨ leAt bs 12 2 = 0 ∨ 64 < leAt bs 12 2 then tallyAdd s 995 1
  else
    let x := parseSeam e bs
    { s with comp := { s.comp with seams := (s.comp.seams.filter fun y => !sameStrip x y) ++ [x] } }
def execSeamFrameReceive (e : Fin 2) (bytes : List Byte) (s : State) : Out := .next (seamReceive s e.val bytes)

/-! ## The composition start (R12, R132) -/

/-- R12: what a composition start needs: its slice and the correction unit, and at row 0 the picture-complete flags of the
coded sources that the contract decodes itself (Table 1-3); of another's streams it takes the newest picture (R85). -/
def compReady (s : State) (l : LSlot) : Bool :=
  let c := s.contract l.contract
  s.domainOn (32 + l.unit) && s.domainOn 36 &&
    (if c.selFrame = some l.next then true
     else l.arg == 0 && (shownStreams (frameContract c l.next)).all fun n =>
       !(c.windows.any fun w => w.stream == n) || (s.stream n).pictureDone)

/-- The row has been started by an earlier slot. -/
def rowStarted (c : Contract) (f row : Nat) : Bool :=
  c.rowsWritten.contains (f, row) || c.rowsComposing.any fun j => j.frame == f && j.row == row

/-- R132: the slice of each paddock of a row. -/
def rowDeal (c : Contract) (row : Nat) : List Nat := (dealCosts (rowCosts c c.layers row) (c.deal.map fun i => (i, 0))).1

/-- A slice takes its paddocks into its queue. -/
def queuePads (deal : List Nat) (s : State) (i : Nat) : State :=
  let n := deal.count i
  if n = 0 then s else s.modSlice i fun x => { x with queued := x.queued + n, act := 1 }

/-- R134: columns that no active slice composes. -/
def orphanPads (s : State) (c : Contract) (deal : List Nat) : List Nat :=
  (List.range c.regW).filter fun i => match deal[i]? with
    | some k => (s.slice k).role != .active
    | none => true

/-- A row starts: later rows check their slices, strips are settled, and the paddocks are dealt. -/
def startRow (s : State) (k f row : Nat) : State :=
  let c0 := frameContract (s.contract k) f
  let s1 := if row = 0 then s else (shownStreams c0).foldl (laterRow k f row) s
  let c1 := frameContract (s1.contract k) f
  let s2 := (seamSides s1 c1 f row).foldl (seamSide k f row) s1
  let deal := rowDeal c1 row
  let s3 := s2.modContract k fun d => { d with
    rowsComposing := d.rowsComposing ++ [⟨f, row, deal⟩]
    heldPads := d.heldPads ++ (orphanPads s2 d deal).map fun i => (f, row, i) }
  (activeSlices s3).foldl (queuePads deal) (prxAbandon s3 k f)

/-- The body of a composition start. -/
def compBody (s : State) (l : LSlot) : State :=
  let s1 := if (s.contract l.contract).selFrame = some l.next then s else selectFrame s l.contract l.next
  if rowStarted (s1.contract l.contract) l.next l.arg then s1 else startRow s1 l.contract l.next l.arg

/-- R12: a step whose flag is absent waits; the overrun is raised and counted. DESIGN CHOICE: every launch slot that waits does so by
itself, so the slots of one row each count (entry 125 of the log). -/
def overrun (s : State) (k : Nat) (l : LSlot) (fault tally : Nat) : State :=
  let s1 := raiseFault (tallyAdd s tally 1) fault
  { s1 with comp := { s1.comp with waits := s1.comp.waits ++ [(k, l)] } }

/-- Fault source `C0_OVERRUN` of the pixel path (Table 18-2). -/
def pixOverrun : Nat := 36

/-- `COMPOSITION_START` (launch action 0x4). -/
def execCompositionStart (k : Fin 8192) (s : State) : Out :=
  runLaunch k 0x4 s fun l s => if compReady s l then compBody s l else overrun s k.val l pixOverrun 960

/-! ## The pixels (R130, R131, R137) -/

/-- R130: a layer covers a canvas pixel. -/
def covers (l : Layer) (px py : Nat) : Bool :=
  decide (l.dstX ≤ px) && decide ((px : Int) < l.dstX + l.dstW) && decide (l.dstY ≤ py) && decide ((py : Int) < l.dstY + l.dstH)

/-- A layer as one row of a frame samples it; none where it is not shown or its source has no frame. -/
def lookOf (s : State) (k : Nat) (c : Contract) (f row : Nat) (p : Layer × Nat) : Option Look :=
  if layerShown c p.1 then (layerSrc s c f p.1).map fun src => ⟨k, c, f, row, p.2, p.1, src⟩ else none

/-- R130: linear R, G, B of a canvas pixel. -/
def composedPx (s : State) (background : List Nat) (looks : List Look) (px py : Nat) : List Nat :=
  looks.foldl (fun d k => if covers k.l px py then (let v := layerPx s k px py; blendPixel k.l v.1 v.2 d) else d)
    ((List.range 3).map fun i => background.getD i 0)

/-- The record, gains and curve of an endpoint in a frame. -/
def lampRec (f : FrameSet) (e : Endpoint) : CorrRec := (mget none f.corr e.slot).getD {}
def unityGains : List Nat := [32768, 32768, 32768]
def lampGains (f : FrameSet) (e : Endpoint) : List Nat :=
  if (lampRec f e).drift = 255 then unityGains else mget unityGains f.gains e.slot
def lampCurve (f : FrameSet) (e : Endpoint) : Option (List Nat) :=
  if (lampRec f e).curve = 255 then none else mget none f.curves (lampRec f e).curve

/-- Tuft number of a lamp within its tile: stripe × columns + column. -/
def tuftOf (e : Endpoint) (lx ly : Nat) : Nat := ly / 4 * (e.tileW / 8) + lx / 8

/-- R137-R143: the drive codes of a canvas pixel, and its clipped channels. Outside every tile it is 0 (R138). -/
def correctedPx (f : FrameSet) (c : Contract) (poisoned : List (Nat × Nat)) (px py : Nat) (rgb : List Nat) : List Nat × Nat :=
  match lampEndpoint c px py with
  | none => ([0, 0, 0], 0)
  | some e =>
    let lx := px - e.tileX
    let ly := py - e.tileY
    let r := lampRec f e
    let bad := poisoned.contains (e.slot, tuftOf e lx ly)
    correctLamp (lampMatrix r (ly * e.tileW + lx) bad) (lampGains f e) (lampCurve f e) (fld f.corrCfg 1 0) e.depth f.frame lx ly rgb

/-- The corrected pixels of a paddock, in raster order. -/
def padPixels (s : State) (k : Nat) (c : Contract) (f : FrameSet) (row col : Nat) (poisoned : List (Nat × Nat)) : List (List Nat × Nat) :=
  let looks := c.layers.zipIdx.filterMap (lookOf s k c f.frame row)
  (List.range 65536).map fun i =>
    let px := 256 * (c.regX + col) + i % 256
    let py := 256 * (c.regY + row) + i / 256
    correctedPx f c poisoned px py (composedPx s c.background looks px py)

/-- R134: a paddock of a retired slice takes the other buffer's bytes; every other paddock its corrected pixels. -/
def writePad (k : Nat) (c : Contract) (f : FrameSet) (row : Nat) (poisoned : List (Nat × Nat)) (s : State) (col : Nat) : State :=
  let a := padAddr s f.frame (c.regX + col) (c.regY + row)
  if c.heldPads.contains (f.frame, row, col) then
    memWrite s a (memRead s (padAddr s (f.frame + 1) (c.regX + col) (c.regY + row)) 393216)
  else
    let ps := padPixels s k c f row col poisoned
    let clips := (ps.map fun p => p.2).foldl (· + ·) 0
    let s1 := memWrite s a (ps.flatMap fun p => p.1.flatMap (leBytes 2))
    if clips = 0 then s1 else setStatus (tallyAdd s1 966 clips) Off.corrStatus 8

/-- R147: poisoned coefficient reads of the row: tufts of endpoints that have planes. -/
def coefPoison (f : FrameSet) (c : Contract) (poisoned : List (Nat × Nat)) : Nat :=
  poisoned.countP fun p => c.endpoints.any fun e => e.slot == p.1 && !(lampRec f e).uniform

/-- A slice has finished its paddocks of a row. -/
def unqueuePads (deal : List Nat) (s : State) (i : Nat) : State :=
  let n := deal.count i
  if n = 0 then s else s.modSlice i fun x => { x with queued := x.queued - n, act := if x.queued - n = 0 then 0 else x.act }

/-- The set of a frame is given up once its rows are written and its guard point has passed (R151, Table 9-12). -/
def setDone (c : Contract) (ports : List Nat) (n : Nat) : Bool :=
  (ports.all fun p => c.guarded.contains (n, p)) && !(c.rowsComposing.any fun j => j.frame == n)

/-- Map images that only the given sets hold: their addresses. -/
def orphanMaps (c : Contract) (gone : List FrameSet) : List Nat :=
  let kept := (c.maps ++ (c.sets.filter fun f => !gone.contains f).flatMap fun f => f.maps).filterMap fun p => p.2.map fun m => m.base
  ((gone.flatMap fun f => f.maps).filterMap fun p => p.2.map fun m => m.base).filter fun a => !kept.contains a

/-- Give up the sets of frames that are done, and the map images that they alone hold. -/
def dropSets (s : State) (k : Nat) : State :=
  let c := s.contract k
  let gone := c.sets.filter fun f => setDone c (contractPorts s c) f.frame
  (orphanMaps c gone).foldl unplace (s.modContract k fun d => { d with sets := d.sets.filter fun f => !gone.contains f })

/-- The frame's set as the correction reads it; a frame without one has the contract's own layout. -/
def frameSet (c : Contract) (n : Nat) : FrameSet :=
  (setOf c n).getD { frame := n, layers := c.layers, sources := c.sources, background := c.background }

/-- A paddock row is written (Table 1-3): its pixels, its flag, the slices' queues and the proxy's capture. -/
def rowWritten (s : State) (k : Nat) (j : RowJob) (poisoned : List (Nat × Nat)) : State :=
  let c := frameContract (s.contract k) j.frame
  let f := frameSet (s.contract k) j.frame
  let s1 := (List.range c.regW).foldl (writePad k c f j.row poisoned) s
  let np := coefPoison f c poisoned
  let s2 := if np = 0 then s1 else setStatus (tallyAdd s1 967 np) Off.corrStatus 1
  let s3 := s2.modContract k fun d => { d with
    rowsComposing := d.rowsComposing.erase j, rowsWritten := d.rowsWritten ++ [(j.frame, j.row)]
    heldPads := d.heldPads.filter fun p => !(p.1 == j.frame && p.2.1 == j.row) }
  dropSets (prxRowWritten ((activeSlices s3).foldl (unqueuePads j.deal) s3) k j.frame j.row) k

/-- A slot of the row still waits (R12). -/
def rowWaits (s : State) (k f row : Nat) : Bool :=
  s.comp.waits.any fun p => p.2.action == 4 && p.2.contract == k && p.2.next == f && p.2.arg == row

/-- `PADDOCK_ROW_WRITTEN`: the oldest composing row of that number is finished. While the correction unit restarts none is (R152). -/
def execPaddockRowWritten (c : Fin 64) (row : Fin 32) (poisoned : List (Nat × Nat)) (s : State) : Out :=
  match (s.contract c.val).rowsComposing.find? fun j => j.row == row.val with
  | some j => if rowWaits s c.val j.frame j.row || !s.serving || !s.domainOn 36 then .next s else .next (rowWritten s c.val j poisoned)
  | none => .next s

end Sys2Proof.Machine
end

