-- ==== Sys2Proof/Machine/Sward.lean ====
section
/-! DEFINITION. The Sward bitstream (chapter 7): the colour transform, the stripe header, the decoding process and the
code words that an encoder writes. A stripe is 4 rows; a tuft column holds a tuft of 32 samples per component. -/

namespace Sys2Proof.Machine

/-! ## Samples and the colour transform (R157, R158) -/

/-- Three samples. -/
abbrev Px := Int × Int × Int

/-- Component c of a pixel. -/
def Px.at_ (p : Px) (c : Nat) : Int := if c = 0 then p.1 else if c = 1 then p.2.1 else p.2.2

/-- R158: R, G, B to Y, Co, Cg. -/
def ycocg (p : Px) : Px :=
  let co := p.1 - p.2.2
  let t := p.2.2 + co / 2
  let cg := p.2.1 - t
  (t + cg / 2, co, cg)

/-- R158: Y, Co, Cg to R, G, B. -/
def unYcocg (p : Px) : Px :=
  let t := p.1 - p.2.2 / 2
  let g := p.2.2 + t
  let b := t - p.2.1 / 2
  (b + p.2.1, g, b)

/-- Coded components of a pixel (Table 7-2). -/
def toCoded (xform : Bool) (p : Px) : Px := if xform then ycocg p else p

/-- R159: the drive codes of coded samples, clipped to b bits. -/
def toDrive (xform : Bool) (b : Nat) (p : Px) : Px :=
  let q := if xform then unYcocg p else p
  let hi : Int := 2 ^ b - 1
  (clip 0 hi q.1, clip 0 hi q.2.1, clip 0 hi q.2.2)

/-- LO, HI and MID of component c (Table 7-2). -/
def compLo (xform : Bool) (b c : Nat) : Int := if xform && c != 0 then -(2 ^ b - 1) else 0
def compHi (b : Nat) : Int := 2 ^ b - 1
def compMid (xform : Bool) (b c : Nat) : Int := if xform && c != 0 then 0 else 2 ^ (b - 1)

/-- Bits of a RAW sample of component c (R172). -/
def rawWidth (xform : Bool) (b c : Nat) : Nat := if xform && c != 0 then b + 1 else b

/-- QTAB (Table 7-6). -/
def qtab (i : Nat) : Nat :=
  ([0, 1, 2, 3, 4, 5, 6, 7, 8, 10, 12, 14, 16, 20, 24, 28, 32, 40, 48, 56, 64, 80, 96, 112,
    128, 160, 192, 224, 256, 320, 384, 448] : List Nat).getD i 0

/-- QD: change of qi of a q-delta code (Table 7-5). -/
def qd (c : Nat) : Int := if c = 0 then 1 else if c = 1 then 2 else if c = 2 then -1 else -2

/-- A quantiser index after a change, clamped (R164). -/
def qiStep (qi : Nat) (d : Int) (qiMax : Nat) : Nat := (clip 0 qiMax (qi + d)).toNat

/-- R167: the reconstruction of a residual. -/
def recon (p eps : Int) (q : Nat) (lo hi : Int) : Int := clip lo hi (p + eps * (2 * q + 1))

/-- R167: the residual of a source sample. -/
def quant (x p : Int) (q : Nat) : Int :=
  let e := x - p
  if 0 ≤ e then (e + q) / (2 * q + 1) else -((q - e) / (2 * q + 1))

/-- R169: MED of left, above and above-left. -/
def medPred (a b c : Int) : Int :=
  if max a b ≤ c then min a b else if c ≤ min a b then max a b else a + b - c

/-! ## Contexts (R163, R173) -/

/-- A residual context. -/
structure Ctx where
  a : Nat
  n : Nat
  deriving DecidableEq, Repr

/-- A0 of R163. -/
def ctxStart (b qi : Nat) : Nat := max 2 ((2 ^ b / (2 * qtab qi + 1) + 32) / 64)

/-- The six contexts at the start of a stripe: index 2 × component + s. -/
def ctxInit (b qi : Nat) : List Ctx := List.replicate 6 ⟨ctxStart b qi, 1⟩

/-- The parameter k: the least with N << k ≥ A (R173). The first number bounds the search. -/
def ctxK : Nat → Nat → Nat → Nat
  | 0, _, _ => 0
  | f + 1, n, a => if n < a then 1 + ctxK f (2 * n) a else 0

/-- The parameter of a context. -/
def Ctx.k (x : Ctx) : Nat := ctxK 64 x.n x.a

/-- R173: a context after residual ε. -/
def Ctx.update (x : Ctx) (eps : Int) : Ctx :=
  let a := x.a + eps.natAbs
  if x.n + 1 = 64 then ⟨a / 2, 32⟩ else ⟨a, x.n + 1⟩

/-! ## Reading bits (R163) -/

/-- Bits of bytes, most significant first. -/
def toBits (bs : List Byte) : List Bool := bs.flatMap fun b => [bit b 7, bit b 6, bit b 5, bit b 4, bit b 3, bit b 2, bit b 1, bit b 0]

/-- n bits as an unsigned number, and the rest; none where the data ends. -/
def readBits : Nat → Nat → List Bool → Option (Nat × List Bool)
  | 0, acc, bs => some (acc, bs)
  | _ + 1, _, [] => none
  | n + 1, acc, b :: bs => readBits n (2 * acc + b2n b) bs

/-- Zero bits before a 1, at most lim; the 1 is read. -/
def readZeros : Nat → List Bool → Option (Nat × List Bool)
  | _, [] => none
  | _, true :: bs => some (0, bs)
  | 0, false :: _ => none
  | n + 1, false :: bs => (readZeros n bs).map fun r => (r.1 + 1, r.2)

/-- R173: the residual of M. -/
def unfoldM (m : Nat) : Int := if m % 2 = 0 then (m / 2 : Nat) else -((m + 1) / 2 : Nat)

/-- R173: read a residual in a context. -/
def readResidual (b : Nat) (x : Ctx) (bs : List Bool) : Option (Int × List Bool) :=
  match readZeros 23 bs with
  | none => none
  | some (u, r) =>
    if u < 23 then (readBits x.k 0 r).map fun p => (unfoldM (u * 2 ^ x.k + p.1), p.2)
    else (readBits (b + 2) 0 r).map fun p => (unfoldM p.1, p.2)

/-- R175: a signed Exp-Golomb code. -/
def readSe (bs : List Bool) : Option (Int × List Bool) :=
  match readZeros 8 bs with
  | none => none
  | some (z, r) => (readBits z 0 r).map fun p =>
      let v := 2 ^ z - 1 + p.1
      ((if v % 2 = 1 then ((v + 1) / 2 : Nat) else -((v / 2 : Nat) : Int)), p.2)

/-- R175: a vector that wraps into the range. -/
def wrapMv (pmv : Int × Int) (ddx ddy : Int) : Int × Int :=
  ((pmv.1 + ddx + 64) % 128 - 64, (pmv.2 + ddy + 32) % 64 - 32)

/-- R175: read a vector as a difference from pmv. -/
def readMv (pmv : Int × Int) (bs : List Bool) : Option ((Int × Int) × List Bool) :=
  match readSe bs with
  | none => none
  | some (ddx, r1) =>
    match readSe r1 with
    | none => none
    | some (ddy, r2) => if ddx.natAbs ≤ 64 ∧ ddy.natAbs ≤ 32 then some (wrapMv pmv ddx ddy, r2) else none

/-! ## The stripe header (R160-R162) -/

/-- A stripe header (Table 7-3), and what it is checked against. -/
structure StripeHdr where
  mode : Nat
  intra : Bool
  xform : Bool
  depth : Nat
  qi : Nat
  qiMax : Nat
  rfp : Nat
  idx : Nat
  tufts : Nat
  frame : Nat
  body : Nat
  image : Nat
  deriving DecidableEq, Repr

/-- b of a `DEPTH` code and back (Table 7-1). -/
def depthBits (d : Nat) : Nat := 10 + 2 * d
def depthCode (b : Nat) : Nat := (b - 10) / 2

/-- Header bytes 0-13, without `SCRC`. -/
def hdrBytes (h : StripeHdr) : List Byte :=
  [BitVec.ofNat 8 (16 + 4 * h.mode + 2 * b2n h.intra + b2n h.xform), BitVec.ofNat 8 (64 * h.depth + 2 * h.qi),
   BitVec.ofNat 8 (8 * h.qiMax), BitVec.ofNat 8 h.rfp] ++ beBytes 2 h.idx ++ beBytes 2 h.tufts ++ beBytes 2 h.frame
    ++ beBytes 3 h.body ++ beBytes 1 h.image

/-- The bytes of a stripe: header, `SCRC`, body (R161). -/
def stripeBytes (h : StripeHdr) (body : List Byte) : List Byte :=
  hdrBytes h ++ beBytes 2 (crc16 (hdrBytes h ++ body)).toNat ++ body

/-- Fields of a header as read. -/
def parseHdr (bs : List Byte) : StripeHdr :=
  { mode := u8 bs 0 / 4 % 4, intra := u8 bs 0 / 2 % 2 == 1, xform := u8 bs 0 % 2 == 1, depth := u8 bs 1 / 64,
    qi := u8 bs 1 / 2 % 32, qiMax := u8 bs 2 / 8, rfp := u8 bs 3, idx := beAt bs 4 2, tufts := beAt bs 6 2,
    frame := beAt bs 8 2, body := beAt bs 10 3, image := u8 bs 13 }

/-- R160-R162: reserved values, `QI` ≤ `QI_MAX`, the checksum, and the rules of the mode. -/
def hdrGood (bs : List Byte) (h : StripeHdr) : Bool :=
  decide (u8 bs 0 / 16 = 1) && decide (h.mode < 2) && decide (u8 bs 1 % 2 = 0) && decide (u8 bs 2 % 8 = 0)
    && decide (1 ≤ h.body) && decide (h.qi ≤ h.qiMax) && !(h.mode == 1 && h.xform)
    && decide (beAt bs 14 2 = (crc16 (bs.take 14 ++ slice bs 16 h.body)).toNat) && decide (16 + h.body ≤ bs.length)
    && (if h.mode = 1 then h.depth == 3 && h.intra && h.qi == 0 && h.qiMax == 0 && h.rfp == 0 && h.frame == 0 && decide (h.image < 3)
        else h.image == 0)

/-! ## Decoding a stripe (R163-R172) -/

/-- What a tuft decoder needs of the stripe. -/
structure SCtx where
  b : Nat
  xform : Bool
  intra : Bool
  qiMax : Nat
  /-- R170: coded component of REF: component, x, y -/
  ref : Nat → Int → Int → Int
  /-- first row of the stripe -/
  y0 : Nat

/-- The state of decoding: bits left, contexts, qi, pmv, last column of each component, columns done (latest first). -/
structure SDec where
  bits : List Bool
  ctx : List Ctx
  qi : Nat
  pmv : Int × Int
  last : List (List Int)
  out : List (List (List Int))

/-- Context s of component c. -/
def ctxAt (xs : List Ctx) (c s : Nat) : Ctx := xs.getD (2 * c + s) ⟨2, 1⟩

/-- R169: prediction of sample j of a tuft from those before it and the last column of the tuft to the left. -/
def medAt (first : Bool) (mid : Int) (last : List Int) (acc : List Int) (j : Nat) : Int :=
  let i := j % 8
  let r := j / 8
  let left := fun (r : Nat) => if i = 0 then last.getD r 0 else acc.getD (8 * r + i - 1) 0
  let up := acc.getD (j - 8) 0
  if first && i == 0 then (if r = 0 then mid else up)
  else if r = 0 then left 0
  else medPred (left r) up (left (r - 1))

/-- Residual samples of a tuft: the prediction of each sample is given by the samples before it. -/
def readSamples (b q : Nat) (lo hi : Int) (pred : List Int → Nat → Int) : Nat → List Int → Ctx → List Bool →
    Option (List Int × Ctx × List Bool)
  | 0, acc, x, bs => some (acc, x, bs)
  | n + 1, acc, x, bs =>
    match readResidual b x bs with
    | none => none
    | some (e, r) => readSamples b q lo hi pred n (acc ++ [recon (pred acc acc.length) e q lo hi]) (x.update e) r

/-- RAW samples (R172). -/
def readRaw (w : Nat) (signed : Bool) : Nat → List Bool → Option (List Int × List Bool)
  | 0, bs => some ([], bs)
  | n + 1, bs =>
    match readBits w 0 bs with
    | none => none
    | some (v, r) =>
      if signed && v == 2 ^ (w - 1) then none
      else (readRaw w signed n r).map fun p => ((if signed then sext w v else (v : Int)) :: p.1, p.2)

/-- Column 7 of a tuft. -/
def lastCol (ts : List Int) : List Int := [ts.getD 7 0, ts.getD 15 0, ts.getD 23 0, ts.getD 31 0]

/-- SKIP prediction of the 32 samples (Table 7-4, R170). -/
def skipPred (s : SCtx) (t c : Nat) (last : List Int) : List Int :=
  (List.range 32).map fun j =>
    if s.intra then (if t = 0 then compMid s.xform s.b c else last.getD (j / 8) 0)
    else s.ref c (8 * t + j % 8 : Nat) (s.y0 + j / 8 : Nat)

/-- MOVE prediction of sample j. -/
def movePred (s : SCtx) (t c : Nat) (v : Int × Int) (j : Nat) : Int :=
  s.ref c ((8 * t + j % 8 : Nat) + v.1) ((s.y0 + j / 8 : Nat) + v.2)

/-- Read a mode: 0 SKIP, 1 MED, 2 MOVE, 3 FLAT, 4 RAW (R163). -/
def readMode (bs : List Bool) : Option (Nat × List Bool) :=
  match readBits 2 0 bs with
  | none => none
  | some (m, r) => if m = 3 then (readBits 1 0 r).map fun p => (3 + p.1, p.2) else some (m, r)

/-- Read the q-delta of a tuft of component 0 (R164). -/
def readQd (s : SCtx) (c m : Nat) (d : SDec) : Option SDec :=
  if c = 0 ∧ (m = 1 ∨ m = 2) ∧ 0 < s.qiMax then
    match readBits 1 0 d.bits with
    | none => none
    | some (0, r) => some { d with bits := r }
    | some (_, r) => (readBits 2 0 r).map fun p => { d with bits := p.2, qi := qiStep d.qi (qd p.1) s.qiMax }
  else some d

/-- Decode a tuft's samples in mode m. -/
def decodeTuft (s : SCtx) (t c m : Nat) (d : SDec) : Option (List Int × Nat × Ctx × List Bool) :=
  let lo := compLo s.xform s.b c
  let hi := compHi s.b
  let q := qtab d.qi
  let last := d.last.getD c []
  let mid := compMid s.xform s.b c
  if m = 0 then some (skipPred s t c last, 0, ctxAt d.ctx c 0, d.bits)
  else if m = 1 then
    (readSamples s.b q lo hi (medAt (t == 0) mid last) 32 [] (ctxAt d.ctx c 0) d.bits).map fun r => (r.1, 0, r.2.1, r.2.2)
  else if m = 2 then
    (readSamples s.b q lo hi (fun _ j => movePred s t c d.pmv j) 32 [] (ctxAt d.ctx c 1) d.bits).map fun r => (r.1, 1, r.2.1, r.2.2)
  else if m = 3 then
    (readResidual s.b (ctxAt d.ctx c 0) d.bits).map fun r =>
      (List.replicate 32 (recon (if t = 0 then mid else last.getD 0 0) r.1 q lo hi), 0, (ctxAt d.ctx c 0).update r.1, r.2)
  else (readRaw (rawWidth s.xform s.b c) (s.xform && c != 0) 32 d.bits).map fun r => (r.1, 0, ctxAt d.ctx c 0, r.2)

/-- Decode the tufts of components c to 2 of column t; `have` tells that the column's vector was read. -/
def decodeComps (s : SCtx) (t : Nat) : List Nat → Bool → List (List Int) → SDec → Option (List (List Int) × SDec)
  | [], _, acc, d => some (acc, d)
  | c :: cs, have_, acc, d =>
    match readMode d.bits with
    | none => none
    | some (m, r) =>
      match readQd s c m { d with bits := r } with
      | none => none
      | some d1 =>
        if m = 2 ∧ s.intra then none
        else
          match (if m = 2 ∧ !have_ then readMv d1.pmv d1.bits else some (d1.pmv, d1.bits)) with
          | none => none
          | some (pmv, r2) =>
            match decodeTuft s t c m { d1 with pmv := pmv, bits := r2 } with
            | none => none
            | some (ts, si, x, r3) =>
              decodeComps s t cs (have_ || m == 2) (acc ++ [ts])
                { d1 with pmv := pmv, bits := r3, ctx := d1.ctx.set (2 * c + si) x }

/-- Decode n columns from column t. -/
def decodeCols (s : SCtx) : Nat → Nat → SDec → Option SDec
  | 0, _, d => some d
  | n + 1, t, d =>
    match decodeComps s t [0, 1, 2] false [] d with
    | none => none
    | some (col, d1) => decodeCols s n (t + 1) { d1 with last := col.map lastCol, out := col :: d1.out }

/-- R163: decode a body; the padding is 0 and no byte is left over. Columns in order, each three tufts. -/
def decodeBody (s : SCtx) (qi tufts : Nat) (body : List Byte) : Option (List (List (List Int))) :=
  let d0 : SDec := ⟨toBits body, ctxInit s.b qi, qi, (0, 0), [[0, 0, 0, 0], [0, 0, 0, 0], [0, 0, 0, 0]], []⟩
  match decodeCols s tufts 0 d0 with
  | none => none
  | some d => if d.bits.length < 8 && d.bits.all (! ·) then some d.out.reverse else none

/-- Coded samples of pixel x of stripe row r. -/
def colsPx (cols : List (List (List Int))) (x r : Nat) : Px :=
  let col := cols.getD (x / 8) []
  let j := 8 * r + x % 8
  ((col.getD 0 []).getD j 0, (col.getD 1 []).getD j 0, (col.getD 2 []).getD j 0)

/-! ## Coefficient planes (R176, R177) -/

/-- R176: a coefficient-plane stripe of image im, index k; its columns, and the bytes it takes. -/
def decodePlane (tufts im k : Nat) (bs : List Byte) : Option (List (List (List Int)) × Nat) :=
  let h := parseHdr bs
  if hdrGood bs h && h.mode == 1 && h.idx == k && h.image == im && h.tufts == tufts then
    (decodeBody ⟨16, false, true, 0, fun _ _ _ => 0, 4 * k⟩ 0 tufts (slice bs 16 h.body)).map fun c => (c, 16 + h.body)
  else none

/-- The stripes of the planes in order: image, index. -/
def decodePlanes (tufts : Nat) : List (Nat × Nat) → List Byte → Option (List (List (List (List Int))))
  | [], bs => if bs.isEmpty then some [] else none
  | (im, k) :: xs, bs =>
    match decodePlane tufts im k bs with
    | none => none
    | some (c, n) => (decodePlanes tufts xs (bs.drop n)).map fun r => c :: r

/-- The order of a record's stripes (R177): 3 × K. -/
def planeOrder (k : Nat) : List (Nat × Nat) := (List.range 3).flatMap fun im => (List.range k).map fun i => (im, i)

/-- R176: signed 2.14 coefficient of a plane sample. -/
def planeCoef (v : Int) : Int := sext 16 (v.toNat ^^^ 0x8000)

/-! ## Writing bits (R174, R175) -/

/-- n bits of a number, most significant first. -/
def putBits : Nat → Nat → List Bool
  | 0, _ => []
  | n + 1, v => (v / 2 ^ n % 2 == 1) :: putBits n v

/-- M of a residual (R173). -/
def foldM (e : Int) : Nat := if 0 ≤ e then 2 * e.toNat else 2 * e.natAbs - 1

/-- R174: the code of a residual. -/
def putResidual (b : Nat) (x : Ctx) (e : Int) : List Bool :=
  let m := foldM e
  if m / 2 ^ x.k < 23 then List.replicate (m / 2 ^ x.k) false ++ [true] ++ putBits x.k (m % 2 ^ x.k)
  else List.replicate 23 false ++ [true] ++ putBits (b + 2) m

/-- R175: the unsigned and the signed Exp-Golomb code. -/
def putUe (v : Nat) : List Bool :=
  let z := Nat.log2 (v + 1)
  List.replicate z false ++ [true] ++ putBits z (v + 1 - 2 ^ z)
def putSe (v : Int) : List Bool := putUe (if 0 < v then (2 * v - 1).toNat else (2 * v.natAbs))

/-- R175: the difference that is written: the shorter, the positive one of two equally long. -/
def mvDiff (half : Int) (v p : Int) : Int :=
  let d := (v - p + half) % (2 * half) - half
  if d = -half then half else d

/-- R175: the code of a vector. -/
def putMv (pmv v : Int × Int) : List Bool := putSe (mvDiff 64 v.1 pmv.1) ++ putSe (mvDiff 32 v.2 pmv.2)

/-- Bytes of bits, filled with zeros. -/
def fromBits : List Bool → List Byte
  | a :: b :: c :: d :: e :: f :: g :: h :: r =>
    BitVec.ofNat 8 (128 * b2n a + 64 * b2n b + 32 * b2n c + 16 * b2n d + 8 * b2n e + 4 * b2n f + 2 * b2n g + b2n h) :: fromBits r
  | [] => []
  | bs => [BitVec.ofNat 8 ((List.range 8).foldl (fun v i => 2 * v + b2n (bs.getD i false)) 0)]

/-- R178: the refresh group of stripe k. -/
def refreshGroup (k f kk : Nat) : Nat := k * f / kk

end Sys2Proof.Machine
end

