-- ==== Sys2Proof/Machine/Loads.lean ====
section
/-! DEFINITION. The load commands: coefficient planes (R144-R146), drift tables (R149), greyscale curves (R148), map
images (R239) and customer microcode (R251-R253). -/

namespace Sys2Proof.Machine

/-- The descriptor fields of a load: `CONTRACT` 0-63, an `ADDR`, and the ranges it uses. -/
def loadContract (d : Desc) : Nat := descFld d 8 1

/-- States in which a load is valid (Table 3-3): PROPOSED, COMMITTED, RUNNING. -/
def loadState (c : Contract) : Bool := c.state == .proposed || layoutState c

/-- A load that takes effect at once on a PROPOSED contract and is deferred on the others (R52). -/
def atOnceOr (s : State) (n : Nat) (ref : CmdRef) (ch : Change) (now later : State → State) : State :=
  if (s.contract n).state = .proposed then complete (now s) ref St.ok fromFirst 0 0
  else completeDeferred (defer_ (later s) n { change := ch, wait := some ref }) ref n

/-! ## Coefficient planes -/

/-- Signed 2.14 coefficients. -/
def coefs16 (bs : List Byte) (off n : Nat) : List Int := (List.range n).map fun i => sext 16 (leAt bs (off + 2 * i) 2)

/-- The nine coefficients of the lamp at (x, y) from the decoded planes; stripe r of image im is plane im × K + r. -/
def lampOf (planes : List (List (List (List Int)))) (kk x y : Nat) : List Int :=
  [0, 1, 2].flatMap fun im =>
    let p := colsPx (planes.getD (im * kk + y / 4) []) x (y % 4)
    [planeCoef p.1, planeCoef p.2.1, planeCoef p.2.2]

/-- The correction record of Table 6-1; none where R145 refuses it. A tile whose planes cannot be stripes of whole tufts
has none. -/
def parseCoef (e : Endpoint) (bs : List Byte) : Option CorrRec :=
  let pb := leAt bs 28 4
  let uniform := u8 bs 4 == 1
  let base : CorrRec := { curve := u8 bs 2, drift := u8 bs 3, uniform := uniform, fallback := coefs16 bs 8 9 }
  if bs.length == 64 + pb && decide (u8 bs 4 < 2) && zeroAt bs 5 3 && zeroAt bs 26 2 && zeroAt bs 36 28
      && (decide (u8 bs 2 < 4) || u8 bs 2 == 255) && (decide (u8 bs 3 < 8) || u8 bs 3 == 255)
      && decide (pb ≤ 3 * e.tileW * e.tileH) && (crc32 (bs.drop 64)).toNat == leAt bs 32 4 then
    if uniform then (if pb = 0 then some base else none)
    else if e.tileW % 8 ≠ 0 ∨ e.tileH % 4 ≠ 0 then none
    else
      let kk := e.tileH / 4
      (decodePlanes (e.tileW / 8) (planeOrder kk) (bs.drop 64)).map fun ps =>
        { base with lamps := (List.range (e.tileW * e.tileH)).map fun i => lampOf ps kk (i % e.tileW) (i / e.tileW) }
  else none

/-- R146: bytes of one coefficient store. -/
def coefStoreBytes (e : Endpoint) : Nat := page4k (3 * e.tileW * e.tileH)

/-- The coefficient stores of an endpoint. -/
def coefStore (s : State) (n slot : Nat) : CoefStore := mget {} s.corr.coefs (coefKey n slot)
def modCoef (s : State) (n slot : Nat) (f : CoefStore → CoefStore) : State :=
  { s with corr := { s.corr with coefs := mmod {} s.corr.coefs (coefKey n slot) f } }

/-- R146: the first load allocates both stores. -/
def coefAllocated (st : CoefStore) : Bool := st.inForce.isSome || st.pending.isSome
def allocCoef (s : State) (n : Nat) (e : Endpoint) : State :=
  if coefAllocated (coefStore s n e.slot) then s
  else
    let (a, s1) := place s (2 * coefStoreBytes e)
    modCoef s1 n e.slot fun st => { st with base := a }

/-- R146: the pending coefficient store and the one in force exchange roles. -/
def exchangeCoef (st : CoefStore) : CoefStore := match st.pending with
  | some r => { st with inForce := some r, pending := none, upper := !st.upper }
  | none => st

/-- Device address of the pending store of an endpoint. -/
def pendingStore (st : CoefStore) (e : Endpoint) : Nat := st.base + (if st.upper then 0 else coefStoreBytes e)

/-- `COEF_LOAD` once its record is good: its planes go to the pending store. -/
def coefStoreRec (ref : CmdRef) (n : Nat) (e : Endpoint) (r : CorrRec) (planes : List Byte) (s : State) : State :=
  check (coefAllocated (coefStore s n e.slot) || fits s (2 * coefStoreBytes e)) St.noResource ref s fun s =>
  let s1 := allocCoef s n e
  let s2 := memWrite s1 (pendingStore (coefStore s1 n e.slot) e) planes
  let s3 := modCoef s2 n e.slot fun st => { st with pending := some r }
  atOnceOr s3 n ref (.coef e.slot) (fun t => modCoef t n e.slot exchangeCoef) id

/-- `COEF_LOAD` (R144-R146). -/
def execCoefLoad (sq : Fin 1024) (d : Desc) (h : HostData) (s : State) : Out :=
  runCmd sq d s fun ref s =>
    check (hdrOk d 0x18 [(8, 1), (16, 12)] && decide (loadContract d < 64) && decide (64 ≤ descFld d 24 4)) St.invalidField ref s fun s =>
    let n := loadContract d
    check (loadState (s.contract n)) St.stateConflict ref s fun s =>
    fetchOf h ref s fun bs s =>
    match endpointAt (s.contract n) (leAt bs 0 2) with
    | none => completeWith s ref St.invalidField
    | some e => match (if bs.length = descFld d 24 4 then parseCoef e bs else none) with
      | none => completeWith s ref St.invalidField
      | some r => coefStoreRec ref n e r (bs.drop 64) s

/-! ## Drift tables and curves -/

/-- Entries of a two-place table memory in use (R148, R149). -/
def usedPlaces (m : Map Slot2) : Nat := sumOf (m.map fun p => b2n p.2.inForce.isSome + b2n p.2.waiting.isSome)

/-- A load into place k fits: it takes no further place where its own place is taken already. -/
def placeFree (m : Map Slot2) (k limit : Nat) (atOnce : Bool) : Bool :=
  let p := mget {} m k
  (if atOnce then p.inForce.isSome else p.waiting.isSome) || decide (usedPlaces m < limit)

/-- The words of a table: n 16-bit little-endian values. -/
def words16 (bs : List Byte) (off n : Nat) : List Nat := (List.range n).map fun i => leAt bs (off + 2 * i) 2

/-- Put a loaded table in force or let it wait. -/
def putForce (t : List Nat) (p : Slot2) : Slot2 := { p with inForce := some t }
def putWait (t : List Nat) (p : Slot2) : Slot2 := { p with waiting := some t }
def modDrift (s : State) (k : Nat) (f : Slot2 → Slot2) : State := { s with corr := { s.corr with drifts := mmod {} s.corr.drifts k f } }
def modCurve (s : State) (k : Nat) (f : Slot2 → Slot2) : State := { s with corr := { s.corr with curves := mmod {} s.corr.curves k f } }

/-- The drift table of Table 6-2: `TEMP_DEFAULT`, then 64 × 3 gains. -/
def driftOk (bs : List Byte) : Bool := bs.length == 392 && u8 bs 0 == 1
def driftTable (bs : List Byte) : List Nat := leAt bs 2 2 :: words16 bs 8 192

/-- A contract takes effect at once (R52). -/
def isProposed (s : State) (n : Nat) : Bool := (s.contract n).state == .proposed

/-- `DRIFT_TABLE_LOAD` (R149). -/
def execDriftTableLoad (sq : Fin 1024) (d : Desc) (h : HostData) (s : State) : Out :=
  runCmd sq d s fun ref s =>
    check (hdrOk d 0x19 [(8, 2), (16, 8)] && decide (loadContract d < 64) && decide (descFld d 9 1 < 8)) St.invalidField ref s fun s =>
    let n := loadContract d
    let k := 8 * n + descFld d 9 1
    check (loadState (s.contract n)) St.stateConflict ref s fun s =>
    fetchOf h ref s fun bs s =>
    check (driftOk bs) St.invalidField ref s fun s =>
    check (placeFree s.corr.drifts k 1024 (isProposed s n)) St.noResource ref s fun s =>
    atOnceOr s n ref (.drift (descFld d 9 1)) (fun t => modDrift t k (putForce (driftTable bs)))
      (fun t => modDrift t k (putWait (driftTable bs)))

/-- `CURVE_LOAD` (R148). -/
def execCurveLoad (sq : Fin 1024) (d : Desc) (h : HostData) (s : State) : Out :=
  runCmd sq d s fun ref s =>
    check (hdrOk d 0x1A [(8, 2), (16, 8)] && decide (loadContract d < 64) && decide (descFld d 9 1 < 4)) St.invalidField ref s fun s =>
    let n := loadContract d
    let k := 4 * n + descFld d 9 1
    check (loadState (s.contract n)) St.stateConflict ref s fun s =>
    fetchOf h ref s fun bs s =>
    check (bs.length == 24576) St.invalidField ref s fun s =>
    check (placeFree s.corr.curves k 128 (isProposed s n)) St.noResource ref s fun s =>
    atOnceOr s n ref (.curve (descFld d 9 1)) (fun t => modCurve t k (putForce (words16 bs 0 12288)))
      (fun t => modCurve t k (putWait (words16 bs 0 12288)))

/-! ## Map images (R238, R239, Tables 9-9 to 9-11) -/

/-- Fields of a map command. -/
def mcOpc (m : BitVec 128) : Nat := fld m 7 0
def mcFlags (m : BitVec 128) : Nat := fld m 15 8
def mcSlot (m : BitVec 128) : Nat := fld m 31 16
def mcArg (m : BitVec 128) (i : Nat) : Nat := fld m (63 + 32 * i) (32 + 32 * i)

/-- Fields of the image header. -/
def imRows (bs : List Byte) : Nat := u8 bs 5
def imCount (bs : List Byte) : Nat := leAt bs 8 4

/-- The rows of an image with their commands, from row entry j and command i. -/
def imageRows (bs : List Byte) (rows : Nat) : Nat → Nat → Nat → List MapRow
  | 0, _, _ => []
  | n + 1, j, i =>
    let o := 32 + 16 * j
    let ncmd := leAt bs (o + 2) 2
    { prow := leAt bs o 2, frames := leAt bs (o + 4) 2, payload := leAt bs (o + 8) 4, fetchPx := leAt bs (o + 12) 4,
      cmds := (List.range ncmd).map fun m => BitVec.ofNat 128 (leAt bs (32 + 16 * rows + 16 * (i + m)) 16) }
      :: imageRows bs rows n (j + 1) (i + ncmd)

/-- A map image read. -/
def parseImage (bs : List Byte) : MapImage :=
  { slot := leAt bs 2 2, port := u8 bs 4, ring := u8 bs 1 % 2 == 1, rows := imageRows bs (imRows bs) (imRows bs) 0 0 }

/-- The ports whose drovers hold an image. -/
def imagePorts (s : State) (m : MapImage) : List Nat :=
  if m.ring then match pairOf s m.port with
    | some q => [m.port, q]
    | none => [m.port]
  else [m.port]

/-- Depth of a pack format (Table 9-7); 0 for a reserved format. -/
def fmtDepth (f : Nat) : Nat := if f = 0 then 16 else if f = 1 then 12 else if f = 2 then 10 else if f = 3 then 8 else if f = 4 then 14 else 0

/-- Table 9-11: the argument checks of a vendor command in canvas paddock row k. -/
def vendorOk (e : Endpoint) (k : Nat) (m : BitVec 128) : Bool :=
  let a0 := mcArg m 0
  let a1 := mcArg m 1
  let a2 := mcArg m 2
  match mcOpc m with
  | 0 => true
  | 1 =>
    let i := a0 % 2048
    let lim := a1 % 16384
    e.sward && decide (i < e.tileH / 4) && (lim == 0 || (decide (110 ≤ lim) && decide (lim ≤ 9212)))
      && (e.tileY + 4 * i) / 256 == k
  | 2 =>
    let y0 := a0 % 65536
    let h := a0 / 65536
    let per := a1 / 256 % 256
    !e.sward && fmtDepth (a1 % 8) == e.depth && decide (1 ≤ h) && decide (1 ≤ per) && decide (y0 + h ≤ e.tileH)
      && (e.tileY + y0) / 256 == k && (e.tileY + y0 + h - 1) / 256 == k
      && decide (per * e.tileW * packBits e.depth ≤ 8 * 9166)
  | 3 => !e.sward && fmtDepth (a1 % 8) == e.depth && decide (1 ≤ a0) && decide (a2 + a0 ≤ e.tileW * e.tileH)
  | _ => false

/-- A dispatch entry of a drover (R223): vendor entries are always valid and their addresses Config's (R527). -/
def dispEntry (s : State) (p opc : Nat) : BitVec 16 :=
  if opc < 4 then BitVec.ofNat 16 (0x8000 + Config.vendorEntry opc % 8192) else mget 0 (s.drover p).disp opc
def dispValid (s : State) (p opc : Nat) : Bool := decide (opc < 4) || bit (mget 0 (s.drover p).disp opc) 15

/-- R239: a command of an image in row k. -/
def mapCmdOk (s : State) (img : MapImage) (e : Endpoint) (k : Nat) (m : BitVec 128) : Bool :=
  mcSlot m == img.slot && (imagePorts s img).all (fun p => dispValid s p (mcOpc m))
    && (decide (128 ≤ mcOpc m) || vendorOk e k m)

/-- R239: the header and the row entries. -/
def imageForm (c : Contract) (bs : List Byte) : Bool :=
  let img := parseImage bs
  u8 bs 0 == 1 && (crc32 (bs.drop 16)).toNat == leAt bs 12 4
    && decide (1 ≤ imRows bs) && decide (imRows bs ≤ 32) && bs.length == 32 + 16 * (imRows bs + imCount bs)
    && ((List.range (imRows bs)).all fun j => decide (leAt bs (32 + 16 * j + 2) 2 ≤ 4096))
    && sumOf (img.rows.map fun r => r.cmds.length) == imCount bs
    && (img.rows.all fun r => decide (c.regY ≤ r.prow) && decide (r.prow < c.regY + c.regH))
    && noRepeat (img.rows.map fun r => r.prow)

/-- R239: the image as a whole, for contract c. -/
def imageOk (s : State) (c : Contract) (bs : List Byte) : Bool :=
  let img := parseImage bs
  imageForm c bs && match endpointAt c img.slot with
    | none => false
    | some e => (epPorts s e).contains img.port && (!img.ring || e.ring) && img.rows.all fun r => r.cmds.all (mapCmdOk s img e r.prow)

/-- Bytes of an image in DRAM. -/
def imageBytes (bs : List Byte) : Nat := bs.length

/-- Put an image in force; the one it replaces is released. -/
def swapImage (s : State) (n : Nat) (img : MapImage) : State :=
  let s1 := match mget none (s.contract n).maps img.slot with
    | some old => unplace s old.base
    | none => s
  s1.modContract n fun c => { c with maps := mset none c.maps img.slot (some img) }

/-- `MAP_LOAD` once its image is good and fits: re-admission with the declared figures (R53, R525). -/
def mapAdmit (ref : CmdRef) (d : Desc) (n : Nat) (img : MapImage) (len : Nat) (s : State) : State :=
  let c := s.contract n
  let v := readmit s n { c with deferred := c.deferred ++ [{ change := .map img }] }
  let s1 := writeReport s (descFld d 32 8) v
  if v.reason = 0 then
    let (a, s2) := place s1 len
    atOnceOr s2 n ref (.map { img with base := a }) (fun t => swapImage t n { img with base := a }) id
  else complete s1 ref St.contractRefused (v.reason + 256 * v.detail) 0 0

/-- `MAP_LOAD` (R239, R52, R53). -/
def execMapLoad (sq : Fin 1024) (d : Desc) (h : HostData) (s : State) : Out :=
  runCmd sq d s fun ref s =>
    check (hdrOk d 0x20 [(8, 1), (16, 12), (32, 8)] && decide (loadContract d < 64) && descFld d 32 8 % 64 == 0) St.invalidField ref s fun s =>
    let n := loadContract d
    check (loadState (s.contract n)) St.stateConflict ref s fun s =>
    fetchOf h ref s fun bs s =>
    check (bs.length == descFld d 24 4 && imageOk s (s.contract n) bs) St.invalidField ref s fun s =>
    check (fits s bs.length) St.noResource ref s fun s =>
    mapAdmit ref d n (parseImage bs) bs.length s

/-! ## Microwords (Table 9-1) and their verification (Table 9-15) -/

namespace Mw
def nam (w : BitVec 128) : Nat := fld w 127 125
def cond (w : BitVec 128) : Nat := fld w 124 120
def cinv (w : BitVec 128) : Bool := bit w 119
def target (w : BitVec 128) : Nat := fld w 118 105
def alu (w : BitVec 128) : Nat := fld w 104 100
def dst (w : BitVec 128) : Nat := fld w 99 95
def srcA (w : BitVec 128) : Nat := fld w 94 90
def srcB (w : BitVec 128) : Nat := fld w 89 85
def lcop (w : BitVec 128) : Nat := fld w 84 82
def pf (w : BitVec 128) : Nat := fld w 81 78
def pw (w : BitVec 128) : Nat := fld w 77 74
def pwsrc (w : BitVec 128) : Nat := fld w 73 69
def fmt (w : BitVec 128) : Nat := fld w 68 66
def csrc (w : BitVec 128) : Bool := bit w 65
def ofs (w : BitVec 128) : Nat := fld w 63 48
def cnt (w : BitVec 128) : Nat := fld w 47 32
def imm (w : BitVec 128) : Word := BitVec.ofNat 32 (fld w 31 0)
end Mw

/-- The `DONE` word of R253. -/
def doneWord : BitVec 128 := BitVec.ofNat 128 (0xE0000000 <<< 96)

/-- The common's addresses. -/
def inCommon (a : Nat) : Bool := decide (0x2000 ≤ a) && decide (a < 0x4000)

/-- Table 9-2: codes that `DST` may name. -/
def dstOk (x : Nat) : Bool := decide (x < 16) || [23, 24, 25, 26, 27].contains x

/-- R221: a reserved field value or bit. -/
def fieldBad (w : BitVec 128) : Bool :=
  decide (25 ≤ Mw.cond w) || decide (15 ≤ Mw.alu w) || decide (5 ≤ Mw.lcop w) || decide (2 ≤ Mw.pf w) || decide (11 ≤ Mw.pw w)
    || decide (5 ≤ Mw.fmt w) || bit w 64

/-- Table 9-2, Table 9-3: an operand in a position that does not allow it. -/
def operandBad (w : BitVec 128) : Bool := !dstOk (Mw.dst w) || (Mw.alu w == 13 && Mw.dst w != 0)

/-- R228: the target of a jump, call or loop. -/
def targetBad (w : BitVec 128) : Bool :=
  match Mw.nam w with
  | 1 => !inCommon (Mw.target w)
  | 2 => !(inCommon (Mw.target w) || Mw.target w == 0x100 || Mw.target w == 0x140)
  | 5 => !inCommon (Mw.target w)
  | 6 => !inCommon (Mw.target w)
  | _ => false

/-- R228: a loop word with a condition or an `LCOP` that writes its own counter. -/
def loopBad (w : BitVec 128) : Bool :=
  let own := fun (a b : Nat) => Mw.cond w != 0 || Mw.cinv w || Mw.lcop w == a || Mw.lcop w == b
  match Mw.nam w with
  | 5 => own 1 3
  | 6 => own 2 4
  | _ => false

/-- The count field of 9.5. -/
def countBad (w : BitVec 128) : Bool :=
  !Mw.csrc w && ([3, 4, 5, 6, 8].contains (Mw.pw w)) && (Mw.cnt w == 0 || (decide (Mw.pw w < 5) && decide (4 < Mw.cnt w)))

/-- Table 9-15: the check code of one word. -/
def wordCode (w : BitVec 128) : Nat :=
  if fieldBad w then 3 else if operandBad w then 4 else if targetBad w then 5 else if loopBad w then 6
  else if countBad w then 7 else if Mw.pw w = 4 ∧ Mw.csrc w then 8 else if Mw.pw w = 7 ∧ 9210 < Mw.ofs w then 10 else 0

/-- Fields of the object image (Table 9-14). -/
def obFirst (bs : List Byte) : Nat := leAt bs 4 2
def obWords (bs : List Byte) : Nat := leAt bs 6 2
def obDisp (bs : List Byte) : Nat := leAt bs 8 2
def obDispAt (bs : List Byte) (j : Nat) : Nat × Nat := (u8 bs (32 + 4 * j), leAt bs (34 + 4 * j) 2)
def obWord (bs : List Byte) (i : Nat) : BitVec 128 := BitVec.ofNat 128 (leAt bs (32 + 4 * obDisp bs + 16 * i) 16)

/-- Check 1: magic, version, sizes and CRC. -/
def obForm (bs : List Byte) : Bool :=
  leAt bs 0 2 == 0x4B59 && u8 bs 2 == 1 && decide (1 ≤ obWords bs)
    && decide (obWords bs ≤ 8192) && decide (obDisp bs ≤ 128) && bs.length == 32 + 4 * obDisp bs + 16 * obWords bs
    && (crc32 (bs.drop 16)).toNat == leAt bs 12 4

/-- The first word of n from word i that fails: its code and address. -/
def firstBad (bs : List Byte) : Nat → Nat → Option (Nat × Nat)
  | 0, _ => none
  | n + 1, i =>
    if !inCommon (obFirst bs + i) then some (2, (obFirst bs + i) % 16384)
    else if wordCode (obWord bs i) ≠ 0 then some (wordCode (obWord bs i), obFirst bs + i)
    else firstBad bs n (i + 1)

/-- The first dispatch entry that fails. -/
def dispBad (bs : List Byte) : Bool :=
  (List.range (obDisp bs)).any fun j => decide ((obDispAt bs j).1 < 0x80) || !inCommon (obDispAt bs j).2

/-- R253: check code and first failing word address. Where no word fails (codes 1 and 9) the address is a free value. -/
def verifyUcode (s : State) (bs : List Byte) : Nat × Nat :=
  if !obForm bs then (1, Config.freeNat s.free % 16384)
  else match firstBad bs (obWords bs) 0 with
    | some r => r
    | none => if dispBad bs then (9, Config.freeNat s.free % 16384) else (0, 0)

/-- R253: the common filled with the `DONE` word. -/
def filledCommon : Map (BitVec 128) := (List.range 8192).map fun i => (0x2000 + i, doneWord)

/-- The common with an image's words. -/
def loadedCommon (bs : List Byte) : Map (BitVec 128) :=
  (List.range 8192).filterMap fun i =>
    let a := 0x2000 + i
    let w := if obFirst bs ≤ a ∧ a < obFirst bs + obWords bs then obWord bs (a - obFirst bs) else doneWord
    if w = 0 then none else some (a, w)

/-- Dispatch entries 0x80-0xFF of an image; a later entry of the same opcode is written last. -/
def loadedDisp (bs : List Byte) : Map (BitVec 16) :=
  (List.range (obDisp bs)).foldl (fun m j =>
    mset 0 m (obDispAt bs j).1 (BitVec.ofNat 16 (0x8000 + (obDispAt bs j).2 % 16384))) []

/-- R253: the load on one drover; a read-back mismatch leaves the filled common. -/
def loadDrover (bs : List Byte) (mismatch : BitVec 32) (s : State) (p : Nat) : State :=
  s.modDrover p fun x =>
    if bit mismatch p then { x with store := filledCommon, disp := [] }
    else { x with store := loadedCommon bs, disp := loadedDisp bs }

/-- Images that count for R253: those in force, waiting or held. -/
def allImages (c : Contract) : List MapImage :=
  ((c.maps ++ c.sets.flatMap fun f => f.maps).filterMap fun p => p.2) ++ c.deferred.filterMap fun d => match d.change with
    | .map m => some m
    | _ => none

/-- R253: an image uses an opcode of the common. -/
def usesCommon (m : MapImage) : Bool := m.rows.any fun r => r.cmds.any fun x => decide (128 ≤ mcOpc x)

/-- R253: a drover of the mask holds such an image. -/
def ucodeConflict (s : State) (mask : Nat) : Bool :=
  s.contracts.any fun p => p.2.state != .free && (allImages p.2).any fun m =>
    usesCommon m && (imagePorts s m).any fun q => mask.testBit q

/-- The drovers of a mask. -/
def maskPorts (mask : Nat) : List Nat := (List.range 32).filter fun p => mask.testBit p

/-- `UCODE_LOAD` once the image was fetched. -/
def ucodeRun (ref : CmdRef) (mask : Nat) (bs : List Byte) (mismatch : BitVec 32) (badWord : BitVec 14) (s : State) : State :=
  let v := verifyUcode s bs
  if v.1 ≠ 0 then complete { s with free := s.free + b2n (v.1 == 1 || v.1 == 9) } ref St.invalidField v.1 v.2 0
  else
    let bad := mismatch &&& BitVec.ofNat 32 mask
    let s1 := (maskPorts mask).foldl (loadDrover bs bad) s
    if bad = 0 then complete s1 ref St.ok 0 0 0 else complete s1 ref St.aborted 0 badWord.toNat bad.toNat

/-- `UCODE_LOAD` (R253). -/
def execUcodeLoad (sq : Fin 1024) (d : Desc) (h : HostData) (mismatch : BitVec 32) (badWord : BitVec 14) (s : State) : Out :=
  runCmd sq d s fun ref s =>
    check (hdrOk d 0x21 [(12, 16)]) St.invalidField ref s fun s =>
    check (!ucodeConflict s (descFld d 12 4)) St.stateConflict ref s fun s =>
    fetchOf h ref s fun bs s =>
    if bs.length = descFld d 24 4 then ucodeRun ref (descFld d 12 4) bs mismatch badWord s
    else ucodeRun ref (descFld d 12 4) [] mismatch badWord s

end Sys2Proof.Machine
end

