-- ==== Sys2Proof/Machine/StripeRings.lean ====
section
/-! DEFINITION. Coded-stripe rings (R284-R290, R296): where an entry stands, the claim of its granules, its record, and the
release. Map images as a drover holds them: the row lists (R240). -/

namespace Sys2Proof.Machine

/-! ## Positions (R286) -/

/-- Granules of the stripes before stripe k of endpoint `slot` in canvas row `row` (P_i). -/
def beforeStripe (es : List Endpoint) (row slot k : Nat) : Nat :=
  sumOf (es.map fun e =>
    if e.slot < slot then stripesIn e row * stripeGranules e
    else if e.slot = slot then (k - firstStripe e row) * stripeGranules e
    else 0)

/-- Groups of a pack format (Table 9-7), and P of `BLANK_RUN`: the largest multiple of the group whose payload is at most
9,166 B. -/
def fmtGroup (f : Nat) : Nat := if f = 1 then 2 else if f = 2 ∨ f = 4 then 4 else 1
def fmtBytes (f : Nat) : Nat := 3 * fmtDepth f * fmtGroup f / 8
def blankPx (f : Nat) : Nat := 9166 / fmtBytes f * fmtGroup f

/-- Canvas paddock row of a stripe. -/
def stripeRow (e : Endpoint) (k : Nat) : Nat := (e.tileY + 4 * k) / 256

/-- R286: the granules of stripe k of an endpoint in frame n, of the ring of contract c and port p. -/
def entryGranules (s : State) (c p n : Nat) (e : Endpoint) (k : Nat) : List Nat :=
  let x := s.contract c
  let es := portSward s x p
  let row := stripeRow e k
  let f := sumOf ((canvasRows x).map (ringT es))
  let t := sumOf (((canvasRows x).filter fun j => decide (j < row)).map (ringT es))
  let z := (s.ring c p).z
  if z = 0 then [] else (List.range (stripeGranules e)).map fun i => (n * f + t + beforeStripe es row e.slot k + i) % z

/-! ## Claim and release (R287, R289) -/

/-- Every granule has been released. -/
def granulesFree (r : CRing) (gs : List Nat) : Bool := gs.all fun g => mget none r.owner g == none

/-- R287, R288: the claim, and the entry's first words. What stood at the granules is overwritten. -/
def claimGranules (r : CRing) (gs : List Nat) (n slot k : Nat) : CRing :=
  { r with
    owner := gs.foldl (fun m g => mset none m g (some (n, slot, k))) r.owner
    entries := mset none (gs.foldl (fun m g => mset none m g none) r.entries) (gs.headD 0)
      (some { slot := slot, sidx := k, frame := n % 2 ^ 32 }) }

/-- Release the granules of one entry. -/
def releaseEntry (r : CRing) (n slot k : Nat) : CRing :=
  { r with owner := r.owner.filter fun g => g.2 != some (n, slot, k) }

/-- R289: release the granules of every entry of a frame. -/
def releaseFrameEntries (r : CRing) (n : Nat) : CRing :=
  { r with owner := r.owner.filter fun g => match g.2 with
      | some o => o.1 != n
      | none => false }

/-- The entry of a stripe. -/
def entryOf (s : State) (c p n : Nat) (e : Endpoint) (k : Nat) : Option Entry :=
  match (entryGranules s c p n e k).head? with
  | some g => match mget none (s.ring c p).entries g with
    | some x => if x.slot = e.slot ∧ x.sidx = k ∧ x.frame = n % 2 ^ 32 then some x else none
    | none => none
  | none => none

/-- R288: `SF_READY`. -/
def entryReady (x : Option Entry) : Bool := match x with
  | some y => y.complete || y.absent
  | none => false

/-- R288: write an entry's record and bytes. -/
def writeEntry (s : State) (c p n : Nat) (e : Endpoint) (k : Nat) (x : Entry) : State :=
  match (entryGranules s c p n e k).head? with
  | some g => s.modRing c p fun r => { r with entries := mset none r.entries g (some x) }
  | none => s

/-- R296: a pointer mismatch in a ring of at least 128 KiB: every entry is released; stripes of frames on their way that were
not fully moved are lost on the port. -/
def ringReset (s : State) (c p : Nat) : State :=
  let r := s.ring c p
  if r.z < 512 then s
  else
    let held := (r.owner.filterMap fun g => g.2).foldl (fun xs o => if xs.contains o then xs else xs ++ [o]) []
    let s1 := s.modContract c fun x => { x with
      lost := x.lost ++ (held.filter fun o => !x.lost.contains (o.1, p, o.2.1, o.2.2, 1)).map fun o => (o.1, p, o.2.1, o.2.2, 1)
      unsent := x.unsent ++ held.map fun o => (o.1, p, o.2.1, o.2.2) }
    let s2 := s1.modRing c p fun r => { r with owner := [], entries := [], lost := held }
    setStatus (raiseFault (tallyAdd s2 981 1) 195) (Off.fifoStatus p) 8

/-! ## Row lists (R240) -/

/-- The images of frame n that drover p holds, in endpoint-slot order. -/
def droverImages (s : State) (c n p : Nat) : List (Endpoint × MapImage) :=
  match setOf (s.contract c) n with
  | some f => (sortEps (s.contract c).endpoints).filterMap fun e => match mget none f.maps e.slot with
    | some m => if (imagePorts s m).contains p then some (e, m) else none
    | none => none
  | none => []

/-- A command of a row list with what it belongs to. -/
structure ListCmd where
  e : Endpoint
  row : MapRow
  cmd : BitVec 128
  deriving DecidableEq, Repr

/-- The row list of a contract, frame, port and region row. -/
def listCmds (s : State) (c n p row : Nat) : List ListCmd :=
  (droverImages s c n p).flatMap fun x =>
    match x.2.rows.find? fun r => r.prow == (s.contract c).regY + row with
    | some r => r.cmds.map fun m => ⟨x.1, r, m⟩
    | none => []

/-- The image of the command at an index of the list: `DRV_MAPBASE` (Table 9-16). -/
def listImage (s : State) (c n p slot : Nat) : Option MapImage :=
  ((droverImages s c n p).find? fun x => x.1.slot == slot).map fun x => x.2

end Sys2Proof.Machine
end

