-- ==== Sys2Proof/Machine/DroverOps.lean ====
section
/-! DEFINITION. Drovers, the parts that every routine shares: the ready set, dispatch, the end of a command, abandonment and
restart (R240-R249), the assembly FIFO and the commit of a frame (R234, R243, R291-R295). -/

namespace Sys2Proof.Machine

/-! ## Names -/

/-- Power domain of drover d (R219). -/
def drvDomain (d : Nat) : Nat := 38 + d / 4

/-- Fault source i of drover d (Table 18-2): 0 `DRV_CS_UE`, 1 `DRV_STEP_LIMIT`, 2 `DRV_RESTART_LIMIT`, 3 `C0_OVERRUN`. -/
def drvFault (d i : Nat) : Nat := 16 * (4 + d / 4) + 4 * (d % 4) + i

/-- Tally j of drover d (Table 20-1). -/
def drvTally (s : State) (d j n : Nat) : State := tallyAdd s (512 + 8 * d + j) n

/-- `DRV_STATUS` bits (Table 9-18). -/
def drvStatus (s : State) (d i : Nat) : State := setStatus s (Off.drvStatus d) (2 ^ i)

/-- Key of what a drover keeps per frame, endpoint and stripe or row. -/
def offKey (n slot k : Nat) : Nat := 4096 * (16384 * n + slot) + k

/-! ## Row lists in the ready set -/

/-- A row list's key. -/
def listKey (l : RowList) : Nat × Nat × Nat := (l.contract, l.frame, l.row)

/-- The running row list. -/
def runningList (x : Drover) : Option RowList := match x.running with
  | some k => x.ready.find? fun l => listKey l == k
  | none => none

/-- R240: a before b: the earlier deadline, then the earlier start tick, then the lower contract. -/
def listBefore (a b : RowList) : Bool :=
  decide (a.deadline < b.deadline) || (a.deadline == b.deadline && (decide (a.startTick < b.startTick)
    || (a.startTick == b.startTick && decide (a.contract < b.contract))))

/-- R240: the most urgent ready list. -/
def urgentList (x : Drover) : Option RowList := match x.ready with
  | [] => none
  | l :: ls => some (ls.foldl (fun best a => if listBefore a best then a else best) l)

/-- Change one list of the ready set. -/
def modList (x : Drover) (k : Nat × Nat × Nat) (f : RowList → RowList) : Drover :=
  { x with ready := x.ready.map fun l => if listKey l == k then f l else l }

/-- Commands of a list, and those not yet ended. -/
def cmdsOf (s : State) (d : Nat) (l : RowList) : List ListCmd := listCmds s l.contract l.frame d l.row
def restOf (s : State) (d : Nat) (l : RowList) : List ListCmd := (cmdsOf s d l).drop l.idx

/-- A range of an endpoint's class-0 data is not sent on a port in a frame (R3, R40). -/
def loseRange (c n p slot : Nat) (s : State) (r : Nat × Nat) : State :=
  s.modContract c fun x =>
    if r.2 = 0 ∨ x.lost.contains (n, p, slot, r.1, r.2) then x else { x with lost := x.lost ++ [(n, p, slot, r.1, r.2)] }

/-- A stripe has been moved to its last byte on port d: its entry is released, or the committed offset is its length. -/
def stripeMoved (s : State) (d : Nat) (l : RowList) (e : Endpoint) (k : Nat) : Bool :=
  let at_ := mget 0 (s.drover d).offsC (offKey l.frame e.slot k)
  match entryOf s l.contract d l.frame e k with
  | some y => entryReady (some y) && decide (y.length ≤ at_)
  | none => decide (0 < at_)

/-- The data of a command whose committed progress is `prog` that no committed frame carries: the stripe of `SWARD_STRIPE`,
the rest of the run of `RAW_ROWS` and `BLANK_RUN` (R530), and for a routine of the common the endpoint's stripes of the
paddock row that have not been moved, or all pixels. -/
def cmdRanges (s : State) (d : Nat) (l : RowList) (m : ListCmd) (prog : Nat) : List (Nat × Nat) :=
  let run := fun (first all per : Nat) => [(first + min all (prog * per), all - prog * per)]
  match mcOpc m.cmd with
  | 0 => []
  | 1 => if stripeMoved s d l m.e (mcArg m.cmd 0 % 2048) then [] else [(mcArg m.cmd 0 % 2048, 1)]
  | 2 => run (mcArg m.cmd 2) (mcArg m.cmd 0 / 65536 * m.e.tileW) (mcArg m.cmd 1 / 256 % 256 * m.e.tileW)
  | 3 => run (mcArg m.cmd 2) (mcArg m.cmd 0) (blankPx (mcArg m.cmd 1 % 8))
  | _ => if m.e.sward then
      ((List.range (m.e.tileH / 4)).filter fun k => stripeRow m.e k == m.row.prow && !stripeMoved s d l m.e k).map fun k => (k, 1)
    else [(0, m.e.tileW * m.e.tileH)]

/-- The data of a command is not sent on its port. -/
def loseCmd (d : Nat) (l : RowList) (prog : Nat) (s : State) (m : ListCmd) : State :=
  (cmdRanges s d l m prog).foldl (loseRange l.contract l.frame d m.e.slot) s

/-- Skip the rest of row lists: counted, and their data is not sent (R240, R242, R249, R295). -/
def skipRest (d : Nat) (s : State) (l : RowList) : State :=
  let rest := restOf s d l
  if rest.isEmpty then s
  else (rest.drop 1).foldl (loseCmd d l 0)
    ((rest.take 1).foldl (loseCmd d l l.prog.toNat) (drvStatus (drvTally s d 3 rest.length) d 9))

/-- Skip the lists of the ready set that meet a condition. -/
def skipLists (s : State) (d : Nat) (p : RowList → Bool) : State :=
  ((s.drover d).ready.filter p).foldl (skipRest d) (s.modDrover d fun x => { x with ready := x.ready.filter fun l => !p l })

/-! ## Abandonment (R245) and the end of a command -/

/-- R245: back to the state of the last `COMMIT`. -/
def rewound (x : Drover) : Drover :=
  { x with open_ := false, frame := [], moved := [], offs := x.offsC, declW := x.decl, reg := { x.reg with staged := none } }

/-- The packet writer's pointer returns to the committed one (R291). -/
def rewindFifo (s : State) (d : Nat) : State := s.modPort d fun y => { y with asmWork := y.asmCommit }

/-- Abandon what runs: nothing runs afterwards. -/
def stopRun (s : State) (d : Nat) : State :=
  (rewindFifo s d).modDrover d fun x =>
    { rewound x with running := none, lkDone := false, lkMac := none, pb := [], pbW := 0, pbH := 0
                     act := if x.act = .halted then .halted else if x.ready.isEmpty then .idle else .run }

/-- R240: a list goes on to its next command; it leaves the set after its last one. -/
def advanceList (s : State) (d : Nat) (l : RowList) : State :=
  if l.idx + 1 < (cmdsOf s d l).length then
    s.modDrover d fun x => modList x (listKey l) fun y =>
      { y with idx := y.idx + 1, prog := 0, restarts := 0, restarted := false }
  else s.modDrover d fun x => { x with ready := x.ready.filter fun y => listKey y != listKey l }

/-- The running command ends; `kept` tells that it ended normally, so that nothing is rewound or lost. -/
def endCommand (s : State) (d : Nat) (normal : Bool) : State :=
  match runningList (s.drover d) with
  | none => s
  | some l =>
    let s1 := if normal then s
      else match (restOf s d l).head? with
        | some m => loseCmd d l l.prog.toNat s m
        | none => s
    let s2 := advanceList s1 d l
    if normal then
      s2.modDrover d fun x => { x with running := none, lkDone := false, lkMac := none, pb := [], pbW := 0, pbH := 0
                                       act := if x.ready.isEmpty then .idle else .run }
    else stopRun s2 d

/-- R247: abandon the running routine for a cause that restarts it: the 17th restart ends the command. -/
def abandonRestart (s : State) (d : Nat) : State :=
  match runningList (s.drover d) with
  | none => s
  | some l =>
    if 16 ≤ l.restarts then endCommand (raiseFault s (drvFault d 2)) d false
    else
      let s1 := drvStatus (drvTally s d 1 1) d 0
      stopRun (s1.modDrover d fun x => modList x (listKey l) fun y => { y with restarts := y.restarts + 1, restarted := true }) d

/-- R235: a sequence error. -/
def seqError (s : State) (d : Nat) : State := endCommand (drvStatus s d 8) d false

/-- R229, R235: the step limit. -/
def stepLimit (s : State) (d : Nat) : State := endCommand (drvStatus (drvStatus (raiseFault s (drvFault d 1)) d 5) d 8) d false

/-- R241: a frame beyond the declarations. -/
def overDeclared (s : State) (d : Nat) : State := endCommand (drvStatus s d 3) d false

/-- R248, R195, R289: poisoned input ends the command; the stripe being moved is reported lost and its entry released. -/
def poisoned (s : State) (d : Nat) (stripe : Option (Nat × Nat)) : State :=
  match runningList (s.drover d) with
  | none => s
  | some l =>
    let s1 := match stripe with
      | some (slot, k) =>
        ((loseRange l.contract l.frame d slot s (k, 1)).modContract l.contract fun x =>
          { x with unsent := x.unsent ++ [(l.frame, d, slot, k)] }).modRing l.contract d fun r => releaseEntry r l.frame slot k
      | none => s
    endCommand (drvStatus (drvTally s1 d 5 1) d 1) d false

/-! ## The assembly FIFO (R291, R292) -/

/-- Words of 16 B of the open frame. -/
def openWords (x : Drover) : Nat := frameWords x.frame.length

/-- R292: `AF_ROOM`. -/
def afRoom (s : State) (d : Nat) : Bool := decide ((s.port d).asmUsed + openWords (s.drover d) + 576 ≤ 8192)

/-- Write bytes into the open frame. -/
def appendFrame (s : State) (d : Nat) (bs : List Byte) : State :=
  let n := frameWords ((s.drover d).frame.length + bs.length)
  (s.modDrover d fun x => { x with frame := x.frame ++ bs }).modPort d fun y => { y with asmWork := (y.asmCommit + n) % 8192 }

/-- Open a frame. -/
def openFrame (s : State) (d : Nat) : State := s.modDrover d fun x => { x with open_ := true, frame := [], moved := [] }

/-- The counters of an endpoint and row (R241). -/
def declKey (l : RowList) (m : ListCmd) : Nat := offKey l.frame m.e.slot m.row.prow

/-- R241: the commit would go beyond the declarations. -/
def overCommit (x : Drover) (l : RowList) (m : ListCmd) : Bool :=
  let k := mget {} x.declW (declKey l m)
  decide (m.row.frames < k.frames + 1) || decide (m.row.payload + 46 * m.row.frames < k.bytes + x.frame.length)

/-- R289: release the entries that the frame moved to their last byte. -/
def releaseMoved (l : RowList) (m : ListCmd) (d : Nat) (s : State) (k : Nat × Nat) : State :=
  match entryOf s l.contract d l.frame m.e k.2 with
  | some y =>
    if y.length ≤ mget 0 (s.drover d).offs (offKey l.frame k.1 k.2) then
      s.modRing l.contract d fun r => releaseEntry r l.frame k.1 k.2
    else s
  | none => s

/-- What a commit makes permanent (R243): counters and read offsets. -/
def committed (x : Drover) (l : RowList) (m : ListCmd) : Drover :=
  let w := mmod {} x.declW (declKey l m) fun k => { k with frames := k.frames + 1, bytes := k.bytes + x.frame.length }
  modList { x with open_ := false, frame := [], moved := [], offsC := x.offs, declW := w, decl := w,
                   reg := { x.reg with staged := none } }
    (listKey l) fun y => { y with prog := x.reg.staged.getD y.prog, restarts := 0, restarted := false }

/-- R243, R292: the frame becomes visible in the class-0 queue of its slot. -/
def commitFrame (s : State) (d : Nat) (l : RowList) (m : ListCmd) : State :=
  let x := s.drover d
  let w := frameWords x.frame.length
  let s1 := x.moved.foldl (releaseMoved l m d) s
  let s2 := drvTally (drvTally s1 d 6 1) d 7 x.frame.length
  let s3 := (s2.modDrover d fun x => committed x l m).modPort d fun y =>
    { y with asmCommit := (y.asmCommit + w) % 8192, asmWork := (y.asmCommit + w) % 8192, asmUsed := y.asmUsed + w }
  putClass0 s3 d { bytes := x.frame, cls := 0, queue := 4 * m.e.slot, src := .drover w, contract := some l.contract,
                   frame := l.frame, stripes := x.moved }

/-! ## Dispatch (R223, R224) -/

/-- Table 9-4. -/
def dispatchRegs (m : BitVec 128) (pc : Nat) : DReg :=
  { v := mset 0 (mset 0 (mset 0 [] 1 (BitVec.ofNat 32 (mcArg m 0))) 2 (BitVec.ofNat 32 (mcArg m 1))) 3 (BitVec.ofNat 32 (mcArg m 2)), pc := pc }

/-- A command is dispatched: its registers, and the lookup of its slot starts. A vendor routine issues up to 32 words beside
those of its frames (R527); how many is left open. -/
def startRoutine (s : State) (d : Nat) (l : RowList) (m : ListCmd) : State :=
  let r := dispatchRegs m.cmd (fld (dispEntry s d (mcOpc m.cmd)) 13 0)
  let vendor := decide (mcOpc m.cmd < 4)
  let r1 := if vendor then { r with steps := Config.freeNat s.free % 33 } else r
  ({ drvTally s d 0 1 with free := s.free + b2n vendor }).modDrover d fun x =>
    { x with act := .run, running := some (listKey l), cmd := m.cmd, reg := r1
             pb := [], pbDone := 0, pbW := 0, pbH := 0, lkDone := false, lkMac := none, open_ := false, frame := [], moved := [] }

/-- R224: a command without a valid dispatch entry is skipped. -/
def skipCommand (s : State) (d : Nat) (l : RowList) (m : ListCmd) : State :=
  let s1 := drvStatus (drvTally (loseCmd d l l.prog.toNat s m) d 3 1) d 4
  let s2 := advanceList s1 d l
  s2.modDrover d fun x => { x with act := if x.ready.isEmpty then .idle else .run }

/-- R240: the next command of the most urgent list. A list whose last command has ended leaves the set. -/
def dispatch (s : State) (d : Nat) : State :=
  match urgentList (s.drover d) with
  | none => s
  | some l => match (restOf s d l).head? with
    | some m => if dispValid s d (mcOpc m.cmd) then startRoutine s d l m else skipCommand s d l m
    | none => advanceList s d l

/-- The running command of the running list. -/
def runningCmd (s : State) (d : Nat) : Option (RowList × ListCmd) := match runningList (s.drover d) with
  | some l => (restOf s d l).head?.map fun m => (l, m)
  | none => none

/-! ## Launch service, guard point, halt and reset (R240, R242, R249, R295) -/

/-- R237, R12: a stripe stall raises the overrun once per row list and frame. -/
def stripeOverrun (s : State) (d : Nat) (l : RowList) : State :=
  if l.overrun then s
  else
    let s1 := drvStatus (tallyAdd (raiseFault s (drvFault d 3)) 962 1) d 11
    s1.modDrover d fun x => modList x (listKey l) fun y => { y with overrun := true }

/-- A word or a routine stalls. -/
def stall (s : State) (d : Nat) : State := s.modDrover d fun x => { x with act := .stall }

/-- R240, R244: a map-list start: launch service, and the row list enters the ready set; it is skipped where the drover is
halted, the set is full, or the guard point of the frame has passed. -/
def mapListStart (s : State) (d c n row : Nat) : State :=
  let s1 := abandonRestart s d
  let x := s1.contract c
  let l : RowList := { contract := c, frame := n, row := row, startTick := s.wallNow, deadline := launchTick x n - x.guard }
  if (cmdsOf s1 d l).isEmpty then s1
  else if (s1.drover d).act = .halted ∨ 256 ≤ (s1.drover d).ready.length ∨ x.guarded.contains (n, d) then skipRest d s1 l
  else s1.modDrover d fun y => { y with ready := y.ready ++ [l], act := if y.act = .idle then .run else y.act }

/-- R242: at the guard point of frame n the drover gives the frame up. -/
def guardDrover (s : State) (d c n : Nat) : State :=
  let mine := fun (l : RowList) => l.contract == c && l.frame == n
  let s1 := match runningList (s.drover d) with
    | some l => if mine l then stopRun s d else s
    | none => s
  let s2 := skipLists s1 d mine
  s2.modDrover d fun x => { x with act := if x.act = .run ∧ x.ready.isEmpty then .idle else x.act }

/-- R289, R195: at the guard point the ring's entries of frame n are released; stripes of endpoints that lost data and that
were not moved to their last byte are reported lost. -/
def guardRing (s : State) (p c n : Nat) : State :=
  let r := s.ring c p
  let left := (r.owner.filterMap fun g => match g.2 with
    | some o => if o.1 = n then some o.2 else none
    | none => none).foldl (fun xs o => if xs.contains o then xs else xs ++ [o]) []
  let s1 := s.modContract c fun x => { x with
    unsent := x.unsent ++ (left.filter fun o => x.lost.any fun y => y.1 == n && y.2.1 == p && y.2.2.1 == o.1 && y.2.2.2.1 == o.2).map
      fun o => (n, p, o.1, o.2) }
  s1.modRing c p fun r => releaseFrameEntries r n

/-- What a drover keeps for a frame ends at its guard point. -/
def forgetKeys (n : Nat) (slots : List Nat) (k : Nat) : Bool := k / 4096 / 16384 == n && slots.contains (k / 4096 % 16384)
def forgetFrame (s : State) (d n : Nat) (slots : List Nat) : State :=
  s.modDrover d fun x => { x with
    offs := x.offs.filter fun p => !forgetKeys n slots p.1
    offsC := x.offsC.filter fun p => !forgetKeys n slots p.1
    decl := x.decl.filter fun p => !forgetKeys n slots p.1
    declW := x.declW.filter fun p => !forgetKeys n slots p.1 }

/-- The running command ends without restart; every list of the ready set is skipped, whatever its contract and frame. -/
def skipAll (s : State) (d : Nat) : State := skipLists (stopRun s d) d fun _ => true

/-- R249: an uncorrectable control-store error. -/
def haltDrover (s : State) (d : Nat) : State :=
  let pc := (s.drover d).reg.pc
  let s1 := raiseFault (drvStatus (skipAll s d) d 7) (drvFault d 0)
  pendSrc (s1.modDrover d fun x => { x with act := .halted, csErr := BitVec.ofNat 32 (2 ^ 31 + pc) }) (449 + 2 * d)

/-- R244: a corrected control-store error on the word about to execute. -/
def csCorrected (s : State) (d : Nat) : State :=
  let pc := (s.drover d).reg.pc
  abandonRestart ((drvStatus s d 6).modDrover d fun x => { x with csErr := BitVec.ofNat 32 pc }) d

/-- A frame that a drover built. -/
def fromDrover (f : Frame) : Bool := match f.src with
  | .drover _ => true
  | _ => false

/-- R295: every frame of the assembly FIFO is lost, and its pointers are 0. -/
def emptyFifo (s : State) (p : Nat) : State :=
  let x := s.port p
  let gone := (x.current.toList ++ x.class0).filter fromDrover
  let s1 := gone.foldl (fun t f => markLost t p f) s
  s1.modPort p fun y => { y with
    current := y.current.filter fun f => !fromDrover f, class0 := y.class0.filter fun f => !fromDrover f
    asmWork := 0, asmCommit := 0, asmRead := 0, asmUsed := 0 }

/-- R295: a pointer mismatch of the assembly FIFO. -/
def asmReset (s : State) (p : Nat) : State :=
  let s1 := skipAll (emptyFifo s p) p
  let s2 := s1.modDrover p fun x => { x with act := if x.act = .halted then .halted else .idle }
  portKick (setStatus (raiseFault (tallyAdd s2 980 1) 194) (Off.fifoStatus p) 4) p

end Sys2Proof.Machine
end

