-- ==== Sys2Proof/Machine/Nvm.lean ====
section
/-! DEFINITION. Non-volatile memory, firmware images and trims (R481-R485): the commands that write NVM, what ends them, the
settings of a start-up, and the points at which a staged trim takes effect. -/

namespace Sys2Proof.Machine

/-! ## Settings (R482) -/

/-- Registers that `NVM_STORE` saves, by offset. -/
def isSetting (off : Nat) : Bool :=
  [Off.foldCfg, Off.foldId, Off.beaconInterval, Off.peerAsymE, Off.peerAsymW, Off.admitSustain, Off.canvasSize, Off.canvasColour,
   Off.corrCfg, Off.corrStale, Off.egEthertype, Off.egGroupMacLo, Off.egGroupMacHi, Off.ageLimit, Off.tblCfg, Off.linkCfg,
   Off.memCfg].contains off
  || (decide (0x150000 ≤ off) && decide (off < 0x170000) && [0x14, 0x1C, 0x28].contains (off % 4096))
  || (decide (0x200000 ≤ off) && decide (off < 0x202000) && off % 256 == 0)
  || (decide (0x220100 ≤ off) && decide (off < 0x220200))
  || (decide (0x40000 ≤ off) && decide (off < 0x40400) && off % 32 == 8)

/-- The snapshot of every setting in one clock. -/
def snapSettings (s : State) : Settings :=
  { regs := s.regs.filter fun p => isSetting p.1
    taps := s.comp.taps, loaded := s.comp.loaded, lut := s.prx.lut, rsv := s.buf.rsv }

/-- Apply a bank to registers that hold their reset values (R483). -/
def applySettings (s : State) (x : Settings) : State :=
  { s with
    regs := x.regs.foldl (fun m p => mset (regReset p.1) m p.1 p.2) s.regs
    comp := { s.comp with taps := x.taps, loaded := x.loaded }
    prx := { s.prx with lut := x.lut }
    buf := { s.buf with rsv := x.rsv }
    eg := { s.eg with ports := (List.range 32).foldl (fun m p => mmod {} m p fun y => { y with
      urgTokens := 12800 * fld (mget (regReset (Off.urgBurst p)) x.regs (Off.urgBurst p)) 15 0, urgAt := s.wt.now }) s.eg.ports } }

/-! ## Banks (R482, R483) -/

/-- `SEQ` of a bank, 0 where it is not valid. -/
def bankSeq (b : Bank) : Nat := if b.valid then b.seq else 0

/-- The bank in force is B: the one with the higher `SEQ` among the valid ones. -/
def forceB (n : Nvm) : Bool := decide (bankSeq n.bankA < bankSeq n.bankB)

/-- Change the bank that does not hold the highest valid sequence number: A where none is valid. -/
def modSpareBank (n : Nvm) (b : Bool) (f : Bank → Bank) : Nvm :=
  if b then { n with bankB := f n.bankB } else { n with bankA := f n.bankA }

/-- The bank a store goes to is B. -/
def storeToB (n : Nvm) : Bool := !forceB n && n.bankA.valid

/-- The next sequence number. -/
def nextSeq (n : Nvm) : Nat := max (bankSeq n.bankA) (bankSeq n.bankB) + 1

/-- A record of a bank: an offset and a value, or an offset, an index and a value (Table 19-10; 4 B each, entry 140 of the log). -/
def bankRecord (off : Nat) (index : Option Nat) (v : Nat) : List Byte :=
  leBytes 4 off ++ (match index with
    | some i => leBytes 4 i
    | none => []) ++ leBytes 4 v

/-- The records of a bank: registers, scaler taps by set, phase and tap, `PRX_LUT` entries and reserves by index. -/
def bankRecords (x : Settings) : List Byte :=
  (x.regs.flatMap fun p => bankRecord p.1 none p.2.toNat)
    ++ (x.taps.flatMap fun p => p.2.zipIdx.flatMap fun t => bankRecord (Off.sclData 0) (some (16 * p.1 + t.2)) (toPat 16 t.1))
    ++ (x.lut.flatMap fun p => bankRecord Off.prxLutData (some p.1) p.2.toNat)
    ++ (x.rsv.flatMap fun p => match p.2 with
      | some v => bankRecord Off.poolRsv (some p.1) v.toNat
      | none => [])

/-- The bytes of a settings bank (Table 19-10). -/
def bankBytes (b : Bank) : List Byte :=
  if b.empty then List.replicate 16 0xFF
  else
    let rs := bankRecords b.settings
    let body := leBytes 2 0x5354 ++ leBytes 1 1 ++ leBytes 1 0 ++ leBytes 4 b.seq ++ leBytes 4 b.wear ++ leBytes 4 rs.length ++ rs
    body ++ leBytes 4 (crc32 body).toNat

/-! ## Jobs (R481) -/

/-- The slot that is not running. -/
def spareSlot (n : Nvm) : FwSlot := if n.running1 then n.slot0 else n.slot1
def setSpareSlot (n : Nvm) (f : FwSlot) : Nvm := if n.running1 then { n with slot0 := f } else { n with slot1 := f }

/-- A bank while it is written: neither valid nor empty, its store counted. -/
def writtenBank (b : Bank) : Bank := { empty := false, valid := false, seq := 0, wear := b.wear + 1, settings := {} }

/-- A store starts: the snapshot is taken and the bank that is not in force is invalid while it is written. -/
def startStore (s : State) (ref : CmdRef) : State :=
  devEvent s (s.modNvm fun n => { modSpareBank n (storeToB n) writtenBank with writing := some (.store ref (snapSettings s)) })

/-- A stage starts: the slot that is not running is empty; a bad image ends it (R484). -/
def startStage (s : State) (ref : CmdRef) (rel : Option Nat) : State :=
  let s1 := s.modNvm fun n => { setSpareSlot n {} with staged := false }
  match rel with
  | some _ => s1.modNvm fun n => { n with writing := some (.stage ref rel) }
  | none => completeWith s1 ref St.invalidField

/-- Start a job. -/
def startNvm (s : State) (j : NvmJob) : State := match j with
  | .store ref _ => startStore s ref
  | .stage ref rel => startStage s ref rel

/-- The waiting jobs start in order, until one writes. -/
def runNvm : List NvmJob → State → State
  | [], s => s.modNvm fun n => { n with waiting := [] }
  | j :: js, s => if s.nvm.writing.isSome then s.modNvm fun n => { n with waiting := j :: js } else runNvm js (startNvm s j)

/-- A job is offered: it starts, or waits in flight while another writes. -/
def offerNvm (s : State) (j : NvmJob) : State :=
  if s.nvm.writing.isSome then s.modNvm fun n => { n with waiting := n.waiting ++ [j] } else startNvm s j

/-- A store is writing. -/
def storing (s : State) : Bool := match s.nvm.writing with
  | some (.store _ _) => true
  | some (.stage _ _) => false
  | none => false

/-- `NVM_STORE` (R482): refused while a store writes (Table 15-11). -/
def execNvmStore (sq : Fin 1024) (d : Desc) (s : State) : Out :=
  runCmd sq d s fun ref s =>
    check (hdrOk d 0x58 []) St.invalidField ref s fun s =>
    check (!storing s) St.stateConflict ref s fun s =>
    offerNvm s (.store ref {})

/-- R484: what an image of n bytes says of itself: its release, none where `MAGIC`, `VERSION`, size or `CRC` is bad. -/
def imageRelease (bs : List Byte) : Option Nat :=
  if leAt bs 0 2 == 0x4657 && u8 bs 2 == 1 && leAt bs 4 4 == bs.length
      && decide (64 ≤ bs.length) && decide (bs.length ≤ 1966080) && (crc32 (bs.drop 64)).toNat == leAt bs 8 4 then
    some (leAt bs 12 4)
  else none

/-- `FIRMWARE_STAGE` (R484). -/
def execFirmwareStage (sq : Fin 1024) (d : Desc) (h : HostData) (s : State) : Out :=
  runCmd sq d s fun ref s =>
    check (hdrOk d 0x59 [(9, 1), (16, 12)] && (descFld d 9 1 == 0 || descFld d 9 1 == 2)) St.invalidField ref s fun s =>
    fetchOf h ref s fun bs s => offerNvm s (.stage ref (if bs.length = descFld d 24 4 then imageRelease bs else none))

/-- `FIRMWARE_ACTIVATE` (R484): the staged slot is marked to run; the restart follows as a command of its own. -/
def execFirmwareActivate (sq : Fin 1024) (d : Desc) (s : State) : Out :=
  runCmd sq d s fun ref s =>
    check (hdrOk d 0x5A []) St.invalidField ref s fun s =>
    check s.nvm.staged St.stateConflict ref s fun s =>
    completeWith (s.modNvm fun n => { n with activated := some ref }) ref St.ok

/-- The job that writes has ended. -/
def endNvm (s : State) : State :=
  let s1 := devEvent s (s.modNvm fun n => { n with writing := none })
  runNvm s1.nvm.waiting s1

/-- The read-back of a store: the bank is valid, or stays invalid and the other one in force. -/
def storeEnd (s : State) (ref : CmdRef) (x : Settings) (ok : Bool) : State :=
  let q := nextSeq s.nvm
  let s1 := if ok then
      complete (s.modNvm fun n => modSpareBank n (storeToB n) fun b => { b with valid := true, seq := q, settings := x }) ref St.ok q 0 0
    else completeWith (setStatus s Off.nvmStatus 2) ref St.nvmFailed
  pendSrc (endNvm s1) 3

/-- `NVM_STORE_DONE` (R482): source 3, `NVM_STORE` finished. -/
def storeDone (s : State) (ok : Bool) : State := match s.nvm.writing with
  | some (.store ref x) => if s.serving then storeEnd s ref x ok else s
  | some (.stage _ _) => s
  | none => s
def execNvmStoreDone (readBackOk : Bool) (s : State) : Out := .next (storeDone s readBackOk)

/-- The read-back of a stage. -/
def stageEnd (s : State) (ref : CmdRef) (rel : Nat) (ok : Bool) : State :=
  endNvm (if ok then completeWith (s.modNvm fun n => { setSpareSlot n ⟨false, rel⟩ with staged := true }) ref St.ok
    else completeWith (setStatus s Off.nvmStatus 2) ref St.nvmFailed)

/-- `FIRMWARE_STAGE_DONE` (R484). -/
def stageDone (s : State) (ok : Bool) : State := match s.nvm.writing with
  | some (.stage ref rel) => if s.serving then stageEnd s ref (rel.getD 0) ok else s
  | some (.store _ _) => s
  | none => s
def execFirmwareStageDone (readBackOk : Bool) (s : State) : Out := .next (stageDone s readBackOk)

/-- What a restart or a loss of power leaves of NVM: what was being written is cut off (R483). -/
def nvmCut (n : Nvm) : Nvm := { n with writing := none, waiting := [], trims := [] }

/-! ## Trims (R485) -/

/-- The trims that take effect at start-up only (Table 19-12). -/
def startTrim (i : Nat) : Bool := decide (i < 24) || (decide (200 ≤ i) && decide (i < 264)) || (decide (520 ≤ i) && decide (i < 524))

/-- A trim. -/
def trimOf (s : State) (i : Nat) : Trim := mget {} s.nvm.trims i

/-- The trims that take effect at a frame boundary (Table 19-12). -/
def pixelTrim (i : Nat) : Bool := decide (264 ≤ i) && decide (i < 520)

/-- A staged value comes into force. -/
def inForceTrim (t : Trim) : Trim := match t.staged with
  | some v => ⟨v, none⟩
  | none => t

/-- Every staged pixel-path trim takes effect: at the `FRAME_BOUNDARY` of a RUNNING contract, or at once when none runs. -/
def applyPixelTrims (s : State) : State :=
  s.modNvm fun n => { n with trims := n.trims.foldl (fun m p => if pixelTrim p.1 then mset {} m p.1 (inForceTrim p.2) else m) n.trims }

/-- Some contract is RUNNING. -/
def someRunning (s : State) : Bool := s.contracts.any fun p => p.2.state == .running

/-- The firmware stages trims from the factory area. -/
def stageTrims (s : State) (is : List Nat) : State :=
  let s1 := s.modNvm fun n => { n with trims := is.foldl (fun m i => mmod {} m i fun t => { t with staged := some (mget 0 n.trimFactory i) }) n.trims }
  if someRunning s then s1 else applyPixelTrims s1

/-- The point of Table 19-12 at which trim i takes effect has come. That a SerDes lane is idle is what the command says. -/
def trimDue (s : State) (i : Nat) : Bool :=
  if startTrim i then s.pwr.phase == .training else if pixelTrim i then !someRunning s else true

/-- A staged trim takes effect. -/
def trimStep (s : State) (i : Nat) : State :=
  if trimDue s i then s.modNvm fun n => { n with trims := mset {} n.trims i (inForceTrim (mget {} n.trims i)) } else s

/-- `TRIM_APPLY` (R485). -/
def execTrimApply (i : Fin 4096) (s : State) : Out := .next (trimStep s i.val)

end Sys2Proof.Machine
end

