-- ==== Sys2Proof/Machine/Boundary.lean ====
section
/-! DEFINITION. The frame boundary (R21, R46, R52, R53, R146-R151, R244): deferred changes, drift gains and what holds for
the frame from its boundary on. -/

namespace Sys2Proof.Machine

/-! ## Deferred changes (R52) -/

/-- Streams that a layout which still waits names. -/
def waitingStreams (c : Contract) : List Nat := c.deferred.flatMap fun d => match d.change with
  | .layout _ xs _ => xs.map fun x => x.stream
  | _ => []

/-- Streams that a contract still uses. -/
def keptStreams (c : Contract) : List Nat := (c.sources.map fun x => x.stream) ++ waitingStreams c

/-- R53: a layout takes effect: its sources replace the old ones, whose decode windows go. Their slots hold their places until
the contract is FREE (R524). -/
def applyLayout (s : State) (n : Nat) (layers : List Layer) (sources : List Source) (background : List Nat) : State :=
  let s1 := s.modContract n fun c => { c with layers := layers, sources := sources, background := background }
  let c := s1.contract n
  let s2 := s1.modContract n fun c => { c with windows := c.windows.filter fun w => (keptStreams c).contains w.stream }
  { s2 with streams := s2.streams.map fun p =>
      if p.2.owner = some n ∧ !(keptStreams c).contains p.1 then (p.1, { p.2 with owner := none }) else p }

/-- R244: a map image is swapped; the drovers that hold the old one restart, and frames on their way keep it. -/
def applyMap (s : State) (n : Nat) (img : MapImage) : State :=
  let c := s.contract n
  let s1 := s.modContract n fun x => { x with maps := mset none x.maps img.slot (some img) }
  match mget none c.maps img.slot with
  | none => s1
  | some old =>
    let s2 := (imagePorts s1 old).foldl abandonRestart s1
    if c.sets.any fun f => f.maps.any fun p => p.2 == some old then s2 else unplace s2 old.base

/-- R148, R149: a waiting table comes into force. -/
def takeWaiting (p : Slot2) : Slot2 := match p.waiting with
  | some t => { p with inForce := some t, waiting := none }
  | none => p

/-- One deferred change takes effect. -/
def applyChange (n : Nat) (s : State) (d : Deferred) : State :=
  match d.change with
  | .layout ls xs bg => applyLayout s n ls xs bg
  | .map img => applyMap s n img
  | .coef slot => modCoef s n slot exchangeCoef
  | .drift t => modDrift s (8 * n + t) takeWaiting
  | .curve t => modCurve s (4 * n + t) takeWaiting

/-- R52: the changes of the boundary of frame f, in the order they were completed. -/
def applyDeferred (s : State) (n f : Nat) : State :=
  let due := fun (d : Deferred) => d.wait.isNone && decide (d.frame ≤ f)
  ((s.contract n).deferred.filter due).foldl (applyChange n)
    (s.modContract n fun c => { c with deferred := c.deferred.filter fun d => !due d })

/-! ## Drift gains (R150) -/

/-- The reading that counts at a boundary now: the newest one that came before this tick. -/
def driftReading (s : State) (e : EpDrift) : Option Int := match e.newest with
  | some (t, at_) => if at_ < s.wallNow then some t else e.temp
  | none => e.temp

/-- The drift table of an endpoint: that of its record, if one is in force. -/
def driftTableOf (s : State) (n slot : Nat) : Option (List Nat) :=
  match (coefStore s n slot).inForce with
  | some r => if r.drift = 255 then none else (mget {} s.corr.drifts (8 * n + r.drift)).inForce
  | none => none

/-- `CORR_CFG.DRIFT_SLEW`. -/
def driftSlew (s : State) : Nat := fld (s.reg Off.corrCfg) 25 16

/-- The next gains of an endpoint from its table. Gains that were never set start at unity. -/
def nextGains (s : State) (t : List Nat) (e : EpDrift) : List Nat :=
  let temp := driftReading s e
  (List.range 3).map fun ch =>
    let target := driftTarget t (temp.getD (driftDefault t)) ch
    (match temp with
    | some _ => driftStep (driftSlew s) (e.gains.getD ch 32768 : Nat) target
    | none => target).toNat

/-- R150: the gains hold: the readings are stale, or the one that ended a stale period came on this tick. -/
def driftHeld (s : State) (e : EpDrift) : Bool := e.stale || (e.ended && match e.newest with
  | some (_, at_) => decide (s.wallNow ≤ at_)
  | none => false)

/-- The gains of an endpoint from a boundary on, and the temperature they are taken at: unity without a table. -/
def driftAt (s : State) (t : Option (List Nat)) (e : EpDrift) : EpDrift := match t with
  | none => { e with gains := [32768, 32768, 32768], used := (driftReading s e).getD 0 }
  | some t =>
    { e with gains := if driftHeld s e then e.gains else nextGains s t e, used := (driftReading s e).getD (driftDefault t) }

/-- R150: the gains of one endpoint at a boundary. -/
def updateDrift (n : Nat) (s : State) (ep : Endpoint) : State :=
  let t := driftTableOf s n ep.slot
  let e := driftAt s t (mget {} s.corr.eps ep.slot)
  let s1 := { s with corr := { s.corr with eps := mset {} s.corr.eps ep.slot e } }
  if t.isSome && tempOut e.used then setStatus s1 Off.corrStatus 4 else s1

/-! ## The boundary -/

/-- What holds for frame f (R21, R151). -/
def snapshotSet (s : State) (n f : Nat) : FrameSet :=
  let c := s.contract n
  { frame := f, layers := c.layers, sources := c.sources, background := c.background, corrCfg := s.reg Off.corrCfg
    corr := c.endpoints.foldl (fun m e => mset none m e.slot (coefStore s n e.slot).inForce) []
    gains := c.endpoints.foldl (fun m e => match driftTableOf s n e.slot with
      | some _ => mset unityGains m e.slot (mget {} s.corr.eps e.slot).gains
      | none => m) []
    curves := (List.range 4).foldl (fun m i => mset none m i (mget {} s.corr.curves (4 * n + i)).inForce) []
    maps := c.maps }

/-- R46: a COMMITTED contract runs from its first frame on. -/
def startRunning (c : Contract) (f : Nat) : Contract :=
  if c.state = .committed ∧ c.n0 ≤ f then { c with state := .running } else c

/-- The boundary of frame f of contract n. -/
def boundary (s : State) (n f : Nat) : State :=
  let s0 := s.modContract n fun c => startRunning c f
  let s1 := applyDeferred (if (s0.contract n).state = .running then applyPixelTrims s0 else s0) n f
  let s2 := (s1.contract n).endpoints.foldl (updateDrift n) s1
  let set := snapshotSet s2 n f
  s2.modContract n fun c => { c with frame := some f, sets := c.sets ++ [set] }

/-- `FRAME_BOUNDARY` (launch action 0x1; R21). -/
def execFrameBoundary (k : Fin 8192) (s : State) : Out :=
  runLaunch k 0x1 s fun l s => boundary s l.contract l.next

end Sys2Proof.Machine
end

