-- ==== Sys2Proof/Machine/Rings.lean ====
section
/-! DEFINITION. Submission and completion rings: configuration (R373), doorbells (R375-R378), fetching (R380-R384) and
vectors (R387). -/

namespace Sys2Proof.Machine

/-! ## Ring configuration (R373, Tables 15-15, 15-16) -/

/-- `LOG2` is 6-16. -/
def log2Ok (v : Word) : Bool := decide (6 ≤ fld v 4 0) && decide (fld v 4 0 ≤ 16)

/-- A rejected write sets `CFG_REJECT`. -/
def cfgReject (s : State) : State := setStatus s Off.ringStatus (2 ^ 3)

/-- The implemented bits of `SQ_CFG` and `CQ_CFG`. -/
def sqCfgMask : Word := 0x833FF01F
def cqCfgMask : Word := 0x80FF001F

/-- A descriptor read of a ring that is set up anew brings nothing (R373). -/
def forgetReads (s : State) (r : Nat) : State :=
  s.modLink fun l => { l with reads := l.reads.map fun p => (p.1, p.2.map fun m =>
    match m.for_ with
    | .descriptors q _ _ => if q = r then { m with for_ := .engine } else m
    | _ => m) }

/-- A write of `SQ_CFG` of ring r (R373). -/
def sqCfgOp (s : State) (r : Nat) (v : Word) : State :=
  let q := s.sq r
  let w := v &&& sqCfgMask
  if bit q.cfg 31 then
    if bit v 31 then s else s.modSq r fun q => { q with cfg := w }
  else if bit v 31 then
    if log2Ok w && bit (s.cq (fld w 21 12)).cfg 31 then
      forgetReads (s.modSq r fun q => { q with cfg := w, fetch := 0, tail := 0, err := false }) r
    else cfgReject s
  else s.modSq r fun q => { q with cfg := w }

/-- An enabled submission ring names completion ring r. -/
def cqNamed (s : State) (r : Nat) : Bool := s.rings.sqs.any fun p => bit p.2.cfg 31 && sqCqOf p.2 == r

/-- A write of `CQ_CFG` of ring r (R373): while the ring is enabled only `VEC` is written, or `EN` cleared. -/
def cqCfgOp (s : State) (r : Nat) (v : Word) : State :=
  let c := s.cq r
  let w := v &&& cqCfgMask
  if bit c.cfg 31 then
    if bit v 31 then
      levelSample (s.modCq r fun c => { c with cfg := setFld c.cfg 23 16 (fld v 23 16) }) (768 + fld v 23 16)
    else if cqNamed s r then cfgReject s
    else s.modCq r fun c => { c with cfg := w }
  else if bit v 31 then
    if log2Ok w then s.modCq r fun c => { c with cfg := w, tail := 0, head := 0, phase := true, full := false, pend := [] }
    else cfgReject s
  else s.modCq r fun c => { c with cfg := w }

/-- A write of `CQ_COAL`: ignored with `COAL_CNT` 0, else at once (Table 15-14). -/
def cqCoalOp (s : State) (r : Nat) (v : Word) : State :=
  if fld v 7 0 = 0 then s
  else levelSample (s.modCq r fun c => { c with coal := v &&& 0x03FF00FF#32 }) (768 + fld (s.cq r).cfg 23 16)

/-! ## Doorbells (R375, R376, R378) -/

/-- Entries from a to b around a ring of n entries. -/
def ringDist (n a b : Nat) : Nat := (b + n - a % n) % n

/-- A write to the doorbell of a disabled ring. -/
def dbDisabled (s : State) : State := setStatus s Off.ringStatus (2 ^ 1)
def dbRegress (s : State) : State := setStatus s Off.ringStatus (2 ^ 2)

/-- R376, R384: a write of `SQ_TAIL_DB` r. -/
def sqTailOp (s : State) (r : Nat) (v : Word) : State :=
  let q := s.sq r
  let n := ringSize q.cfg
  let t := fld v 15 0 % n
  if !bit q.cfg 31 then dbDisabled s
  else if ringDist n q.fetch t < ringDist n q.fetch q.tail then dbRegress s
  else s.modSq r fun q => { q with tail := t, err := false }

/-- R378: a new head that leaves more entries pending than the old one is a regression. -/
def headRegress (c : Cq) (h : Nat) : Bool :=
  decide (ringDist (ringSize c.cfg) c.head c.tail < ringDist (ringSize c.cfg) h c.tail)

/-- The entries still pending after the head moved (R387). -/
def pendAfter (c : Cq) (h : Nat) : List (Nat × Bool) :=
  c.pend.drop (c.pend.length - ringDist (ringSize c.cfg) h c.tail)

/-- R388: telemetry frames whose completion the head has passed are freed. -/
def tlmFreed (s : State) (r h : Nat) : State :=
  if fld (s.reg Off.tlmCfg) 9 0 = r then
    let c := s.cq r
    let n := ringSize c.cfg
    s.modRings fun x => { x with tlmUsed := x.tlmUsed.filter fun u => decide (ringDist n h u.pos < ringDist n h c.tail) }
  else s

/-- R216: bytes of the proxy's output buffer are freed in the same way. -/
def prxFreed (s : State) (r h : Nat) : State :=
  if s.prx.cq = r then
    let c := s.cq r
    let n := ringSize c.cfg
    { s with prx := { s.prx with used := s.prx.used.filter fun u => decide (ringDist n h u.2.2 < ringDist n h c.tail) } }
  else s

/-- R378, R387: a write of `CQ_HEAD_DB` r. Completions that wait are written by `COMPLETION_WAIT_END`. -/
def cqHeadOp (s : State) (r : Nat) (v : Word) : State :=
  let c := s.cq r
  let h := fld v 15 0 % ringSize c.cfg
  if !bit c.cfg 31 then dbDisabled s
  else if headRegress c h then dbRegress s
  else (prxFreed (tlmFreed s r h) r h).modCq r fun c => { c with head := h, pend := pendAfter c h }

/-! ## Fetching (R380-R384) -/

/-- The stop of ring classes by pool level (Table 11-6): class 3 from level 1, class 2 from level 2, class 1 from 3. -/
def poolLevel (s : State) : Nat := max s.buf.poolA.level (max s.buf.poolB.level s.buf.poolC.level)
def classStopped (s : State) (cls : Nat) : Bool :=
  (decide (1 ≤ cls) && decide (4 - cls ≤ poolLevel s)) || (decide (2 ≤ cls) && extraHeld s)

/-- `CLASS` of a submission ring. -/
def sqClass (q : Sq) : Nat := fld q.cfg 25 24

/-- A descriptor read of the ring is in flight. -/
def ringReading (s : State) (r : Nat) : Bool :=
  s.link.reads.any fun p => match p.2 with
    | some m => (match m.for_ with
      | .descriptors q _ _ => q == r
      | _ => false)
    | none => false

/-- R380: ring r has descriptors to fetch and nothing holds it: enabled, not in error (R384), holding neither a submit
(R382) nor a fenced command (R381), its class not stopped (R300, R478), and no read of it in flight (entry 13). -/
def ringReady (s : State) (r : Nat) (q : Sq) : Bool :=
  bit q.cfg 31 && !q.err && q.fetch != q.tail && q.held.isNone && q.fenced.isNone
    && !classStopped s (sqClass q) && !ringReading s r

/-- Rings of a class with descriptors to fetch, in number order. -/
def readyRings (s : State) (cls : Nat) : List Nat :=
  s.rings.sqs.filterMap fun p => if sqClass p.2 = cls ∧ ringReady s p.1 p.2 then some p.1 else none

/-- R380: round robin: the next ring above the last one served, else the lowest. -/
def nextRing (s : State) (cls : Nat) : Option Nat :=
  let rs := readyRings s cls
  match mfind s.rings.last cls with
  | some l => match rs.find? fun r => decide (l < r) with
    | some r => some r
    | none => rs.head?
  | none => rs.head?

/-- The cycle of R380. -/
def fetchCycle : List Nat := [1, 2, 1, 3, 1, 2, 1]
def cycClass (i : Nat) : Nat := fetchCycle.getD (i % 7) 1

/-- R380: the ring of this turn and the position of the cycle after it. -/
def turn (s : State) : Option (Nat × Nat) :=
  match nextRing s 0 with
  | some r => some (r, s.rings.cyc)
  | none => ((List.range 7).find? fun k => (nextRing s (cycClass (s.rings.cyc + k))).isSome).bind fun k =>
      (nextRing s (cycClass (s.rings.cyc + k))).map fun r => (r, (s.rings.cyc + k + 1) % 7)

/-- R380, R356: descriptors of one turn: at most 8, not past the tail, the ring's end or a 4 KiB page. -/
def turnCount (q : Sq) (room : Nat) : Nat :=
  let n := ringSize q.cfg
  min (min 8 room) (min (ringDist n q.fetch q.tail) (min (n - q.fetch) (64 - q.fetch % 64)))

/-- Tags busy with descriptor reads, and the descriptors they will bring. -/
def readsOut (s : State) : List (Nat × Nat) :=
  s.link.reads.filterMap fun p => match p.2 with
    | some m => (match m.for_ with
      | .descriptors q _ n => some (q, n)
      | _ => none)
    | none => none

/-- The lowest tag neither busy nor quarantined (R356, R359). -/
def freeTag (s : State) : Option Nat :=
  (List.range 4096).find? fun t => (mget none s.link.reads t).isNone && (mget none s.link.quarantine t).isNone

/-- Issue a read of n bytes on a tag, for an engine (R356, R359). -/
def issueRead (s : State) (tag : Nat) (who : ReadFor) (a n : Nat) : State :=
  s.modLink fun l => { l with reads := mset none l.reads tag (some { for_ := who, addr := a, len := n, at_ := s.wt.now })
                              txq := l.txq ++ [.mrd tag a n] }

/-- Issue the read of one turn. -/
def issueTurn (s : State) (r cyc tag n : Nat) : State :=
  let q := s.sq r
  let a := ringBase q.baseLo q.baseHi + 64 * q.fetch
  (issueRead s tag (.descriptors r q.fetch n) a (64 * n)).modRings fun x => { x with cyc := cyc, last := minsert x.last (sqClass q) r }

/-- Places for commands: in flight and on their way (R383). -/
def placesLeft (s : State) : Nat := 16384 - s.rings.inflight.length - ((readsOut s).map (·.2)).sum

/-- `DESCRIPTOR_FETCH` (R380): one turn. Nothing happens where no ring has descriptors to fetch, 32 reads are in flight,
no tag is free, or the link is down (R365); with every place taken the turn sets `INFLIGHT_LIMIT` (R383). -/
def fetchTurn (s : State) : State :=
  if !(s.serving && linkUp s) then s
  else match turn s with
  | none => s
  | some (r, cyc) =>
    if placesLeft s = 0 then setStatus s Off.ringStatus (2 ^ 5)
    else if 32 ≤ (readsOut s).length then s
    else match freeTag s with
      | none => s
      | some tag => issueTurn s r cyc tag (turnCount (s.sq r) (placesLeft s))

/-- A descriptor of 64 bytes. -/
def descOf (bs : List Byte) : Desc := BitVec.ofNat 512 (leNat (bs.take 64))

/-- R377, R381-R383: take the descriptors that a read brought, in order; the fetch pointer passes each. A submit without
a place is held at the ring's head; a fenced command that must wait is held; either ends the taking. -/
def takeDescs : Nat → Nat → List Byte → State → State
  | 0, _, _, s => s
  | n + 1, r, bs, s =>
    let d := descOf bs
    let q := s.sq r
    let s1 := s.modSq r fun q => { q with fetch := (q.fetch + 1) % ringSize q.cfg }
    if !submitFits s d then holdSubmit s1 r d
    else
      let ref := cmdRef r (sqCqOf q) s.wt.now d
      let behind := s.rings.inflight.any fun x => x.sq == r
      let s2 := s1.modRings fun x => { x with inflight := x.inflight ++ [ref] }
      if dFence d && behind then s2.modSq r fun q => { q with fenced := some d }
      else takeDescs n r (bs.drop 64)
        (s2.modRings fun x => { x with fetched := x.fetched ++ [⟨r, sqCqOf q, d, s.wt.now⟩] })

/-- R384: a failed descriptor read stops the ring and writes a completion with `CID` 0xFFFF and `SQ_HEAD` the slot. -/
def fetchFailed (s : State) (r first status : Nat) : State :=
  let q := s.sq r
  offerCpl (setStatus (s.modSq r fun q => { q with err := true }) Off.ringStatus 1)
    { cq := sqCqOf q, cid := 0xFFFF, sqId := r, status := status, head := some first }

/-- R382: a held submit that finds a place is started: it stands first among the fetched descriptors. -/
def releaseHold (s : State) (r : Nat) : State :=
  match (s.sq r).held with
  | some d =>
    if s.serving && submitFits s d then
      let q := s.sq r
      (s.modSq r fun q => { q with held := none }).modRings fun x =>
        { x with inflight := x.inflight ++ [cmdRef r (sqCqOf q) s.wt.now d]
                 fetched := ⟨r, sqCqOf q, d, s.wt.now⟩ :: x.fetched }
    else s
  | none => s

/-- The commands of a ring fetched before the one it holds fenced. -/
def fenceBlocked (s : State) (r : Nat) (d : Desc) : Bool :=
  (s.rings.inflight.takeWhile fun x => !(x.sq == r && x.cid == dCid d)).any fun x => x.sq == r

/-- The tag of the fenced command in flight. -/
def fencedRef (s : State) (r : Nat) (d : Desc) : Option CmdRef :=
  s.rings.inflight.find? fun x => x.sq == r && x.cid == dCid d

/-- R381: a fenced command starts once every earlier command of its ring has completed. -/
def releaseFence (s : State) (r : Nat) : State :=
  match (s.sq r).fenced with
  | some d =>
    if s.serving && !fenceBlocked s r d then
      match fencedRef s r d with
      | some ref => (s.modSq r fun q => { q with fenced := none }).modRings fun x =>
          { x with fetched := ⟨r, ref.cq, d, ref.at_⟩ :: x.fetched }
      | none => s
    else s
  | none => s

/-- R386: write the waiting completions of ring r while it has room, in order. -/
def drainRing : List Completion → Nat → State → State
  | [], _, s => s
  | c :: cs, r, s =>
    if c.cq = r then
      if cplOpen s && cqRoom s r then
        drainRing cs r (writeCpl (s.modRings fun x => { x with waiting := x.waiting.erase c }) c)
      else s
    else drainRing cs r s

/-- R386: the end of a completion's wait. -/
def waitEnd (s : State) (r : Nat) : State :=
  let t := drainRing s.rings.waiting r s
  if t.rings.waiting.any fun c => c.cq == r then t else t.modCq r fun q => { q with full := false }

/-! ## Meanings -/

/-- `SQ_TAIL_DB` r (R376). -/
def execSqTailDb (r : Fin 1024) (v : Word) (s : State) : Out := .next (sqTailOp s r.val v)

/-- `CQ_HEAD_DB` r (R378). -/
def execCqHeadDb (r : Fin 1024) (v : Word) (s : State) : Out := .next (cqHeadOp s r.val v)

/-- `DESCRIPTOR_FETCH` (R380). -/
def execDescriptorFetch (s : State) : Out := .next (fetchTurn s)

/-- `SUBMIT_HOLD_RELEASE` (R382). -/
def execSubmitHoldRelease (r : Fin 1024) (s : State) : Out := .next (releaseHold s r.val)

/-- `FENCE_RELEASE` (R381). -/
def execFenceRelease (r : Fin 1024) (s : State) : Out := .next (releaseFence s r.val)

/-- `COMPLETION_WAIT_END` (R386). -/
def execCompletionWaitEnd (r : Fin 1024) (s : State) : Out := .next (waitEnd s r.val)

/-- `CQ_COAL_TIMEOUT` (R387): the vector of ring r is sampled. -/
def execCqCoalTimeout (r : Fin 1024) (s : State) : Out :=
  .next (levelSample s (768 + fld (s.cq r.val).cfg 23 16))

/-- `SQ_CFG` of the ring that the agent's `RING_SEL` names (R373). -/
def execSqCfgWrite (a : Agent) (v : Word) (s : State) : Out := .next (sqCfgOp s (s.sel a Off.ringSel).toNat v)

/-- `CQ_CFG` of the ring that the agent's `RING_SEL` names (R373). -/
def execCqCfgWrite (a : Agent) (v : Word) (s : State) : Out := .next (cqCfgOp s (s.sel a Off.ringSel).toNat v)

/-- `NOP` (Table 15-5). -/
def execNop (sq : Fin 1024) (d : Desc) (s : State) : Out :=
  runCmd sq d s fun ref s =>
    check (hdrOk d 0x01 []) St.invalidField ref s fun s =>
    completeWith s ref St.ok

end Sys2Proof.Machine
end

