-- ==== Sys2Proof/Machine/Dma.lean ====
section
/-! DEFINITION. The DMA engine (chapter 17): `DMA_COPY` and the channels that carry its pieces. -/

namespace Sys2Proof.Machine

/-! ## Ranges and lists (R430-R432) -/

/-- An entry of a scatter-gather list: address, length and flags (Table 17-1). -/
def sglEntry (bs : List Byte) (i : Nat) : List Byte := slice bs (16 * i) 16

/-- The data ranges of a fetched list: its data entries in order, `CHAIN` entries left out. -/
def sglRanges (bs : List Byte) : List (Nat × Nat) :=
  ((List.range (bs.length / 16)).filter fun i => !(u8 (sglEntry bs i) 12).testBit 1).map
    fun i => (leAt (sglEntry bs i) 0 8, leAt (sglEntry bs i) 8 4)

/-- An entry is well formed: a data entry of 1-16,777,216 B or a `CHAIN` of length 0, reserved bits 0. -/
def sglEntryOk (e : List Byte) : Bool :=
  zeroAt e 13 3 && decide (u8 e 12 < 3)
    && (if (u8 e 12).testBit 1 then leAt e 8 4 == 0 && leAt e 0 8 % 16 == 0
        else decide (1 ≤ leAt e 8 4) && decide (leAt e 8 4 ≤ 16777216))

/-- `LAST` stands on the final entry and on no other. -/
def sglLastOk (bs : List Byte) : Bool :=
  let n := bs.length / 16
  decide (0 < n) && (List.range n).all fun i => (u8 (sglEntry bs i) 12).testBit 0 == decide (i + 1 = n)

/-- The total of ranges. -/
def rangeSum (rs : List (Nat × Nat)) : Nat := (rs.map fun r => r.2).foldl (· + ·) 0

/-- R430: the list that `ADDR` names, read in full. A page crossing or a broken chain is the fetch's own `badList`. -/
def sglOk (bs : List Byte) (addr total : Nat) : Bool :=
  addr % 16 == 0 && bs.length % 16 == 0 && (List.range (bs.length / 16)).all (fun i => sglEntryOk (sglEntry bs i))
    && sglLastOk bs && decide ((sglRanges bs).length ≤ 65536) && rangeSum (sglRanges bs) == total

/-- The scratch region: 256 MiB (R432). -/
def scratchBytes : Nat := 268435456

/-- R432: the device addresses of a transfer. -/
def devSrcOk (rs : List (Nat × Nat)) : Bool := rs.all fun r => decide (r.1 + r.2 ≤ 0xE00000000)
def devDstOk (s : State) (rs : List (Nat × Nat)) : Bool :=
  rs.all fun r => decide (s.mem.scratch ≤ r.1) && decide (r.1 + r.2 ≤ s.mem.scratch + scratchBytes)

/-- R431: every host destination range starts and ends on a multiple of 4. -/
def hostDstOk (rs : List (Nat × Nat)) : Bool := rs.all fun r => r.1 % 4 == 0 && r.2 % 4 == 0

/-! ## Operands of `DMA_COPY` (Table 15-11) -/

def dmaSrcHost (d : Desc) : Bool := (descFld d 9 1).testBit 0
def dmaDstHost (d : Desc) : Bool := (descFld d 9 1).testBit 1
def dmaSrcSgl (d : Desc) : Bool := (descFld d 9 1).testBit 2
def dmaDstSgl (d : Desc) : Bool := (descFld d 9 1).testBit 3
def dmaBarrier (d : Desc) : Bool := (descFld d 9 1).testBit 4
def dmaBytes (d : Desc) : Nat := descFld d 32 4

/-- The fields: 4 B to 1 GiB (R432). -/
def dmaFields (d : Desc) : Bool :=
  hdrOk d 0x38 [(9, 1), (16, 20)] && decide (descFld d 9 1 < 32) && decide (4 ≤ dmaBytes d) && decide (dmaBytes d ≤ 2 ^ 30)

/-- What became of the list at one end: its ranges, or the status it ends the command with. -/
def endRanges (sgl : Bool) (addr total : Nat) (h : HostData) : Except Nat (List (Nat × Nat)) :=
  if !sgl then .ok [(addr, total)]
  else match h with
    | .ok bs => if sglOk bs addr total then .ok (sglRanges bs) else .error St.invalidField
    | .accessError => .error St.hostAccessError
    | .poisoned => .error St.poisonedData
    | .badList => .error St.invalidField

/-- `DMA_STATUS` bits of a failed read (Table 17-3). -/
def dmaErrBit (status : Nat) : Nat := if status = St.hostAccessError then 1 else if status = St.poisonedData then 2 else 0

/-- A command that a failed read ends (Table 17-3). -/
def dmaFail (s : State) (ref : CmdRef) (status : Nat) : State :=
  completeWith (if dmaErrBit status = 0 then s else setStatus s Off.dmaStatus (dmaErrBit status)) ref status

/-! ## Pieces and channels (R427, R428) -/

/-- Bytes of a piece. -/
def pieceBytes : Nat := 65536

/-- The pieces of a transfer, in order. -/
def piecesOf (xfer total : Nat) : List Piece :=
  (List.range (ceilDiv total pieceBytes)).map fun i => ⟨xfer, pieceBytes * i, min pieceBytes (total - pieceBytes * i)⟩

/-- The lowest free channel of a class group. -/
def freeChannel (s : State) (cls : Nat) : Option Nat :=
  ((List.range 4).map (· + 4 * cls)).find? fun n => (mget none s.dma.channels n).isNone

/-- The transfer of a piece. -/
def xferOf (s : State) (p : Piece) : Xfer := (mget none s.dma.xfers p.xfer).getD {}

/-- Set what a channel holds, or a transfer. -/
def setChan (s : State) (n : Nat) (c : Option Chan) : State := s.modDma fun d => { d with channels := mset none d.channels n c }
def setXfer (s : State) (k : Nat) (x : Option Xfer) : State := s.modDma fun d => { d with xfers := mset none d.xfers k x }

/-- The parts of ranges that bytes off .. off + n of the transfer fall in. -/
def cutRanges : List (Nat × Nat) → Nat → Nat → List (Nat × Nat)
  | [], _, _ => []
  | (a, k) :: rs, off, n =>
    if n = 0 then []
    else if k ≤ off then cutRanges rs (off - k) n
    else
      let m := min n (k - off)
      (a + off, m) :: cutRanges rs 0 (n - m)

/-- R428, R431: the MRDs that read lo .. hi of host memory, from cur on: widened to 4-byte bounds, at most 4 KiB each and within
a page (R356); fuel first. Of each: address, length, bytes to drop, bytes wanted. -/
def rangeReads : Nat → Nat → Nat → Nat → List (Nat × Nat × Nat × Nat)
  | 0, _, _, _ => []
  | f + 1, lo, hi, cur =>
    if hi ≤ cur then []
    else
      let e := min (cur / 4096 * 4096 + 4096) ((hi + 3) / 4 * 4)
      (cur, e - cur, lo - cur, min hi e - max lo cur) :: rangeReads f lo hi e

/-- The host reads of a piece, in order. -/
def partsOf (x : Xfer) (p : Piece) : List ReadPart :=
  ((cutRanges x.src p.off p.len).flatMap fun r => rangeReads (r.2 / 4096 + 2) r.1 (r.1 + r.2) (r.1 / 4 * 4)).mapIdx
    fun i r => ⟨i, r.1, r.2.1, r.2.2.1, r.2.2.2⟩

/-- Put a piece on a channel. -/
def loadChannel (s : State) (n : Nat) (p : Piece) : State :=
  let x := xferOf s p
  setChan (s.modDma fun d => { d with waiting := d.waiting.erase p }) n
    (some { piece := p, todo := if x.srcHost then partsOf x p else [] })

/-- R428: channel n issues its next read where a tag is free and fewer than 16 are in flight. -/
def pumpNext (n : Nat) (s : State) : Option State := match mget none s.dma.channels n with
  | none => none
  | some c => match c.todo, freeTag s with
    | r :: rs, some tag =>
      if 16 ≤ c.inflight then none
      else some (issueRead (setChan s n (some { c with todo := rs, inflight := c.inflight + 1 })) tag
        (.piece n r.idx r.skip r.take) r.addr r.len)
    | _, _ => none

/-- R428: all reads that channel n may issue now; fuel first. -/
def pumpChannel : Nat → Nat → State → State
  | 0, _, s => s
  | f + 1, n, s => match pumpNext n s with
    | none => s
    | some t => pumpChannel f n t

/-- R434: once every piece of a barrier has drained, its next flushing read: 4 B of the last address of a channel. -/
def flushNext (k : Nat) (s : State) : Option State := match mget none s.dma.xfers k with
  | none => none
  | some x => match x.flush, freeTag s with
    | (_, a) :: rest, some tag =>
      if x.pieces ≠ 0 then none
      else some (issueRead (setXfer s k (some { x with flush := rest, flushing := x.flushing + 1 })) tag (.barrier k) a 4)
    | _, _ => none

/-- R434: all flushing reads that may be issued now; fuel first. -/
def pumpFlush : Nat → Nat → State → State
  | 0, _, s => s
  | f + 1, k, s => match flushNext k s with
    | none => s
    | some t => pumpFlush f k t

/-- Every read of the engine that may be issued now is. -/
def pump (s : State) : State :=
  if linkUp s && s.domainOn 62 then
    (s.dma.xfers.map (·.1)).foldl (fun t k => pumpFlush 17 k t) ((s.dma.channels.map (·.1)).foldl (fun t n => pumpChannel 16 n t) s)
  else s

/-- No read of a transfer is issued any more. -/
def dropTodo (k : Nat) (c : Chan) : Chan := if c.piece.xfer = k then { c with todo := [] } else c

/-- R435: a failed read ends the command: no further piece is read, pieces already staged are not written. -/
def pieceFailed (s : State) (k : Nat) (status : Nat) : State := match mget none s.dma.xfers k with
  | none => s
  | some x =>
    let s1 := s.modDma fun d => { d with xfers := mset none d.xfers k none, waiting := d.waiting.filter fun p => p.xfer != k
                                         channels := d.channels.map fun c => (c.1, c.2.map (dropTodo k)) }
    dmaFail s1 x.ref status

/-- Table 17-3: with the link down a piece in flight with an end at the host fails. -/
def failUnlinked (s : State) : State :=
  if linkUp s then s
  else (s.dma.channels.filterMap fun c => c.2).foldl (fun t c =>
    let x := xferOf t c.piece
    if x.srcHost || x.dstHost then pieceFailed t c.piece.xfer St.hostAccessError else t) s

/-- R428, R466, R478: deal the waiting pieces to the free channels of their groups, once PD62 is ON. -/
def dealPieces (s : State) : State :=
  if extraHeld s || !s.domainOn 62 then s
  else pump (failUnlinked (s.dma.waiting.foldl (fun t p => match freeChannel t (xferOf t p).cls with
    | some n => loadChannel t n p
    | none => t) s))

/-- A transfer of good ranges begins. -/
def startXfer (s : State) (ref : CmdRef) (d : Desc) (src dst : List (Nat × Nat)) : State :=
  let k := s.dma.next
  let x : Xfer := { ref := ref, cls := sqClass (s.sq ref.sq), srcHost := dmaSrcHost d, dstHost := dmaDstHost d, barrier := dmaBarrier d,
                    src := src, dst := dst, pieces := ceilDiv (dmaBytes d) pieceBytes }
  dealPieces (s.modDma fun m => { m with next := k + 1, xfers := mset none m.xfers k (some x), waiting := m.waiting ++ piecesOf k (dmaBytes d) })

/-- R430-R432: the checks of the ranges, then the transfer. -/
def dmaRanges (ref : CmdRef) (d : Desc) (src dst : List (Nat × Nat)) (s : State) : State :=
  if (dmaSrcHost d || devSrcOk src) && (dmaDstHost d || devDstOk s dst) then
    check (!dmaDstHost d || hostDstOk dst) St.invalidField ref s fun s => startXfer s ref d src dst
  else completeWith (setStatus s Off.dmaStatus 4) ref St.invalidField

/-- `DMA_COPY` once its fields are good: both lists are read in full before anything is written (R430). -/
def dmaRun (ref : CmdRef) (d : Desc) (srcList dstList : HostData) (s : State) : State :=
  match endRanges (dmaSrcSgl d) (descFld d 16 8) (dmaBytes d) (hostSays s srcList) with
  | .error e => dmaFail s ref e
  | .ok src => match endRanges (dmaDstSgl d) (descFld d 24 8) (dmaBytes d) (hostSays s dstList) with
    | .error e => dmaFail s ref e
    | .ok dst => dmaRanges ref d src dst s

/-- `DMA_COPY` (R427-R435). -/
def execDmaCopy (sq : Fin 1024) (d : Desc) (srcList dstList : HostData) (s : State) : Out :=
  runCmd sq d s fun ref s =>
    check (dmaFields d) St.invalidField ref s fun s => dmaRun ref d srcList dstList s

/-! ## The end of a piece -/

/-- The bytes a piece read: from the host what its reads brought, or from device memory (R416: an uncorrectable codeword is
poison). -/
def pieceData (s : State) (x : Xfer) (c : Chan) : HostData :=
  if x.srcHost then .ok (c.data.flatMap fun d => d.2)
  else
    let rs := cutRanges x.src c.piece.off c.piece.len
    if rs.any fun r => memBad s r.1 r.2 then .poisoned else .ok (rs.flatMap fun r => devRead s r.1 r.2)

/-- Write bytes into ranges. -/
def writeRanges (host : Bool) : List (Nat × Nat) → List Byte → State → State
  | [], _, s => s
  | r :: rs, bs, s =>
    writeRanges host rs (bs.drop r.2) (if host then hostWrite s r.1 (bs.take r.2) else memWrite s r.1 (bs.take r.2))

/-- The last 4 bytes that a piece writes. -/
def lastWritten (x : Xfer) (p : Piece) : Nat := match (cutRanges x.dst p.off p.len).getLast? with
  | some r => r.1 + r.2 - 4
  | none => 0

/-- A transfer with nothing left to do completes (Table 17-2). -/
def xferEnd (s : State) (k : Nat) (x : Xfer) : State :=
  if x.pieces = 0 ∧ x.flush = [] ∧ x.flushing = 0 then completeWith (setXfer s k none) x.ref St.ok else pump (setXfer s k (some x))

/-- Channel n has drained a piece of a transfer; a barrier to the host notes the last address of the channel (R434). -/
def pieceDone (s : State) (n : Nat) (x : Xfer) (p : Piece) : State :=
  xferEnd s p.xfer { x with pieces := x.pieces - 1
                            flush := if x.barrier && x.dstHost then minsert x.flush n (lastWritten x p) else x.flush }

/-- The piece of channel n ends. -/
def endPiece (s : State) (n : Nat) (c : Chan) : State :=
  match mget none s.dma.xfers c.piece.xfer with
  | none => s
  | some x => match pieceData s x c with
    | .ok bs => pieceDone (writeRanges x.dstHost (cutRanges x.dst c.piece.off c.piece.len) bs s) n x c.piece
    | _ => pieceFailed s c.piece.xfer St.poisonedData

/-- A channel that has read its piece and drained it becomes free; its group's next piece takes it. -/
def channelFree (s : State) (n : Nat) : State :=
  match mget none s.dma.channels n with
  | none => dealPieces s
  | some c => if c.todo = [] ∧ c.inflight = 0 then dealPieces (endPiece (setChan s n none) n c) else s

/-- The status of a piece whose reads failed (R435). -/
def failStatus (n : Nat) : Nat := if n = 1 then St.poisonedData else St.hostAccessError

/-- A read of a channel ends. The command fails once the last of the piece's reads in flight has ended (R359, R435). -/
def pieceRead (s : State) (n idx skip take : Nat) (h : HostData) : State :=
  match mget none s.dma.channels n with
  | none => s
  | some c =>
    let c1 : Chan := match h with
      | .ok bs => { c with inflight := c.inflight - 1, data := mset [] c.data idx (slice bs skip take) }
      | .poisoned => { c with inflight := c.inflight - 1, todo := [], fail := max c.fail 1 }
      | _ => { c with inflight := c.inflight - 1, todo := [], fail := 2 }
    let s1 := setChan s n (some c1)
    if c1.fail ≠ 0 ∧ c1.inflight = 0 then pump (pieceFailed s1 c1.piece.xfer (failStatus c1.fail)) else pump s1

/-- A flushing read ends (R434). -/
def barrierRead (s : State) (k : Nat) (h : HostData) : State :=
  match mget none s.dma.xfers k with
  | none => s
  | some x => match h with
    | .ok _ => xferEnd s k { x with flushing := x.flushing - 1 }
    | .poisoned => pieceFailed s k St.poisonedData
    | _ => pieceFailed s k St.hostAccessError

/-- `DMA_CHANNEL_FREE` (R427, R428, R434, R435): a channel has drained its piece. -/
def execDmaChannelFree (n : Fin 17) (s : State) : Out := .next (channelFree s n.val)

end Sys2Proof.Machine
end

