-- ==== Sys2Proof/Machine/Flags.lean ====
section
/-! DEFINITION. The ALU of a drover and its flags Z, N and C (Table 9-3). -/

namespace Sys2Proof.Machine

/-- Result of an ALU operation; none where it writes none. Reserved operations write none. -/
def aluResult (op : Nat) (a b : Word) : Option Word :=
  match op with
  | 1 => some b
  | 2 => some (a + b)
  | 3 => some (a - b)
  | 4 => some (a &&& b)
  | 5 => some (a ||| b)
  | 6 => some (a ^^^ b)
  | 7 => some (a <<< (b.toNat % 32))
  | 8 => some (a >>> (b.toNat % 32))
  | 9 => some (a.sshiftRight (b.toNat % 32))
  | 10 => some (BitVec.ofNat 32 (fld a 15 0 * fld b 15 0))
  | 11 => some (if a < b then a else b)
  | 12 => some (if a < b then b else a)
  | 14 => some (BitVec.ofNat 32 ((a.toNat >>> (b.toNat % 32)) % 2 ^ (if fld b 12 8 = 0 then 32 else fld b 12 8)))
  | _ => none

/-- The value whose zero and sign give Z and N: the result, and for `CMP` the difference. -/
def aluTested (op : Nat) (a b : Word) : Option Word := if op = 13 then some (a - b) else aluResult op a b

/-- C: the carry out of bit 31 of `ADD`, the borrow of `SUB` and `CMP`, 0 otherwise. -/
def aluCarry (op : Nat) (a b : Word) : Bool :=
  if op = 2 then decide (2 ^ 32 ≤ a.toNat + b.toNat) else (op == 3 || op == 13) && decide (a < b)

/-- The flags Z, N, C. -/
structure Zncf where
  z : Bool
  n : Bool
  c : Bool
  deriving DecidableEq, Repr

/-- The flags after an operation; `NOP` leaves them. -/
def aluFlags (op : Nat) (a b : Word) (f : Zncf) : Zncf := match aluTested op a b with
  | some r => ⟨r == 0, r.msb, aluCarry op a b⟩
  | none => f

end Sys2Proof.Machine
end

