-- ==== Sys2Proof/Machine/Drovers.lean ====
section
/-! DEFINITION. What a drover executes (R220-R237): microwords of the common, and the vendor routines and subroutines
(R250, R527, R530), whose words are implementation-defined and which run here one frame, one subroutine at a time. -/

namespace Sys2Proof.Machine

/-- What one word sees (R222): the drover at the start of the word, its list and its command. -/
structure DCtx where
  s : State
  d : Nat
  x : Drover
  l : RowList
  m : ListCmd
  w : BitVec 128

/-! ## Operands and conditions (Tables 9-2, 9-6) -/

/-- The entry of a stripe of the command's slot in frame n. -/
def stripeOf (k : DCtx) (sidx : Nat) : Option Entry := entryOf k.s k.l.contract k.d k.l.frame k.m.e sidx

/-- `SREM` of a stripe: `LENGTH` less the committed read offset (R288). -/
def sremOf (k : DCtx) (sidx : Nat) : Nat := match stripeOf k sidx with
  | some y => y.length - mget 0 k.x.offsC (offKey k.l.frame k.m.e.slot sidx)
  | none => 0

/-- The stripe index taken by `STRIPE`. -/
def sidxOf (k : DCtx) : Nat := fld k.x.reg.sidx 10 0

/-- `LKUP`. -/
def lkup (k : DCtx) : Word :=
  BitVec.ofNat 32 (b2n k.x.lkDone * 2 ^ 31 + b2n (k.x.lkDone && k.x.lkMac.isSome) * 2 ^ 30 + k.m.e.slot)

/-- Value of an operand. -/
def operand (k : DCtx) (o : Nat) : Word :=
  if o = 0 then 0
  else if o < 16 then mget 0 k.x.reg.v o
  else if o = 16 then Mw.imm k.w
  else if o < 21 then BitVec.ofNat 32 (fld k.m.cmd (32 * (o - 17) + 31) (32 * (o - 17)))
  else if o = 21 then k.x.reg.lc0.setWidth 32
  else if o = 22 then k.x.reg.lc1.setWidth 32
  else if o = 23 then k.x.reg.fpos
  else if o = 24 then k.x.reg.frect
  else if o = 25 then k.x.reg.pbi
  else if o = 26 then k.x.reg.sidx
  else if o = 27 then k.l.prog
  else if o = 28 then BitVec.ofNat 32 k.l.frame
  else if o = 29 then lkup k
  else if o = 30 then BitVec.ofNat 32 (if k.x.open_ then k.x.frame.length else 0)
  else BitVec.ofNat 32 (sremOf k (sidxOf k))

/-- `LAST`: the command is the last of its row list. -/
def lastCmd (k : DCtx) : Bool := (restOf k.s k.d k.l).length == 1

/-- The conditions of Table 9-6. Reserved codes are false. -/
def condition (k : DCtx) (c : Nat) : Bool :=
  let r := k.x.reg
  match c with
  | 0 => true
  | 1 => r.z
  | 2 => r.n
  | 3 => r.c
  | 4 => r.lc0 == 0
  | 5 => r.lc1 == 0
  | 6 => k.x.lkDone
  | 7 => k.x.lkDone && k.x.lkMac.isSome
  | 8 => entryReady (stripeOf k (sidxOf k))
  | 9 => sremOf k (sidxOf k) == 0
  | 10 => decide (k.x.pb.length ≤ k.x.pbDone)
  | 11 => afRoom k.s k.d
  | 12 => k.x.open_
  | 13 => (pairOf k.s k.d).isSome
  | 14 => match pairOf k.s k.d with
    | some q => decide (k.d < q)
    | none => false
  | 15 => lastCmd k
  | 24 => k.l.prog == 0
  | _ => if 16 ≤ c ∧ c < 24 then (mcFlags k.m.cmd).testBit (c - 16) else false

/-- The condition of the word with `CINV`. -/
def taken (k : DCtx) : Bool := condition k (Mw.cond k.w) != Mw.cinv k.w

/-- The count of the packet-write operation. -/
def pwCount (k : DCtx) : Nat := if Mw.csrc k.w then fld (operand k (Mw.pwsrc k.w)) 15 0 else Mw.cnt k.w

/-! ## Pixel fetch (R230-R232) -/

/-- Enclosing px of one fetch: 32-px-aligned canvas columns (R232). -/
def enclosing (canvasX w h : Nat) : Nat := (ceilDiv (canvasX + w) 32 * 32 - canvasX / 32 * 32) * h

/-- One fetched pixel: three drive codes, none at all where its memory is poisoned; and whether it is out of range (R231). -/
def fetchPixel (k : DCtx) (x y : Nat) : List Nat × Bool :=
  if x < k.m.e.tileW ∧ y < k.m.e.tileH ∧ (k.m.e.tileY + y) / 256 ≤ k.m.row.prow then
    let a := pxAddr k.s k.l.frame (k.m.e.tileX + x) (k.m.e.tileY + y)
    let bs := memRead k.s a 6
    (if memBad k.s a 6 then [] else [leAt bs 0 2, leAt bs 2 2, leAt bs 4 2], false)
  else ([0, 0, 0], true)

/-- R241: a fetch of n px would go beyond the declared px; fetches after a restart are not counted. -/
def overFetch (k : DCtx) (decl : Map Declared) (n : Nat) : Bool :=
  !k.l.restarted && decide (k.m.row.fetchPx < (mget {} decl (declKey k.l k.m)).fetchPx + n)

/-- The drover's counters after a fetch of n px. -/
def countFetch (k : DCtx) (decl : Map Declared) (n : Nat) : Map Declared :=
  if k.l.restarted || overFetch k decl n then decl
  else mmod {} decl (declKey k.l k.m) fun x => { x with fetchPx := x.fetchPx + n }

/-- Sizes that a `FETCH` may have. -/
def fetchW (k : DCtx) : Nat := fld k.x.reg.frect 15 0
def fetchH (k : DCtx) : Nat := fld k.x.reg.frect 31 16
def fetchOk (k : DCtx) : Bool := decide (1 ≤ fetchW k * fetchH k) && decide (fetchW k * fetchH k ≤ 2048)

/-- The pixels of a `FETCH`. -/
def fetchPixels (k : DCtx) : List (List Nat × Bool) :=
  (List.range (fetchW k * fetchH k)).map fun i =>
    fetchPixel k (fld k.x.reg.fpos 15 0 + i % fetchW k) (fld k.x.reg.fpos 31 16 + i / fetchW k)

/-- `FETCH`: the buffer's contents are replaced; the new pixels are yet to be delivered. -/
def doFetch (k : DCtx) (s : State) : State :=
  let n := enclosing (k.m.e.tileX + fld k.x.reg.fpos 15 0) (fetchW k) (fetchH k)
  let past := overFetch k k.x.declW n
  let ps := fetchPixels k
  let px := if past then ps.map fun _ => [0, 0, 0] else ps.map fun p => p.1
  let s1 := s.modDrover k.d fun x => { x with pbW := fetchW k, pbH := fetchH k, pb := px, pbDone := 0, declW := countFetch k x.declW n }
  let s2 := if past then drvStatus s1 k.d 3 else s1
  if ps.any fun p => p.2 then drvStatus s2 k.d 2 else s2

/-! ## Packing (R233) -/

/-- The packed bytes of pixels of depth d. -/
def packBytes (d : Nat) (ps : List (List Nat)) : List Byte :=
  fromBits (ps.flatMap fun p => p.flatMap fun v => putBits d (v % 2 ^ d))

/-- Bytes that n pixels pack into. -/
def packLen (f n : Nat) : Nat := ceilDiv (3 * fmtDepth f * n) 8

/-- Pixel-buffer index i of a `PACK`: 16 bits, as `PBI` holds it. -/
def packIndex (k : DCtx) (i : Nat) : Nat :=
  ((fld k.x.reg.pbi 15 0 : Int) + i * sext 16 (fld k.x.reg.pbi 31 16)) % 65536 |>.toNat

/-- The pixels that a `PACK` of n pixels reads, and whether an index is out of range. -/
def packPixels (k : DCtx) (n : Nat) : List (List Nat) × Bool :=
  let idx := (List.range n).map (packIndex k)
  (idx.map fun i => k.x.pb.getD i [0, 0, 0], idx.any fun i => decide (k.x.pb.length ≤ i))

/-- Pixels that must have been delivered for a `PACK` of n pixels (R230). -/
def packNeed (k : DCtx) (n : Nat) : Nat :=
  maxOf ((((List.range n).map (packIndex k)).filter fun i => decide (i < k.x.pb.length)).map (· + 1))

/-! ## Packet writing (Table 9-8) -/

/-- `EHDR`: destination, source and EtherType (R236). The microcode writes the rest of a TILE frame (R260, R262). -/
def drvDest (s : State) (x : Drover) (d : Nat) : Nat :=
  x.lkMac.getD (floodMac s d)
def ehdr (k : DCtx) : List Byte := ethHeader k.s k.d (drvDest k.s k.x k.d)

/-- Bytes that `STRIPE` moves. -/
def stripeMove (k : DCtx) : Nat :=
  let at_ := mget 0 k.x.offs (offKey k.l.frame k.m.e.slot (sidxOf k))
  match stripeOf k (sidxOf k) with
  | some y => min (min (pwCount k) (sremOf k (sidxOf k))) (y.length - at_)
  | none => 0

/-- Bytes that the word's packet-write operation appends. -/
def pwBytes (k : DCtx) : List Byte :=
  match Mw.pw k.w with
  | 2 => ehdr k
  | 3 => beBytes (min 4 (pwCount k)) (Mw.imm k.w).toNat
  | 4 => beBytes (min 4 (pwCount k)) (operand k (Mw.pwsrc k.w)).toNat
  | 5 => packBytes (fmtDepth (Mw.fmt k.w)) (packPixels k (pwCount k)).1
  | 6 => match stripeOf k (sidxOf k) with
    | some y => slice y.bytes (mget 0 k.x.offs (offKey k.l.frame k.m.e.slot (sidxOf k))) (stripeMove k)
    | none => []
  | 8 => zeros (pwCount k)
  | _ => []

/-- How many bytes that is. -/
def pwLen (k : DCtx) : Nat :=
  match Mw.pw k.w with
  | 2 => 14
  | 3 => min 4 (pwCount k)
  | 4 => min 4 (pwCount k)
  | 5 => packLen (Mw.fmt k.w) (pwCount k)
  | 6 => stripeMove k
  | 8 => pwCount k
  | _ => 0

/-- R227: the word's input or space is not available. -/
def pwStalls (k : DCtx) : Bool :=
  match Mw.pw k.w with
  | 1 => !afRoom k.s k.d
  | 2 => !k.x.lkDone
  | 5 => decide (k.x.pbDone < packNeed k (pwCount k))
  | 6 => !entryReady (stripeOf k (sidxOf k))
  | _ => false

/-- R235: sequence errors that do not wait for input. -/
def formError (k : DCtx) : Bool :=
  let p := Mw.pw k.w
  (p == 1 && k.x.open_) || (decide (2 ≤ p) && decide (p ≤ 10) && !k.x.open_)
    || (p == 7 && decide (k.x.frame.length < Mw.ofs k.w + 2))
    || (Mw.pf k.w == 1 && !fetchOk k)
    || (Mw.nam k.w == 2 && taken k && decide (4 ≤ k.x.reg.stack.length))
    || (Mw.nam k.w == 3 && taken k && k.x.reg.stack.isEmpty)
    || (p != 6 && decide (9212 < k.x.frame.length + pwLen k))

/-- R248: the word meets poisoned data; for `STRIPE` the stripe being moved. `hit` is a parity error (R294). -/
def meetsPoison (k : DCtx) (hit : Bool) : Option (Option (Nat × Nat)) :=
  if Mw.pw k.w = 6 then match stripeOf k (sidxOf k) with
    | some y => if y.poison || hit then some (some (k.m.e.slot, sidxOf k)) else none
    | none => none
  else if Mw.pw k.w = 5 ∧ (hit ∨ (packPixels k (pwCount k)).1.any List.isEmpty) then some none
  else none

/-- R290, R294: a parity error read from a ring's entry poisons the entry and sets `FIFO_STATUS.CSF_PARITY`. -/
def parityRead (s : State) (k : DCtx) (hit : Bool) (st : Option (Nat × Nat)) : State := match st with
  | some (_, sidx) =>
    if hit then
      setStatus (match entryOf s k.l.contract k.d k.l.frame k.m.e sidx with
        | some y => writeEntry s k.l.contract k.d k.l.frame k.m.e sidx { y with poison := true }
        | none => s) (Off.fifoStatus k.d) 2
    else s
  | none => s

/-- A frame with two bytes replaced. -/
def patched (bs : List Byte) (off v : Nat) : List Byte := bs.take off ++ beBytes 2 v ++ bs.drop (off + 2)

/-- The packet-write operation acts; `COMMIT` comes after the word's results. -/
def doPw (k : DCtx) (s : State) : State :=
  match Mw.pw k.w with
  | 1 => openFrame s k.d
  | 6 =>
    let key := offKey k.l.frame k.m.e.slot (sidxOf k)
    let n := stripeMove k
    (appendFrame s k.d (pwBytes k)).modDrover k.d fun x =>
      { x with offs := mmod 0 x.offs key (· + n)
               moved := if n = 0 ∨ x.moved.contains (k.m.e.slot, sidxOf k) then x.moved else x.moved ++ [(k.m.e.slot, sidxOf k)] }
  | 7 => s.modDrover k.d fun x => { x with frame := patched x.frame (Mw.ofs k.w) (fld (operand k (Mw.pwsrc k.w)) 15 0) }
  | 10 => (rewindFifo s k.d).modDrover k.d fun x =>
      { x with open_ := false, frame := [], moved := [], offs := x.offsC }
  | _ => appendFrame s k.d (pwBytes k)

/-- `PACK` leaves `PBI` at the index after the last pixel, and reports an index out of range. -/
def afterPack (k : DCtx) (s : State) : State :=
  if Mw.pw k.w = 5 then
    let s1 := s.modDrover k.d fun x =>
      { x with reg := { x.reg with pbi := setFld x.reg.pbi 15 0 (packIndex k (pwCount k)) } }
    if (packPixels k (pwCount k)).2 then drvStatus s1 k.d 2 else s1
  else s

/-! ## Results (R222, R225) -/

/-- `DST` of the word; 0 where nothing is written. With `PACK` the low half of `PBI` is left open: a free value. -/
def writeDst (k : DCtx) (free : Nat) (r : DReg) (o : Nat) (v : Word) : DReg :=
  if o = 0 then r
  else if o < 16 then { r with v := mset 0 r.v o v }
  else if o = 23 then { r with fpos := v }
  else if o = 24 then { r with frect := v }
  else if o = 25 then { r with pbi := if Mw.pw k.w = 5 then setFld v 15 0 (Config.freeNat free) else v }
  else if o = 26 then { r with sidx := v }
  else if o = 27 then { r with staged := some v }
  else r

/-- `LCOP`. -/
def writeLc (k : DCtx) (a : Word) (r : DReg) : DReg :=
  match Mw.lcop k.w with
  | 1 => { r with lc0 := BitVec.ofNat 16 (Mw.cnt k.w) }
  | 2 => { r with lc1 := BitVec.ofNat 16 (Mw.cnt k.w) }
  | 3 => { r with lc0 := BitVec.ofNat 16 a.toNat }
  | 4 => { r with lc1 := BitVec.ofNat 16 a.toNat }
  | _ => r

/-- The next address (Table 9-5). -/
def nextPc (k : DCtx) (r : DReg) : DReg :=
  let inc := (r.pc + 1) % 16384
  let t := Mw.target k.w
  match Mw.nam k.w with
  | 1 => { r with pc := if taken k then t else inc }
  | 2 => if taken k then { r with pc := t, stack := inc :: r.stack } else { r with pc := inc }
  | 3 => if taken k then { r with pc := r.stack.headD 0, stack := r.stack.drop 1 } else { r with pc := inc }
  | 5 => if k.x.reg.lc0 = 0 then { r with pc := inc } else { r with pc := t, lc0 := r.lc0 - 1 }
  | 6 => if k.x.reg.lc1 = 0 then { r with pc := inc } else { r with pc := t, lc1 := r.lc1 - 1 }
  | _ => { r with pc := inc }

/-- The registers at the end of the word. -/
def wordRegs (k : DCtx) (free : Nat) (r : DReg) : DReg :=
  let a := operand k (Mw.srcA k.w)
  let b := operand k (Mw.srcB k.w)
  let f := aluFlags (Mw.alu k.w) a b ⟨k.x.reg.z, k.x.reg.n, k.x.reg.c⟩
  let r1 := match aluResult (Mw.alu k.w) a b with
    | some v => writeDst k free r (Mw.dst k.w) v
    | none => r
  nextPc k { writeLc k a r1 with z := f.z, n := f.n, c := f.c }

/-- `PACK` and a write of `PBI` in one word leave one free value. -/
def drawsFree (k : DCtx) : Bool := Mw.pw k.w == 5 && Mw.dst k.w == 25 && (aluResult (Mw.alu k.w) 0 0).isSome

/-- The word acts (R222): packet writer and fetch, results, commit, and the end of the command. -/
def actWord (k : DCtx) : State :=
  let s1 := afterPack k (doPw k k.s)
  let s2 := if Mw.pf k.w = 1 then doFetch k s1 else s1
  let s3 := { s2.modDrover k.d fun x => { x with reg := wordRegs k k.s.free x.reg } with free := k.s.free + b2n (drawsFree k) }
  if Mw.pw k.w = 9 then
    if overCommit (s3.drover k.d) k.l k.m then overDeclared s3 k.d
    else
      let s4 := commitFrame s3 k.d k.l k.m
      if Mw.nam k.w = 7 then endCommand s4 k.d true else s4
  else if Mw.nam k.w = 7 then
    if (s3.drover k.d).open_ then seqError s3 k.d else endCommand s3 k.d true
  else s3

/-- R229: one more word issued, or clock of `WAIT`. -/
def countStep (s : State) (d n : Nat) : State := s.modDrover d fun x => { x with reg := { x.reg with steps := x.reg.steps + n } }
def stepsOver (s : State) (d : Nat) : Bool := decide (fld (s.reg (Off.drvStepMax d)) 23 0 < (s.drover d).reg.steps)

/-- A word whose condition and inputs are there. -/
def issueWord (k : DCtx) (hit : Bool) : State :=
  let s1 := countStep (k.s.modDrover k.d fun x => { x with act := .run }) k.d 1
  if stepsOver s1 k.d then stepLimit s1 k.d
  else match meetsPoison k hit with
    | some st => poisoned (parityRead s1 k hit st) k.d st
    | none =>
      if decide (9212 < k.x.frame.length + pwLen k) then seqError s1 k.d
      else actWord { k with s := s1, x := s1.drover k.d }

/-- One microword (R222, R225-R229). -/
def execWord (k : DCtx) (hit : Bool) : State :=
  if Mw.nam k.w = 4 ∧ !taken k then
    let s1 := countStep (k.s.modDrover k.d fun x => { x with act := .wait }) k.d 1
    if stepsOver s1 k.d then stepLimit s1 k.d else s1
  else if formError k then seqError (countStep k.s k.d 1) k.d
  else if pwStalls k then stall (if Mw.pw k.w = 6 then stripeOverrun k.s k.d k.l else k.s) k.d
  else issueWord k hit

/-! ## Transport headers of tile frames (Tables 10-2, 10-4, 10-5) -/

def rawHeader (d : Nat) (l : RowList) (m : ListCmd) (off n fmt : Nat) : List Byte :=
  commonHeader 1 0 d m.e.slot 0
    ++ beBytes 4 l.frame ++ beBytes 1 l.contract ++ beBytes 1 fmt ++ zeros 2 ++ beBytes 4 off ++ beBytes 2 n ++ zeros 10
def swardHeader (d : Nat) (l : RowList) (m : ListCmd) (sidx off n : Nat) : List Byte :=
  commonHeader 2 0 d m.e.slot 0
    ++ beBytes 4 l.frame ++ beBytes 1 l.contract ++ beBytes 1 0 ++ beBytes 2 sidx ++ beBytes 4 off ++ beBytes 2 n ++ zeros 10

/-! ## Vendor subroutines (Table 9-13) -/

/-- The subroutine at the pc, called from the common. -/
def atSub (x : Drover) : Bool := (x.reg.pc == 0x100 || x.reg.pc == 0x140) && decide (128 ≤ fld x.cmd 7 0)

/-- Registers that a subroutine leaves: V13-V15 and the flags hold free values. -/
def subRegs (free : Nat) (r : DReg) : DReg :=
  let g := Config.freeNat (free + 3)
  { r with v := mset 0 (mset 0 (mset 0 r.v 13 (BitVec.ofNat 32 (Config.freeNat free))) 14 (BitVec.ofNat 32 (Config.freeNat (free + 1))))
             15 (BitVec.ofNat 32 (Config.freeNat (free + 2)))
           z := g.testBit 0, n := g.testBit 1, c := g.testBit 2, pc := r.stack.headD 0, stack := r.stack.drop 1 }

/-- A subroutine writes `EHDR` and its header and returns. How many words it issues is left open (R527). -/
def execSub (k : DCtx) : State :=
  let v := fun (i : Nat) => (mget 0 k.x.reg.v i).toNat
  if !k.x.open_ then seqError (countStep k.s k.d 1) k.d
  else if !k.x.lkDone then stall k.s k.d
  else
    let s1 := countStep (k.s.modDrover k.d fun x => { x with act := .run }) k.d (Config.freeNat (k.s.free + 4) % 49)
    if stepsOver s1 k.d then stepLimit s1 k.d
    else if 9212 < k.x.frame.length + 46 then seqError s1 k.d
    else
      let h := if k.x.reg.pc = 0x100 then rawHeader k.d k.l k.m (v 10) (v 11) (v 12) else swardHeader k.d k.l k.m (v 10) (v 11) (v 12)
      let s2 := appendFrame s1 k.d (ehdr k ++ h)
      { s2.modDrover k.d fun x => { x with reg := subRegs k.s.free x.reg } with free := k.s.free + 5 }

/-! ## Vendor routines (R250, R527, R530) -/

/-- The next frame of a vendor routine. -/
inductive VFrame where
  /-- every frame is built -/
  | done
  /-- its stripe is not there yet -/
  | waits
  /-- poisoned input, of a stripe or of the canvas -/
  | poison (stripe : Option (Nat × Nat))
  /-- header and payload, the px of each fetch of a row, the words of `PACK` and `FETCH`, and the stripe bytes moved -/
  | frame (bytes : List Byte) (fetches : List Nat) (ops : Nat) (stripe : Option (Nat × Nat))

/-- `SWARD_STRIPE`: the limit 0 means 9,212. -/
def stripeFrame (k : DCtx) (hit : Bool) : VFrame :=
  let sidx := mcArg k.m.cmd 0 % 2048
  let lim := if mcArg k.m.cmd 1 % 16384 = 0 then 9212 else mcArg k.m.cmd 1 % 16384
  let off := k.l.prog.toNat * (lim - 46)
  match stripeOf k sidx with
  | none => .waits
  | some y =>
    if !(y.complete || y.absent) then .waits
    else if y.length ≤ off then .done
    else if y.poison || hit then .poison (some (k.m.e.slot, sidx))
    else
      let n := min (lim - 46) (y.length - off)
      .frame (swardHeader k.d k.l k.m sidx off n ++ slice y.bytes off n) [] 0 (some (sidx, n))

/-- The tile row that is sent as row i of a `RAW_ROWS` command, and whether it is reversed. -/
def rawRow (m : BitVec 128) (i : Nat) : Nat × Bool :=
  let y0 := mcArg m 0 % 65536
  let h := mcArg m 0 / 65536
  let fl := mcFlags m
  (if fl.testBit 1 then y0 + h - 1 - i else y0 + i, fl.testBit 0 != (fl.testBit 2 && i % 2 == 1))

/-- The pixels of one row as sent. -/
def rowPixels (k : DCtx) (past : Bool) (r : Nat × Bool) : List (List Nat) :=
  (List.range k.m.e.tileW).map fun i =>
    if past then [0, 0, 0] else (fetchPixel k (if r.2 then k.m.e.tileW - 1 - i else i) r.1).1

/-- Rows with the counters that their fetches meet, a fetch a row: the px, and whether the row reads zeros (R241). -/
def rowFetches (k : DCtx) (n : Nat) : Nat → Map Declared → List Bool
  | 0, _ => []
  | i + 1, decl => overFetch k decl n :: rowFetches k n i (countFetch k decl n)

/-- R262: the packed bytes of n pixels, filled with 0 bytes to ceil(n / group) groups. -/
def wholeGroups (fmt n : Nat) (bs : List Byte) : List Byte := bs ++ zeros (ceilDiv n (fmtGroup fmt) * fmtBytes fmt - bs.length)

/-- `RAW_ROWS`. -/
def rowsFrame (k : DCtx) (hit : Bool) : VFrame :=
  let h := mcArg k.m.cmd 0 / 65536
  let per := mcArg k.m.cmd 1 / 256 % 256
  let fmt := mcArg k.m.cmd 1 % 8
  let first := k.l.prog.toNat * per
  if h ≤ first then .done
  else
    let n := min per (h - first)
    let w := k.m.e.tileW
    let fp := enclosing k.m.e.tileX w 1
    let rows := (List.range n).map fun i => rawRow k.m.cmd (first + i)
    let px := ((rowFetches k fp n k.x.declW).zip rows).flatMap fun r => rowPixels k r.1 r.2
    if hit || px.any List.isEmpty then .poison none
    else .frame (rawHeader k.d k.l k.m (mcArg k.m.cmd 2 + first * w) (n * w) fmt ++ wholeGroups fmt (n * w) (packBytes (fmtDepth fmt) px))
      (List.replicate n fp) (2 * ceilDiv w 2048 * n) none

/-- `BLANK_RUN`. -/
def runFrame (k : DCtx) : VFrame :=
  let fmt := mcArg k.m.cmd 1 % 8
  let per := blankPx fmt
  let first := k.l.prog.toNat * per
  if mcArg k.m.cmd 0 ≤ first then .done
  else
    let n := min per (mcArg k.m.cmd 0 - first)
    .frame (rawHeader k.d k.l k.m (mcArg k.m.cmd 2 + first) n fmt ++ wholeGroups fmt n (zeros (packLen fmt n))) [] 1 none

/-- The next frame of the running vendor command. -/
def vendorFrame (k : DCtx) (hit : Bool) : VFrame :=
  match mcOpc k.m.cmd with
  | 1 => stripeFrame k hit
  | 2 => rowsFrame k hit
  | 3 => runFrame k
  | _ => .done

/-- A vendor frame is built: the words it took (R527, at most 48 and one for each `PACK` and `FETCH`; the number is left
open), its fetches, its bytes and its commit. -/
def buildVendor (k : DCtx) (bytes : List Byte) (fetches : List Nat) (ops : Nat) (stripe : Option (Nat × Nat)) : State :=
  let s1 := { countStep (k.s.modDrover k.d fun x => { x with act := .run }) k.d (Config.freeNat k.s.free % (49 + ops)) with free := k.s.free + 1 }
  if stepsOver s1 k.d then stepLimit s1 k.d
  else
    let past := (fetches.foldl (fun (p : Bool × Map Declared) n => (p.1 || overFetch k p.2 n, countFetch k p.2 n)) (false, k.x.declW))
    let s2 := if past.1 then drvStatus s1 k.d 3 else s1
    let s3 := (appendFrame (openFrame s2 k.d) k.d (ehdr k ++ bytes)).modDrover k.d fun x =>
      let y := { x with declW := past.2, reg := { x.reg with staged := some (k.l.prog + 1) } }
      match stripe with
      | some (sidx, n) => { y with offs := mmod 0 y.offs (offKey k.l.frame k.m.e.slot sidx) (· + n), moved := [(k.m.e.slot, sidx)] }
      | none => y
    if overCommit (s3.drover k.d) k.l k.m then overDeclared s3 k.d else commitFrame s3 k.d k.l k.m

/-- One event of a vendor routine: its next frame, its end, or a stall. -/
def execVendor (k : DCtx) (hit : Bool) : State :=
  match vendorFrame k hit with
  | .done => endCommand k.s k.d true
  | .waits => stall (stripeOverrun k.s k.d k.l) k.d
  | .poison st => poisoned (parityRead k.s k hit st) k.d st
  | .frame bytes fetches ops stripe =>
    if afRoom k.s k.d && k.x.lkDone then buildVendor k bytes fetches ops stripe else stall k.s k.d

/-! ## The commands -/

/-- Config's part of a drover's control store, and the common (R219). -/
def storeWord (x : Drover) (a : Nat) : BitVec 128 := if a < 0x2000 then Config.vendorWord a else mget 0 x.store a

/-- R230: pixels of the last `FETCH` arrive in index order, at least `need` of them; how many more is left open. -/
def pbArrive (s : State) (d need : Nat) : State :=
  let x := s.drover d
  let n := x.pb.length
  let at_ := max x.pbDone (min need n)
  if n ≤ x.pbDone then s
  else { s.modDrover d fun x => { x with pbDone := at_ + Config.freeNat s.free % (n - at_ + 1) } with free := s.free + 1 }

/-- What the running command does next; `hit` is a parity error that its data meets. -/
def runNext (s : State) (d : Nat) (l : RowList) (m : ListCmd) (hit : Bool) : State :=
  let x := s.drover d
  let k : DCtx := ⟨s, d, x, l, m, storeWord x x.reg.pc⟩
  if mcOpc m.cmd < 4 then execVendor k hit
  else if atSub x then execSub k
  else execWord k hit

/-- Pixels that the word of the running command waits for. -/
def pbNeed (s : State) (d : Nat) : Nat := match runningCmd s d with
  | some (l, m) =>
    let x := s.drover d
    let k : DCtx := ⟨s, d, x, l, m, storeWord x x.reg.pc⟩
    if Mw.pw k.w = 5 then packNeed k (pwCount k) else 0
  | none => 0

/-- The drover runs or dispatches. -/
def droverGo (s : State) (d need : Nat) (hit : Bool) : State :=
  let s1 := pbArrive s d need
  match runningCmd s1 d with
  | some (l, m) => runNext s1 d l m hit
  | none => dispatch s1 d

/-- The drover works: its domain is ON, it is not halted, and the module runs. -/
def droverLive (s : State) (d : Nat) : Bool := s.domainOn (drvDomain d) && (s.drover d).act != .halted && s.serving

/-- `DROVER_MICROWORD` (R222): a dispatch, one word of the running command, or an error that reaches the drover. -/
def microword (s : State) (d : Nat) (ev : DroverEvent) : State :=
  if ev = .asmMismatch then (if s.serving then asmReset s d else s)
  else if !droverLive s d then s
  else match ev with
    | .asmMismatch => s
    | .csfMismatch c => ringReset s c.val d
    | .uncorrectable => if (runningCmd s d).isSome then haltDrover s d else s
    | .corrected => if (runningCmd s d).isSome then csCorrected s d else s
    | .poison => if (s.drover d).act = .stall then s else droverGo s d 0 true
    | .none => if (s.drover d).act = .stall then s else droverGo s d 0 false
def execDroverMicroword (dr : Fin 32) (ev : DroverEvent) (s : State) : Out := .next (microword s dr.val ev)

/-- `STALL_RELEASE` (R227): the stalled word takes its input; without it the word stays. -/
def execStallRelease (dr : Fin 32) (s : State) : Out :=
  .next (if droverLive s dr.val && (s.drover dr.val).act == .stall then droverGo s dr.val (pbNeed s dr.val) false else s)

/-- `LEARNING_LOOKUP_RETURN` (R223, R236, R324): the lookup of the command's slot returns. -/
def lookupReturn (s : State) (d : Nat) : State :=
  match runningCmd s d with
  | some (_, m) =>
    if (s.drover d).lkDone then s
    else
      let e := lookupSlot s m.e.slot
      let s1 := s.modDrover d fun x => { x with lkDone := true, lkMac := e.map fun y => y.mac }
      if e.isSome then s1 else drvStatus (drvTally s1 d 4 1) d 10
  | none => s
def execLearningLookupReturn (dr : Fin 32) (s : State) : Out :=
  .next (if droverLive s dr.val then lookupReturn s dr.val else s)

/-- `DROVER_RELOAD_DONE` (R249): the halted drover returns to `IDLE`. -/
def reloadDone (s : State) (d : Nat) : State :=
  if (s.drover d).act = .halted ∧ s.domainOn (drvDomain d) then s.modDrover d fun x => { x with act := .idle } else s
def execDroverReloadDone (dr : Fin 32) (s : State) : Out := .next (reloadDone s dr.val)

/-- `DROVER_MAP_LIST_START` (launch action 0x6; R240). Where the drover's domain is not ON yet, the start waits (R12). -/
def execDroverMapListStart (k : Fin 8192) (s : State) : Out :=
  runLaunch k 0x6 s fun l s =>
    if s.domainOn (drvDomain (l.unit % 32)) then mapListStart s (l.unit % 32) l.contract l.next l.arg
    else overrun s k.val l (drvFault (l.unit % 32) 3) 962

end Sys2Proof.Machine
end

