-- ==== Sys2Proof/Machine/SwardEnc.lean ====
section
/-! DEFINITION. How the encoder codes one stripe (R186, R188, R200-R206): motion search, choice of modes, rate control. -/

namespace Sys2Proof.Machine

/-- What the coding of one stripe needs: drive codes and reference as coded components, the rows that may be read, and
the vectors that are tried first. -/
structure EncIn where
  b : Nat
  xform : Bool
  intra : Bool
  tufts : Nat
  qiMax : Nat
  /-- B of R204: body bits -/
  budget : Int
  /-- coded component of the canvas: component, x, stripe row -/
  src : Nat → Nat → Nat → Int
  /-- R170: coded component of REF: component, x, y -/
  ref : Nat → Int → Int → Int
  /-- R200: REF row y, before the clamping, may be read -/
  rowOk : Int → Bool
  y0 : Nat
  /-- candidate 3 of R201, and candidate 4 -/
  vecPrev : Nat → Option (Int × Int)
  vecState : Nat → Int × Int
  /-- canvas reads of a column are poisoned (R196) -/
  poisoned : Nat → Bool

/-- The decoder's view of the stripe. -/
def EncIn.sctx (i : EncIn) : SCtx := ⟨i.b, i.xform, i.intra, i.qiMax, i.ref, i.y0⟩

/-- Source samples of a tuft. -/
def srcTuft (i : EncIn) (t c : Nat) : List Int := (List.range 32).map fun j => i.src c (8 * t + j % 8) (j / 8)

/-! ## One tuft in one mode (R202) -/

/-- A tuft as coded: its bits after the mode, its samples, and the contexts after it. -/
structure TuftOut where
  bits : List Bool
  samples : List Int
  ctx : List Ctx

/-- Code residual samples against a prediction that the samples before give. -/
def putSamples (b q : Nat) (lo hi : Int) (pred : List Int → Nat → Int) : List Int → List Int → Ctx → List (List Bool) →
    List (List Bool) × List Int × Ctx
  | [], acc, x, bs => (bs, acc, x)
  | v :: vs, acc, x, bs =>
    let p := pred acc acc.length
    let e := quant v p q
    putSamples b q lo hi pred vs (acc ++ [recon p e q lo hi]) (x.update e) (bs ++ [putResidual b x e])

/-- Least and greatest of a tuft. -/
def tuftMax (xs : List Int) : Int := xs.foldl max (xs.headD 0)
def tuftMin (xs : List Int) : Int := xs.foldl min (xs.headD 0)

/-- SKIP (R163, R170): valid where every sample is within q. -/
def trySkip (i : EncIn) (t c q : Nat) (last : List Int) (ctx : List Ctx) : Option TuftOut :=
  let p := skipPred i.sctx t c last
  if ((srcTuft i t c).zip p).all fun v => decide ((v.1 - v.2).natAbs ≤ q) then some ⟨[], p, ctx⟩ else none

/-- FLAT (R171, R202). -/
def tryFlat (i : EncIn) (t c q : Nat) (last : List Int) (ctx : List Ctx) : Option TuftOut :=
  let xs := srcTuft i t c
  let p := if t = 0 then compMid i.xform i.b c else last.getD 0 0
  let e := quant ((tuftMax xs + tuftMin xs) / 2) p q
  let v := recon p e q (compLo i.xform i.b c) (compHi i.b)
  let x := ctxAt ctx c 0
  if tuftMax xs - q ≤ v ∧ v ≤ tuftMin xs + q then
    some ⟨putResidual i.b x e, List.replicate 32 v, ctx.set (2 * c) (x.update e)⟩
  else none

/-- MED (R169). -/
def tryMed (i : EncIn) (t c q : Nat) (last : List Int) (ctx : List Ctx) : TuftOut :=
  let r := putSamples i.b q (compLo i.xform i.b c) (compHi i.b) (medAt (t == 0) (compMid i.xform i.b c) last) (srcTuft i t c) []
    (ctxAt ctx c 0) []
  ⟨r.1.flatten, r.2.1, ctx.set (2 * c) r.2.2⟩

/-- MOVE with the column's vector. -/
def tryMove (i : EncIn) (t c q : Nat) (v : Int × Int) (ctx : List Ctx) : TuftOut :=
  let r := putSamples i.b q (compLo i.xform i.b c) (compHi i.b) (fun _ j => movePred i.sctx t c v j) (srcTuft i t c) []
    (ctxAt ctx c 1) []
  ⟨r.1.flatten, r.2.1, ctx.set (2 * c + 1) r.2.2⟩

/-- RAW (R172). -/
def tryRaw (i : EncIn) (t c : Nat) (ctx : List Ctx) : TuftOut :=
  let w := rawWidth i.xform i.b c
  ⟨(srcTuft i t c).flatMap fun v => putBits w (toPat w v), srcTuft i t c, ctx⟩

/-- A candidate: mode, all its bits with mode, q-delta and vector, and the tuft. -/
structure Cand where
  mode : Nat
  bits : List Bool
  out : TuftOut

/-- Bits of a mode: 0 SKIP, 1 MED, 2 MOVE, 3 FLAT, 4 RAW (Table 7-4). -/
def modeBits (m : Nat) : List Bool := if m < 3 then putBits 2 m else [true, true, m == 4]

/-- The cheaper of two; the first on a tie. -/
def cheaper (a b : Cand) : Cand := if b.bits.length < a.bits.length then b else a

/-- R202: the cheapest mode of component c. `delta` are the q-delta bits of component 0's MED and MOVE, `vec` the column's
vector with its bits. -/
def chooseMode (i : EncIn) (t c q : Nat) (delta : List Bool) (vec : Option ((Int × Int) × List Bool)) (last : List Int)
    (ctx : List Ctx) : Cand :=
  let qd := if c = 0 then delta else []
  let med := tryMed i t c q last ctx
  let skips := (trySkip i t c q last ctx).toList.map fun o => (⟨0, modeBits 0, o⟩ : Cand)
  let flats := (tryFlat i t c q last ctx).toList.map fun o => (⟨3, modeBits 3 ++ o.bits, o⟩ : Cand)
  let moves := vec.toList.map fun v =>
    let o := tryMove i t c q v.1 ctx
    (⟨2, modeBits 2 ++ qd ++ v.2 ++ o.bits, o⟩ : Cand)
  let raw := tryRaw i t c ctx
  let all := skips ++ flats ++ [⟨1, modeBits 1 ++ qd ++ med.bits, med⟩] ++ moves ++ [⟨4, modeBits 4 ++ raw.bits, raw⟩]
  all.tail.foldl cheaper (all.headD ⟨1, modeBits 1 ++ qd ++ med.bits, med⟩)

/-! ## One column -/

/-- A column as coded. -/
structure ColOut where
  bits : List Bool
  ctx : List Ctx
  samples : List (List Int)
  firstMode : Nat
  /-- a MOVE tuft wrote the vector -/
  moved : Bool

/-- Code the components of column t. -/
def codeComps (i : EncIn) (t q : Nat) (delta : List Bool) (pmv : Int × Int) (vec : Option (Int × Int)) (last : List (List Int)) :
    List Nat → ColOut → ColOut
  | [], o => o
  | c :: cs, o =>
    let v := vec.map fun v => (v, if o.moved then [] else putMv pmv v)
    let x := chooseMode i t c q delta v (last.getD c []) o.ctx
    codeComps i t q delta pmv vec last cs
      { bits := o.bits ++ x.bits, ctx := x.out.ctx, samples := o.samples ++ [x.out.samples],
        firstMode := if c = 0 then x.mode else o.firstMode, moved := o.moved || x.mode == 2 }

/-- Code column t at a quantiser index, with the given q-delta bits. -/
def codeColumn (i : EncIn) (t qi : Nat) (delta : List Bool) (pmv : Int × Int) (vec : Option (Int × Int)) (last : List (List Int))
    (ctx : List Ctx) : ColOut :=
  codeComps i t (qtab qi) delta pmv vec last [0, 1, 2] ⟨[], ctx, [], 0, false⟩

/-- A LEAN column: three SKIP tufts (R206). -/
def leanColumn (i : EncIn) (t : Nat) (last : List (List Int)) (ctx : List Ctx) : ColOut :=
  ⟨modeBits 0 ++ modeBits 0 ++ modeBits 0, ctx, [0, 1, 2].map fun c => skipPred i.sctx t c (last.getD c []), 0, false⟩

/-! ## The search (R201) -/

/-- R175, R200: a vector of the range whose rows may all be read. -/
def vecOk (i : EncIn) (v : Int × Int) : Bool :=
  decide (-64 ≤ v.1) && decide (v.1 ≤ 63) && decide (-32 ≤ v.2) && decide (v.2 ≤ 31)
    && [0, 1, 2, 3].all fun (r : Nat) => i.rowOk ((i.y0 + r : Nat) + v.2)

/-- Length of a signed Exp-Golomb code. -/
def seLen (v : Int) : Nat := (putSe v).length

/-- J of a vector. -/
def vecCost (i : EncIn) (t q : Nat) (pmv v : Int × Int) : Nat :=
  let d := ([0, 1, 2] : List Nat).map fun c => ((List.range 32).map fun j =>
    min (quant (i.src c (8 * t + j % 8) (j / 8)) (movePred i.sctx t c v j) q).natAbs 63).foldl (· + ·) 0
  d.foldl (· + ·) 0 + 4 * (seLen (mvDiff 64 v.1 pmv.1) + seLen (mvDiff 32 v.2 pmv.2))

/-- Evaluate a candidate: the lower cost, the first on a tie. -/
def tryVec (i : EncIn) (t q : Nat) (pmv : Int × Int) (best : Option ((Int × Int) × Nat)) (v : Int × Int) : Option ((Int × Int) × Nat) :=
  if vecOk i v then
    let j := vecCost i t q pmv v
    match best with
    | none => some (v, j)
    | some (_, k) => if j < k then some (v, j) else best
  else best

/-- The eight neighbours at a distance, in the order in which R201 writes them. -/
def neighbours (v : Int × Int) (d : Int) : List (Int × Int) :=
  [(v.1 + d, v.2), (v.1 - d, v.2), (v.1, v.2 + d), (v.1, v.2 - d), (v.1 + d, v.2 + d), (v.1 + d, v.2 - d), (v.1 - d, v.2 + d), (v.1 - d, v.2 - d)]

/-- One round of refinement around the best vector so far. -/
def refineRound (i : EncIn) (t q : Nat) (pmv : Int × Int) (best : Option ((Int × Int) × Nat)) (d : Int) : Option ((Int × Int) × Nat) :=
  match best with
  | some b => (neighbours b.1 d).foldl (tryVec i t q pmv) best
  | none => none

/-- The vector of column t. -/
def searchVec (i : EncIn) (t qi : Nat) (pmv : Int × Int) : Option (Int × Int) :=
  if i.intra then none
  else
    let q := qtab qi
    let first := [(0, 0), pmv] ++ (i.vecPrev t).toList ++ [i.vecState t]
    let b := first.foldl (tryVec i t q pmv) none
    ([8, 2, 1].foldl (refineRound i t q pmv) b).map fun b => b.1

/-! ## The stripe (R203-R206) -/

/-- The state between columns. -/
structure EncSt where
  bits : List (List Bool) := []
  ctx : List Ctx
  qi : Nat
  qiHigh : Nat
  pmv : Int × Int := (0, 0)
  last : List (List Int) := [[0, 0, 0, 0], [0, 0, 0, 0], [0, 0, 0, 0]]
  used : Int := 0
  pending : Int := 0
  lean : Bool := false
  switch : Option Nat := none
  leanTufts : Nat := 0
  poisons : Nat := 0
  cols : List (List (List Int)) := []
  vecs : List (Option (Int × Int)) := []

/-- R204: the change that column t leaves pending. -/
def rateChange (budget : Int) (tufts t : Nat) (used : Int) : Int :=
  let tgt := budget * 15 / 16 * (t + 1) / tufts
  let e := used - tgt
  if budget / 16 < e then 2
  else if budget / 64 < e then 1
  else if e < -(budget / 16) then -2
  else if e < -(budget / 64) then -1
  else 0

/-- The q-delta code of a change (Table 7-5). -/
def qdCode (d : Int) : Nat := if d = 1 then 0 else if d = 2 then 1 else if d = -1 then 2 else 3

/-- The bit that says no q-delta follows; nothing where `QI_MAX` is 0 (R164). -/
def noDelta (i : EncIn) : List Bool := if i.qiMax = 0 then [] else [false]

/-- R205: the column as coded, the index after it, and whether the change stays pending. -/
def ratedColumn (i : EncIn) (t : Nat) (vec : Option (Int × Int)) (x : EncSt) : ColOut × Nat × Int :=
  let here := fun (_ : Unit) => codeColumn i t x.qi (noDelta i) x.pmv vec x.last x.ctx
  let q2 := qiStep x.qi x.pending i.qiMax
  if x.pending = 0 then (here (), x.qi, 0)
  else if q2 = x.qi then (here (), x.qi, 0)
  else
    let o := codeColumn i t q2 ([true] ++ putBits 2 (qdCode x.pending)) x.pmv vec x.last x.ctx
    if o.firstMode = 1 ∨ o.firstMode = 2 then (o, q2, 0) else (here (), x.qi, x.pending)

/-- What a coded column leaves. -/
def afterColumn (i : EncIn) (t : Nat) (vec : Option (Int × Int)) (o : ColOut) (qi : Nat) (pending : Int) (x : EncSt) : EncSt :=
  let used := x.used + o.bits.length
  { x with bits := x.bits ++ [o.bits], ctx := o.ctx, qi := qi, qiHigh := max x.qiHigh qi, used := used,
           pmv := if o.moved then vec.getD x.pmv else x.pmv, last := o.samples.map lastCol, cols := x.cols ++ [o.samples],
           vecs := x.vecs ++ [vec],
           pending := if x.lean then 0
             else if t + 1 < i.tufts then rateChange i.budget i.tufts t used else pending }

/-- A column coded LEAN, with the vector that was searched for it, if any (R201, R206). -/
def leanStep (i : EncIn) (t : Nat) (vec : Option (Int × Int)) (x : EncSt) : EncSt :=
  let y := afterColumn i t vec (leanColumn i t x.last x.ctx) x.qi x.pending x
  { y with leanTufts := x.leanTufts + 3 }

/-- One column: poisoned (R196), LEAN from the switch on (R206), or rated. A vector is searched in every column whose canvas
was read (R201). -/
def encColumn (i : EncIn) (x : EncSt) (t : Nat) : EncSt :=
  if i.poisoned t then (let y := leanStep i t none x; { y with poisons := x.poisons + 1 })
  else
    let vec := searchVec i t x.qi x.pmv
    if x.lean then leanStep i t vec x
    else
      let r := ratedColumn i t vec x
      if i.budget < x.used + r.1.bits.length + 6 * ((i.tufts : Int) - t - 1) then
        leanStep i t vec { x with lean := true, switch := some t, pending := 0 }
      else afterColumn i t vec r.1 r.2.1 r.2.2 x

/-- Code a stripe from a header `QI`. -/
def encStripe (i : EncIn) (qi : Nat) : EncSt :=
  (List.range i.tufts).foldl (encColumn i) { ctx := ctxInit i.b qi, qi := qi, qiHigh := qi }

end Sys2Proof.Machine
end

