-- ==== Sys2Proof/Machine/Encode.lean ====
section
/-! DEFINITION. The encoder cores (R190-R208): stripe starts and their jobs, granule claims, finished stripes with their status
records, the retirement of a core and the copy of its rows. -/

namespace Sys2Proof.Machine

/-! ## Jobs (R190, R192) -/

/-- Encoder slots of a row that act in frame f, with the unit of each. A slot whose unit is 16 was left without a core. -/
def rowEncSlots (s : State) (n f row : Nat) : List (Nat × Nat) :=
  (s.wt.slots.filter fun p => slotOf n p.2 && p.2.action == 5 && p.2.arg == row).filterMap fun p =>
    if unitFor p.2 f < 16 then some (p.1, unitFor p.2 f) else none

/-- R190: the stripes of slot k's run: endpoint slot, stripe. -/
def runStripes (s : State) (n f row k : Nat) : List (Nat × Nat) :=
  let ss := rowEncSlots s n f row
  match ss.findIdx? fun p => p.1 == k with
  | some j => ((rowRunsOf ss.length (s.contract n) ((s.contract n).regY + row)).filter fun x => x.1 == j).map fun x => (x.2.1, x.2.2.1)
  | none => []

/-- First and last stripe of an endpoint within a run. -/
def runLo (xs : List (Nat × Nat)) (slot : Nat) : Nat := ((xs.filter fun x => x.1 == slot).map fun x => x.2).foldl min (2 ^ 16)
def runHi (xs : List (Nat × Nat)) (slot : Nat) : Nat := maxOf ((xs.filter fun x => x.1 == slot).map fun x => x.2)

/-- The jobs of a run. -/
def runJobs (n f : Nat) (xs : List (Nat × Nat)) (absent : Bool) : List StripeJob :=
  xs.map fun x => { contract := n, frame := f, slot := x.1, k := x.2, lo := runLo xs x.1, hi := runHi xs x.1, absent := absent }

/-! ## Stores of an endpoint (R193, R207) -/

def codeOf (s : State) (slot : Nat) : EpCode := mget {} s.enc.codes slot
def modCode (s : State) (slot : Nat) (f : EpCode → EpCode) : State :=
  { s with enc := { s.enc with codes := mmod {} s.enc.codes slot f } }

/-- Base of the reconstruction store of frame n. -/
def recBase (c : EpCode) (n : Nat) : Nat := if n % 2 = 0 then c.recBase0 else c.recBase1

/-- R207: the address of a stripe's status record. -/
def statAddr (s : State) (n f slot k : Nat) : Nat :=
  let before := (s.contract n).endpoints.filter fun e => e.sward && decide (e.slot < slot)
  mget 0 s.enc.stat (2 * n + f % 2) + 16 * (sumOf (before.map fun e => e.tileH / 4) + k)

/-- The 16 bytes of a status record (Table 8-2). -/
def statBytes (f flags core qs qe qh lean : Nat) (switch : Option Nat) (bytes : Nat) : List Byte :=
  leBytes 2 f ++ leBytes 1 flags ++ leBytes 1 core ++ leBytes 1 qs ++ leBytes 1 qe ++ leBytes 1 qh ++ zeros 1 ++ leBytes 2 lean
    ++ leBytes 2 (switch.getD 0xFFFF) ++ leBytes 4 bytes

/-! ## The input of one stripe (R170, R178-R180, R196, R198, R200) -/

/-- Rows held above and below a stripe (R198). -/
def winRows (w : Nat) : Nat := min 68 (4 * (655360 / (24 * w)))
def winU (w : Nat) : Nat := (winRows w - 4) / 2

/-- The drive codes at a device address. -/
def pxAt (s : State) (a : Nat) : Px :=
  let bs := memRead s a 6
  ((leAt bs 0 2 : Nat), (leAt bs 2 2 : Nat), (leAt bs 4 2 : Nat))

/-- Address of REF pixel (x, y) after the clamping of R170. -/
def refAddr (s : State) (e : Endpoint) (f : Nat) (x y : Int) : Nat :=
  recBase (codeOf s e.slot) (f + 1) + ((clip 0 (e.tileH - 1 : Nat) y).toNat * e.tileW + (clip 0 (e.tileW - 1 : Nat) x).toNat) * 6

/-- A REF row holds poisoned data. -/
def refRowBad (s : State) (e : Endpoint) (f y : Nat) : Bool := memBad s (refAddr s e f 0 y) (6 * e.tileW)

/-- R178: the group of stripe k. -/
def groupOf (e : Endpoint) (k : Nat) : Nat := refreshGroup k e.rfp (e.tileH / 4)

/-- REF rows of the window of stripe k (R198), from and to. -/
def winFrom (e : Endpoint) (j : StripeJob) : Nat := max (4 * j.lo) (4 * j.k - winU e.tileW)
def winTo (e : Endpoint) (j : StripeJob) : Nat := min (4 * j.hi + 3) (4 * j.k + 3 + winU e.tileW)

/-- R200: row y, after the clamping, may be read by an inter stripe. -/
def refRowOk (s : State) (e : Endpoint) (j : StripeJob) (y : Int) : Bool :=
  let r := (clip 0 (e.tileH - 1 : Nat) y).toNat
  decide (winFrom e j ≤ r) && decide (r ≤ winTo e j) && !refRowBad s e j.frame r
    && (e.rfp == 0 || decide (j.frame % e.rfp ≤ groupOf e j.k) || decide (groupOf e (r / 4) < j.frame % e.rfp))

/-- R197: the window reads rows whose copy has not finished. -/
def readsUncopied (s : State) (e : Endpoint) (j : StripeJob) : Bool :=
  (codeOf s e.slot).copyMarks.any fun k => decide (winFrom e j ≤ 4 * k + 3) && decide (4 * k ≤ winTo e j)

/-- R196: one of the stripe's own REF rows is poisoned. -/
def ownRefBad (s : State) (e : Endpoint) (j : StripeJob) : Bool := [0, 1, 2, 3].any fun r => refRowBad s e j.frame (4 * j.k + r)

/-- R195: the position is marked. -/
def repairMarked (s : State) (j : StripeJob) : Bool := (codeOf s j.slot).marks.contains j.k

/-- The stripe is intra (R178, R180, R195-R197). -/
def codesIntra (s : State) (e : Endpoint) (j : StripeJob) : Bool :=
  j.frame == (s.contract j.contract).n0 || (e.rfp != 0 && j.frame % e.rfp == groupOf e j.k) || repairMarked s j
    || ownRefBad s e j || readsUncopied s e j

/-- R195-R197: what is fixed at a stripe's start; the mark that it answers is used up. -/
def beginStripe (s : State) (e : Endpoint) (j : StripeJob) : State × StripeJob :=
  (modCode s j.slot fun c => { c with marks := c.marks.filter fun m => m != j.k },
    { j with intra := codesIntra s e j, repair := repairMarked s j, refBad := ownRefBad s e j })

/-- R203: the header `QI`. -/
def startQi (s : State) (e : Endpoint) (k : Nat) (intra : Bool) : Nat :=
  let c := codeOf s e.slot
  min ((mget none (if intra then c.endIntra else c.endInter) k).getD e.qiInit) e.qiMax

/-- Candidate 3 of R201: the vector of the column in the stripe that the core coded just before. -/
def prevVec (x : EncCore) (slot t : Nat) : Option (Int × Int) := match x.lastVec with
  | some (sl, vs) => if sl = slot then vs.getD t none else none
  | none => none

/-- Canvas addresses of a tuft column's rows. -/
def colBad (s : State) (e : Endpoint) (j : StripeJob) (t : Nat) : Bool :=
  [0, 1, 2, 3].any fun r => (List.range 8).any fun i => memBad s (pxAddr s j.frame (e.tileX + 8 * t + i) (e.tileY + 4 * j.k + r)) 6

/-- What the coding of a job's stripe reads. -/
def encInput (s : State) (x : EncCore) (e : Endpoint) (j : StripeJob) (poisonCols : List Nat) : EncIn :=
  { b := e.depth, xform := e.xform, intra := j.intra, tufts := e.tileW / 8, qiMax := e.qiMax
    budget := ((e.budget : Int) - 16) * 8
    src := fun c x r => (toCoded e.xform (pxAt s (pxAddr s j.frame (e.tileX + x) (e.tileY + 4 * j.k + r)))).at_ c
    ref := fun c x y => (toCoded e.xform (pxAt s (refAddr s e j.frame x y))).at_ c
    rowOk := refRowOk s e j
    y0 := 4 * j.k
    vecPrev := prevVec x e.slot
    vecState := fun t => mget (0, 0) (codeOf s e.slot).vectors (2048 * j.k + t)
    poisoned := fun t => poisonCols.contains t || colBad s e j t }

/-! ## What a coded stripe leaves -/

/-- The stripe's bytes (R160, R161). -/
def codedBytes (e : Endpoint) (j : StripeJob) (intra : Bool) (qi : Nat) (x : EncSt) : List Byte :=
  let body := fromBits x.bits.flatten
  stripeBytes { mode := 0, intra := intra, xform := e.xform, depth := depthCode e.depth, qi := qi, qiMax := e.qiMax, rfp := e.rfp,
                idx := j.k, tufts := e.tileW / 8, frame := j.frame % 65536, body := body.length, image := 0 } body

/-- R193, R194: the reconstruction of a stripe, written to the store of its frame. -/
def writeRecon (s : State) (e : Endpoint) (j : StripeJob) (x : EncSt) : State :=
  (List.range 4).foldl (fun t r =>
    let bs := (List.range e.tileW).flatMap fun c =>
      let p := toDrive e.xform e.depth (colsPx x.cols c r)
      leBytes 2 p.1.toNat ++ leBytes 2 p.2.1.toNat ++ leBytes 2 p.2.2.toNat
    memWrite t (recBase (codeOf s e.slot) j.frame + (4 * j.k + r) * e.tileW * 6) bs) s

/-- R203, R195, R201: the state record after a stripe. -/
def recordCode (k : Nat) (intra : Bool) (x : EncSt) (c : EpCode) : EpCode :=
  { c with
    endIntra := if intra then mset none c.endIntra k (some x.qi) else c.endIntra
    endInter := if intra then c.endInter else mset none c.endInter k (some x.qi)
    vectors := (x.vecs.zipIdx.foldl (fun m p => match p.1 with
      | some v => mset (0, 0) m (2048 * k + p.2) v
      | none => m) c.vectors) }

/-- `FLAGS` of a status record. -/
def statFlags (intra repair lean : Bool) : Nat := 1 + 2 * b2n intra + 4 * b2n repair + 16 * b2n lean

/-- Tally j of encoder core n (Table 20-1). -/
def encTally (s : State) (core j n : Nat) : State := if n = 0 then s else tallyAdd s (384 + 8 * core + j) n

/-- R208, Table 8-5: what the core counts and reports. -/
def encReport (s : State) (core : Nat) (intra repair refBad : Bool) (bytes : Nat) (x : EncSt) : State :=
  let s1 := encTally (encTally (encTally s core 0 1) core 1 (b2n intra)) core 2 (b2n repair)
  let s2 := encTally (encTally s1 core 3 (b2n x.switch.isSome)) core 4 x.leanTufts
  let s3 := encTally (encTally s2 core 5 bytes) core 7 (x.poisons + b2n refBad)
  let bits := b2n x.switch.isSome + 2 * b2n repair + 4 * b2n (decide (0 < x.poisons)) + 8 * b2n refBad
  if bits = 0 then s3 else setStatus s3 (Off.encStatus core) bits

/-- R288, R290: the entry of a finished job on one port. An entry that a ring reset released is claimed again and written as
absent (R296); one whose frame's guard point has passed is released (R289). -/
def putEntry_ (j : StripeJob) (e : Endpoint) (bytes : List Byte) (absent : Bool) (s : State) (p : Nat) : State :=
  let r := s.ring j.contract p
  let gs := entryGranules s j.contract p j.frame e j.k
  let gone : Entry := { slot := j.slot, sidx := j.k, frame := j.frame % 2 ^ 32, absent := true }
  let whole : Entry := { gone with absent := false, complete := true, length := bytes.length, bytes := bytes }
  let passed := (s.contract j.contract).guarded.contains (j.frame, p)
  if r.lost.contains (j.frame, j.slot, j.k) then
    if granulesFree r gs && !passed then
      writeEntry (s.modRing j.contract p fun r => claimGranules r gs j.frame j.slot j.k) j.contract p j.frame e j.k gone
    else s
  else if !gs.all (fun g => mget none r.owner g == some (j.frame, j.slot, j.k)) then s
  else
    let s1 := writeEntry s j.contract p j.frame e j.k (if absent then gone else whole)
    if passed then s1.modRing j.contract p fun r => releaseEntry r j.frame j.slot j.k else s1

/-! ## Claims and the start of a job (R287, R192) -/

/-- The ports that a job's stripe goes to. -/
def jobPorts (s : State) (j : StripeJob) : List Nat := match endpointAt (s.contract j.contract) j.slot with
  | some e => epPorts s e
  | none => []

/-- R287: claim on one port, independently of the others. A ring that was reset grants the claim of what it lost. -/
def claimPort (e : Endpoint) (a : State × StripeJob) (p : Nat) : State × StripeJob :=
  let s := a.1
  let j := a.2
  let r := s.ring j.contract p
  let gs := entryGranules s j.contract p j.frame e j.k
  if j.claimed.contains p then a
  else if gs.all fun g => mget none r.owner g == none || mget none r.owner g == some (j.frame, j.slot, j.k) then
    (s.modRing j.contract p fun r => claimGranules r gs j.frame j.slot j.k, { j with claimed := j.claimed ++ [p] })
  else a

/-- R192: the wait for a credit, reported once a stripe. -/
def reportWait (s : State) (core : Nat) (j : StripeJob) : State :=
  if j.waited then s
  else setStatus (encTally (tallyAdd (raiseFault s 48) 961 1) core 6 1) (Off.encStatus core) 16

/-- The first job of a core is replaced. -/
def putHead (core : Nat) (s : State) (j : StripeJob) (act : Nat) : State :=
  s.modEncCore core fun x => { x with jobs := j :: x.jobs.drop 1, act := act }

/-- What an idle core shows: copying, or idle. -/
def restAct (x : EncCore) : Nat := if x.copying.isEmpty then 0 else 3

/-- Finish a stripe that is never coded: its entries are absent. -/
def finishAbsent (s : State) (core : Nat) (e : Endpoint) (j : StripeJob) : State :=
  (epPorts s e).foldl (putEntry_ j e [] true) (s.modEncCore core fun x => { x with jobs := x.jobs.drop 1 })

/-- A core goes on with its first job: claim, and code or wait. Absent entries are written as soon as they are claimed; a core
starts no stripe before its copy is done (R197). The first argument bounds the jobs. -/
def encGo : Nat → State → Nat → State
  | 0, s, _ => s
  | n + 1, s, core =>
    match (s.encCore core).jobs with
    | [] => s.modEncCore core fun x => { x with act := restAct x }
    | j :: _ =>
      match endpointAt (s.contract j.contract) j.slot with
      | none => encGo n (s.modEncCore core fun x => { x with jobs := x.jobs.drop 1 }) core
      | some e =>
        let a := (epPorts s e).foldl (claimPort e) (s, j)
        if (epPorts s e).all a.2.claimed.contains then
          if a.2.absent then encGo n (finishAbsent (putHead core a.1 a.2 0) core e a.2) core
          else if !(s.encCore core).copying.isEmpty then putHead core a.1 a.2 3
          else putHead core (beginStripe a.1 e a.2).1 (beginStripe a.1 e a.2).2 1
        else putHead core (reportWait a.1 core a.2) { a.2 with waited := true } 2

/-- The core has work and is not coding: it goes on. -/
def encKick (s : State) (core : Nat) : State :=
  if (s.encCore core).act = 1 then s else encGo ((s.encCore core).jobs.length + 1) s core

/-! ## Stripe starts (R12, R190, R197) -/

/-- A stripe that a retired core leaves uncoded: its status record, the concealment tally, the copy of its rows (R197); a mark
that its start had used up stands again. -/
def leaveUncoded (core : Nat) (s : State) (j : StripeJob) : State :=
  let s1 := memWrite s (statAddr s j.contract j.frame j.slot j.k) (statBytes j.frame 9 core 0 0 0 0 none 0)
  modCode (tallyAdd s1 963 1) j.slot fun c => { c with
    marks := if j.repair && !c.marks.contains j.k then c.marks ++ [j.k] else c.marks
    copyMarks := if c.copyMarks.contains j.k then c.copyMarks else c.copyMarks ++ [j.k] }

/-- The core that stands for a retired one; where no spare was left, the lowest active core writes its entries and copies its
rows (log entry 113). -/
def standIn_ (s : State) (core : Nat) : Option Nat :=
  match (List.range 16).find? fun i => (s.encCore i).standsFor == some core && (s.encCore i).role == .active with
  | some i => some i
  | none => (List.range 16).find? fun i => (s.encCore i).role == .active

/-- Absent entries go before the stripes that a core has not started (R290). -/
def putAbsent (x : EncCore) (js : List StripeJob) : List StripeJob :=
  let n := if x.act = 1 then 1 else 0
  x.jobs.take n ++ js ++ x.jobs.drop n

/-- The stripes of a retired core: uncoded; its replacement writes their entries as absent and copies their rows. -/
def abandonJobs (s : State) (core : Nat) (js : List StripeJob) : State :=
  let s1 := js.foldl (leaveUncoded core) s
  match standIn_ s1 core with
  | none => s1
  | some r => encKick (s1.modEncCore r fun x => { x with
      jobs := putAbsent x (js.map fun j => { j with absent := true, claimed := j.claimed })
      copying := x.copying ++ js, act := if x.act = 0 then 3 else x.act }) r

/-- R190: the body of an encoder stripe start. -/
def encStart (s : State) (k : Nat) (l : LSlot) : State :=
  let js := runJobs l.contract l.next (runStripes s l.contract l.next l.arg k) false
  let s1 := if l.arg = 0 then
      traceMark s (fun t => t.contract == l.contract && t.frame == some l.next && t.encStart.isNone) fun t => { t with encStart := some s.wallNow }
    else s
  if 16 ≤ l.unit then s1
  else if (s1.encCore l.unit).role = .retired then abandonJobs s1 l.unit js
  else encKick (s1.modEncCore l.unit fun x => { x with jobs := x.jobs ++ js }) l.unit

/-- R12, Table 1-3: the paddock row is written and the core's domain is ON. -/
def encReady (s : State) (l : LSlot) : Bool :=
  (s.contract l.contract).rowsWritten.contains (l.next, l.arg) && (decide (16 ≤ l.unit) || s.domainOn (16 + l.unit)
    || (s.encCore l.unit).role == .retired)

/-- R296: a pointer mismatch that an update of a ring of contract c meets. -/
def ringMismatch (s : State) (c : Nat) (mm : Option (Fin 32)) : State := match mm with
  | some p => ringReset s c p.val
  | none => s

/-- `ENCODER_STRIPE_START` (launch action 0x5); its claims may meet a pointer mismatch (R296). -/
def execEncoderStripeStart (k : Fin 8192) (mm : Option (Fin 32)) (s : State) : Out :=
  runLaunch k 0x5 s fun l s => if encReady s l then encStart (ringMismatch s l.contract mm) k.val l else overrun s k.val l 48 961

/-- The contract of the stripe that a core waits with. -/
def headContract (s : State) (core : Nat) : Nat := match (s.encCore core).jobs with
  | j :: _ => j.contract
  | [] => 0

/-- `GRANULE_CLAIM_GRANT` (R287): a core that waits for a credit tries again. -/
def execGranuleClaimGrant (core : Fin 16) (mm : Option (Fin 32)) (s : State) : Out :=
  .next (if (s.encCore core.val).act = 2 ∧ s.serving then encKick (ringMismatch s (headContract s core.val) mm) core.val else s)

/-! ## Finished stripes -/

/-- A coded stripe: reconstruction, state record, status record, reports, entries. -/
def finishStripe (s : State) (core : Nat) (e : Endpoint) (j : StripeJob) (poisonCols : List Nat) : State :=
  let x := s.encCore core
  let inp := encInput s x e j poisonCols
  let qi := startQi s e j.k inp.intra
  let out := encStripe inp qi
  let bytes := codedBytes e j inp.intra qi out
  let repair := j.repair
  let refBad := j.refBad
  let s1 := modCode (writeRecon s e j out) j.slot (recordCode j.k inp.intra out)
  let s2 := memWrite s1 (statAddr s j.contract j.frame j.slot j.k)
    (statBytes j.frame (statFlags inp.intra repair out.switch.isSome) core qi out.qi out.qiHigh out.leanTufts out.switch bytes.length)
  let s3 := encReport s2 core inp.intra repair refBad bytes.length out
  let s4 := (epPorts s e).foldl (putEntry_ j e bytes false) s3
  s4.modEncCore core fun y => { y with jobs := y.jobs.drop 1, act := 0,
                                       lastVec := if inp.intra then none else some (j.slot, out.vecs) }

/-- `STRIPE_COMPLETE` (R192, R207, R288, R296): the stripe that the core is coding is finished; a pointer mismatch in one of
its rings may come with the update. -/
def stripeDone (s : State) (core : Nat) (poisonCols : List Nat) (mismatch : Option (Fin 32)) : State :=
  match (s.encCore core).jobs with
  | [] => s
  | j :: _ =>
    if (s.encCore core).act ≠ 1 ∨ !s.serving then s
    else match endpointAt (s.contract j.contract) j.slot with
      | none => encKick (s.modEncCore core fun x => { x with jobs := x.jobs.drop 1, act := 0 }) core
      | some e =>
        let s1 := finishStripe s core e j poisonCols
        let s2 := match mismatch with
          | some p => if (epPorts s e).contains p.val then ringReset s1 j.contract p.val else s1
          | none => s1
        encKick s2 core
def execStripeComplete (core : Fin 16) (poisonCols : List Nat) (mismatch : Option (Fin 32)) (s : State) : Out :=
  .next (stripeDone s core.val poisonCols mismatch)

/-! ## Retirement (R197) -/

/-- R197: the REF rows of a position are copied into the reconstruction of its frame. -/
def copyRows (s : State) (j : StripeJob) : State :=
  match endpointAt (s.contract j.contract) j.slot with
  | none => s
  | some e =>
    let c := codeOf s e.slot
    let o := 4 * j.k * e.tileW * 6
    let s1 := memWrite s (recBase c j.frame + o) (memRead s (recBase c (j.frame + 1) + o) (24 * e.tileW))
    modCode s1 e.slot fun x => { x with copyMarks := x.copyMarks.filter fun k => k != j.k }

/-- `COPY_DONE`: the copy of a new core's rows ends; source 322 + 4n. -/
def copyDone (s : State) (core : Nat) : State :=
  let x := s.encCore core
  if x.copying.isEmpty ∨ !s.serving then s
  else
    let s1 := x.copying.foldl copyRows s
    let s2 := s1.modEncCore core fun y => { y with copying := [], act := if y.act = 3 then 0 else y.act }
    pendSrc (if (s2.encCore core).act = 0 then encKick s2 core else s2) (322 + 4 * core)
def execCopyDone (core : Fin 16) (s : State) : Out := .next (copyDone s core.val)

/-- R13: the slots of a retired unit go to another from the next frame of each contract; 16 stands for none. -/
def takeoverSlot (s : State) (action unit new : Nat) (l : LSlot) : LSlot :=
  if l.rel && l.action == action && unitFor l (2 ^ 64) == unit then
    let from_ := match (s.contract l.contract).frame with
      | some f => f + 1
      | none => 0
    { l with takeover := l.takeover ++ [(from_, new)] }
  else l
def takeoverSlots (s : State) (action unit new : Nat) : State :=
  s.modWt fun w => { w with slots := w.slots.map fun p => (p.1, takeoverSlot s action unit new p.2) }

/-- R197: a core is retired. -/
def retireEnc (s : State) (core : Nat) : State :=
  let x := s.encCore core
  if x.role = .retired then s
  else
    let spare := if x.role = .active then (List.range 16).find? fun i => (s.encCore i).role == .spare else none
    let s1 := s.modEncCore core fun y => { y with role := .retired, act := 0, jobs := [], copying := [], lastVec := none }
    let s2 := match spare with
      | some r => s1.modEncCore r fun y => { y with role := .active, standsFor := some core }
      | none => s1
    let s3 := if x.role = .active then takeoverSlots s2 5 core (spare.getD 16) else s2
    pendSrc (abandonJobs s3 core (x.jobs.filter fun j => !j.absent)) (321 + 4 * core)

end Sys2Proof.Machine
end

