-- ==== Sys2Proof/Machine/Time.lean ====
section
/-! DEFINITION. Wall time commands: `TIME_SET` (R18, R19) and `LAUNCH_AT` (R26). -/

namespace Sys2Proof.Machine

/-- An armed absolute slot, disarmed (R19). -/
def cancelledSlot (l : LSlot) : LSlot := if l.armed && !l.rel then { l with armed := false, ref := none } else l

/-- The commands whose slots a step of `WALLTIME` cancels. -/
def cancelledRefs (slots : Map LSlot) : List CmdRef :=
  slots.filterMap fun p => if p.2.armed && !p.2.rel then p.2.ref else none

/-- R19: a step of `WALLTIME` cancels every armed absolute slot; their `LAUNCH_AT`s complete with `ABORTED`. -/
def cancelSlots (s : State) : State :=
  (cancelledRefs s.wt.slots).foldl (fun t r => completeWith t r St.aborted)
    (s.modWt fun w => { w with slots := w.slots.map fun p => (p.1, cancelledSlot p.2) })

/-- R267: a step of `WALLTIME` starts a new second of every port with a count of 0. -/
def restartDreq (v : Dword) (x : Port) : Port := { x with dreqSecond := v.toNat / 160000000, dreqCount := 0 }
def newSeconds (s : State) (v : Dword) : State :=
  s.modEg fun e => { e with ports := e.ports.map fun p => (p.1, restartDreq v p.2) }

/-- A load or step of `WALLTIME`: the new value, `STEPPED` (Table 2-12), and the cancelled slots (R19). -/
def stepWall (s : State) (v : Dword) (frac : BitVec 16) : State :=
  cancelSlots (newSeconds (setStatus (s.modWt fun w => { w with wall := v, frac := frac }) Off.wtStatus 1) v)

/-- R18: an ANNOUNCE with `CONTRACT_ACTIVE` was heard within the last 3 ms. -/
def heardActive (s : State) : Bool :=
  s.wt.heard.any fun p => match p.2 with
    | some h => match h.lastActive with
      | some t => decide (s.wt.now ≤ t + msTicks 3)
      | none => false
    | none => false

/-- R18: the states in which `TIME_SET` is refused. -/
def timeSetConflict (s : State) : Bool :=
  anyActive s || s.wt.role == .member || (s.wt.role == .bellwether && heardActive s)

/-- R18: the load. The bellwether's next SYNC carries `TIME_STEP` (R19). -/
def timeSetApply (ref : CmdRef) (d : Desc) (s : State) : State :=
  let old := s.wt.wall
  let s1 := s.modWt fun w => { w with timeStep := w.timeStep || w.role == .bellwether }
  complete (stepWall s1 (BitVec.ofNat 64 (descFld d 16 8)) s.wt.frac) ref St.ok old.toNat 0 0

/-- `TIME_SET` (Table 15-11, R18, R19). -/
def execTimeSet (sq : Fin 1024) (d : Desc) (s : State) : Out :=
  runCmd sq d s fun ref s =>
    check (hdrOk d 0x40 [(16, 8)]) St.invalidField ref s fun s =>
    check (!timeSetConflict s) St.stateConflict ref s fun s =>
    timeSetApply ref d s

/-- Table 2-2: the units and arguments that a `LAUNCH_AT` may name. -/
def launchAtOperands (action unit arg : Nat) : Bool :=
  match action with
  | 0x2 => unit == 0 && decide (arg < 4)
  | 0xA => decide (unit < 32) && (decide (arg < 16384) || arg == 0xFFFF)
  | 0xB => unit == 0
  | 0xC => unit == 0 && decide (1 ≤ arg) && decide (arg < 64)
  | _ => false

/-- The lowest slot of 7,936-8,191 that is not armed. -/
def freeAbsSlot (s : State) : Option Nat := ((List.range 256).map (· + 7936)).find? fun k => !(s.slot k).armed

/-- Arm an absolute slot. -/
def armAbs (d : Desc) (ref : CmdRef) : LSlot :=
  { time := (descFld d 16 8 : Nat), armed := true, unit := descFld d 10 2, action := descFld d 9 1,
    arg := descFld d 12 4, ref := some ref }

/-- `LAUNCH_AT` (Table 15-11, R26): it completes when its slot fires. -/
def execLaunchAt (sq : Fin 1024) (d : Desc) (s : State) : Out :=
  runCmd sq d s fun ref s =>
    check (hdrOk d 0x41 [(9, 3), (12, 4), (16, 8)]
        && launchAtOperands (descFld d 9 1) (descFld d 10 2) (descFld d 12 4)
        && decide (s.wallNow + 1600 ≤ descFld d 16 8)) St.invalidField ref s fun s =>
    match freeAbsSlot s with
    | some k => s.modSlot k fun _ => armAbs d ref
    | none => completeWith s ref St.noResource

end Sys2Proof.Machine
end

