-- ==== Sys2Proof/Machine/Fold.lean ====
section
/-! DEFINITION. The fold (2.4): time messages, bellwether election, link delay, the phase servo and the time states; the
peer links (R519). Times are in 2^-16 tick. -/

namespace Sys2Proof.Machine

/-! ## Messages (R29, R30) -/

/-- `WALLTIME` with its fraction. -/
def wall16 (s : State) : Int := (s.wt.wall.toNat : Int) * 65536 + s.wt.frac.toNat

/-- A time as ticks and fraction. -/
def timeBytes (t : Int) : List Byte := leBytes 8 (toPat 64 (t / 65536)) ++ leBytes 2 (toPat 16 t)
def timeAt (bs : List Byte) (off : Nat) : Int := (leAt bs off 8 : Int) * 65536 + (leAt bs (off + 8) 2 : Nat)

/-- `CLK_OK`: `CLKIN` passed its stability check (R468). -/
def clkOk (s : State) : Bool := s.pwr.clkin && s.pwr.clkCounted

/-- `BW_PRIORITY`. -/
def bwPriority (s : State) : Nat := fld (s.reg Off.foldCfg) 23 16

/-- The 64 bytes of a time message of this module (Table 2-3). While no bellwether is elected `BW_MODULE` is 0 (entry 117 of the
log). -/
def timeMsg (s : State) (type seq : Nat) (step : Bool) (origin rx tx : Int) (nonce : Nat) : List Byte :=
  withCrc (leBytes 1 type ++ leBytes 1 1 ++ leBytes 1 (moduleNo s) ++ leBytes 1 0 ++ leBytes 4 (s.reg Off.foldId).toNat
    ++ leBytes 2 seq ++ leBytes 1 (bwPriority s) ++ leBytes 1 (b2n (anyActive s) + 2 * b2n (clkOk s) + 4 * b2n step)
    ++ timeBytes origin ++ leBytes 1 (s.wt.bellwether.getD 0) ++ zeros 1 ++ zeros 8 ++ timeBytes rx ++ leBytes 6 nonce
    ++ timeBytes tx ++ zeros 2)

/-- Send on both peer ports. -/
def sendBoth (s : State) (bs : List Byte) : State := peerSend (peerSend s 0 bs) 1 bs

/-- Times of one peer port. -/
def peerTime (s : State) (e : Nat) : PeerTime := if e = 0 then s.wt.peerE else s.wt.peerW
def modPeerTime (s : State) (e : Nat) (f : PeerTime → PeerTime) : State :=
  s.modWt fun w => if e = 0 then { w with peerE := f w.peerE } else { w with peerW := f w.peerW }

/-- `ANNOUNCE_SEND`: every 1 ms, by a module that is no duplicate (R32). -/
def announceNow (s : State) : State :=
  if foldEn s && !s.wt.dup && decide (s.wt.lastAnnounce + msTicks 1 ≤ s.wt.now) then
    (sendBoth s (timeMsg s 1 s.wt.seqAnnounce false 0 0 0 s.wt.nonce)).modWt fun w =>
      { w with lastAnnounce := w.now, seqAnnounce := (w.seqAnnounce + 1) % 65536 }
  else s
def execAnnounceSend (s : State) : Out := .next (announceNow s)

/-- `SYNC_SEND`: every 125 µs, by the bellwether. The SYNC after an accepted `TIME_SET` carries `TIME_STEP` (R19). -/
def syncNow (s : State) : State :=
  if foldEn s && !s.wt.dup && s.wt.role == .bellwether && decide (s.wt.lastSyncSent + usTicks 125 ≤ s.wt.now) then
    (sendBoth s (timeMsg s 2 s.wt.seqSync s.wt.timeStep (wall16 s) 0 0 0)).modWt fun w =>
      { w with lastSyncSent := w.now, seqSync := (w.seqSync + 1) % 65536, timeStep := false }
  else s
def execSyncSend (s : State) : Out := .next (syncNow s)

/-- `PEER_DELAY_REQ_SEND`: every 1 ms on each peer port (R33). -/
def delayReqNow (s : State) (e : Nat) : State :=
  if foldEn s && decide ((peerTime s e).lastReq + msTicks 1 ≤ s.wt.now) then
    let s1 := modPeerTime (peerSend s e (timeMsg s 3 s.wt.seqReq false (wall16 s) 0 0 0)) e fun p =>
      { p with t1 := some (wall16 s), lastReq := s.wt.now }
    s1.modWt fun w => { w with seqReq := (w.seqReq + 1) % 65536 }
  else s
def execPeerDelayReqSend (e : Fin 2) (s : State) : Out := .next (delayReqNow s e.val)

/-! ## Time states (R36) -/

/-- Entry to a time state. Entry to UNLOCKED raises `TIME_UNLOCK`; entry to LOCKED spreads the ADD notices (R335). -/
def enterTime (s : State) (st : TState) : State :=
  if s.wt.tstate = st then s
  else
    let s1 := s.modWt fun w => { w with tstate := st, good := 0, bad := 0, holdSince := w.now }
    if st = .unlocked then raiseFault (setStatus s1 Off.wtStatus 2) 208
    else if st = .locked && foldEn s then startSpread s1
    else s1

/-! ## Election (R31, R32) -/

/-- An ANNOUNCE within the last 3 ms. -/
def fresh (s : State) (h : Heard) : Bool := decide (s.wt.now ≤ h.at_ + msTicks 3)

/-- The eligible modules: number and priority, its own first. A duplicate announces nothing and is not eligible. -/
def candidates (s : State) : List (Nat × Nat) :=
  (if clkOk s && !s.wt.dup && bwPriority s != 0 then [(moduleNo s, bwPriority s)] else [])
    ++ s.wt.heard.filterMap fun p => match p.2 with
      | some h => if h.clkOk && h.priority != 0 && fresh s h then some (p.1, h.priority) else none
      | none => none

/-- The better of two candidates: the higher priority, on a tie the lower number. -/
def betterModule (a b : Nat × Nat) : Nat × Nat :=
  if a.2 < b.2 then b else if a.2 = b.2 ∧ b.1 < a.1 then b else a

/-- The bellwether of the fold, if a module is eligible. -/
def winner (s : State) : Option Nat := match candidates s with
  | [] => none
  | c :: cs => some (cs.foldl betterModule c).1

/-- The module takes its role. The bellwether is LOCKED; a module that starts as a member acquires (Table 2-5). -/
def takeRole (s : State) (own : Bool) : State :=
  if own then enterTime (s.modWt fun w => { w with role := .bellwether, slew := 0, slewSet := 0 }) .locked
  else if s.wt.role = .member then s
  else
    let s1 := s.modWt fun w => { w with role := .member, timeStep := false }
    if s.wt.dup then s1 else enterTime s1 .acquire

/-- R31: the election. -/
def elect (s : State) : State :=
  if !foldEn s then s
  else
    let w := winner s
    let s1 := if w = s.wt.bellwether then s else setStatus (s.modWt fun x => { x with bellwether := w }) Off.wtStatus 4
    takeRole s1 (w == some (moduleNo s) && !s.wt.dup)

/-- R32: another module with this module's number: reported for each such ANNOUNCE, UNLOCKED until the next restart. -/
def duplicate (s : State) : State :=
  let s1 := raiseFault (setStatus (s.modWt fun w => { w with dup := true }) Off.wtStatus 16) 210
  enterTime (elect s1) .unlocked

/-! ## Receiving time messages -/

/-- A time message of one type on peer port e: discarded and tallied, or taken. -/
def timeRx (s : State) (e : Nat) (bs : List Byte) (type : Nat) (body : State → State) : State :=
  if !foldEn s || !(s.peer e).linkUp then s
  else if !foldFrameOk s 64 bs then foldDiscard s e 994
  else if u8 bs 0 ≠ type ∨ 16 ≤ u8 bs 2 then tallyAdd s 994 1
  else body (modPeerTime s e fun p => { p with lastHeard := some s.wt.now })

/-- Keep an ANNOUNCE. -/
def noteHeard (s : State) (bs : List Byte) : State :=
  s.modWt fun w => { w with heard := mset none w.heard (u8 bs 2) (some
    { at_ := w.now, lastActive := if (u8 bs 11).testBit 0 then some w.now else (mget none w.heard (u8 bs 2)).bind fun h => h.lastActive
      nonce := leAt bs 42 6, priority := u8 bs 10, clkOk := (u8 bs 11).testBit 1 }) }

/-- An ANNOUNCE (R30-R32, R335). -/
def announceTake (e : Nat) (bs : List Byte) (s : State) : State :=
  if u8 bs 2 = moduleNo s then
    if leAt bs 42 6 = s.wt.nonce then s else duplicate (forwardFold s e bs false)
  else
    let first := (mget none s.wt.heard (u8 bs 2)).isNone
    let s1 := elect (noteHeard (forwardFold s e bs false) bs)
    if first then startSpread s1 else s1
def execAnnounceReceive (e : Fin 2) (bytes : List Byte) (s : State) : Out :=
  .next (timeRx s e.val bytes 1 (announceTake e.val bytes))

/-- `ANNOUNCE_AGE_OUT` (R31, R335). -/
def ageOut (s : State) (m : Nat) : State := match mget none s.wt.heard m with
  | some h =>
    if fresh s h then s else elect (dropModule (s.modWt fun w => { w with heard := mset none w.heard m none }) m)
  | none => s
def execAnnounceAgeOut (m : Fin 16) (s : State) : Out := .next (ageOut s m.val)

/-- A neighbour's DELAY_REQ is answered at once, after a turn-around of 2^-16 ticks. -/
def delayReqTake (e : Nat) (turn : Nat) (s : State) : State :=
  (peerSend s e (timeMsg s 4 s.wt.seqResp false 0 (wall16 s) (wall16 s + turn) 0)).modWt fun w =>
    { w with seqResp := (w.seqResp + 1) % 65536 }
def execPeerDelayReqReceive (e : Fin 2) (bytes : List Byte) (turn : Nat) (s : State) : Out :=
  .next (timeRx s e.val bytes 3 (delayReqTake e.val turn))

/-- `PEER_ASYM_E` and `PEER_ASYM_W`. -/
def peerAsym (s : State) (e : Nat) : Int := sext 32 (s.reg (if e = 0 then Off.peerAsymE else Off.peerAsymW)).toNat

/-- R33: one value of d. -/
def delaySample (t1 t2 t3 t4 asym : Int) : Int := ((t4 - t1) - (t3 - t2)) / 2 - asym

/-- Insert into a rising list. -/
def insertInt (x : Int) : List Int → List Int
  | [] => [x]
  | y :: ys => if x ≤ y then x :: y :: ys else y :: insertInt x ys

/-- The median; of an even number of values the floored mean of the middle two (the spec does not say). -/
def median (xs : List Int) : Int :=
  let ys := xs.foldr insertInt []
  ((ys[(ys.length - 1) / 2]?).getD 0 + (ys[ys.length / 2]?).getD 0) / 2

/-- `LINK_DELAY_E` and `LINK_DELAY_W`: the median of the last 8 values (R33). -/
def linkDelay (s : State) (e : Nat) : Int := median (peerTime s e).samples

/-- A DELAY_RESP to the DELAY_REQ that is open. -/
def delayRespTake (e : Nat) (bs : List Byte) (s : State) : State := match (peerTime s e).t1 with
  | some t1 =>
    let d := delaySample t1 (timeAt bs 32) (timeAt bs 48) (wall16 s) (peerAsym s e)
    modPeerTime s e fun p => { p with t1 := none, samples := (d :: p.samples).take 8 }
  | none => s
def execPeerDelayRespReceive (e : Fin 2) (bytes : List Byte) (s : State) : Out :=
  .next (timeRx s e.val bytes 4 (delayRespTake e.val bytes))

/-! ## The servo (R28, R34, R35) -/

/-- 0.32 tick, 1.6 ticks and 1,600 ticks in 2^-16 tick. -/
def errGood (e : Int) : Bool := decide (e.natAbs ≤ 20971)
def errBad (e : Int) : Bool := decide (104857 < e.natAbs)
def errBig (e : Int) : Bool := decide (1600 * 65536 < e.natAbs)

/-- The end of the slew that the last SYNC asked for: what of it was applied, kept for 1 s (R28). -/
def noteSlew (w : WallTime) : WallTime :=
  { w with slew := 0, slewSet := 0
           corrections := (w.corrections.filter fun c => decide (w.now < c.1 + msTicks 1000)) ++ [(w.now, w.slewSet - w.slew)] }

/-- R28: the servo's total correction of the last second exceeds 16 ticks. -/
def notCommon (w : WallTime) : Bool := decide (16 * 65536 < (w.corrections.foldl (fun (t : Int) (c : Nat × Int) => t + c.2) 0).natAbs)

/-- R28: `CLK_NOT_COMMON`. -/
def clkCheck (s : State) : State :=
  if notCommon s.wt then
    enterTime (raiseFault (setStatus (s.modWt fun w => { w with lostAt := some w.now }) Off.wtStatus 8) 209) .unlocked
  else s

/-- The step by e. -/
def servoStep (s : State) (e : Int) : State :=
  let t := wall16 s + e
  stepWall s (BitVec.ofInt 64 (t / 65536)) (BitVec.ofInt 16 t)

/-- R35, R19: step, UNLOCKED or slew. -/
def servoAct (s : State) (e : Int) (step : Bool) : State :=
  if (errBig e || step) && !anyActive s then servoStep s e
  else if errBig e then enterTime s .unlocked
  else s.modWt fun w => { w with slew := e / 4, slewSet := e / 4 }

/-- Table 2-5: what the error of a SYNC does to the time state. -/
def judge (s : State) (e : Int) : State :=
  let s1 := s.modWt fun w => { w with good := if errGood e then w.good + 1 else 0, bad := if errBad e then w.bad + 1 else 0 }
  match s1.wt.tstate with
  | .locked => if 3 ≤ s1.wt.bad then enterTime s1 .unlocked else s1
  | .holdover => enterTime s1 (if errBad e then .unlocked else .locked)
  | .acquire => if 8 ≤ s1.wt.good then enterTime s1 .locked else s1
  | .unlocked => if 8 ≤ s1.wt.good && !s1.wt.dup then enterTime s1 .locked else s1

/-- The servo on a SYNC with error e. -/
def servo (s : State) (e : Int) (step : Bool) : State :=
  let s1 := clkCheck (s.modWt fun w => { noteSlew w with err := e })
  judge (servoAct s1 e step) e

/-- R34: the SYNC of this port has the lower `HOPS` of the two ports, PEER-W on a tie. The other port counts while its
last SYNC is no older than 375 µs. -/
def bestPort (s : State) (e hops : Nat) : Bool := match mget none s.wt.lastHops (1 - e) with
  | some (h, t) => decide (t + usTicks 375 < s.wt.now) || decide (hops < h) || (hops == h && e == 1)
  | none => true

/-- R34: the error of a SYNC. -/
def syncError (s : State) (e : Nat) (bs : List Byte) : Int :=
  timeAt bs 12 + sext 64 (leAt bs 24 8) + linkDelay s e - wall16 s

/-- R34: the SYNC as forwarded, with the link delay and the residence time in `CORRECTION`. -/
def syncForward (s : State) (e : Nat) (bs : List Byte) (residence : Nat) : List Byte :=
  bs.take 24 ++ leBytes 8 (toPat 64 (sext 64 (leAt bs 24 8) + linkDelay s e + residence)) ++ bs.drop 32

/-- A SYNC of another module: forwarded, and used by a member where it comes from the bellwether (R34). -/
def syncTake (e : Nat) (bs : List Byte) (residence : Nat) (s : State) : State :=
  if u8 bs 2 = moduleNo s && s.wt.role == .bellwether then s
  else
    let s1 := forwardFold s e (syncForward s e bs residence) false
    if s1.wt.role == .member && s1.wt.bellwether == some (u8 bs 2) then
      let use := bestPort s1 e (u8 bs 3)
      let s2 := s1.modWt fun w => { w with lastSync := some w.now, lastHops := mset none w.lastHops e (some (u8 bs 3, w.now)) }
      if use then servo s2 (syncError s e bs) ((u8 bs 11).testBit 2) else s2
    else s1
def execSyncReceive (e : Fin 2) (bytes : List Byte) (residence : Nat) (s : State) : Out :=
  .next (timeRx s e.val bytes 2 (syncTake e.val bytes residence))

/-! ## Timeouts -/

/-- `SYNC_LOSS_TIMEOUT`: 375 µs without a SYNC (Table 2-5). -/
def syncLoss (s : State) : State :=
  if s.wt.role == .member && s.wt.tstate == .locked && decide (s.wt.lastSync.getD 0 + usTicks 375 ≤ s.wt.now) then
    enterTime s .holdover
  else s
def execSyncLossTimeout (s : State) : Out := .next (syncLoss s)

/-- `HOLDOVER_TIMEOUT`: 10 s in HOLDOVER (Table 2-5). -/
def holdoverEnd (s : State) : State :=
  if s.wt.tstate == .holdover && decide (s.wt.holdSince + msTicks 10000 ≤ s.wt.now) then enterTime s .unlocked else s
def execHoldoverTimeout (s : State) : Out := .next (holdoverEnd s)

/-- `PEER_SILENCE_TIMEOUT`: 3 ms without a time message (Table 2-12). -/
def silence (s : State) (e : Nat) : State := match (peerTime s e).lastHeard with
  | some t =>
    if foldEn s && decide (t + msTicks 3 ≤ s.wt.now) then
      setStatus ((modPeerTime s e fun p => { p with lastHeard := none }).modWt fun w => { w with lostAt := some w.now })
        Off.wtStatus (2 ^ (6 + e))
    else s
  | none => s
def execPeerSilenceTimeout (e : Fin 2) (s : State) : Out := .next (silence s e.val)

/-! ## Peer links (R519) -/

/-- The cage of a peer port holds a module in its normal power mode, and its domain is ON. -/
def peerMayRise (s : State) (e : Nat) : Bool :=
  let c := mget {} s.cages (8 + e)
  s.domainOn (54 + e) && c.present && !c.lowPower && s.pwr.phase == .running && !(s.peer e).linkUp

/-- `PEER_LINK_UP`: lock and alignment have held on all four lanes for 10 ms. -/
def peerRise (s : State) (e : Nat) : State :=
  if peerMayRise s e then s.modPeer e fun p => { p with linkUp := true, lanes := 0xF, fec := true } else s
def execPeerLinkUp (e : Fin 2) (s : State) : Out := .next (peerRise s e.val)

/-- A peer link goes down with the lanes that keep lock and the alignment that is left: its frames in flight are lost, `LINK_DOWN`
is set, and `LANE_FAULT` where a lane lost lock. -/
def peerFallTo (s : State) (e : Nat) (lanes : BitVec 4) (fec : Bool) : State :=
  if (s.peer e).linkUp then
    setStatus (s.modPeer e fun _ => { lanes := lanes, fec := fec && lanes == 0xF }) (Off.peerStatus e) (if lanes = 0xF then 1 else 3)
  else s

/-- A peer port that loses every lane. -/
def peerFall (s : State) (e : Nat) : State := peerFallTo s e 0 false

/-- `PEER_LINK_DOWN` (R519, Table 22-3): a lane lost lock or FEC alignment; `fecUncorr`: an uncorrectable codeword was received. -/
def execPeerLinkDown (e : Fin 2) (lanes : BitVec 4) (fec fecUncorr : Bool) (s : State) : Out :=
  .next (peerFallTo (if fecUncorr && (s.peer e.val).linkUp then setStatus s (Off.peerStatus e.val) 8 else s) e.val lanes fec)

/-! ## `FOLD_CFG` (R44) -/

/-- The module joins the fold (Table 2-5). -/
def joinFold (s : State) : State :=
  let s1 := s.modWt fun w => { w with
    role := .member, bellwether := none, lastAnnounce := w.now, lastSyncSent := w.now
    peerE := { w.peerE with lastHeard := some w.now, lastReq := w.now }
    peerW := { w.peerW with lastHeard := some w.now, lastReq := w.now } }
  elect (if s.wt.dup then s1 else enterTime s1 .acquire)

/-- The module leaves the fold: a standalone module is LOCKED (R36), a duplicate stays UNLOCKED (R32). -/
def leaveFold (s : State) : State :=
  let s1 := s.modWt fun w => { w with role := .standalone, bellwether := none, timeStep := false, slew := 0, slewSet := 0 }
  if s.wt.dup then s1 else enterTime s1 .locked

/-- R44: a write of `FOLD_CFG`, ignored while a contract is COMMITTED, RUNNING or DRAINING. -/
def foldCfgOp (s : State) (v : Word) : State :=
  if anyActive s then s
  else
    let s1 := s.setReg Off.foldCfg (v &&& 0x00FF001F#32)
    if bit v 4 then (if foldEn s then elect s1 else joinFold s1)
    else if foldEn s then leaveFold s1 else s1
def execFoldCfgWrite (v : Word) (s : State) : Out := .next (foldCfgOp s v)

end Sys2Proof.Machine
end

