-- ==== Sys2Proof/Machine/Guard.lean ====
section
/-! DEFINITION. The guard point and the launch tick (R3, R39, R40, R43, R51, R242, R269, R460, R492): BEACON, PRESENT, BLANK,
the breach decision, the end of a drain; and the steps that waited for a flag (R12). -/

namespace Sys2Proof.Machine

/-! ## BEACON and BLANK -/

/-- R39: a port emits a BEACON. -/
def emitBeacon (s : State) (p : Nat) : State := sendBuilt s p { bytes := beaconBytes s p }

/-- R40: a queued class-0 frame of frame n of contract c. -/
def ofFrame (c n : Nat) (f : Frame) : Bool := f.contract == some c && f.frame == n

/-- `BEACON_INTERVAL` in ticks. -/
def beaconTicks (s : State) : Nat := usTicks (fld (s.reg Off.beaconInterval) 13 0)

/-- `PERIODIC_BEACON` (R39). -/
def periodic (s : State) (p : Nat) : State :=
  if (s.port p).lastBeacon + beaconTicks s ≤ s.wt.now ∧ s.serving then
    emitBeacon (s.modPort p fun y => { y with lastBeacon := s.wt.now }) p
  else s
def execPeriodicBeacon (p : Fin 32) (s : State) : Out := .next (periodic s p.val)

/-- R269: destination of a BLANK: the group, or the learned MAC of a slot, or the port's flood MAC. -/
def blankDest (s : State) (p slot : Nat) : Nat :=
  if slot = 0xFFFF then groupMac s else match lookupSlot s slot with
    | some e => e.mac
    | none => floodMac s p

/-- A port emits a BLANK. -/
def blankFrame (s : State) (p slot effect c : Nat) : Frame := { bytes := blankBytes s p (blankDest s p slot) slot effect c }
def emitBlank (s : State) (p slot effect c : Nat) : State := sendBuilt s p (blankFrame s p slot effect c)

/-- R273: both ports of a ring pair send every BLANK. -/
def emitBlanks (s : State) (p slot effect c : Nat) : State := match pairOf s p with
  | some q => emitBlank (emitBlank s p slot effect c) q slot effect c
  | none => emitBlank s p slot effect c

/-- `BLANK` (launch action 0xA). -/
def execBlank (k : Fin 8192) (s : State) : Out :=
  runLaunch k 0xA s fun l s => emitBlanks s (l.unit % 32) (l.arg % 65536) 0 0xFF

/-- R51, R269: the BLANK of a release is due. -/
def blankDue (s : State) (c : Contract) : Bool :=
  c.state == .draining && c.blankOut && !c.blankSent && decide (launchTick c (c.nLast.getD 0 + 1) ≤ s.wallNow + c.guard)

/-- `RELEASE_BLANK` (R51): every port of the contract sends it. -/
def releaseBlank (s : State) (n : Nat) : State :=
  let c := s.contract n
  if blankDue s c && s.serving then
    (contractPorts s c).foldl (fun t p => emitBlank t p 0xFFFF (launchTick c (c.nLast.getD 0 + 1)) n)
      (s.modContract n fun x => { x with blankSent := true })
  else s
def execReleaseBlank (c : Fin 64) (s : State) : Out := .next (releaseBlank s c.val)

/-! ## Breaches (R3, R43, R460) -/

/-- Table 18-7: the port's link is down for a cause outside the module. -/
def linkExternal (s : State) (p : Nat) : Bool :=
  let x := s.port p
  !x.linkUp && !x.blockLock && (mget {} s.cages (p / 4)).present

/-- An event of Table 2-7 that makes frame n of contract c a breach: tally and fault source for each event; the frame counts
once in the availability counters, as external only while every one of its events is (Table 18-7). -/
def breach (s : State) (c n fault : Nat) (external : Bool) : State :=
  let s1 := raiseFault (tallyAdd s (256 + c) 1) fault
  match (s.contract c).breached.find? fun b => b.1 == n with
  | some (_, true) => if external then s1 else
    (s1.modAvail c fun a => { a with breachExt := a.breachExt - 1, breachDev := sat32 (a.breachDev + 1) }).modContract c
      fun x => { x with breached := (x.breached.filter fun b => b.1 != n) ++ [(n, false)] }
  | some (_, false) => s1
  | none =>
    let s2 := s1.modAvail c fun a =>
      if external then { a with breachExt := sat32 (a.breachExt + 1) } else { a with breachDev := sat32 (a.breachDev + 1) }
    s2.modContract c fun x => { x with breached := x.breached ++ [(n, external)] }

/-- Fault source `C0_BREACH`. -/
def c0Breach : Nat := 192

/-- Ranges of an endpoint's data of frame n that a port lost, and two ranges that share data. -/
def lostOn (c : Contract) (n slot p : Nat) : List (Nat × Nat) :=
  (c.lost.filter fun y => y.1 == n && y.2.1 == p && y.2.2.1 == slot).map fun y => y.2.2.2
def sharesData (a b : Nat × Nat) : Bool := decide (a.1 < b.1 + b.2) && decide (b.1 < a.1 + a.2)

/-- R3: endpoints some of whose class-0 data of frame n left from no port; a chain has one port or two. -/
def undelivered (s : State) (c : Contract) (n : Nat) : List Endpoint :=
  c.endpoints.filter fun e => match epPorts s e with
    | [] => false
    | p :: ps => (lostOn c n e.slot p).any fun r => ps.all fun q => (lostOn c n e.slot q).any (sharesData r)

/-- Endpoints that were sent no PRESENT of frame n. -/
def unpresented (s : State) (c : Contract) (n : Nat) : List Endpoint :=
  c.endpoints.filter fun e => !(epPorts s e).any fun p => c.presented.contains (n, p)

/-- Every port of these endpoints failed for an external cause. -/
def allExternal (s : State) (es : List Endpoint) : Bool := es.all fun e => (epPorts s e).all (linkExternal s)

/-- Frame n is a breach already. -/
def isBreach (c : Contract) (n : Nat) : Bool := c.breached.any fun b => b.1 == n

/-- R3: every part of a frame's data left from another port of its endpoint's chain. -/
def deliveredElsewhere (s : State) (c p : Nat) (f : Frame) : Bool :=
  let x := s.contract c
  match endpointAt x (f.queue / 4) with
  | some e => !(frameKeys f).isEmpty && (frameKeys f).all fun k => (epPorts s e).any fun q =>
      q != p && x.sent.contains (f.frame, q, e.slot, k) && !x.unsent.contains (f.frame, q, e.slot, k)
  | none => false

/-- R40, R43: the port discards a class-0 frame of frame n at the guard point; each discard counts, unless the other end of
the chain delivered its data. -/
def guardLose (p c n : Nat) (s : State) (f : Frame) : State :=
  let s1 := discardFrame s p f
  if deliveredElsewhere s c p f then s1
  else breach s1 c n c0Breach (match endpointAt (s.contract c) (f.queue / 4) with
    | some e => allExternal s [e]
    | none => false)

/-- R3: data whose last bit has not left by the guard point has not left in time, though its frame is not cut off. -/
def leavingLate (p c n : Nat) (s : State) : State :=
  match (s.port p).current with
  | some f => if ofFrame c n f && fromDrover f then
      s.modContract c fun x => { x with lost := x.lost ++ (frameRanges f).map fun r => (n, p, f.queue / 4, r.1, r.2) }
    else s
  | none => s

/-- R40: the port discards the class-0 data of frame n that is still queued. -/
def guardDiscard (s : State) (p c n : Nat) : State :=
  ((s.port p).class0.filter (ofFrame c n)).foldl (guardLose p c n)
    ((leavingLate p c n s).modPort p fun y => { y with class0 := y.class0.filter fun f => !ofFrame c n f })

/-- `BEACON` (launch action 0x8). -/
def execBeacon (k : Fin 8192) (s : State) : Out :=
  runLaunch k 0x8 s fun l s => emitBeacon (guardDiscard s l.unit l.contract l.next) l.unit

/-- R195: stripes that some port reported lost and that left from no port. -/
def lostStripes (c : Contract) (n : Nat) : List (Nat × Nat) :=
  ((c.unsent.filter fun u => u.1 == n && decide (u.2.2.2 < 65536)).filter fun u => !(c.sent.any fun v =>
    v.1 == n && v.2.2 == u.2.2 && !c.unsent.contains v)).map fun u => u.2.2

/-- R195: mark a stripe position. -/
def markStripe (s : State) (k : Nat × Nat) : State :=
  modCode s k.1 fun c => { c with marks := if c.marks.contains k.2 then c.marks else c.marks ++ [k.2] }

/-- The guard point has passed on every port of the contract: R3 and R195 are decided. -/
def settleFrame (s : State) (c n : Nat) : State :=
  let x := s.contract c
  if !(contractPorts s x).all (fun p => x.guarded.contains (n, p)) then s
  else
    let us := undelivered s x n
    let s1 := if us.isEmpty || isBreach x n then s else breach s c n c0Breach (allExternal s us)
    (lostStripes x n).foldl markStripe s1

/-! ## PRESENT (R39, R242) -/

/-- The guard point of frame n on port p: the drover gives the frame up, the ring's entries go, PRESENT leaves. -/
def present (s : State) (p c n : Nat) : State :=
  let s1 := guardRing (guardDrover s p c n) p c n
  let s2 := forgetFrame s1 p n ((s.contract c).endpoints.map fun e => e.slot)
  let s3 := s2.modContract c fun x => { x with guarded := x.guarded ++ [(n, p)] }
  let s4 := sendBuilt s3 p { bytes := presentBytes s p c n (launchTick (s.contract c) n), contract := some c, frame := n }
  dropSets (settleFrame s4 c n) c

/-- `PRESENT` (launch action 0x9). -/
def execPresent (k : Fin 8192) (s : State) : Out :=
  runLaunch k 0x9 s fun l s => present s l.unit l.contract l.next

/-! ## The launch tick (R460, R492) -/

/-- The contract counts frame n at its launch tick: it runs, or drains up to n_last. -/
def countsFrame (c : Contract) (n : Nat) : Bool := match c.state with
  | .running => true
  | .draining => match c.nLast with
    | some m => decide (n ≤ m)
    | none => false
  | _ => false

/-- Table 18-7: a time state that fails within 1 s after the common clock or a peer was lost. -/
def timeExternal (s : State) : Bool := match s.wt.lostAt with
  | some t => decide (s.wt.now ≤ t + msTicks 1000)
  | none => false

/-- The time state is one in which a launch is a breach (Table 2-7). -/
def timeLost (s : State) : Bool := s.wt.tstate == .acquire || s.wt.tstate == .unlocked

/-- Fault source `TIME_UNLOCK`. -/
def timeUnlock : Nat := 208

/-- R3, R43: what L(n) decides: a PRESENT that was not sent, and the time state; each is an event of its own. -/
def launchBreach (s : State) (c n : Nat) : State :=
  let x := s.contract c
  let us := unpresented s x n
  let s1 := if us.isEmpty then s else breach s c n c0Breach (allExternal s us)
  if timeLost s then breach s1 c n timeUnlock (timeExternal s) else s1

/-- R492: the trace records of the items that frame n consumed. -/
def traceFrame (s : State) (c n : Nat) : State :=
  let x := s.contract c
  let mine := fun (t : Traced) => t.contract == c && t.frame == some n
  (s.tly.items.filter mine).foldl (fun t i => traceWrite t i (some (launchTick x n)) n false (isBreach x n))
    (s.modTly fun y => { y with items := y.items.filter fun i => !mine i })

/-- What the contract kept about frames up to n. -/
def forgetUpTo (n : Nat) (x : Contract) : Contract :=
  { x with
    breached := x.breached.filter fun b => decide (n < b.1)
    presented := x.presented.filter fun b => decide (n < b.1)
    guarded := x.guarded.filter fun b => decide (n < b.1) || x.sets.any fun f => f.frame == b.1
    lost := x.lost.filter fun b => decide (n < b.1)
    unsent := x.unsent.filter fun b => decide (n < b.1)
    sent := x.sent.filter fun b => decide (n < b.1)
    rowsWritten := x.rowsWritten.filter fun b => decide (n < b.1)
    nextLaunch := n + 1 }

/-- Frame n of a contract has reached its launch tick. -/
def launchFrame (s : State) (c n : Nat) : State :=
  let s1 := launchBreach (s.modAvail c fun a => { a with frames := (a.frames + 1) % 2 ^ 48 }) c n
  (traceFrame s1 c n).modContract c (forgetUpTo n)

/-- `LAUNCH_TICK_REACHED` (R460, Table 3-1). -/
def launchReached (s : State) (c : Nat) : State :=
  let x := s.contract c
  let n := x.nextLaunch
  let s1 := if countsFrame x n && decide (launchTick x n ≤ s.wallNow) then launchFrame s c n else s
  let y := s1.contract c
  if drained s1 y && decide (y.nLast.getD 0 < y.nextLaunch) then drainEnd s1 c else s1
def execLaunchTickReached (c : Fin 64) (s : State) : Out := .next (if s.serving then launchReached s c.val else s)

/-! ## Steps that waited (R12) -/

/-- The body of a step that waits, once what it needs is there. -/
def waitBody (s : State) (k : Nat) (l : LSlot) : State :=
  if l.action = 4 then compBody s l
  else if l.action = 5 then encStart s k l
  else mapListStart s (l.unit % 32) l.contract l.next l.arg

/-- What a waiting step needs is there. -/
def waitReady (s : State) (l : LSlot) : Bool :=
  if l.action = 4 then compReady s l
  else if l.action = 5 then encReady s l
  else s.domainOn (drvDomain (l.unit % 32))

/-- `OVERRUN_STEP_BEGIN` (R12): the first waiting step of a slot begins. -/
def overrunBegin (s : State) (k : Nat) : State :=
  match s.comp.waits.find? fun w => w.1 == k with
  | some w =>
    if waitReady s w.2 && s.serving then
      waitBody { s with comp := { s.comp with waits := s.comp.waits.erase w } } k w.2
    else s
  | none => s
def execOverrunStepBegin (k : Fin 8192) (s : State) : Out := .next (overrunBegin s k.val)

end Sys2Proof.Machine
end

