-- ==== Sys2Proof/Machine/Link.lean ====
section
/-! DEFINITION. The Birset link (chapter 14): flits, replay, credits, transactions, tags and link states. The transactions
that reach the control window are in WindowAccess.lean. -/

namespace Sys2Proof.Machine

/-! ## Link states (R362-R365) -/

/-- A change of `LSTATE` raises source 705 (R371). -/
def setLState (s : State) (st : LState) : State :=
  if s.link.lstate = st then s
  else pendSrc (s.modLink fun l => { l with lstate := st, since := s.wt.now }) 705

/-- A busy tag of the module fails as a host access error (R365, R384). -/
def failRead (s : State) (m : MRead) : State :=
  match m.for_ with
  | .descriptors r first _ => fetchFailed s r first St.hostAccessError
  | .piece n idx skip take => pieceRead s n idx skip take .accessError
  | .barrier k => barrierRead s k .accessError
  | .engine => s

/-- Transactions that survive the link's going down: the writes that no flit has carried (R365). -/
def keptTxn (t : Txn) : Bool :=
  match t with
  | .mwr _ _ => true
  | .mrd _ _ _ => false
  | .cpl _ _ _ _ _ => false

/-- The transmit and receive state that a new TRAIN starts from (R363, R365). A write that was being sent is sent again whole. -/
def clearFlits (l : Link) : Link :=
  { l with replay := [], resend := [], resends := 0, seq := 0, acked := 4095, expect := 0, txPart := [], txCur := none, rxPart := []
           rxq := [], hostTags := [], reads := [], nak := false, nakSent := false
           txq := (l.txCur.toList ++ l.txq).filter keptTxn, lanesUsed := 0, lanesMod := 0, peer := none, peerRun := 0 }

/-- The fetch of a stream that holds tags fails (R365): that of its first fetching unit, and that of the raw frame or slice it
fills a buffer with. -/
def failFetches (s : State) (n : Nat) : State :=
  let s1 := if (fetchingRef (s.stream n)).isSome then
      settle (s.modStream n fun x => { x with units := auFetched x.codec .accessError {} x.units }) n
    else s
  match (s1.stream n).rawQueue with
  | [] => s1
  | r :: _ => match r.buf with
    | some b => rawDone n .accessError r b s1
    | none => s1

/-- R365, Table 17-3: with the link DOWN every busy tag fails as a host access error: descriptor reads, the reads of the DMA
engine, the fetches of units and raw frames. -/
def failReads (s : State) (failing : List MRead) : State :=
  let s1 := failUnlinked (failing.foldl failRead s)
  (s1.streams.map fun p => p.1).foldl failFetches s1

/-- R365: entry to DOWN. -/
def enterDown (s : State) : State :=
  if s.link.lstate = .down then s
  else failReads (setLState (setStatus (s.modLink clearFlits) Off.linkStatus 1) .down) (s.link.reads.filterMap fun p => p.2)

/-- R362: entry to RECOVERY. -/
def enterRecovery (s : State) : State :=
  match s.link.lstate with
  | .active => setLState (setStatus s Off.linkStatus (2 ^ 2)) .recovery
  | .degraded => setLState (setStatus s Off.linkStatus (2 ^ 2)) .recovery
  | _ => s

/-- R364: entry to DEGRADED. -/
def enterDegraded (s : State) : State := raiseFault (setLState (setStatus s Off.linkStatus (2 ^ 1)) .degraded) 241

/-- R358: a fatal protocol error. -/
def fatalProto (s : State) : State := enterDown (raiseFault (setStatus s Off.linkStatus (2 ^ 7)) 240)

/-- R358: a transaction that breaks R356. -/
def protoError (s : State) : State := setStatus s Off.linkStatus (2 ^ 7)

/-- R363: the lane set: all four, else 0-1, else 2-3, else the lowest good lane; 0 where no lane is good. -/
def laneSet (good : BitVec 4) : BitVec 4 :=
  if good = 0xF then 0xF
  else if good &&& 3 = 3 then 3
  else if good &&& 0xC = 0xC then 0xC
  else if bit good 0 then 1 else if bit good 1 then 2 else if bit good 2 then 4 else if bit good 3 then 8 else 0

/-! ## Flits (R344-R349) -/

/-- The 256 bytes of a flit: header, 244 payload bytes, CRC (Table 14-3). -/
def flitBytes (ftype seq ack : Nat) (nak : Bool) (ccls ccnt : Nat) (payload : List Byte) : List Byte :=
  let h := ftype * 2 ^ 30 + seq * 2 ^ 18 + ack * 2 ^ 6 + b2n nak * 32 + ccls * 8 + ccnt
  let body := leBytes 4 h ++ (payload ++ zeros (244 - payload.length))
  body ++ leBytes 8 (crc64 body).toNat

/-- R350: credit units of a transaction of n data bytes. -/
def creditUnits (n : Nat) : Nat := ceilDiv (16 + n) 64

/-- R352: available credit: limit - (C - T), in 32-bit modular arithmetic; less than 0 is none. -/
def creditLeft (lim : Nat) (used ret : BitVec 32) : Nat := (BitVec.ofNat 32 lim - (used - ret)).toInt.toNat

/-- The header and data of a transaction (Table 14-4). -/
def txnBytes (t : Txn) : List Byte :=
  match t with
  | .mrd tag a n => leBytes 1 1 ++ leBytes 1 0 ++ leBytes 2 tag ++ leBytes 2 n ++ leBytes 2 0 ++ leBytes 8 a
  | .mwr a bs => leBytes 1 2 ++ leBytes 1 0 ++ leBytes 2 0 ++ leBytes 2 bs.length ++ leBytes 2 0 ++ leBytes 8 a ++ bs
  | .cpl tag st last off bs =>
    leBytes 1 3 ++ leBytes 1 (128 * b2n last + st) ++ leBytes 2 tag ++ leBytes 2 bs.length ++ leBytes 2 off
      ++ leBytes 8 0 ++ bs

/-- The sender holds credits for the whole transaction (R350). -/
def mayStart (l : Link) (t : Txn) : Bool :=
  match t with
  | .mrd _ _ _ => decide (1 ≤ creditLeft l.limMrd l.usedMrd l.retMrd)
  | .mwr _ bs => decide (creditUnits bs.length ≤ creditLeft l.limMwr l.usedMwr l.retMwr)
  | .cpl _ _ _ _ _ => true

/-- Consume the credits of a transaction and free the host's tag with its last CPL. -/
def startTxn (l : Link) (t : Txn) : Link :=
  match t with
  | .mrd _ _ _ => { l with usedMrd := l.usedMrd + 1 }
  | .mwr _ bs => { l with usedMwr := l.usedMwr + BitVec.ofNat 32 (creditUnits bs.length) }
  | .cpl tag _ last _ _ => if last then { l with hostTags := l.hostTags.erase tag } else l

/-- R355: pack transactions into the room of one payload, fuel first: the bytes and the link after it. -/
def packFlit : Nat → Nat → Link → List Byte × Link
  | 0, _, l => ([], l)
  | n + 1, room, l =>
    if l.txPart ≠ [] then
      let r := packFlit n (room - min room l.txPart.length) { l with txPart := l.txPart.drop room, txCur := if l.txPart.length ≤ room then none else l.txCur }
      (l.txPart.take room ++ r.1, r.2)
    else
      match l.txq with
      | [] => ([], l)
      | t :: ts =>
        if 16 ≤ room ∧ mayStart l t then packFlit n room { startTxn l t with txq := ts, txPart := txnBytes t, txCur := some t }
        else ([], l)

/-- Something can be sent in a new DATA flit. -/
def dataReady (l : Link) : Bool :=
  l.txPart != [] || (match l.txq with
    | [] => false
    | t :: _ => mayStart l t)

/-- R352: the credits that the next flit returns: class and count, at most 7 units of one class. -/
def creditReturn (l : Link) : Nat × Nat :=
  if l.oweMrd ≠ 0 then (1, min 7 l.oweMrd) else if l.oweMwr ≠ 0 then (2, min 7 l.oweMwr) else (0, 0)

/-- What sending those credits does. -/
def creditSent (l : Link) : Link :=
  match creditReturn l with
  | (1, n) => { l with giveMrd := l.giveMrd + BitVec.ofNat 32 n, oweMrd := l.oweMrd - n }
  | (2, n) => { l with giveMwr := l.giveMwr + BitVec.ofNat 32 n, oweMwr := l.oweMwr - n }
  | _ => l

/-- The `STATE` code of a management flit (Table 14-7). -/
def mgmtState (st : LState) : Nat :=
  match st with
  | .train => 1
  | .recovery => 3
  | _ => 2

/-- R363: the lane set that the module selects in TRAIN from the lanes good at both ends; none before the adapter's are known. -/
def selectedSet (l : Link) : Option (BitVec 4) := l.peer.map fun p => laneSet (l.lanesMod &&& p.good)

/-- `STATE` and lane set of a management flit: in TRAIN a side that has selected its set sends on it with `STATE` 2 (R363: entry
to ACTIVE or DEGRADED waits for 16 such flits of the other end). -/
def mgmtRun (l : Link) : Nat × BitVec 4 :=
  match l.lstate, selectedSet l with
  | .train, some set => if set = 0 then (1, 0) else (2, set)
  | .train, none => (1, 0)
  | st, _ => (mgmtState st, l.lanesUsed)

/-- The payload of a management flit (Table 14-7); every credit owed counts as returned in it (R352). -/
def mgmtPayload (s : State) : List Byte :=
  let l := s.link
  leBytes 1 1 ++ leBytes 1 1 ++ leBytes 1 (mgmtRun l).1 ++ leBytes 1 (l.lanesMod.toNat * 16 + (mgmtRun l).2.toNat)
    ++ leBytes 4 l.epochMod.toNat ++ leBytes 2 128 ++ leBytes 2 1024
    ++ leBytes 4 (l.giveMrd + BitVec.ofNat 32 l.oweMrd).toNat ++ leBytes 4 (l.giveMwr + BitVec.ofNat 32 l.oweMwr).toNat

/-- The link after a management flit was sent. -/
def mgmtSent (l : Link) : Link :=
  { l with giveMrd := l.giveMrd + BitVec.ofNat 32 l.oweMrd, giveMwr := l.giveMwr + BitVec.ofNat 32 l.oweMwr,
           oweMrd := 0, oweMwr := 0 }

/-- E - 1 modulo 4,096. -/
def ackOf (l : Link) : Nat := (l.expect + 4095) % 4096

/-- The pending NAK goes out with a flit (R348). -/
def nakGone (l : Link) : Link := if l.nak then { l with nak := false, nakSent := true } else l

/-- A flit with its header from the present acknowledgement and credits. -/
def emit (l : Link) (ftype seq : Nat) (payload : List Byte) : Link :=
  let c := creditReturn l
  let f := flitBytes ftype seq (ackOf l) l.nak c.1 c.2 payload
  { nakGone (creditSent l) with flit := f, slot := l.slot + 1 }

/-- `SEQ` of IDLE and MGMT: the number of the next DATA flit, which is the head of a replay while one is under way (R344). -/
def nextData (l : Link) : Nat := match l.resend with
  | (q, _) :: _ => q
  | [] => l.seq

/-- R343: a management flit. -/
def emitMgmt (s : State) (l : Link) : Link :=
  let f := flitBytes 2 (nextData l) (ackOf l) l.nak 0 0 (mgmtPayload s)
  { nakGone (mgmtSent l) with flit := f, slot := l.slot + 1 }

/-- R343, R347-R349: what the transmitter sends in one slot. -/
def flitStep (s : State) : State :=
  let l := s.link
  match l.lstate with
  | .down => s
  | .train => s.modLink (emitMgmt s)
  | .recovery => s.modLink (emitMgmt s)
  | _ =>
    if l.slot % 72 = 71 then s.modLink (emitMgmt s)
    else match l.resend with
      | (q, p) :: rest => s.modLink fun l => { emit l 0 q p with resend := rest }
      | [] =>
        if l.replay.length < 512 ∧ dataReady l then
          s.modLink fun l =>
            let r := packFlit 64 244 l
            let e := emit r.2 0 l.seq r.1
            { e with seq := (l.seq + 1) % 4096, replay := l.replay ++ [(l.seq, r.1)]
                     ackSlot := if l.replay.isEmpty then e.slot else l.ackSlot }
        else s.modLink fun l => emit l 1 l.seq []

/-- R349: every unacknowledged flit is resent from `ACK` + 1, which sets `LINK_STATUS.REPLAY`. -/
def startReplay (s : State) : State :=
  if s.link.replay.isEmpty then s
  else tallyAdd (setStatus (s.modLink fun l => { l with resend := l.replay, resends := l.resends + 1, ackSlot := l.slot })
      Off.linkStatus (2 ^ 3)) 997 1

/-- R349: a `NAK` or a timeout asks for a replay; after 8 resends without progress the link enters RECOVERY instead. -/
def replayNow (s : State) : State :=
  if !s.link.replay.isEmpty && decide (8 ≤ s.link.resends) then enterRecovery s else startReplay s

/-- R346, R347: apply an `ACK` that covers n flits of the replay buffer. -/
def applyAck (l : Link) (ack : Nat) : Link :=
  let n := (ack + 4096 - l.acked) % 4096
  if n = 0 ∨ l.replay.length < n then l
  else { l with acked := ack, replay := l.replay.drop n, resends := 0, ackSlot := l.slot
                resend := l.resend.filter fun r => (l.replay.drop n).any fun x => x.1 == r.1 }

/-- R352: credits returned by a flit. -/
def applyCredit (l : Link) (ccls ccnt : Nat) : Link :=
  match ccls with
  | 1 => { l with retMrd := l.retMrd + BitVec.ofNat 32 ccnt }
  | 2 => { l with retMwr := l.retMwr + BitVec.ofNat 32 ccnt }
  | _ => l

/-- Data bytes that follow a header: of MWR and CPL its `LENGTH`, of MRD none. -/
def txnDataLen (h : List Byte) : Nat := if u8 h 0 = 1 then 0 else leAt h 4 2

/-- The transaction of a header with its data; none for a reserved `TTYPE`. -/
def parseTxn (bs : List Byte) : Option Txn :=
  match u8 bs 0 with
  | 1 => some (.mrd (leAt bs 2 2 % 4096) (leAt bs 8 8) (leAt bs 4 2))
  | 2 => some (.mwr (leAt bs 8 8) (bs.drop 16))
  | 3 => some (.cpl (leAt bs 2 2 % 4096) (u8 bs 1 % 8) (decide (128 ≤ u8 bs 1)) (leAt bs 6 2) (bs.drop 16))
  | _ => none

/-- R355: take the transactions of a payload, fuel first. None where a reserved `TTYPE` is met. -/
def unpackFlit : Nat → List Byte → List Byte → List Txn → Option (List Byte × List Txn)
  | 0, part, _, q => some (part, q)
  | n + 1, part, bs, q =>
    if part ≠ [] then
      let need := 16 + txnDataLen part - part.length
      let part' := part ++ bs.take need
      if bs.length < need then some (part', q)
      else (parseTxn part').bind fun t => unpackFlit n [] (bs.drop need) (q ++ [t])
    else if bs.length < 16 ∨ u8 bs 0 = 0 then some ([], q)
    else if 3 < u8 bs 0 then none
    else
      let h := bs.take 16
      if txnDataLen h = 0 then (parseTxn h).bind fun t => unpackFlit n [] (bs.drop 16) (q ++ [t])
      else unpackFlit n h (bs.drop 16) q

/-- R348: a DATA flit with a good CRC. -/
def takeData (s : State) (seq : Nat) (payload : List Byte) : State :=
  let l := s.link
  if seq = l.expect then
    match unpackFlit 64 l.rxPart payload [] with
    | some (part, q) => s.modLink fun l =>
        { l with expect := (l.expect + 1) % 4096, nakSent := false, rxPart := part, rxq := l.rxq ++ q }
    | none => fatalProto s
  else if (seq + 4096 - l.expect) % 4096 < 2048 then
    s.modLink fun l => if l.nakSent then l else { l with nak := true }
  else s

/-- A management flit (R352, Table 14-7). -/
def takeMgmt (s : State) (payload : List Byte) : State :=
  let s1 := s.modLink fun l => { l with lastMgmt := l.slot, retMrd := BitVec.ofNat 32 (leAt payload 12 4),
                                        retMwr := BitVec.ofNat 32 (leAt payload 16 4) }
  if u8 payload 1 = 1 then s1 else protoError s1

/-- A flit has its 256 bytes and its CRC matches (R345). -/
def flitGood (f : List Byte) : Bool := f.length == 256 && (crc64 (f.take 248)).toNat == leAt f 248 8

/-- R344-R349: a flit received in ACTIVE, DEGRADED or RECOVERY. -/
def flitTake (s : State) (f : List Byte) : State :=
  if !flitGood f then s.modLink fun l => { l with nak := true }
  else
    let h := BitVec.ofNat 32 (leAt f 0 4)
    let s1 := s.modLink fun l => applyCredit (applyAck l (fld h 17 6)) (fld h 4 3) (fld h 2 0)
    let s2 := if bit h 5 then replayNow s1 else s1
    let payload := slice f 4 244
    match fld h 31 30 with
    | 0 => takeData s2 (fld h 29 18) payload
    | 1 => s2
    | 2 => takeMgmt s2 payload
    | _ => fatalProto s2

/-- The credit limits that the adapter must advertise (R351). -/
def limitsOk (limMrd limMwr : Nat) : Bool := decide (64 ≤ limMrd) && decide (512 ≤ limMwr)

/-- What a management flit of the adapter says (Table 14-7). -/
def peerOf (payload : List Byte) : PeerMgmt :=
  { state := u8 payload 2, good := BitVec.ofNat 4 (u8 payload 3 / 16), set := BitVec.ofNat 4 (u8 payload 3)
    epoch := BitVec.ofNat 32 (leAt payload 4 4), limMrd := leAt payload 8 2, limMwr := leAt payload 10 2 }

/-- R363: the good management flits that have shown the module's own set and `STATE` 2 without a break. -/
def runAfter (l : Link) (p : PeerMgmt) : Nat :=
  if p.state = 2 ∧ p.set ≠ 0 ∧ selectedSet { l with peer := some p } = some p.set then l.peerRun + 1 else 0

/-- R363: with `DEGRADE_EN` = 0 a set of fewer than 4 lanes returns the link to DOWN. -/
def setShort (s : State) : Bool := !bit (s.reg Off.linkCfg) 24 && (match selectedSet s.link with
  | some set => set != 0xF
  | none => false)

/-- R351, R363, Table 14-7: a management flit received in TRAIN. Another `VERSION` or a limit that is too low sets `PROTO` and
keeps the link in TRAIN. -/
def trainMgmt (s : State) (payload : List Byte) : State :=
  let p := peerOf payload
  if u8 payload 1 = 1 ∧ limitsOk p.limMrd p.limMwr then
    let s1 := s.modLink fun l => { l with peer := some p, peerRun := runAfter l p }
    if setShort s1 then enterDown s1 else s1
  else protoError (s.modLink fun l => { l with peer := none, peerRun := 0 })

/-- A flit received in TRAIN: management flits carry the training, DATA and IDLE flits have no effect before the sequence
numbers start (R363, entry 131 of the log); a flit with a bad CRC breaks the run. -/
def trainTake (s : State) (f : List Byte) : State :=
  if !flitGood f then s.modLink fun l => { l with nak := true, peerRun := 0 }
  else match fld (BitVec.ofNat 32 (leAt f 0 4)) 31 30 with
    | 2 => trainMgmt s (slice f 4 244)
    | 3 => fatalProto s
    | _ => s

/-! ## Tags of the module (R359) -/

/-- Outcome of a read (Table 14-5): a host access error where any CPL carried UR or CA or data is missing, else poisoned
data where any carried POISONED, else success. -/
def readOutcome (m : MRead) : HostData :=
  if m.host then .accessError else if m.poison then .poisoned else if m.data.length = m.len then .ok m.data else .accessError

/-- Give a finished read to its engine. -/
def deliverRead (s : State) (m : MRead) : State :=
  match m.for_ with
  | .engine => s
  | .piece n idx skip take => pieceRead s n idx skip take (readOutcome m)
  | .barrier k => barrierRead s k (readOutcome m)
  | .descriptors r first n => match readOutcome m with
    | .ok bs => if bit (s.sq r).cfg 31 then takeDescs n r bs s else s
    | .accessError => fetchFailed s r first St.hostAccessError
    | .poisoned => fetchFailed s r first St.poisonedData
    | .badList => s

/-- R356: a CPL is well formed for a read: a status, at most 512 B, none only with a failure; its data follows that of the one
before (after one without data, from there on), and ends on a 64-byte boundary unless it is the last. -/
def cplFits (m : MRead) (status : Nat) (last : Bool) (off : Nat) (bs : List Byte) : Bool :=
  decide (status < 4) && decide (bs.length ≤ 512) && (status != 0 || bs.length != 0)
    && (off == m.next || m.hole && decide (m.next ≤ off)) && decide (off + bs.length ≤ m.len)
    && (last || bs.isEmpty || (m.addr + off + bs.length) % 64 == 0)

/-- A read after one of its CPLs. -/
def cplAdded (m : MRead) (status off : Nat) (bs : List Byte) : MRead :=
  { m with data := m.data ++ bs, next := off + bs.length, hole := m.hole || bs.isEmpty
           host := m.host || status == 1 || status == 2, poison := m.poison || status == 3 }

/-- R356-R359: a CPL received. -/
def cplTake (s : State) (tag status : Nat) (last : Bool) (off : Nat) (bs : List Byte) : State :=
  if (mget none s.link.quarantine tag).isSome then tallyAdd (setStatus s Off.linkStatus (2 ^ 5)) 998 1
  else match mget none s.link.reads tag with
    | none => protoError s
    | some m =>
      if !cplFits m status last off bs then protoError s
      else
        let m' := cplAdded m status off bs
        if last then deliverRead (s.modLink fun l => { l with reads := mset none l.reads tag none }) m'
        else s.modLink fun l => { l with reads := mset none l.reads tag (some m') }

/-- R359: a read without its last CPL after `CPL_TIMEOUT` fails, and its tag is quarantined for 1 s. -/
def tagTimeout (s : State) (tag : Nat) : State :=
  match mget none s.link.reads tag with
  | none => s
  | some m =>
    if s.wt.now < m.at_ + msTicks (fld (s.reg Off.linkCfg) 9 0) then s
    else pump (failRead (s.modLink fun l => { l with reads := mset none l.reads tag none,
                                                     quarantine := mset none l.quarantine tag (some (s.wt.now + msTicks 1000)) }) m)

/-- R359: the end of a quarantine. -/
def tagFree (s : State) (tag : Nat) : State :=
  match mget none s.link.quarantine tag with
  | none => s
  | some t => if s.wt.now < t then s else pump (s.modLink fun l => { l with quarantine := mset none l.quarantine tag none })

/-! ## Training (R362, R363, R365) -/

/-- R500: the HOST cage holds a plug-in module in its normal power mode. -/
def hostCage (s : State) : Bool := (mget {} s.cages 10).present && !(mget {} s.cages 10).lowPower

/-- `LANE_EN`. -/
def laneEn (s : State) : BitVec 4 := BitVec.ofNat 4 (fld (s.reg Off.linkCfg) 19 16)

/-- R362: PD56 is ON and signal is detected on an enabled lane at least 10 ms after DOWN was entered. `locked` are the lanes that
lock and deskew in this TRAIN (R363, steps 1 and 2): the lanes good at the module are the enabled ones among them. -/
def signalStep (s : State) (signal locked : BitVec 4) : State :=
  if s.link.lstate = .down ∧ s.domainOn 56 ∧ hostCage s ∧ signal &&& laneEn s ≠ 0 ∧ s.link.since + msTicks 10 ≤ s.wt.now then
    setLState (s.modLink fun l => { l with lanesMod := signal &&& locked &&& laneEn s, slot := 0 }) .train
  else s

/-- Units of a stream that have not begun to decode, and raw submits, end with an epoch change (R365, R374); what they held
of the buffers is free again. -/
def endUnits (x : Stream) : Stream :=
  let kept := x.units.filter fun u => u.phase == .decoding
  { x with units := kept, ibufUsed := sumOf (kept.map fun u => u.bytes), rawQueue := [], closes := []
           bufs := x.bufs.filter fun b => b.2.complete }

/-- The streams after an epoch change: a FLUSHING stream left without units closes (Table 3-2). -/
def endStreams (s : State) : State :=
  let s1 : State := { s with streams := s.streams.map fun p => (p.1, endUnits p.2) }
  s1.streams.foldl (fun t p => tryClose t p.1) s1

/-- The buffers of the messages that waited for their release return (R395). -/
def endMessages (s : State) : State :=
  s.eg.held.foldl (fun t m => match m.buf with
    | some (pool, h) => freeBuf t pool h
    | none => t) (s.modEg fun e => { e with held := [], waiting := [] })

/-- A held table event that belongs to no command. -/
def ownLess (h : HeldTbl) : Bool :=
  match h with
  | .ev (.telemetry ..) => true
  | .ev (.notice ..) => true
  | .ev (.learn ..) => false
  | .ev (.remove ..) => false
  | .lpm .. => false

/-- R365: with a different epoch every command in flight ends with no completion written, and every ring is disabled.
Contracts keep running. -/
def epochChange (s : State) : State :=
  let s1 := setStatus s Off.linkStatus (2 ^ 8)
  let s2 := s1.modRings fun x => { x with
    inflight := [], fetched := [], waiting := [], tlmUsed := []
    sqs := x.sqs.map fun (p : Nat × Sq) => (p.1, { p.2 with cfg := setFld p.2.cfg 31 31 0, held := none, fenced := none })
    cqs := x.cqs.map fun (p : Nat × Cq) => (p.1, { p.2 with cfg := setFld p.2.cfg 31 31 0, full := false, pend := [] }) }
  let s3 := s2.modLink fun l => { l with txq := [] }
  let s4 := s3.modWt fun w => { w with slots := w.slots.map fun p => (p.1, cancelledSlot p.2) }
  let s5 : State := { s4 with
    contracts := s4.contracts.map (fun p => (p.1, { p.2 with commit := none, releases := [] }))
    tbl := { s4.tbl with audit := none, held := s4.tbl.held.filter ownLess }
    dma := { s4.dma with xfers := [], waiting := [], channels := [] }
    nvm := { s4.nvm with waiting := [] } }
  drainHeld (endStreams (endMessages s5))

/-- R363: the link's state on entry to ACTIVE or DEGRADED. -/
def trained (l : Link) (set : BitVec 4) (p : PeerMgmt) : Link :=
  { l with lanesGood := l.lanesMod &&& p.good, lanesUsed := set, epochHost := p.epoch, epochHeld := some p.epoch
           peer := none, peerRun := 0
           slot := 0, lastMgmt := 0, ackSlot := 0, seq := 0, acked := 4095, expect := 0, replay := [], resend := [], resends := 0
           limMrd := p.limMrd, limMwr := p.limMwr, usedMrd := 0, usedMwr := 0, retMrd := 0, retMwr := 0
           giveMrd := 0, giveMwr := 0, oweMrd := 0, oweMwr := 0, nak := false, nakSent := false }

/-- R363, R365: TRAIN ends once 16 management flits in a row have shown the module's own set; after 100 ms it cannot (R362). -/
def trainStep (s : State) : State :=
  match s.link.lstate, s.link.peer, selectedSet s.link with
  | .train, some p, some set =>
    if s.link.peerRun < 16 then s
    else if s.link.since + msTicks 100 < s.wt.now then enterDown s
    else
      let changed := match s.link.epochHeld with
        | some e => e != p.epoch
        | none => false
      let s1 := s.modLink fun l => trained l set p
      let s2 := if set = 0xF then setLState s1 .active else enterDegraded s1
      if changed then epochChange s2 else pump (drainCpl s2.rings.waiting [] s2)
  | _, _, _ => s

/-- R362: 100 ms in TRAIN. -/
def trainTimeoutStep (s : State) : State :=
  if s.link.lstate = .train ∧ s.link.since + msTicks 100 ≤ s.wt.now then enterDown s else s

/-- R362, R343: RECOVERY ends within 10 ms with the lanes that remain, counts its slots anew and replays from `ACK` + 1. -/
def recoveryStep (s : State) (lanes : BitVec 4) : State :=
  if s.link.lstate = .recovery then
    let set := laneSet (lanes &&& s.link.lanesUsed)
    if set = 0 ∨ s.link.since + msTicks 10 < s.wt.now then enterDown s
    else
      let s1 := s.modLink fun l => { l with lanesUsed := set, slot := 0, lastMgmt := 0, ackSlot := 0, resends := 0 }
      startReplay (if set = 0xF then setLState s1 .active else enterDegraded s1)
  else s

/-- R362: RECOVERY that has not ended within 10 ms. -/
def recoveryTimeoutStep (s : State) : State :=
  if s.link.lstate = .recovery ∧ s.link.since + msTicks 10 ≤ s.wt.now then enterDown s else s

/-- The link carries DATA flits. -/
def carriesData (s : State) : Bool :=
  match s.link.lstate with
  | .active => true
  | .degraded => true
  | _ => false

/-! ## Registers of the link -/

/-- `LINK_CFG` (Table 14-8, R370): ignored with `CPL_TIMEOUT` out of range or `LANE_EN` 0; a change of `LANE_EN` takes the
link DOWN. -/
def linkCfgOp (s : State) (v : Word) : State :=
  if 1 ≤ fld v 9 0 ∧ fld v 9 0 ≤ 1000 ∧ fld v 19 16 ≠ 0 then
    let s1 := s.setReg Off.linkCfg (v &&& 0x010F03FF#32)
    if fld v 19 16 = fld (s.reg Off.linkCfg) 19 16 then s1 else enterDown s1
  else s

/-- `LINK_CTRL` (Table 14-8). -/
def linkCtrlOp (s : State) (v : Word) : State := if bit v 0 then enterDown s else s

/-- The conditions of `READY` (R367, R399); none holds before power-good, while the pin is undriven (R502). -/
def readyWant (s : State) : Bool := linkUp s && (devState s == 2 || devState s == 4) && claimWinner s 4 == 0

/-- R367: the pin follows its conditions at each tick, but stays high for 1 us. -/
def readyFollow (s : State) : State :=
  if readyWant s = s.link.ready then s
  else if readyWant s then s.modLink fun l => { l with ready := true, readyAt := s.wt.now }
  else if s.link.readyAt + usTicks 1 ≤ s.wt.now then s.modLink fun l => { l with ready := false }
  else s

/-- R357: transactions that an earlier one in the receive queue keeps back: every one behind a write, a CPL behind one of its
tag. -/
def keepsBack (earlier t : Txn) : Bool :=
  match earlier, t with
  | .mwr .., _ => true
  | .cpl a .., .cpl b .. => a == b
  | _, _ => false

/-- R357: a transaction may be applied to memory or registers now. -/
def mayApply (l : Link) (t : Txn) : Bool := !(l.rxq.takeWhile fun x => x != t).any fun x => keepsBack x t

/-! ## Meanings -/

/-- `FLIT_SLOT` (R343). -/
def execFlitSlot (s : State) : Out := .next (flitStep s)

/-- A codeword of the flit could not be corrected (Table 14-10). -/
def flitUncorr (s : State) : State := setStatus s Off.linkStatus (2 ^ 4)

/-- A flit received, by the state of the link. -/
def flitByState (s : State) (flit : List Byte) : State :=
  match s.link.lstate with
  | .down => s
  | .train => trainTake s flit
  | _ => flitTake s flit

/-- `FLIT_RECEIVE` (R345-R348, R363). -/
def execFlitReceive (flit : List Byte) (fecUncorr : Bool) (s : State) : Out :=
  .next (flitByState (if fecUncorr && s.link.lstate != .down then flitUncorr s else s) flit)

/-- `REPLAY_TIMEOUT` (R349): 1,024 flit times without progress. -/
def execReplayTimeout (s : State) : Out :=
  if carriesData s && decide (s.link.ackSlot + 1024 ≤ s.link.slot) then .next (replayNow s) else .next s

/-- `MGMT_TIMEOUT` (R362): no good management flit for 288 slots. -/
def execMgmtTimeout (s : State) : Out :=
  if carriesData s && decide (s.link.lastMgmt + 288 ≤ s.link.slot) then .next (enterRecovery s) else .next s

/-- `LINK_SIGNAL_DETECT` (R362). -/
def execLinkSignalDetect (signal locked : BitVec 4) (s : State) : Out := .next (signalStep s signal locked)

/-- `TRAIN_COMPLETE` (R363, R365). -/
def execTrainComplete (s : State) : Out := .next (trainStep s)

/-- `TRAIN_TIMEOUT` (R362). -/
def execTrainTimeout (s : State) : Out := .next (trainTimeoutStep s)

/-- `RECOVERY_ENTRY` (R362). -/
def execRecoveryEntry (s : State) : Out := .next (enterRecovery s)

/-- `RECOVERY_COMPLETE` (R362). -/
def execRecoveryComplete (lanes : BitVec 4) (s : State) : Out := .next (recoveryStep s lanes)

/-- `RECOVERY_TIMEOUT` (R362). -/
def execRecoveryTimeout (s : State) : Out := .next (recoveryTimeoutStep s)

/-- `LINK_CPL_RECEIVE` (R356-R359). No transaction arrives while the link is down. -/
def execLinkCplReceive (tag : Fin 4096) (status : Fin 8) (last : Bool) (off : BitVec 16) (bytes : List Byte) (s : State) :
    Out :=
  let t : Txn := .cpl tag.val status.val last off.toNat bytes
  if linkUp s && mayApply s.link t then
    .next (cplTake (s.modLink fun l => { l with rxq := l.rxq.erase t }) tag.val status.val last off.toNat bytes)
  else .next s

/-- `CPL_TIMEOUT` (R359). -/
def execCplTimeout (tag : Fin 4096) (s : State) : Out := .next (tagTimeout s tag.val)

/-- `TAG_QUARANTINE_END` (R359). -/
def execTagQuarantineEnd (tag : Fin 4096) (s : State) : Out := .next (tagFree s tag.val)

/-- `RETRAIN`: a write of 1 to `LINK_CTRL.RETRAIN` (R362); dropped while PD56 is not ON (R370). -/
def execRetrain (s : State) : Out := .next (if s.domainOn 56 then linkCtrlOp s 1 else s)

/-- `LINK_CFG` (R370). -/
def execLinkCfgWrite (v : Word) (s : State) : Out := .next (if s.domainOn 56 then linkCfgOp s v else s)

end Sys2Proof.Machine
end

