-- ==== Sys2Proof/Machine/Stop.lean ====
section
/-! DEFINITION. The stop of the module (Table 18-4, R529). -/

namespace Sys2Proof.Machine

/-- R529: in STOPPED only the always-on domain, PD56 and PD63 are ON. -/
def stoppedDomains (p : Power) : Map Domain :=
  (List.range 64).foldl (fun m d => if d = 56 ∨ d = 63 then m else mset ({} : Domain) m d {}) p.domains

/-- R529: every launch slot is disarmed, the ports are held down, and `DEVSTATE` shows STOPPED. Contracts, streams and
rings keep the states they last showed. -/
def stopModule (s : State) : State :=
  let s1 : State := { s with
    pwr := { s.pwr with phase := .stopped, domains := stoppedDomains s.pwr, stopAt := none }
    wt := { s.wt with slots := s.wt.slots.map fun p => (p.1, { p.2 with armed := false }) }
    eg := { s.eg with ports := s.eg.ports.map fun p => (p.1, { p.2 with linkUp := false }) }
    peerE := { s.peerE with linkUp := false }
    peerW := { s.peerW with linkUp := false } }
  devEvent s s1

end Sys2Proof.Machine
end

