-- ==== Sys2Proof/Machine/Memory.lean ====
section
/-! DEFINITION. DRAM and the memory fabric (chapter 16). -/

namespace Sys2Proof.Machine

/-! ## The address map (R402) -/

/-- Channel of a device address. -/
def memChannel (a : Nat) : Nat :=
  let g := a >>> 8
  (g ^^^ (g >>> 5) ^^^ (g >>> 10)) % 32

/-- Channel-local offset of a device address. -/
def memOffset (a : Nat) : Nat := ((a >>> 8) >>> 5) <<< 8 ||| a % 256

/-- Bank and row of an offset. -/
def memBank (o : Nat) : Nat := (o >>> 11) % 16
def memRow (o : Nat) : Nat := o >>> 15

/-- Address of the check bytes of the codeword that holds an offset. -/
def memChk (o : Nat) : Nat := 0x70000000 + ((o >>> 6) <<< 3)

/-- The device addresses that exist: 56 GiB (Table 16-1). -/
def deviceTop : Nat := 0xE00000000

/-! ## Training (R404, R405) -/

/-- The scan of a sweep: first tap and length of the widest passing run so far (the first of equals), and of the present run. -/
structure Run where
  start : Nat := 0
  len : Nat := 0
  curStart : Nat := 0
  curLen : Nat := 0

/-- One tap of a sweep. -/
def runTap (v : BitVec 128) (r : Run) (t : Nat) : Run :=
  if bit v t then
    let s := if r.curLen = 0 then t else r.curStart
    let n := r.curLen + 1
    if r.len < n then ⟨s, n, s, n⟩ else { r with curStart := s, curLen := n }
  else { r with curLen := 0 }

/-- The widest passing run of a sweep, and its centre rounded down (R404). -/
def widestRun (v : BitVec 128) : Run := (List.range 128).foldl (runTap v) {}
def runCentre (r : Run) : Nat := (2 * r.start + r.len - 1) / 2

/-- R405: a lane whose widest run, in either sweep, is below 24 taps fails. Its eye width is the smaller of the two (entry 137
of the log). -/
def eyeWidth (x : Sweep) : Nat := min (widestRun x.rd).len (widestRun x.wr).len
def lanePass (x : Sweep) : Bool := decide (24 ≤ eyeWidth x)

/-- R404: a channel that is not trained yet takes the centres of its sweeps where both lanes pass. -/
def trainChannel (now : Nat) (x : Sweep × Sweep) (c : Channel) : Channel :=
  if c.trained || !(lanePass x.1 && lanePass x.2) then c
  else { c with trained := true, rd0 := runCentre (widestRun x.1.rd), wr0 := runCentre (widestRun x.1.wr)
                rd1 := runCentre (widestRun x.2.rd), wr1 := runCentre (widestRun x.2.wr)
                width0 := eyeWidth x.1, width1 := eyeWidth x.2, tap0 := 0, tap1 := 0, limit0 := false, limit1 := false
                refAt := now, mr4At := now }

/-- The channels, in number order, take their sweeps. -/
def trainAll : List (Sweep × Sweep) → Nat → State → State
  | [], _, s => s
  | x :: xs, ch, s => trainAll xs (ch + 1) (s.modChannel ch (trainChannel s.wt.now x))

/-- Every channel is trained. -/
def allTrained (s : State) : Bool := (List.range 32).all fun ch => (s.channel ch).trained

/-- R405: the end of training. A channel with a failed lane is retrained up to 3 times; then the module stops. -/
def trainingDone (s : State) (sweeps : List (Sweep × Sweep)) : State :=
  if s.pwr.phase ≠ .training ∨ s.mem.trained then s
  else
    let s1 := trainAll (sweeps.take 32) 0 s
    if allTrained s1 then s1.modMem fun m => { m with trained := true }
    else if s.mem.attempts < 3 then s1.modMem fun m => { m with attempts := m.attempts + 1 }
    else
      let s2 := raiseFault (s1.modMem fun m => { m with trainFail := true }) 256
      stopModule (s2.modPwr fun p => { p with bootStatus := p.bootStatus ||| 0x10#32 })

/-! ## Drift, refresh and RFM (R406-R410) -/

/-- One tap towards the count that was recorded at training; a lane at 16 taps moves no further (R406, R407). -/
def movedTap (tap drift : Int) : Int :=
  if tap ≤ -16 ∨ 16 ≤ tap then tap else if 1 ≤ drift then tap + 1 else if drift ≤ -1 then tap - 1 else tap

/-- A lane has moved 16 taps. -/
def atLimit (tap : Int) : Bool := decide (tap ≤ -16) || decide (16 ≤ tap)

/-- R406-R408, R410: an all-bank refresh moves the write taps, closes every page and serves every RFM mark. -/
def refreshedChannel (drift0 drift1 : Int) (c : Channel) : Channel :=
  let t0 := movedTap c.tap0 drift0
  let t1 := movedTap c.tap1 drift1
  { c with tap0 := t0, tap1 := t1, limit0 := c.limit0 || atLimit t0, limit1 := c.limit1 || atLimit t1, rows := [], rfm := 0 }

/-- R409: the all-bank refresh interval: 3.9 us, above 85 °C 1.95 us. -/
def refreshTicks (c : Channel) : Nat := if c.fastRefresh then 312 else 624

/-- A refresh of a channel is due (R409). -/
def refreshDue (s : State) (ch : Nat) : Bool :=
  s.mem.trained && decide ((s.channel ch).refAt + refreshTicks (s.channel ch) ≤ s.wt.now)

/-- R407: the module reports a lane that reaches its limit. -/
def refreshStep (s : State) (ch : Nat) (drift0 drift1 : Int) : State :=
  let c := s.channel ch
  let s1 := s.modChannel ch fun c => { refreshedChannel drift0 drift1 c with refAt := s.wt.now }
  let c1 := s1.channel ch
  if (c1.limit0 && !c.limit0) || (c1.limit1 && !c.limit1) then raiseFault (setStatus s1 Off.memStatus (2 ^ 3)) 257 else s1

/-- `MEM_CFG.RFM_K` (Table 16-5). -/
def rfmK (s : State) : Nat := fld (s.reg Off.memCfg) 19 16

/-- R408, R410: an access to a row: where it is not open its bank is activated, which serves a pending RFM mark, steps the
LFSR and may mark the bank. -/
def activate (k bank row : Nat) (c : Channel) : Channel :=
  if mget none c.rows bank = some row then c
  else
    let v := Config.lfsrStep c.lfsr
    let served := setBit c.rfm bank false
    { c with rows := mset none c.rows bank (some row), lfsr := v
             rfm := if v.toNat % 2 ^ k = 0 then setBit served bank true else served }

/-! ## The outer code (R411-R417) -/

/-- A product in GF(2^8) with the polynomial 0x11D, fuel first (R412). -/
def gfMul : Nat → Nat → Nat → Nat
  | 0, _, _ => 0
  | n + 1, x, y => (if y % 2 = 1 then x else 0) ^^^ gfMul n (if 128 ≤ x then (2 * x) ^^^ 0x11D else 2 * x) (y / 2)

/-- Times (X - α^i), the highest coefficient first. -/
def gfTimesRoot (g : List Nat) (root : Nat) : List Nat :=
  List.zipWith (fun u v => u ^^^ gfMul 8 root v) (g ++ [0]) (0 :: g)

/-- The generator with the roots α^0 to α^7 and its 8 coefficients below X^8 (R412). -/
def rsRoots : List Nat := [1, 2, 4, 8, 16, 32, 64, 128]
def rsGen : List Nat := (rsRoots.foldl gfTimesRoot [1]).drop 1

/-- One symbol enters the division by the generator. -/
def rsStep (rem : List Nat) (d : Nat) : List Nat :=
  let f := d ^^^ rem.headD 0
  List.zipWith (fun u g => u ^^^ gfMul 8 f g) (rem.drop 1 ++ [0]) rsGen

/-- Data symbol 4p + s of a codeword: the bits that DQ pin p carries in beats 8s to 8s + 7 (R412). Byte 2t of the codeword is on
pins 0-7 of beat t, byte 2t + 1 on pins 8-15 (entry 138 of the log). -/
def rsSymbol (bs : List Byte) (y : Nat) : Nat :=
  let p := y / 4
  ((List.range 8).map fun j => b2n ((u8 bs (2 * (8 * (y % 4) + j) + p / 8)).testBit (p % 8)) * 2 ^ j).sum

/-- R412: the 8 check symbols of a codeword, stored at `memChk` of its offset. -/
def outerCheck (bs : List Byte) : List Nat := ((List.range 64).map (rsSymbol bs)).foldl rsStep (List.replicate 8 0)

/-- Marked pins of a channel. -/
def markedPins (c : Channel) : List Nat := (List.range 16).filter fun p => bit c.pins p

/-- Pin of a symbol; check symbols have none (R412). -/
def symPin (y : Nat) : Option Nat := if y < 64 then some (y / 4) else none

/-- Errors outside the erased symbols of the marked pins. -/
def freeErrors (c : Channel) (errs : List (Fin 72)) : Nat :=
  (errs.filter fun y => match symPin y.val with
    | some p => !bit c.pins p
    | none => true).length

/-- R412, R415: the decoder corrects t errors and e erasures while 2t + e ≤ 8. -/
def correctable (c : Channel) (errs : List (Fin 72)) : Bool :=
  decide (2 * freeErrors c errs + 4 * (markedPins c).length ≤ 8)

/-- Pins on which a correction fell, once a codeword (R415). -/
def errPins (errs : List (Fin 72)) : List Nat :=
  (List.range 16).filter fun p => errs.any fun y => symPin y.val == some p

/-- Saturating 16-bit count. -/
def sat16 (n : Nat) : Nat := min n 65535

/-- R415: count the corrections of one codeword and find the pins that reach 16 codewords within 1 s. -/
def countPins (now : Nat) (errs : List (Fin 72)) (c : Channel) : Channel × List Nat :=
  let recent := (c.corr.filter fun e => decide (now < e.1 + msTicks 1000)) ++ (errPins errs).map fun p => (now, p)
  let bad := (errPins errs).filter fun p => !bit c.pins p && decide (16 ≤ (recent.filter fun e => e.2 == p).length)
  ({ c with corr := recent, outer := sat16 (c.outer + 1),
            pins := bad.foldl (fun m p => setBit m p true) c.pins }, bad)

/-- A correction: `OUTER_CE`, the counts, and pins marked (R415). -/
def corrected (s : State) (ch : Nat) (errs : List (Fin 72)) : State :=
  let r := countPins s.wt.now errs (s.channel ch)
  let s1 := setStatus (s.modChannel ch fun _ => r.1) Off.memStatus 1
  if r.2.isEmpty then s1 else raiseFault (setStatus s1 Off.memStatus (2 ^ 2)) 258

/-- R416: an uncorrectable codeword. The stored codeword stays; its readers find it poisoned. -/
def uncorrectable (s : State) (ch a : Nat) : State :=
  let s1 := s.modChannel ch fun c => { c with ue := sat16 (c.ue + 1) }
  let s2 := s1.modMem fun m => { m with lastUe := a / 64 * 64, bad := if m.bad.contains (a / 64) then m.bad else m.bad ++ [a / 64] }
  raiseFault (setStatus s2 Off.memStatus 2) 259

/-- Decode a codeword with its check bytes. -/
def outerDecode (s : State) (ch a : Nat) (errs : List (Fin 72)) : State :=
  if errs.isEmpty then s else if correctable (s.channel ch) errs then corrected s ch errs else uncorrectable s ch a

/-- R414: the check line of an offset (512 B of data), and its use: most recent first, at most 1,024 lines. -/
def checkLine (o : Nat) : Nat := o / 512
def touchLine (o : Nat) (c : Channel) : Channel :=
  { c with cache := (checkLine o :: c.cache.filter fun l => l != checkLine o).take 1024 }

/-- R413: a read fetches the check bytes. -/
def fetchesCheck (c : Channel) (o : Nat) (linkEcc : Bool) : Bool :=
  linkEcc || c.pins != 0 || c.cache.contains (checkLine o)

/-- A burst on a channel: its page, and the link-ECC event that it may bring (R408, R411). -/
def burstOn (s : State) (ch o : Nat) (linkEcc : Bool) : State := s.modChannel ch fun c =>
  let c := activate (rfmK s) (memBank o) (memRow o) c
  if linkEcc then { c with linkEcc := sat16 (c.linkEcc + 1) } else c

/-- R411, R413: a read of a codeword. -/
def burstRead (s : State) (ch a : Nat) (linkEcc : Bool) (errs : List (Fin 72)) : State :=
  let o := memOffset a
  let s1 := burstOn s ch o linkEcc
  if fetchesCheck (s1.channel ch) o linkEcc then outerDecode (s1.modChannel ch (touchLine o)) ch a errs else s1

/-- R413, R414, R416: a write updates the check bytes in their cache line; one that carries poison is dropped. -/
def burstWrite (s : State) (ch a : Nat) (linkEcc : Bool) (bs : List Byte) (poisoned : Bool) : State :=
  let o := memOffset a
  let s1 := (burstOn s ch o linkEcc).modChannel ch (touchLine o)
  if poisoned then setStatus s1 Off.memStatus (2 ^ 4) else memWrite s1 a bs

/-! ## Patrol (R417) -/

/-- Codewords of the 56 GiB. -/
def patrolWords : Nat := deviceTop / 64

/-- R417: one patrol read. -/
def patrolStep (s : State) (linkEcc : Bool) (errs : List (Fin 72)) : State :=
  if s.serving && bit (s.reg Off.memCfg) 0 && s.mem.patrolRun then
    let a := 64 * s.mem.patrolPos
    let ch := memChannel a
    let s1 := outerDecode ((burstOn s ch (memOffset a) linkEcc).modChannel ch (touchLine (memOffset a))) ch a errs
    s1.modMem fun m => if m.patrolPos + 1 < patrolWords then { m with patrolPos := m.patrolPos + 1 }
      else { m with patrolPos := 0, patrolRun := false }
  else s

/-- `PATROL_H` in ticks. -/
def patrolTicks (s : State) : Nat := fld (s.reg Off.memCfg) 12 8 * msTicks 3600000

/-- R417: the end of a patrol interval: an unfinished cycle goes on late, else the next cycle starts. -/
def patrolInterval (s : State) : State :=
  if s.serving && bit (s.reg Off.memCfg) 0 && decide (s.mem.patrolStart + patrolTicks s ≤ s.wt.now) then
    if s.mem.patrolRun then
      setStatus (s.modMem fun m => { m with patrolStart := s.wt.now }) Off.memStatus (2 ^ 5)
    else s.modMem fun m => { m with patrolStart := s.wt.now, patrolRun := true, patrolPos := 0 }
  else s

/-! ## The arbiter (R418-R424) -/

/-- R16: the rank of a request (Tables 1-5 and 16-2). Decode cores write at rank 0 and read at rank 1; encoder cores, slices, the
correction unit and the drovers use rank 0; ports 45 and 46 take theirs from `MEM_PORT_RANK` (R423); the service port
uses ranks 1-3. -/
def rankOf (s : State) (q : MemReq) : Nat :=
  if q.port.val < 16 then min q.rank.val 1
  else if q.port.val < 45 then 0
  else if q.port.val = 45 then s.mem.rank45
  else if q.port.val = 46 then s.mem.rank46
  else max 1 q.rank.val

/-- Requests of the highest rank present. -/
def topRank (s : State) (qs : List MemReq) : Option Nat :=
  qs.foldl (fun best q => match best with
    | none => some (rankOf s q)
    | some b => some (min b (rankOf s q))) none

/-- R419: round robin among ports, starting after the last one granted. -/
def rrPort (last : Option Nat) (ports : List Nat) : Option Nat :=
  let key := fun (p : Nat) => match last with
    | some l => (p + 47 - l) % 48
    | none => p
  ports.foldl (fun best p => match best with
    | none => some p
    | some b => if key p < key b then some p else some b) none

/-- R419: the port of the next transfer: the highest rank; within it a preempted port first, then round robin. -/
def decide1 (s : State) (c : Channel) : Option (Nat × Nat) :=
  match topRank s c.queue with
  | none => none
  | some r =>
    let ports := (c.queue.filter fun q => rankOf s q == r).map fun q => q.port.val
    match c.preempted.find? ports.contains with
    | some p => some (p, r)
    | none => (rrPort (mfind c.lastPort r) ports).map fun p => (p, r)

/-- Take up to n of a port's queued bursts of a rank, in order: how many, and the queue left (R419). -/
def takeBursts (s : State) (p r : Nat) : Nat → List MemReq → Nat × List MemReq
  | _, [] => (0, [])
  | n, q :: qs =>
    if q.port.val = p ∧ rankOf s q = r ∧ n ≠ 0 then
      let k := min n q.bursts
      let rest := takeBursts s p r (n - k) qs
      (k + rest.1, if k < q.bursts then { q with bursts := q.bursts - k } :: rest.2 else rest.2)
    else
      let rest := takeBursts s p r n qs
      (rest.1, q :: rest.2)

/-- A grant of up to 8 bursts: the transfer, and the queue left. -/
def takeReq (s : State) (qs : List MemReq) (p r : Nat) : Option (MemReq × List MemReq) :=
  (qs.find? fun q => q.port.val == p && rankOf s q == r).map fun q =>
    let t := takeBursts s p r 8 qs
    ({ q with bursts := t.1 }, t.2)

/-- The channel after a grant. -/
def granted (c : Channel) (g : MemReq) (r : Nat) (rest : List MemReq) : Channel :=
  { c with queue := rest, holder := some g, left := g.bursts, lastPort := minsert c.lastPort r g.port.val
           preempted := c.preempted.filter (· != g.port.val)
           hints := mset none c.hints g.port.val none
           arrived := if rest.any (fun q => q.port == g.port) then c.arrived else c.arrived.filter fun x => x.1 != g.port.val }

/-- R422: bursts that go before a port if no new request arrives, by running the decisions forward, fuel first. -/
def hintOf (s : State) : Nat → Channel → Nat → Nat
  | 0, _, _ => 255
  | n + 1, c, p =>
    match decide1 s c with
    | none => 255
    | some (q, r) =>
      if q = p then c.left
      else match takeReq s c.queue q r with
        | none => 255
        | some (g, rest) => min 255 (c.left + hintOf s n (granted c g r rest) p)

/-- R422: each port that a decision first passes over gets one hint. -/
def giveHints (s : State) (c : Channel) : Channel :=
  c.queue.foldl (fun c' q => if (mget none c'.hints q.port.val).isSome then c'
    else { c' with hints := mset none c'.hints q.port.val (some (hintOf s 64 c q.port.val)) }) c

/-- New requests join the queue with their time. -/
def arrive (now : Nat) (reqs : List MemReq) (c : Channel) : Channel :=
  { c with queue := c.queue ++ reqs
           arrived := c.arrived ++ (reqs.filter fun q => !c.arrived.any fun x => x.1 == q.port.val).map fun q => (q.port.val, now) }

/-- Nanoseconds of a wait, saturating (Table 16-3). -/
def waitNs (ticks : Nat) : Nat := sat16 (ticks * 25 / 4)

/-- R419: a decision: the grant, the tallies of its bursts and bytes, the longest wait, and the hints. -/
def arbDecision (s : State) (ch : Nat) (reqs : List MemReq) : State :=
  let s := s.modChannel ch (arrive s.wt.now reqs)
  let c := s.channel ch
  if c.holder.isSome then s
  else match decide1 s c with
    | none => s
    | some (p, r) => match takeReq s c.queue p r with
      | none => s
      | some (g, rest) =>
        let since := match c.arrived.find? fun x => x.1 == p with
          | some x => s.wt.now - x.2
          | none => 0
        let s1 := s.modChannel ch fun c => giveHints s (granted c g r rest)
        let s2 := s1.modMem fun m => { m with waits := mmod 0 m.waits p fun w => max w (waitNs since) }
        tallyAdd (tallyAdd s2 (982 + r) g.bursts) (990 + r) (256 * g.bursts)

/-- R420, R424: a burst of the holder ends. A waiting port of higher rank preempts it: its remaining bursts go back to the
head of its queue. The transfer ends with its last burst. -/
def breakPoint (s : State) (ch : Nat) (reqs : List MemReq) : State :=
  let s := s.modChannel ch (arrive s.wt.now reqs)
  let c := s.channel ch
  match c.holder with
  | none => s
  | some h =>
    if c.left ≤ 1 then s.modChannel ch fun c => { c with holder := none, left := 0 }
    else
      let higher := match topRank s c.queue with
        | some r => decide (r < rankOf s h)
        | none => false
      if higher then s.modChannel ch fun c =>
        { c with holder := none, left := 0, preempted := c.preempted ++ [h.port.val]
                 queue := { h with bursts := c.left - 1 } :: c.queue
                 arrived := if c.arrived.any (fun x => x.1 == h.port.val) then c.arrived
                   else c.arrived ++ [(h.port.val, s.wt.now)] }
      else s.modChannel ch fun c => { c with left := c.left - 1 }

/-- R423: a write of `MEM_PORT_RANK`: 1-3, of ports 45 and 46 only. -/
def portRankOp (s : State) (p : Nat) (v : Word) : State :=
  let r := fld v 1 0
  if r = 0 then s
  else if p = 45 then s.modMem fun m => { m with rank45 := r }
  else if p = 46 then s.modMem fun m => { m with rank46 := r }
  else s

/-- The address of a burst. -/
def burstAddr : BurstOp → Nat
  | .read a _ _ => a
  | .write a _ _ _ => a

/-! ## Meanings -/

/-- `DRAM_TRAINING_DONE` (R404, R405). -/
def execDramTrainingDone (sweeps : List (Sweep × Sweep)) (s : State) : Out := .next (trainingDone s sweeps)

/-- `ALL_BANK_REFRESH` (R406, R409). -/
def execAllBankRefresh (ch : Fin 32) (drift0 drift1 : Int) (s : State) : Out :=
  if refreshDue s ch.val then .next (refreshStep s ch.val drift0 drift1) else .next s

/-- `MR4_POLL` (R409): every 16 ms; above 85 °C the refresh interval is halved. -/
def execMr4Poll (ch : Fin 32) (hot : Bool) (s : State) : Out :=
  if s.mem.trained && decide ((s.channel ch.val).mr4At + msTicks 16 ≤ s.wt.now) then
    .next (s.modChannel ch.val fun c => { c with fastRefresh := hot, mr4At := s.wt.now })
  else .next s

/-- `ARBITER_DECISION` (R419). -/
def execArbiterDecision (ch : Fin 32) (reqs : List MemReq) (s : State) : Out := .next (arbDecision s ch.val reqs)

/-- `BURST_BREAK_POINT` (R420). -/
def execBurstBreakPoint (ch : Fin 32) (reqs : List MemReq) (s : State) : Out := .next (breakPoint s ch.val reqs)

/-- `BURST_COMPLETE` (R402, R411-R416): a burst on the channel of its address. -/
def execBurstComplete (ch : Fin 32) (op : BurstOp) (s : State) : Out :=
  if memChannel (burstAddr op) ≠ ch.val then .next s
  else match op with
  | .read a linkEcc errs => .next (burstRead s ch.val a linkEcc errs)
  | .write a linkEcc bs poisoned => .next (burstWrite s ch.val a linkEcc bs poisoned)

/-- `PATROL_READ` (R417). -/
def execPatrolRead (linkEcc : Bool) (errs : List (Fin 72)) (s : State) : Out := .next (patrolStep s linkEcc errs)

/-- `PATROL_INTERVAL_END` (R417). -/
def execPatrolIntervalEnd (s : State) : Out := .next (patrolInterval s)

/-- `MEM_PORT_RANK` of the port that the agent's `MEM_PORT_SEL` names (R423). -/
def execMemPortRankWrite (a : Agent) (v : Word) (s : State) : Out := .next (portRankOp s (s.sel a Off.memPortSel).toNat v)

/-- A read of `MEM_PORT_WAIT` returns the longest wait of the selected port and clears it (R516). -/
def execMemPortWaitRead (a : Agent) (s : State) : Out :=
  .next (s.modMem fun m => { m with waits := mset 0 m.waits (s.sel a Off.memPortSel).toNat 0 })

end Sys2Proof.Machine
end

