-- ==== Sys2Proof/Machine/Power.lean ====
section
/-! DEFINITION. Power domains, start-up, restarts, temperature, fans, mains and cages (chapter 19, R68, R458, R500, R507). -/

namespace Sys2Proof.Machine

/-! ## Domain states (R463-R467) -/

/-- Code of a state (Table 19-15); deeper states have higher codes. -/
def dCode : DState → Nat
  | .on => 0
  | .gated => 1
  | .retain => 2
  | .off => 3

/-- Entry and wake time in ticks (Table 19-1). -/
def entryTicks : DState → Nat
  | .on => 0
  | .gated => 16
  | .retain => 800
  | .off => 3200
def wakeTicks : DState → Nat
  | .on => 0
  | .gated => 160
  | .retain => 6400
  | .off => 480000

/-- The deepest state whose entry and wake time, with a margin, fit in a time of ticks. -/
def deepest (room : Int) (margin : Nat) : DState :=
  if ((entryTicks .off + wakeTicks .off + margin : Nat) : Int) ≤ room then .off
  else if ((entryTicks .retain + wakeTicks .retain + margin : Nat) : Int) ≤ room then .retain
  else if ((entryTicks .gated + wakeTicks .gated + margin : Nat) : Int) ≤ room then .gated
  else .on

/-- Bit d of `PD_FORCE_ON` (R467). -/
def domainForced (s : State) (d : Nat) : Bool := if d < 32 then bit (s.reg Off.pdForceLo) d else bit (s.reg Off.pdForceHi) (d - 32)

/-- The DMA engine holds a piece (Table 19-2). -/
def dmaBusy (s : State) : Bool := !s.dma.channels.isEmpty || !s.dma.waiting.isEmpty

/-- Table 19-2. -/
def domainHeld (s : State) (d : Nat) : Bool :=
  (decide (56 ≤ d) && d != 62)
  || (decide (46 ≤ d) && decide (d < 54) && [0, 1, 2, 3].any fun j => bit (s.reg (Off.egPortCfg (4 * (d - 46) + j))) 4)
  || (decide (54 ≤ d) && decide (d < 56) && foldEn s)
  || (d == 62 && (dmaBusy s || s.streams.any fun p => p.2.state != .closed))
  || (d == 37 && s.prx.state != .stopped)

/-- The domain of a spare core (Table 19-2). -/
def spareDomain (s : State) (d : Nat) : Bool :=
  (decide (d < 16) && (s.dec d).role == .spare) || (decide (16 ≤ d) && decide (d < 32) && (s.encCore (d - 16)).role == .spare)

/-- The domains in which a relative slot has work done. -/
def slotDomains (l : LSlot) : List Nat :=
  let u := unitFor l l.next
  if l.action = 3 then (if u < 16 then [u] else [])
  else if l.action = 4 then [32 + u, 36]
  else if l.action = 5 then (if u < 16 then [16 + u] else [])
  else if l.action = 6 then [38 + u / 4]
  else []

/-- Worst-case work of a slot in ticks (R465, Table 3-6): decode window, slice total, run total, port bytes. -/
def slotWork (s : State) (l : LSlot) : Nat :=
  let c := s.contract l.contract
  if l.action = 3 then (match c.windows.find? fun w => w.stream == l.arg with
    | some w => w.wd
    | none => 0)
  else if l.action = 4 then ceilDiv (sliceMax s c c.layers) 16
  else if l.action = 5 then ceilDiv (runMax c) 4
  else if l.action = 6 then (Rat.ceil (portMax s c l.unit / capPort s l.unit)).toNat
  else 0

/-- The slots of active contracts that use a domain. -/
def domainSlots (s : State) (d : Nat) : List LSlot :=
  (s.wt.slots.map fun p => p.2).filter fun l => l.rel && contractActive (s.contract l.contract) && (slotDomains l).contains d

/-- A COMMITTED, RUNNING or DRAINING contract uses the domain. -/
def domainUsed (s : State) (d : Nat) : Bool :=
  !(domainSlots s d).isEmpty
  || (decide (46 ≤ d) && decide (d < 54) && s.contracts.any fun p => contractActive p.2 &&
        (contractPorts s p.2).any fun q => q / 4 + 46 == d)

/-- The next fire tick of the slots that use the domain. -/
def nextFire (s : State) (d : Nat) : Option Int :=
  (((domainSlots s d).filter fun l => l.armed).map (fireTick s)).foldl (fun a t => match a with
    | some b => some (min b t)
    | none => some t) none

/-- The end of the worst-case work of the slots that have fired. -/
def workEnd (s : State) (d : Nat) : Option Int :=
  ((domainSlots s d).filter fun l => decide ((s.contract l.contract).n0 < l.next)).foldl (fun a l =>
    let t := (launchTick (s.contract l.contract) (l.next - 1) : Int) + l.time + slotWork s l
    match a with
    | some b => some (max b t)
    | none => some t) none

/-- R465: the deepest state that the gap allows; ON while worst-case work may still run. -/
def gapState (s : State) (d : Nat) : DState :=
  let now : Int := s.wallNow
  let e := match workEnd s d with
    | some t => t
    | none => now
  if now < e then .on
  else match nextFire s d with
    | some t => deepest (t - e) 1600
    | none => deepest (160 * s.pwr.tolerance) 0

/-- R464-R467: the state chosen for a domain. A spare goes no deeper than GATED. -/
def chosenState (s : State) (d : Nat) : DState :=
  if domainForced s d || domainHeld s d then .on
  else if domainUsed s d then (if decide (46 ≤ d) && decide (d < 54) then .on else gapState s d)
  else
    let t := deepest (160 * s.pwr.tolerance) 0
    if spareDomain s d && t != .on then .gated else t

/-- The domain's units have work in hand. -/
def domainBusy (s : State) (d : Nat) : Bool :=
  if d < 16 then (s.dec d).act != 0
  else if d < 32 then !(s.encCore (d - 16)).jobs.isEmpty || !(s.encCore (d - 16)).copying.isEmpty
  else if d < 36 then (s.slice (d - 32)).queued != 0 || (s.slice (d - 32)).act != 0
  else if d = 36 then s.contracts.any fun p => !p.2.rowsComposing.isEmpty
  else if decide (38 ≤ d) && decide (d < 46) then
    [0, 1, 2, 3].any fun j => let x := s.drover (4 * (d - 38) + j)
      x.act == .run || x.act == .wait || x.act == .stall || !x.ready.isEmpty
  else false

/-- R517: W1C bits of a domain that comes back from OFF read 0. -/
def w1cOf (d off : Nat) : Bool := regDomain off == some d && (match regAt off with
  | some r => r.ty == .w1c
  | none => false)
def clearW1c (s : State) (d : Nat) : State := { s with regs := s.regs.filter fun p => !w1cOf d p.1 }

/-- A domain starts its entry into a state. -/
def startEntry (s : State) (d : Nat) (t : DState) : State :=
  let s1 := s.modDomain d fun x => { x with state := t, entering := some (t, s.wt.now + entryTicks t) }
  if t = .off then clearW1c s1 d else s1

/-- `DOMAIN_GAP_ENTRY` (R465, R466). -/
def gapEntry (s : State) (d : Nat) : State :=
  let x := s.domain d
  if s.serving && x.state == .on && x.waking.isNone && !x.restarting && !domainBusy s d && chosenState s d != .on then
    startEntry s d (chosenState s d)
  else s
def execDomainGapEntry (pd : Fin 64) (s : State) : Out := .next (gapEntry s pd.val)

/-- R465, R466: a domain that is not ON has to wake: its next slot comes within its wake time and 10 µs, it is held or
forced, or its choice is a shallower state. -/
def wakeDue (s : State) (d : Nat) : Bool :=
  let x := s.domain d
  decide (dCode (chosenState s d) < dCode x.state)
  || (match nextFire s d with
      | some t => decide (t ≤ (s.wallNow : Int) + wakeTicks x.state + 1600)
      | none => false)

/-- Start a wake; during an entry it takes effect when the entry completes (R463). -/
def startWake (s : State) (d : Nat) : State :=
  let x := s.domain d
  if x.state == .on || x.waking.isSome || x.restarting then s
  else if x.entering.isSome then s.modDomain d fun y => { y with wakeReq := true }
  else s.modDomain d fun y => { y with waking := some (s.wt.now + wakeTicks y.state) }

/-- `DOMAIN_WAKE_START` (R465). -/
def wakeStart (s : State) (d : Nat) : State := if s.serving && wakeDue s d then startWake s d else s
def execDomainWakeStart (pd : Fin 64) (s : State) : Out := .next (wakeStart s pd.val)

/-- `DOMAIN_ENTRY_DONE` (R463). -/
def entryDone (s : State) (d : Nat) : State := match (s.domain d).entering with
  | some (_, t) =>
    if s.wt.now < t then s
    else if (s.domain d).wakeReq then
      startWake (s.modDomain d fun x => { x with entering := none, wakeReq := false }) d
    else s.modDomain d fun x => { x with entering := none }
  | none => s
def execDomainEntryDone (pd : Fin 64) (s : State) : Out := .next (entryDone s pd.val)

/-- `DOMAIN_WAKE_DONE` (R463): what waited for PD62 goes on (R466). -/
def wakeDone (s : State) (d : Nat) : State := match (s.domain d).waking with
  | some t =>
    if s.wt.now < t then s
    else
      let s1 := s.modDomain d fun x => { x with state := .on, waking := none }
      if d = 62 then dealPieces s1 else s1
  | none => s
def execDomainWakeDone (pd : Fin 64) (s : State) : Out := .next (wakeDone s pd.val)

/-- `PD_FORCE_ON_WRITE` (R467): domains that are forced out of a lower state begin to wake. -/
def pdForceOp (s : State) (hi : Bool) (v : Word) : State :=
  let s1 := s.setReg (if hi then Off.pdForceHi else Off.pdForceLo) v
  if s.serving then (List.range 64).foldl (fun t d => if domainForced t d then startWake t d else t) s1 else s1
def execPdForceOnWrite (hi : Bool) (v : Word) (s : State) : Out := .next (pdForceOp s hi v)

/-- `LATENCY_TOLERANCE` (R398, R466). -/
def execLatencyTolerance (sq : Fin 1024) (d : Desc) (s : State) : Out :=
  runCmd sq d s fun ref s =>
    check (hdrOk d 0x50 [(12, 4)] && decide (descFld d 12 4 ≤ 10000000)) St.invalidField ref s fun s =>
    completeWith (s.modPwr fun p => { p with tolerance := descFld d 12 4 }) ref St.ok

/-! ## Restarts (R458, R470, R473, R475, R476) -/

/-- The state that a power-up or a restart begins with: everything at reset but NVM, the plug-in modules in the cages, the
pins, the queue of commands and the model's own counters (R320, R521, R522). -/
def resetBase (s : State) (p : Phase) (mem : Mem) : State :=
  { State.reset with
    pending := s.pending
    free := s.free
    wt := { now := s.wt.now }
    tbl := { visitAt := 16 * s.wt.now }
    nvm := nvmCut s.nvm
    cages := s.cages
    mem := mem
    pwr := { phase := p, clkin := s.pwr.clkin, clkinSince := s.wt.now, resetLow := s.pwr.resetLow, mainsLost := s.pwr.mainsLost,
             goodAt := if p = .off then none else s.pwr.goodAt } }

/-- `RESTART_CAUSE` of a warm restart (Table 18-9): the count saturates at 15. -/
def causeWord (old : Word) (cause f : Nat) : Word :=
  BitVec.ofNat 32 (f * 2 ^ 16 + min 15 (fld old 11 8 + 1) * 2 ^ 8 + cause)

/-- R458: a module restart. Device memory keeps its bytes, which the spec does not say. -/
def restart (s : State) (cause f : Nat) : State :=
  { resetBase s .restarting { dram := s.mem.dram, bad := s.mem.bad } with
    flt := { restartCause := causeWord s.flt.restartCause cause f, restartTick := s.wt.wall } }

/-- Fault f is armed, its group's timer has run out, and its action is a restart (R454, R456). -/
def l4Due (s : State) (f : Nat) : Bool :=
  let g := mget ({} : Dog) s.flt.dogs (f / 16)
  fltLevel f == some 3 && bit g.armed (f % 16) && (match g.deadline with
    | some t => decide (t ≤ s.wt.now)
    | none => false)

/-- The completion of the `FIRMWARE_ACTIVATE` that marked a slot has been written (R484). -/
def activateDue (s : State) : Bool := match s.nvm.activated with
  | some ref => !s.rings.inflight.contains ref
  | none => false

/-- `MODULE_RESTART` (R458): a restart action whose cause holds. -/
def moduleRestart (s : State) : RestartCause → State
  | .l4 f => if l4Due s f.val then restart s 1 f.val else s
  | .activate => if activateDue s then restart s 2 0 else s
  | .resetn =>
    if (s.pwr.resetLow.isSome || !s.pwr.clkin) && s.pwr.phase != .off && s.pwr.phase != .restarting then restart s 3 0 else s
def execModuleRestart (cause : RestartCause) (s : State) : Out := .next (moduleRestart s cause)

/-- `RESETN_LOW` (R475): held low for 10 µs. -/
def resetnDown (s : State) : State :=
  let s1 := s.modPwr fun p => { p with resetLow := some s.wt.now }
  if s.pwr.phase = .off then s1 else restart s1 3 0
def execResetnLow (s : State) : Out := .next (resetnDown s)

/-- `RESETN_RISE` (R475). -/
def execResetnRise (s : State) : Out :=
  .next (if s.pwr.resetLow.isSome then s.modPwr fun p => { p with resetLow := none, clkinSince := s.wt.now } else s)

/-- `CLKIN_LOSS` (R470). -/
def clkinDown (s : State) : State :=
  if s.pwr.clkin then
    let s1 := s.modPwr fun p => { p with clkin := false, clkinSince := s.wt.now }
    if s.pwr.phase = .off then s1 else restart s1 3 0
  else s
def execClkinLoss (s : State) : Out := .next (clkinDown s)

/-- `CLKIN_RETURN` (R470): after at least 10 µs. -/
def clkinUp (s : State) : State :=
  if !s.pwr.clkin && decide (s.pwr.clkinSince + usTicks 10 ≤ s.wt.now) then
    s.modPwr fun p => { p with clkin := true, clkinSince := s.wt.now }
  else s
def execClkinReturn (s : State) : Out := .next (clkinUp s)

/-- `POWER_GOOD` (R473): the always-on domain starts in RESET; power-up clears every register. -/
def powerUp (s : State) : State := if s.pwr.phase = .off ∧ s.pwr.mainsLost = none then (resetBase s .reset {}).modPwr fun p => { p with goodAt := some s.wt.now } else s
def execPowerGood (s : State) : Out := .next (powerUp s)

/-- `POWER_GOOD_FALL` (R476): at the end of the 20 ms hold-up. -/
def powerDown (s : State) : State := match s.pwr.mainsLost with
  | some t => if s.pwr.phase ≠ .off ∧ t + msTicks 20 ≤ s.wt.now then resetBase s .off {} else s
  | none => s
def execPowerGoodFall (s : State) : Out := .next (powerDown s)

/-- `MAINS_LOSS` (R507). -/
def execMainsLoss (s : State) : Out :=
  .next (if s.pwr.mainsLost.isSome then s else s.modPwr fun p => { p with mainsLost := some s.wt.now })

/-- `MAINS_RETURN` (R507): within the hold-up the fall of power-good is cancelled. -/
def execMainsReturn (s : State) : Out := .next (s.modPwr fun p => { p with mainsLost := none })

/-! ## Start-up (R469, R472-R474, R483-R485) -/

/-- The module starts from power-up or after a restart, with nothing that holds it. -/
def starting (s : State) : Bool := (s.pwr.phase == .reset || s.pwr.phase == .restarting) && s.pwr.clkin && s.pwr.resetLow.isNone

/-- `CLKIN_COUNT_END` (R469: 1,048,576 cycles of 25 MHz are 6,710,886.4 ticks; R505: `FTM_N` is sampled). -/
def countEnd (s : State) (ftmLow : Bool) : State :=
  if starting s && !s.pwr.clkCounted && decide (s.pwr.clkinSince + 6710887 ≤ s.wt.now) then
    (s.modPwr fun p => { p with clkCounted := true }).modFlt fun f => { f with factory := ftmLow }
  else s
def execClkinCountEnd (ftmLow : Bool) (s : State) : Out := .next (countEnd s ftmLow)

/-- R484: the firmware that runs: an activated slot takes over; an image that fails its check gives way to the other slot. -/
def bootNvm (n : Nvm) (imageOk : Bool) : Nvm :=
  let n1 := if n.activated.isSome then { n with running1 := !n.running1, staged := false, activated := none } else n
  if imageOk || (spareSlot n1).empty then n1 else { n1 with running1 := !n1.running1 }

/-- `BOOT_STATUS` at the firmware's start: `FW_FALLBACK` and `NVM_DEFAULT`. -/
def bootWord (n : Nvm) (imageOk : Bool) : Word :=
  BitVec.ofNat 32 (2 * b2n (!imageOk) + b2n (!n.bankA.valid && !n.bankB.valid))

/-- A bank that is neither valid nor empty (R483). -/
def bankBad (b : Bank) : Bool := !b.valid && !b.empty

/-- R483: the settings of the bank in force. -/
def bootSettings (s : State) : State :=
  let n := s.nvm
  let s1 := if bankBad n.bankA || bankBad n.bankB then setStatus s Off.nvmStatus 1 else s
  if forceB n then applySettings s1 n.bankB.settings
  else if n.bankA.valid then applySettings s1 n.bankA.settings else s1

/-- Domains held ON from start-up (Table 19-2). -/
def bootDomains : Map Domain := [56, 57, 58, 59, 60, 61, 63].map fun d => (d, { state := .on })

/-- Values drawn at the module's start: `LINK_EPOCH_MOD` and `NONCE` (R366, R29). -/
def bootDraws (s : State) : State :=
  { s with
    link := { s.link with epochMod := BitVec.ofNat 32 (Config.freeNat s.free), since := s.wt.now }
    wt := { s.wt with nonce := Config.freeNat (s.free + 1) % 2 ^ 48 }
    free := s.free + 2 }

/-- `PLL_LOCK`: the control cores start the firmware. -/
def pllLock (s : State) (imageOk : Bool) : State :=
  if starting s && s.pwr.clkCounted then
    let s1 : State := { s with
      pwr := { s.pwr with phase := .training, pllLocked := true, domains := bootDomains, bootStatus := bootWord s.nvm imageOk }
      nvm := bootNvm s.nvm imageOk }
    let s2 := stageTrims (bootSettings (bootDraws s1)) (List.range 524)
    devEvent s (if foldEn s2 then joinFold s2 else s2)
  else s
def execPllLock (imageOk : Bool) (s : State) : Out := .next (pllLock s imageOk)

/-- `FAILED_UNIT` of a self-test failure that stops start-up (Table 19-14). -/
def fatalTest : SelfTest → Option Nat
  | .correction => some 1
  | .dma => some 2
  | .tables => some 3
  | .drover n => some (0x10 + n.val)
  | .cage c => some (0x40 + c.val)
  | .decode _ => none
  | .encode _ => none
  | .slice _ => none

/-- A unit that fails its test at start-up stays retired; a core's place goes to the spare (R474, R101, R197). -/
def retireAtBoot (s : State) : SelfTest → State
  | .decode n =>
    let s1 := if (s.dec n.val).role = .active then s.modDec 15 fun x => if x.role = .spare then { x with role := .active } else x else s
    s1.modDec n.val fun x => { x with role := .retired }
  | .encode n =>
    let s1 := if (s.encCore n.val).role = .active then
        s.modEncCore 15 fun x => if x.role = .spare then { x with role := .active, standsFor := some n.val } else x
      else s
    s1.modEncCore n.val fun x => { x with role := .retired }
  | .slice n => s.modSlice n.val fun x => { x with role := .retired }
  | .correction => s
  | .dma => s
  | .tables => s
  | .drover _ => s
  | .cage _ => s

/-- The firmware places the objects of Table 16-2 that exist from start-up, the rings of free handles of R303 among them, and
patrol begins. -/
def placeBoot (s : State) : State :=
  let (a, s1) := place s scratchBytes
  let (b, s2) := place s1 (canvasW s * fld (s.reg Off.canvasSize) 21 16 * 393216)
  let (c, s3) := place s2 (canvasW s * fld (s.reg Off.canvasSize) 21 16 * 393216)
  let s4 := [0, 1, 2].foldl (fun t p => (place t (4 * poolCount p)).2) s3
  { s4 with
    mem := { s4.mem with scratch := a, patrolStart := s.wt.now, patrolRun := bit (s.reg Off.memCfg) 0 }
    comp := { s4.comp with canvasBase0 := b, canvasBase1 := c } }

/-- Every domain ON; the states of R464-R466 follow as commands of their own. -/
def allOn : Map Domain := (List.range 64).map fun d => (d, { state := .on })

/-- `STARTUP_COMPLETE` (R473, R474). -/
def startupDone (s : State) (failed : List SelfTest) : State :=
  if s.pwr.phase ≠ .training ∨ !s.mem.trained then s
  else match failed.filterMap fatalTest with
    | u :: _ => stopModule (s.modPwr fun p => { p with bootStatus := p.bootStatus ||| BitVec.ofNat 32 (u * 2 ^ 24 + 8) })
    | [] =>
      let s1 := failed.foldl retireAtBoot (placeBoot s)
      let s2 := s1.modPwr fun p => { p with
        phase := .running, domains := allOn
        bootStatus := p.bootStatus ||| BitVec.ofNat 32 (4 * b2n (!failed.isEmpty)) }
      devEvent s ((List.range 32).foldl checkPairs s2)
def execStartupComplete (failed : List SelfTest) (s : State) : Out := .next (startupDone s failed)

/-! ## Temperature (R477-R480, R68) -/

/-- A temperature, signed 1/16 °C. -/
def tempOf (v : BitVec 16) : Int := sext 16 v.toNat

/-- The hottest die sensor, the lowest-numbered on a tie, with its value; 0 before the first sample. -/
def hottest (ts : List (BitVec 16)) : Nat × BitVec 16 :=
  (ts.zipIdx.foldl (fun (a : Option (Nat × BitVec 16)) p => match a with
    | some b => if tempOf b.2 < tempOf p.1 then some (p.2, p.1) else some b
    | none => some (p.2, p.1)) none).getD (0, 0)

/-- A threshold with its release point, in °C. -/
def above (was : Bool) (t up release : Int) : Bool := if was then decide (release * 16 ≤ t) else decide (up * 16 ≤ t)

/-- R480, R497: the fan speed that the firmware sets: all of it when a fan has failed, else a free value. -/
def setFans (s : State) : State :=
  if s.pwr.fansFailed ≠ 0 then s.modPwr fun p => { p with fanSpeed := 100 }
  else { s with pwr := { s.pwr with fanSpeed := Config.freeNat s.free % 101 }, free := s.free + 1 }

/-- R479: every port whose link is up emits a BLANK; the stop follows 10 µs later. -/
def tempStopBegin (s : State) : State :=
  let s1 := raiseFault (s.modPwr fun p => { p with tempStop := true, stopAt := some (s.wt.now + usTicks 10) }) 274
  (List.range 32).foldl (fun t p => if (t.port p).linkUp then sendBuilt t p { blankFrame t p 0xFFFF 0 0xFF with first := true } else t) s1

/-- Crossings of 100 °C and 105 °C. -/
def warnStep (s : State) (w t : Bool) : State :=
  let s1 := if w && !s.pwr.over100 then raiseFault s 272 else s
  let s2 := if t && !s.pwr.over105 then raiseFault s1 273 else s1
  let s3 := s2.modPwr fun p => { p with over100 := w, over105 := t }
  let s4 := dealPieces s3
  if w != s.pwr.over100 || t != s.pwr.over105 then pendSrc s4 2 else s4

/-- `DIE_SENSOR_SAMPLE` (R477, Table 19-8). -/
def dieSample (s : State) (temps : List (BitVec 16)) : State :=
  if temps.length ≠ 24 ∨ !s.pwr.pllLocked then s
  else
    let t := tempOf (hottest temps).2
    let s1 := setFans (s.modPwr fun p => { p with temps := temps })
    let s2 := warnStep s1 (above s.pwr.over100 t 100 97) (above s.pwr.over105 t 105 100)
    if decide (120 * 16 ≤ t) && !s.pwr.tempStop && s.pwr.phase != .stopped then pendSrc (tempStopBegin s2) 2 else s2
def execDieSensorSample (temps : List (BitVec 16)) (s : State) : Out := .next (dieSample s temps)

/-- R479, Table 18-7: the frame that a contract had under way is a breach, external above a Tref of 85 °C. -/
def stopBreach (s : State) (c : Nat) : State :=
  let x := s.contract c
  if countsFrame x x.nextLaunch && !isBreach x x.nextLaunch then breach s c x.nextLaunch c0Breach (decide (85 * 16 < tempOf s.pwr.tref)) else s

/-- `TEMP_STOP_HALT` (R479). -/
def tempHalt (s : State) : State := match s.pwr.stopAt with
  | some t => if t ≤ s.wt.now then stopModule ((List.range 64).foldl stopBreach s) else s
  | none => s
def execTempStopHalt (s : State) : Out := .next (tempHalt s)

/-- `TREF_SAMPLE` (R477). -/
def execTrefSample (v : BitVec 16) (s : State) : Out :=
  .next (if s.pwr.pllLocked then setFans (s.modPwr fun p => { p with tref := v }) else s)

/-- R68: the allowance after 10 ms, in µs, with a die power in 0.1 W. -/
def allowance (left sustain pdie : Nat) (tref : Int) : Nat :=
  if sustain < pdie ∧ 55 * 16 < tref then left - (10000 * (tref - 55 * 16) / 480).toNat
  else if pdie ≤ sustain then min 120000000 (left + 10000) else left

/-- `PEAK_ALLOWANCE_UPDATE` (R68), every 10 ms. The die power that the firmware takes is a free value. Work that is held no longer
goes on. -/
def peakUpdate (s : State) : State :=
  if s.serving && decide (s.pwr.peakAt ≤ s.wt.now) then
    let left := allowance s.pwr.peakLeft (fld (s.reg Off.admitSustain) 15 0) (Config.freeNat s.free) (tempOf s.pwr.tref)
    dealPieces { s with
      free := s.free + 1
      pwr := { s.pwr with
        peakLeft := left, throttled := left == 0 || (s.pwr.throttled && decide (left < 12000000)), peakAt := s.wt.now + msTicks 10 } }
  else s
def execPeakAllowanceUpdate (s : State) : Out := .next (peakUpdate s)

/-- `FAN_FAIL` (R480, R497). -/
def fanFail (s : State) (i : Nat) : State :=
  if s.pwr.pllLocked then setFans (raiseFault (s.modPwr fun p => { p with fansFailed := p.fansFailed ||| BitVec.ofNat 4 (2 ^ i) }) 275) else s
def execFanFail (i : Fin 4) (s : State) : Out := .next (fanFail s i.val)

/-! ## `CKOUT` and the cages (R471, R500) -/

/-- `CKOUT_CFG` (Table 19-15). -/
def execCkoutCfgWrite (v : Word) (s : State) : Out := .next (s.setReg Off.ckoutCfg (v &&& 0x9F0FFFFF#32))

/-- Power limit of a cage in mW. -/
def cageLimit (cage : Nat) : Nat := if cage = 10 then 12000 else 3500

/-- `PLUG_IN_MODULE_INSERTED` (R500). -/
def execPlugInModuleInserted (cage : Fin 11) (classMw : Nat) (s : State) : Out :=
  let c : Cage := { present := true, classMw := classMw, lowPower := decide (cageLimit cage.val < classMw) }
  .next { s with cages := mset {} s.cages cage.val c }

/-- Links lose their signal with the plug-in module. -/
def unplug (s : State) (cage : Nat) : State :=
  let s1 : State := { s with cages := mset {} s.cages cage {} }
  if cage < 8 then [0, 1, 2, 3].foldl (fun t j => linkFall t (4 * cage + j)) s1
  else if cage < 10 then peerFall s1 (cage - 8)
  else enterDown s1

/-- `PLUG_IN_MODULE_REMOVED` (R500). -/
def execPlugInModuleRemoved (cage : Fin 11) (s : State) : Out := .next (unplug s cage.val)

end Sys2Proof.Machine
end

