-- ==== Sys2Proof/Machine/Faults.lean ====
section
/-! DEFINITION. Faults and recovery (R152, R450-R459): unit faults, sheepdog timers with their actions, acknowledgement, injection. -/

namespace Sys2Proof.Machine

/-! ## Retirement: level L2 (R101, R134, R197, R457) -/

/-- Work units that a core of a window is dealt of the stream record's pictures (R84). -/
def coreUnits (x : Stream) (w : Window) (core : Nat) : Nat :=
  (dealUnits x.codec x.record (x.record.pps.headD []) w.cores).countP fun p => p.1 == core

/-- R457: the active core of a stream's set with the fewest work units takes a slot over where no spare is left; 16 is none. -/
def setMate (s : State) (core : Nat) (l : LSlot) : Nat :=
  match (s.contract l.contract).windows.find? fun w => w.stream == l.arg with
  | some w =>
    let mates := w.cores.filter fun i => i != core && (s.dec i).role == .active
    ((cheapest (mates.map fun i => (i, coreUnits (s.stream l.arg) w i))).map fun p => p.1).getD 16
  | none => 16

/-- R13, R457: a decode-start slot of the retired core passes on from the next frame. -/
def takeoverDec (s : State) (core : Nat) (spare : Option Nat) (l : LSlot) : LSlot :=
  if l.rel && l.action == 3 && unitFor l (2 ^ 64) == core then
    let from_ := match (s.contract l.contract).frame with
      | some f => f + 1
      | none => 0
    { l with takeover := l.takeover ++ [(from_, match spare with
      | some r => r
      | none => setMate s core l)] }
  else l

/-- The cores of the contracts' windows after a retirement. -/
def swapCore (core : Nat) (spare : Option Nat) (w : Window) : Window :=
  { w with cores := w.cores.filterMap fun i => if i = core then spare else some i }

/-- R101: the units in decoding lose what the core was dealt of them. -/
def cutUnit (core : Nat) (u : Au) : Au :=
  if u.phase = .decoding ∧ u.cores.contains core ∧ !u.cut.contains core then { u with cut := u.cut ++ [core] } else u
def cutUnits (core : Nat) (p : Nat × Stream) : Nat × Stream := (p.1, { p.2 with units := p.2.units.map (cutUnit core) })

/-- R101: a decode core is retired. The new active core first repairs what was left concealed (R102). -/
def retireDec (s : State) (core : Nat) : State :=
  let x := s.dec core
  if x.role = .retired then s
  else
    let spare := if x.role = .active then (List.range 16).find? fun i => (s.dec i).role == .spare else none
    let s1 := s.modDec core fun y => { y with role := .retired, act := 0, stream := none, repair := none }
    let s2 := match spare with
      | some r => startWake (s1.modDec r fun y => { y with role := .active, repair := x.stream, stream := x.stream, act := if x.stream.isSome then 2 else 0 }) r
      | none => s1
    let s3 := if x.role = .active then s2.modWt fun w => { w with slots := w.slots.map fun p => (p.1, takeoverDec s core spare p.2) } else s2
    let s4 : State := { s3 with contracts := s3.contracts.map fun (p : Nat × Contract) => (p.1, { p.2 with windows := p.2.windows.map (swapCore core spare) }) }
    pendSrc { s4 with streams := s4.streams.map (cutUnits core) } (129 + 8 * core)

/-- R197: an encoder core is retired; the domain of the core that takes over wakes. -/
def retireEncoder (s : State) (core : Nat) : State :=
  match if (s.encCore core).role = .active then (List.range 16).find? fun i => (s.encCore i).role == .spare else none with
  | some r => startWake (retireEnc s core) (16 + r)
  | none => retireEnc s core

/-- Columns of a row that were dealt to a slice. -/
def dealtTo (k : Nat) (j : RowJob) : List (Nat × Nat × Nat) :=
  ((List.range j.deal.length).filter fun i => j.deal[i]? == some k).map fun i => (j.frame, j.row, i)

/-- R134: a compositor slice is retired; the paddocks it has not finished take the other buffer's pixels. -/
def retireSlice (s : State) (k : Nat) : State :=
  if (s.slice k).role = .retired then s
  else
    let s1 : State := { s with contracts := s.contracts.map fun (p : Nat × Contract) =>
      (p.1, { p.2 with heldPads := p.2.heldPads ++ p.2.rowsComposing.flatMap (dealtTo k) }) }
    pendSrc (setStatus (s1.modSlice k fun x => { x with role := .retired, act := 0, queued := 0 }) Off.compStatus (2 ^ 5)) (256 + k)

/-- The L2 action of fault f. -/
def retireUnit (s : State) (f : Nat) : State :=
  if f < 16 then retireDec s f else if f < 32 then retireEncoder s (f - 16) else retireSlice s (f - 32)

/-! ## Restart of a domain: level L3 (R451, R456) -/

/-- The domain that fault f restarts (Table 18-2). -/
def faultDomain (f : Nat) : Nat :=
  let g := f / 16
  if g = 2 then 36 else if g = 3 then 37 else if g < 12 then 38 + (g - 4) else if g = 12 then 46 + (f % 16 - 8)
  else if g = 14 then 61 else if g = 15 then 56 else if g = 19 then 54 + f % 16 else 62

/-- The drovers of a group lose what runs; their row lists are skipped. -/
def cutDrover (s : State) (d : Nat) : State :=
  (skipAll s d).modDrover d fun x => { x with act := .idle, reg := {}, open_ := false, frame := [], moved := [], csErr := 0 }

/-- R451: a port of a restarted cage. -/
def cutPort (s : State) (p : Nat) : State := linkFall (skipAll (emptyFifo s p) p) p

/-- Table events that belong to commands wait for the tables; the others are lost (R326, R451). -/
def cutEvent (s : State) (q : QLearn) : State := match q.ev with
  | .telemetry .. => lostEvent s
  | .notice .. => lostEvent s
  | .learn .. => s.modTbl fun t => { t with held := t.held ++ [.ev q.ev] }
  | .remove .. => s.modTbl fun t => { t with held := t.held ++ [.ev q.ev] }

/-- R451: the table memories are emptied; the firmware keeps its copies. -/
def cutTables (s : State) : State :=
  s.tbl.queue.foldl cutEvent (s.modTbl fun t => { t with entries := [], queue := [], prefixes := [], badNodes := [], spread := [] })

/-- R451: a unit whose fetch the DMA engine had begun ends with `ABORTED`. -/
def cutUnitFetch (n : Nat) (s : State) (u : Au) : State :=
  if u.phase = .fetching then
    completeWith (s.modStream n fun x => { freeUnit x u with units := x.units.erase u }) u.ref St.aborted
  else s

/-- R451: a raw submit whose fetch had begun ends with `ABORTED`. -/
def cutRawFetch (n : Nat) (s : State) (r : RawSubmit) : State := match r.buf with
  | some b => completeWith (s.modStream n fun x => { rawFail x r b with rawQueue := x.rawQueue.erase r }) r.ref St.aborted
  | none => s

/-- R451: what `DMA_FAULT` ends. -/
def cutStream (s : State) (n : Nat) : State :=
  let x := s.stream n
  tryClose (x.rawQueue.foldl (cutRawFetch n) (x.units.foldl (cutUnitFetch n) s)) n
/-- A read of the DMA engine brings nothing any more. -/
def dmaForget (p : Nat × Option MRead) : Nat × Option MRead := (p.1, p.2.map fun m => match m.for_ with
  | .descriptors .. => m
  | _ => { m with for_ := .engine })
def cutDma (s : State) : State :=
  let refs := s.dma.xfers.filterMap fun p => p.2.map fun x => x.ref
  let s1 := (s.modDma fun d => { d with channels := [], waiting := [], xfers := [] }).modLink fun l => { l with reads := l.reads.map dmaForget }
  (s1.streams.map fun p => p.1).foldl cutStream (refs.foldl (fun t r => completeWith t r St.aborted) s1)

/-- The proxy's state is rebuilt: what it had captured is gone and the next picture is an IDR picture. -/
def cutProxy (p : Proxy) : Proxy := { p with due := [], captures := [], needIdr := true, cpb := 0, cpbFrame := none }

/-- What a domain's restart takes away. -/
def domainEffects (s : State) (d : Nat) : State :=
  if d = 37 then s.modPrx cutProxy
  else if 38 ≤ d ∧ d < 46 then [0, 1, 2, 3].foldl (fun t j => cutDrover t (4 * (d - 38) + j)) s
  else if 46 ≤ d ∧ d < 54 then [0, 1, 2, 3].foldl (fun t j => cutPort t (4 * (d - 46) + j)) s
  else if d = 54 ∨ d = 55 then peerFall s (d - 54)
  else if d = 56 then enterDown s
  else if d = 61 then cutTables s
  else if d = 62 then cutDma s
  else s

/-- R456: a power domain goes OFF and comes back ON; until then its registers read 0 (R7). -/
def domainRestart (s : State) (d : Nat) : State :=
  clearW1c ((domainEffects s d).modDomain d fun _ => { state := .off, restarting := true }) d

/-- The trims of a domain's lanes and transfer tables (Table 19-12). -/
def domainTrims (d : Nat) : List Nat :=
  if 46 ≤ d ∧ d < 56 then (List.range 16).map (24 + 16 * (d - 46) + ·)
  else if d = 56 then (List.range 16).map (184 + ·)
  else if d = 36 then (List.range 256).map (264 + ·)
  else []

/-- The firmware rebuilds the tables from its copies (R451). -/
def rebuildTables (s : State) : State :=
  let s1 := s.tbl.fwStatic.foldl (fun t x => (learnStatic t x.1 x.2.1 x.2.2).2) s
  drainHeld (s1.modTbl fun t => { t with prefixes := t.fwPrefixes })

/-- `L3_RESTART_DONE` (R456, R451, R485). -/
def restartDone (s : State) (d : Nat) : State :=
  if (s.domain d).restarting && s.pwr.phase != .stopped then
    let s1 := stageTrims (s.modDomain d fun _ => { state := .on }) (domainTrims d)
    if d = 61 then rebuildTables s1 else if d = 62 then dealPieces s1 else s1
  else s
def execL3RestartDone (pd : Fin 64) (s : State) : Out := .next (restartDone s pd.val)

/-! ## Sheepdog timers (R452-R454) -/

/-- The sources of a group that are armed. -/
def armedOf (s : State) (g : Nat) : List Nat :=
  ((List.range 16).filter fun i => bit (mget ({} : Dog) s.flt.dogs g).armed i).map (16 * g + ·)

/-- R454: the source took its L3 action in the last 10 s. -/
def l3Before (s : State) (f : Nat) : Bool := s.flt.l3.any fun x => x.1 == f && decide (s.wt.now ≤ x.2 + msTicks 10000)

/-- The action of one armed source, but for L4. -/
def dogAct (s : State) (f : Nat) : State := match fltLevel f with
  | some 1 => retireUnit s f
  | some 2 => (domainRestart s (faultDomain f)).modFlt fun x => { x with l3 := (x.l3.filter fun y => y.1 != f) ++ [(f, s.wt.now)] }
  | _ => s

/-- The source takes L4. -/
def dogL4 (s : State) (f : Nat) : Bool := fltLevel f == some 3 || (fltLevel f == some 2 && l3Before s f)

/-- R454: the timer of group g reaches 0. -/
def dogExpire (s : State) (g : Nat) : State :=
  let fs := armedOf s g
  let s1 := pendSrc (s.modFlt fun x => { x with dogs := mset {} x.dogs g {} }) (96 + g)
  match fs.find? (dogL4 s) with
  | some f => restart s1 1 f
  | none => fs.foldl dogAct s1

/-- `SHEEPDOG_EXPIRY` (R454). -/
def dogStep (s : State) (g : Nat) : State := match (mget ({} : Dog) s.flt.dogs g).deadline with
  | some t => if t ≤ s.wt.now ∧ s.pwr.phase ≠ .stopped then dogExpire s g else s
  | none => s
def execSheepdogExpiry (g : Fin 32) (s : State) : Out := .next (dogStep s g.val)

/-- Table 18-3: what the firmware repairs after its acknowledgement. The reload of a drover is a command of its own. -/
def ackRepair (s : State) (f : Nat) : State :=
  if f = 49 ∧ s.prx.state = .running then s.modPrx fun p => prxStopping p [] St.aborted
  else if f = 304 ∨ f = 305 then peerFall s (f - 304)
  else s

/-- R453: the acknowledgement of group g. -/
def fltAckOp (s : State) (g : Nat) : State :=
  (armedOf s g).foldl ackRepair (s.modFlt fun x => { x with dogs := mset {} x.dogs g {} })

/-- `FLTACK` (R453): only the firmware's writes count. -/
def fltAckBy (s : State) (a : Agent) (v : Word) : State := match a with
  | .host => s
  | .cc _ => fltAckOp s (fld v 4 0)
def execFltack (a : Agent) (v : Word) (s : State) : Out := .next (fltAckBy s a v)

/-! ## Detection (R450, R459) -/

/-- The unit faults of R450. -/
def unitFault (f : Nat) : Bool :=
  let i := f % 16
  match f / 16 with
  | 0 => true
  | 1 => true
  | 2 => decide (i < 4) || i == 5
  | 3 => i == 1
  | 12 => decide (8 ≤ i)
  | 14 => i == 2
  | 15 => i == 2
  | 19 => decide (i < 2)
  | 21 => i == 0
  | _ => false

/-- R154, R210: the fault's own edge source. -/
def faultEdge (s : State) (f : Nat) : State := if f = 37 then pendSrc s 289 else if f = 49 then pendSrc s 385 else s

/-- `UNIT_FAULT_DETECT`: a unit fault, or an error that the ECC of a word of NVM corrected (R481, entry 141 of the log). -/
def unitDetect (s : State) (f : Nat) : State :=
  if !s.pwr.pllLocked || s.pwr.phase == .stopped then s
  else if f = 320 then raiseFault (setStatus s Off.nvmStatus 4) f
  else if unitFault f then faultEdge (raiseFault s f) f
  else s
def execUnitFaultDetect (f : Fin 512) (s : State) : Out := .next (unitDetect s f.val)

/-- `CC_HEARTBEAT_MISS`: `CC_STALL` i. -/
def execCcHeartbeatMiss (i : Fin 4) (s : State) : Out :=
  .next (if s.pwr.pllLocked && s.pwr.phase != .stopped then raiseFault s (288 + i.val) else s)

/-- A drover fault with the drover's immediate action (R229, R247, R249). -/
def injectDrover (s : State) (d i : Nat) : State :=
  if i = 0 then haltDrover s d
  else if i = 1 then (if (s.drover d).running.isSome then stepLimit s d else raiseFault s (drvFault d 1))
  else if i = 2 then endCommand (raiseFault s (drvFault d 2)) d false
  else raiseFault s (drvFault d 3)

/-- R459: the fault as its unit raises it, with the unit's immediate action where the source names one unit. -/
def injectAct (s : State) (f : Nat) : State :=
  if 64 ≤ f ∧ f < 192 then injectDrover s (4 * (f / 16 - 4) + f % 16 / 4) (f % 4)
  else if f = 208 then enterTime (raiseFault s f) .unlocked
  else if f = 209 then
    enterTime (raiseFault (setStatus (s.modWt fun w => { w with lostAt := some w.now }) Off.wtStatus 8) f) .unlocked
  else if f = 210 then duplicate (raiseFault s f)
  else if f = 225 then tblUe s
  else if f = 240 then fatalProto s
  else if f = 256 then stopModule (raiseFault s f)
  else if f = 272 then warnStep (raiseFault s f) true s.pwr.over105
  else if f = 273 then warnStep (raiseFault s f) s.pwr.over100 true
  else if f = 274 then tempStopBegin s
  else faultEdge (raiseFault s f) f

/-- R459: a write of `FLT_INJECT`. -/
def injectOp (s : State) (v : Word) : State :=
  if !s.flt.factory then s
  else
    let s1 := s.setReg Off.fltInject (v &&& 0x800001FF#32)
    let f := fld v 8 0
    if bit v 31 && (fltLevel f).isSome then
      injectAct (s1.setReg (Off.fltInjected (f / 16)) (s1.reg (Off.fltInjected (f / 16)) ||| BitVec.ofNat 32 (2 ^ (f % 16)))) f
    else s1
def execFltInject (v : Word) (s : State) : Out := .next (injectOp s v)

end Sys2Proof.Machine
end

