-- ==== Sys2Proof/Machine/Interrupt.lean ====
section
/-! DEFINITION. The interrupt controller (R440-R449): claim, complete, and the writes of its arrays. -/

namespace Sys2Proof.Machine

/-- The bits of array word k that stand for sources (R437): neither source 0 nor the reserved sources. -/
def srcWordMask (k : Nat) : Nat := if k = 0 then 0xFFFFFFFE else if k < 34 then 0xFFFFFFFF else 0

/-- Word k of a word of all sources. -/
def srcWord (x : BitVec 2048) (k : Nat) : Word := BitVec.ofNat 32 (x.toNat >>> (32 * k))

/-- Replace word k of a word of all sources. -/
def srcPutWord (x : BitVec 2048) (k : Nat) (v : Word) : BitVec 2048 :=
  (x &&& ~~~ (BitVec.ofNat 2048 ((2 ^ 32 - 1) <<< (32 * k))))
    ||| BitVec.ofNat 2048 ((v.toNat &&& srcWordMask k) <<< (32 * k))

/-- R442: a claim clears the pending bit of the winner, puts it in service and records the claimer. -/
def claimIntc (c : Intc) (t n : Nat) : Intc :=
  { c with pend := srcClear c.pend n, svc := srcSet c.svc n, claimer := mset none c.claimer n (some t) }

/-- R442: the claim of target t. Where nothing is claimable it changes nothing. -/
def claimOp (s : State) (t : Nat) : State :=
  let n := claimWinner s t
  if n = 0 then s else devEvent s { s with intc := claimIntc s.intc t n }

/-- R443: source n is in service and was claimed through `CLAIM` t. -/
def mayComplete (c : Intc) (t n : Nat) : Bool := srcBit c.svc n && mget none c.claimer n == some t

/-- R443: the end of service; a level source whose cause is still asserted pends again. -/
def completeOp (s : State) (t : Nat) (v : Word) : State :=
  let n := fld v 10 0
  if mayComplete s.intc t n then
    let s1 := { s with intc := { s.intc with svc := srcClear s.intc.svc n, claimer := mset none s.intc.claimer n none } }
    levelSample (devEvent s s1) n
  else s

/-- Sample the 32 level sources of a word. -/
def sampleWord (s : State) (k : Nat) : State := (List.range 32).foldl (fun t j => levelSample t (32 * k + j)) s

/-- R446: a write of an `INTPEND` word stores all its bits. A level source whose cause holds pends again at once (R440). -/
def intPendOp (s : State) (k : Nat) (v : Word) : State :=
  sampleWord (devEvent s { s with intc := { s.intc with pend := srcPutWord s.intc.pend k v } }) k

/-- R447: a write of an `INTMASK` word replaces all its bits. -/
def intMaskOp (s : State) (k : Nat) (v : Word) : State :=
  devEvent s { s with intc := { s.intc with mask := srcPutWord s.intc.mask k v } }

/-- Table 18-10: a write of `SRC_CFG`; a write with `TARGET` 5-7 is ignored as a whole. -/
def srcCfgOp (s : State) (n : Nat) (v : Word) : State :=
  if srcReal n && decide (fld v 6 4 < 5) then devEvent s (s.setReg (Off.srcCfg n) (v &&& 0x27F#32)) else s

/-- A write of `THRESH`. -/
def threshOp (s : State) (t : Nat) (v : Word) : State := devEvent s (s.setReg (Off.thresh t) (v &&& 0xF#32))

/-- `TGT_STATE` (Table 18-8). -/
def tgtState (s : State) (t : Nat) : Word :=
  let n := claimWinner s t
  BitVec.ofNat 32 (b2n (n != 0) * 2 ^ 31 + b2n (decide (t < 4) && bit s.intc.asleep t) * 2 ^ 30 + n)

/-- R449: the wake request of a sleeping control core: a source claimable by it has `WAKE` set. -/
def wakeRequest (s : State) (t : Nat) : Bool :=
  decide (t < 4) && bit s.intc.asleep t &&
    (List.range 1088).any fun n => claimableBy s t n && bit (s.reg (Off.srcCfg n)) 9

/-- `CLAIM` t (R442). -/
def execClaim (t : Fin 5) (s : State) : Out := .next (claimOp s t.val)

/-- `COMPLETE` t (R443). -/
def execComplete (t : Fin 5) (v : Word) (s : State) : Out := .next (completeOp s t.val v)

/-- `INTPEND` k (R446). -/
def execIntpendWrite (k : Fin 64) (v : Word) (s : State) : Out := .next (intPendOp s k.val v)

/-- `SRC_CFG` (Table 18-10, R448). -/
def execSrcCfgWrite (src : Fin 2048) (v : Word) (s : State) : Out := .next (srcCfgOp s src.val v)

end Sys2Proof.Machine
end

