-- ==== Sys2Proof/Machine/RegRead.lean ====
section
/-! DEFINITION. Reads of the control window (R6, R7, R512-R518, Tables 22-2 and 22-3): the value that each register shows,
block by block, and what a read changes: a `_LO` read latches its `_HI` (R513), an RC read clears (R516). -/

namespace Sys2Proof.Machine

/-- A number as a register value. -/
def w32 (n : Nat) : Word := BitVec.ofNat 32 n

/-- The selector value of an agent as a number. -/
def State.seln (s : State) (a : Agent) (off : Nat) : Nat := (s.sel a off).toNat

/-! ## Views of the always-on blocks -/

/-- GLOBAL (Tables 3-12, 3-13, 19-13). -/
def viewGlobal (s : State) (off : Nat) : Word :=
  match off with
  | 0x0 => 0x7200
  | 0x4 => w32 ((if s.nvm.running1 then s.nvm.slot1.release else s.nvm.slot0.release) % 256 * 256 + s.nvm.silicon % 256)
  | 0x8 => w32 (devState s)
  | 0xC => w32 (s.nvm.calCount % 65536)
  | 0x10 => s.nvm.calTime
  | 0x14 => s.pwr.bootStatus
  | 0x44 => w32 (b2n s.pwr.throttled * 2 ^ 31 + s.pwr.peakLeft / 1000)
  | _ => s.reg off

/-- `PD_STATE` of a domain (Table 19-15). -/
def pdState (s : State) (d : Nat) : Nat :=
  b2n (domainUsed s d) * 4096 + b2n (domainHeld s d || domainForced s d) * 256 + dCode (chosenState s d) * 16 + dCode (s.domain d).state

/-- CLKPWR (Table 19-15). -/
def viewPower (s : State) (a : Agent) (off : Nat) : Word :=
  match off with
  | 0x10004 => w32 (pdState s (s.seln a Off.pdSel))
  | 0x10010 => w32 s.pwr.tolerance
  | 0x1001C => (s.pwr.temps.getD (s.seln a Off.tempSel) 0).setWidth 32
  | 0x10020 => w32 ((hottest s.pwr.temps).1 * 65536 + (hottest s.pwr.temps).2.toNat)
  | 0x10024 => s.pwr.tref.setWidth 32
  | 0x10028 => w32 (b2n s.pwr.over105 * 2 + b2n s.pwr.over100)
  | 0x1002C => w32 (s.pwr.fansFailed.toNat * 256 + s.pwr.fanSpeed)
  | _ => s.reg off

/-- NVM (Table 19-16). -/
def viewNvm (s : State) (off : Nat) : Word :=
  let n := s.nvm
  match off with
  | 0x20000 => 0xF000
  | 0x20004 =>
    let w := match n.writing with
      | some (.store _ _) => 1
      | some (.stage _ _) => 2
      | none => 0
    w32 (b2n (forceB n) * 256 + b2n n.running1 * 16 + w)
  | 0x20008 => w32 (bankSeq n.bankA)
  | 0x2000C => w32 (bankSeq n.bankB)
  | 0x20010 => w32 (min n.bankA.wear 0xFFFFF)
  | 0x20014 => w32 (min n.bankB.wear 0xFFFFF)
  | _ => s.reg off

/-- INTC (Tables 18-8, 18-10). -/
def viewIntc (s : State) (off : Nat) : Word :=
  if off = 0x30000 then 0x1000
  else if off < 0x30200 then srcWord s.intc.pend ((off - 0x30100) / 4)
  else if off < 0x30300 then srcWord s.intc.mask ((off - 0x30200) / 4)
  else if off < 0x30400 then srcWord s.intc.svc ((off - 0x30300) / 4)
  else if off < 0x33000 then
    let n := (off - 0x31000) / 4
    s.reg off ||| w32 (b2n (srcReal n && srcEdge n) * 256)
  else if off % 16 = 0 then w32 (claimWinner s ((off - 0x33000) / 16))
  else if off % 16 = 12 then tgtState s ((off - 0x33000) / 16)
  else s.reg off

/-- `FLT_DOG_STATE` (Table 18-9). -/
def dogState (s : State) (g : Nat) : Nat := match (mget {} s.flt.dogs g).deadline with
  | some t => 2 ^ 31 + ceilDiv (t - s.wt.now) 160
  | none => 0

/-- `FLT_LEVEL`: two bits per source, 0 for a reserved one. -/
def fltLevels (g : Nat) : Nat := ((List.range 16).map fun i => (fltLevel (16 * g + i)).getD 0 * 4 ^ i).foldl (· + ·) 0

/-- FAULT (Table 18-9). -/
def viewFault (s : State) (a : Agent) (off : Nat) : Word :=
  if off < 0x40400 then
    let g := (off - 0x40000) / 32
    match off % 32 with
    | 0x0C => w32 (dogState s g)
    | 0x10 => (mget {} s.flt.dogs g).armed.setWidth 32
    | 0x14 => w32 (fltLevels g)
    | _ => s.reg off
  else
    let v := s.avail (s.seln a Off.availSel)
    match off with
    | 0x40408 => w32 (b2n s.flt.factory)
    | 0x4040C => s.flt.restartCause
    | 0x40410 => s.flt.restartTick.setWidth 32
    | 0x40424 => w32 v.frames
    | 0x4042C => w32 (sat32 v.breachDev)
    | 0x40430 => w32 (sat32 v.breachExt)
    | 0x40434 => w32 (sat32 v.late)
    | _ => s.reg off

/-- `TSTATE` and `ROLE` codes (Table 2-9). -/
def tstateCode : TState → Nat
  | .acquire => 1
  | .locked => 2
  | .holdover => 3
  | .unlocked => 4
def roleCode : Role → Nat
  | .standalone => 0
  | .bellwether => 1
  | .member => 2

/-- `LSLOT_CTRL` (Table 2-11). -/
def slotCtrl (l : LSlot) : Nat :=
  b2n l.armed * 2 ^ 31 + b2n l.rel * 2 ^ 30 + b2n l.fired * 2 ^ 29 + l.contract % 64 * 65536 + l.unit % 256 * 256 + l.action % 16

/-- WALLTIME (Tables 2-8, 2-9, 2-11). The error is held in 2^-16 tick and shown in 2^-8. -/
def viewTime (s : State) (a : Agent) (off : Nat) : Word :=
  let l := s.slot (s.seln a Off.lslotSel)
  match off with
  | 0x50000 => s.wt.wall.setWidth 32
  | 0x5000C => w32 (s.wt.bellwether.getD 0 % 16 * 4096 + roleCode s.wt.role * 16 + tstateCode s.wt.tstate)
  | 0x50010 => w32 (toPat 32 (s.wt.err / 256))
  | 0x50028 => w32 (toPat 32 (linkDelay s 0))
  | 0x5002C => w32 (toPat 32 (linkDelay s 1))
  | 0x50034 => w32 (toPat 64 (timeFor l l.next))
  | 0x5003C => w32 (slotCtrl l)
  | 0x50040 => w32 l.arg
  | _ => s.reg off

/-- `LSTATE` code (Table 14-9). -/
def lstateCode : LState → Nat
  | .down => 0
  | .train => 1
  | .active => 2
  | .recovery => 3
  | .degraded => 4

/-- LINK (Tables 14-8, 14-9). -/
def viewLink (s : State) (off : Nat) : Word :=
  let l := s.link
  match off with
  | 0x60000 => 0x2000
  | 0x60004 => w32 (b2n l.ready * 2 ^ 31 + l.lanesGood.toNat * 4096 + l.lanesUsed.toNat * 256 + lstateCode l.lstate)
  | 0x60018 => w32 (l.limMwr % 65536 * 65536 + l.limMrd % 65536)
  | 0x6001C => l.epochHost
  | 0x60020 => l.epochMod
  | 0x60024 => w32 l.reads.length
  | _ => s.reg off

/-- `OBJ_STATE` (Table 15-14). -/
def objState (s : State) (sel : Word) : Nat :=
  if bit sel 8 then match (s.stream (fld sel 7 0)).state with
    | .closed => 0
    | .open_ => 1
    | .flushing => 2
  else match (s.contract (fld sel 7 0)).state with
    | .free => 0
    | .proposed => 1
    | .committed => 2
    | .running => 3
    | .draining => 4

/-- `SQ_STATE.STOPPED`: the ring's class is stopped by the pool level (R300). -/
def sqStopped (s : State) (q : Sq) : Bool := decide (1 ≤ sqClass q) && decide (4 - sqClass q ≤ poolLevel s)

/-- RINGS (Table 15-14) of the ring that the agent selects. -/
def viewRings (s : State) (a : Agent) (off : Nat) : Word :=
  let r := s.seln a Off.ringSel
  let q := s.sq r
  let c := s.cq r
  match off with
  | 0x70000 => 0x8000
  | 0x70008 => q.baseLo
  | 0x70010 => q.cfg
  | 0x70014 => w32 (b2n q.err * 2 ^ 31 + b2n q.held.isSome * 2 ^ 30 + b2n (sqStopped s q) * 2 ^ 29 + q.fetch % 65536)
  | 0x70018 => c.baseLo
  | 0x70020 => c.cfg
  | 0x70024 => c.coal
  | 0x70028 => w32 (b2n c.phase * 2 ^ 31 + b2n c.full * 2 ^ 30 + c.tail % 65536)
  | 0x70034 => w32 ((s.rings.inflight.filter fun x => x.submit.isSome).length * 65536 + s.rings.inflight.length)
  | 0x7004C => w32 (objState s (s.sel a Off.objSel))
  | _ => s.reg off

/-! ## Views of the pixel path -/

/-- `ROLE` code (Tables 4-12, 5-7, 8-4). -/
def uroleCode : URole → Nat
  | .active => 0
  | .spare => 1
  | .retired => 2

/-- A decode core stands idle while a stream of its decode-start slots has a unit whose fetch waits for buffer room (R78,
Table 4-12). -/
def waitsRoom (s : State) (n : Nat) : Bool :=
  (s.dec n).act == 0 && s.wt.slots.any fun p =>
    p.2.rel && p.2.action == 3 && p.2.unit == n && p.2.armed
      && (match (s.stream p.2.arg).units with
          | u :: _ => u.phase == .waiting
          | [] => false)

/-- DECODE (Tables 4-11, 4-12). -/
def viewDec (s : State) (off : Nat) : Word :=
  let n := (off - 0x100000) / 4096
  let c := s.dec n
  match off % 4096 with
  | 0 => w32 (0xD000 + n)
  | 4 => w32 (uroleCode c.role * 16 + (if waitsRoom s n then 3 else c.act))
  | 8 => match c.stream with
    | some x => w32 (2 ^ 31 + x)
    | none => 0
  | _ => s.reg off

/-- COMPOSE (Table 5-7). -/
def viewComp (s : State) (off : Nat) : Word :=
  if off = 0x110000 then 0xC000
  else if 0x110100 ≤ off then
    let x := s.slice ((off - 0x110100) / 256)
    w32 (min x.queued 255 * 256 + uroleCode x.role * 16 + x.act)
  else s.reg off

/-- CORRECT (Table 6-3): gains read 0 before the endpoint's first boundary. -/
def viewCorr (s : State) (a : Agent) (off : Nat) : Word :=
  let e := mget {} s.corr.eps (s.seln a Off.corrEpSel)
  match off with
  | 0x120000 => 0x6000
  | 0x120014 => w32 ((1024 - usedPlaces s.corr.drifts) * 65536 + (128 - usedPlaces s.corr.curves))
  | 0x12001C => w32 (b2n e.newest.isSome * 2 ^ 31 + b2n e.stale * 2 ^ 30 + toPat 16 e.used)
  | 0x120020 => w32 (e.gains.getD 1 0 % 65536 * 65536 + e.gains.getD 0 0 % 65536)
  | 0x120024 => w32 (e.gains.getD 2 0 % 65536)
  | _ => s.reg off

/-- The stripe that an encoder core codes. -/
def codingJob (c : EncCore) : Option StripeJob := if c.act = 0 then none else c.jobs.head?

/-- Stripes of the Sward endpoints of a contract: the records of its status array (R207). -/
def statCount (s : State) (n : Nat) : Nat :=
  sumOf (((s.contract n).endpoints.filter fun e => e.sward).map fun e => e.tileH / 4)

/-- SWENC (Tables 8-3, 8-4). -/
def viewEnc (s : State) (a : Agent) (off : Nat) : Word :=
  let n := (off - 0x130000) / 4096
  let c := s.encCore n
  let sel := s.sel a Off.encStatSel
  match off % 4096 with
  | 0x00 => w32 (0x5000 + n)
  | 0x04 => w32 (uroleCode c.role * 16 + c.act)
  | 0x08 => match codingJob c with
    | some j => w32 (2 ^ 31 + j.slot * 65536 + j.k)
    | none => 0
  | 0x14 => match (codingJob c).bind fun j => endpointAt (s.contract j.contract) j.slot with
    | some e => w32 (winU e.tileW * 256 + winRows e.tileW)
    | none => 0
  | 0x1C => w32 (mget 0 s.enc.stat (2 * fld sel 5 0 + fld sel 8 8))
  | 0x24 => w32 (statCount s (fld sel 5 0))
  | _ => s.reg off

/-- PROXY (Table 8-9). -/
def viewPrx (s : State) (a : Agent) (off : Nat) : Word :=
  match off with
  | 0x140000 => 0x7000
  | 0x140004 => match s.prx.state with
    | .stopped => 0
    | .running => 1
    | .stopping => 2
  | 0x140014 => (prxLut s (s.seln a Off.prxLutSel)).setWidth 32
  | _ => s.reg off

/-! ## Views of drovers, egress and the service blocks -/

/-- `ACT` code (Table 9-17). -/
def dactCode : DAct → Nat
  | .idle => 0
  | .run => 1
  | .wait => 2
  | .stall => 3
  | .halted => 4

/-- The device address of the running row list of a drover, 0 where none runs. -/
def rowListAddr (x : Drover) (d : Nat) : Nat := match x.running with
  | some (c, f, row) => Config.rowListAddr c f d row % 2 ^ 64
  | none => 0

/-- DROVER (Tables 9-16, 9-17). -/
def viewDrover (s : State) (a : Agent) (off : Nat) : Word :=
  let d := (off - 0x150000) / 4096
  let x := s.drover d
  match off % 4096 with
  | 0x00 => w32 (0x9000 + d)
  | 0x04 => w32 (min x.ready.length 256 * 256 + dactCode x.act)
  | 0x08 => if x.running.isSome then w32 (mcOpc x.cmd * 2 ^ 24 + x.reg.pc % 16384) else w32 (x.reg.pc % 16384)
  | 0x18 => match runningList x with
    | some l => w32 (2 ^ 31 + mcSlot x.cmd % 16384 * 65536 + l.idx % 4096)
    | none => 0
  | 0x20 => w32 (rowListAddr x d)
  | 0x2C => x.csErr
  | 0x34 => (dispEntry s d (s.seln a (0x150030 + 0x1000 * d))).setWidth 32
  | _ => s.reg off

/-- A 32-bit part of a control-store word, least significant first (R220). -/
def viewCstore (s : State) (a : Agent) (off : Nat) : Word :=
  let w := storeWord (s.drover (s.seln a Off.cstoreSel)) ((off - 0x180000) / 16)
  w32 (w.toNat >>> (8 * (off % 16)))

/-- EGRESS (Table 10-13). -/
def viewEgress (s : State) (off : Nat) : Word :=
  if off < 0x202000 then
    let p := (off - 0x200000) / 256
    let x := s.port p
    if off % 256 = 4 then
      w32 (b2n (mget {} s.cages (p / 4)).present * 8 + b2n x.fecAlign * 4 + b2n x.blockLock * 2 + b2n x.linkUp)
    else s.reg off
  else if off = 0x20200C then w32 s.nvm.macBase
  else s.reg off

/-- `POOL_FREE` of a pool. -/
def poolFree (s : State) (p : Nat) : Nat := (s.pool p).cache * 65536 + freeBufs s.buf p % 65536

/-- Granules of the rings that are built on a port. -/
def portGranules (s : State) (p : Nat) : Nat :=
  sumOf (s.buf.rings.map fun r => if r.1 % 32 = p ∧ r.2.built then r.2.z else 0)

/-- POOL (Table 11-8). -/
def viewPool (s : State) (a : Agent) (off : Nat) : Word :=
  let o := s.seln a Off.poolOwnSel
  if 0x211000 ≤ off then
    let p := (off - 0x211000) / 32
    let x := s.port p
    match off % 32 with
    | 0x00 => w32 ((x.asmUsed + (x.asmWork + 8192 - x.asmCommit) % 8192) % 16384 * 65536 + x.asmUsed % 16384)
    | 0x0C => w32 (portGranules s p)
    | _ => s.reg off
  else match off with
    | 0x210000 => 0xB000
    | 0x210004 => w32 (poolTop s.buf)
    | 0x210010 => w32 (poolFree s 0)
    | 0x210014 => w32 (poolFree s 1)
    | 0x210018 => w32 (poolFree s 2)
    | 0x21001C => w32 (ringUse s.buf)
    | 0x210024 => rsvOf s.buf o
    | 0x210028 => w32 (usedBy s.buf 0 o)
    | 0x21002C => w32 (usedBy s.buf 2 o * 65536 + usedBy s.buf 1 o)
    | _ => s.reg off

/-- Live entries of a kind: 0 dynamic, 1 static, 2 remote. -/
def countKind (s : State) (k : Nat) : Nat := ((liveEntries s.tbl).filter fun p => p.2.kind == k).length

/-- TABLES (Table 13-7). -/
def viewTables (s : State) (a : Agent) (off : Nat) : Word :=
  match off with
  | 0x230000 => 0xE000
  | 0x230010 => w32 (countKind s 1 * 65536 + countKind s 0)
  | 0x230014 => w32 (countKind s 2)
  | 0x230018 => w32 s.tbl.prefixes.length
  | 0x23001C => w32 (freeNodes s.tbl.prefixes 3 * 65536 + freeNodes s.tbl.prefixes 2)
  | 0x230020 => w32 (freeNodes s.tbl.prefixes 4)
  | _ => if 0x230028 ≤ off then s.latch a off else s.reg off

/-- PEER (Table 22-3). -/
def viewPeer (s : State) (off : Nat) : Word :=
  let p := s.peer ((off - 0x240000) / 256)
  if off % 256 = 0 then w32 (p.lanes.toNat * 256 + b2n p.fec * 2 + b2n p.linkUp) else s.reg off

/-- `DMA_CH_STATE`: the bytes staged of a busy channel are the engine's pace (a free value). -/
def dmaChState (s : State) (n : Nat) : Word := match mget none s.dma.channels n with
  | some c => w32 (2 ^ 31 + c.inflight * 2 ^ 24 + Config.freeNat s.free % 65537)
  | none => 0

/-- DMA (Table 17-4). -/
def viewDma (s : State) (a : Agent) (off : Nat) : Word :=
  match off with
  | 0x250000 => 0x3000
  | 0x250010 => dmaChState s (s.seln a Off.dmaChSel)
  | 0x250014 => w32 s.mem.scratch
  | _ => s.reg off

/-- Channels with a marked pin. -/
def markedChannels (s : State) : Nat := (s.mem.channels.filter fun c => c.2.pins != 0).length

/-- `MEM_PORT_RANK` of a port: 0 for ports of fixed rank. -/
def portRankView (s : State) (p : Nat) : Nat := if p = 45 then s.mem.rank45 else if p = 46 then s.mem.rank46 else 0

/-- MEMCTL (Tables 16-3, 16-4). -/
def viewMem (s : State) (a : Agent) (off : Nat) : Word :=
  let p := s.seln a Off.memPortSel
  if 0x261000 ≤ off then
    let c := s.channel ((off - 0x261000) / 64)
    match off % 64 with
    | 0x0 => w32 (sat16 c.linkEcc * 65536 + sat16 c.outer)
    | 0x4 => w32 (sat16 c.ue)
    | 0x8 => c.pins.setWidth 32
    | _ => w32 (toPat 8 c.tap1 * 2 ^ 24 + toPat 8 c.tap0 * 65536 + c.width1 % 256 * 256 + c.width0 % 256)
  else match off with
    | 0x260000 => 0x4000
    | 0x260004 => w32 (b2n s.mem.trained * 2 ^ 31 + b2n s.mem.trainFail * 2 ^ 30 + markedChannels s * 65536 + s.mem.attempts)
    | 0x260014 => w32 s.mem.lastUe
    | 0x26001C => w32 (b2n s.mem.patrolRun * 2 ^ 31 + s.mem.patrolPos * 100 / patrolWords)
    | 0x260024 => w32 (portRankView s p)
    | 0x260028 => w32 (mget 0 s.mem.waits p)
    | _ => s.reg off

/-- TALLY (Table 20-3). -/
def viewTally (s : State) (a : Agent) (off : Nat) : Word :=
  let t := s.tly
  if 0x270010 ≤ off ∧ off < 0x270030 then w32 (snapTick s ((off - 0x270010) / 8))
  else match off with
    | 0x270000 => 0x400
    | 0x270008 => (mget 0 t.counts (s.seln a Off.tallySel)).setWidth 32
    | 0x270030 => w32 (b2n t.traceEn * 2 ^ 31 + b2n (extraHeld s) * 2 ^ 30 + t.staged.length)
    | 0x270034 => w32 t.wptr
    | 0x270038 => w32 (sat32 t.drop)
    | _ => s.reg off

/-- TRIM (Table 19-17): reserved trims read 0. -/
def viewTrim (s : State) (a : Agent) (off : Nat) : Word :=
  let i := s.seln a Off.trimSel
  match off with
  | 0x280004 => if i < 524 then (trimOf s i).value.setWidth 32 else 0
  | 0x280008 => match (trimOf s i).staged with
    | some v => w32 (2 ^ 31 + v.toNat)
    | none => 0
  | 0x28000C => 524
  | _ => s.reg off

/-! ## `_LO` and `_HI` (R513) -/

/-- Offset of the `_HI` register of the pair whose `_LO` stands at an offset; that of `DRV_FLOOD_MAC` stands before it. -/
def hiOf (off : Nat) : Option Nat :=
  if [0x10008, 0x40410, 0x40424, 0x50000, 0x50034, 0x70008, 0x70018, 0x7003C, 0x202004, 0x20200C, 0x250014, 0x260014,
      0x270008, 0x270010, 0x270018, 0x270020, 0x270028].contains off then some (off + 4)
  else if 0x130000 ≤ off ∧ off < 0x140000 ∧ off % 4096 = 0x1C then some (off + 4)
  else if 0x150000 ≤ off ∧ off < 0x170000 ∧ off % 4096 = 0x20 then some (off + 4)
  else if 0x150000 ≤ off ∧ off < 0x170000 ∧ off % 4096 = 0x28 then some (off - 12)
  else none

/-- The register shows a latch: the `_HI` of a pair, and `WT_FRAC`. -/
def isLatched (off : Nat) : Bool :=
  off == 0x50008 || (decide (4 ≤ off) && hiOf (off - 4) == some off) || hiOf (off + 12) == some off

/-- Where the latch of a `_HI` is kept: the pair of `ENC_STAT_BASE` is one in the pages of all cores (R209). -/
def latchHome (off : Nat) : Nat := if 0x130000 ≤ off ∧ off < 0x140000 then 0x130000 + off % 4096 else off

/-- The upper bits that a read of the `_LO` at an offset copies into the latch. -/
def hiLive (s : State) (a : Agent) (lo : Nat) : Word :=
  if lo = 0x10008 then s.reg Off.pdForceHi
  else if lo = 0x40410 then w32 (s.flt.restartTick.toNat >>> 32)
  else if lo = 0x40424 then w32 ((s.avail (s.seln a Off.availSel)).frames / 2 ^ 32 % 65536)
  else if lo = 0x50000 then w32 (s.wt.wall.toNat >>> 32)
  else if lo = 0x50034 then
    let l := s.slot (s.seln a Off.lslotSel)
    w32 (toPat 64 (timeFor l l.next) / 2 ^ 32)
  else if lo = 0x70008 then (s.sq (s.seln a Off.ringSel)).baseHi
  else if lo = 0x70018 then (s.cq (s.seln a Off.ringSel)).baseHi
  else if lo = 0x7003C then s.reg Off.tlmBaseHi
  else if lo = 0x202004 then s.reg Off.egGroupMacHi
  else if lo = 0x20200C then w32 (s.nvm.macBase / 2 ^ 32)
  else if lo = 0x250014 then w32 (s.mem.scratch / 2 ^ 32)
  else if lo = 0x260014 then w32 (s.mem.lastUe / 2 ^ 32)
  else if lo = 0x270008 then w32 ((mget 0 s.tly.counts (s.seln a Off.tallySel)).toNat / 2 ^ 32)
  else if lo / 65536 = 0x13 then
    let sel := s.sel a Off.encStatSel
    w32 (mget 0 s.enc.stat (2 * fld sel 5 0 + fld sel 8 8) / 2 ^ 32)
  else if lo / 65536 = 0x27 then w32 (snapTick s ((lo - 0x270010) / 8) / 2 ^ 32)
  else if lo % 4096 = 0x28 then s.reg (lo - 12)
  else w32 (rowListAddr (s.drover ((lo - 0x150000) / 4096)) ((lo - 0x150000) / 4096) / 2 ^ 32)

/-! ## The read -/

/-- The value of a register of the window whose domain is ON. -/
def regValue (s : State) (a : Agent) (off : Nat) : Word :=
  if isLatched off then s.latch a (latchHome off)
  else if isSelector off then s.sel a off
  else match off / 65536 with
    | 0 => viewGlobal s off
    | 1 => viewPower s a off
    | 2 => viewNvm s off
    | 3 => viewIntc s off
    | 4 => viewFault s a off
    | 5 => viewTime s a off
    | 6 => viewLink s off
    | 7 => viewRings s a off
    | 0x10 => viewDec s off
    | 0x11 => viewComp s off
    | 0x12 => viewCorr s a off
    | 0x13 => viewEnc s a off
    | 0x14 => viewPrx s a off
    | 0x15 => viewDrover s a off
    | 0x16 => viewDrover s a off
    | 0x18 => viewCstore s a off
    | 0x19 => viewCstore s a off
    | 0x1A => viewCstore s a off
    | 0x1B => viewCstore s a off
    | 0x20 => viewEgress s off
    | 0x21 => viewPool s a off
    | 0x23 => viewTables s a off
    | 0x24 => viewPeer s off
    | 0x25 => viewDma s a off
    | 0x26 => viewMem s a off
    | 0x27 => viewTally s a off
    | 0x28 => viewTrim s a off
    | _ => s.reg off

/-- The block of an offset answers: its domain is ON (R7), that of the selected drover for the CSTORE window (R254). -/
def reachable (s : State) (a : Agent) (off : Nat) : Bool :=
  if 0x180000 ≤ off ∧ off < 0x1C0000 then s.domainOn (38 + s.seln a Off.cstoreSel / 4)
  else match regDomain off with
    | some d => s.domainOn d
    | none => true

/-- What a read of an offset returns (R6, R7, Table 0-5). -/
def readValue (s : State) (a : Agent) (off : Nat) : Word :=
  match regAt off with
  | none => 0
  | some r => if !reachable s a off || r.ty == .wo then 0 else regValue s a off

/-- The latches that a read of a `_LO` loads (R513); `WT_NOW_LO` loads `WT_FRAC` too. -/
def latchHi (s : State) (a : Agent) (off : Nat) : State :=
  match hiOf off with
  | none => s
  | some hi =>
    let s1 := s.setLatch a (latchHome hi) (hiLive s a off)
    if off = 0x50000 then s1.setLatch a 0x50008 (s.wt.frac.setWidth 32) else s1

/-- A read of `MEM_PORT_WAIT` clears it (R516). -/
def clearWait (s : State) (a : Agent) : State :=
  s.modMem fun m => { m with waits := mset 0 m.waits (s.seln a Off.memPortSel) 0 }

/-- What a read of a register changes. -/
def readEffect (s : State) (a : Agent) (off : Nat) : State :=
  if off = Off.memPortWait then clearWait s a
  else if 0x33000 ≤ off ∧ off < 0x33050 ∧ off % 16 = 0 then claimOp s ((off - 0x33000) / 16)
  else if off = 0x250010 then { s with free := s.free + 1 }
  else latchHi s a off

/-- The state after a read. -/
def readState (s : State) (a : Agent) (off : Nat) : State :=
  if (regAt off).isSome && reachable s a off then readEffect s a off else s

end Sys2Proof.Machine
end

