-- ==== Sys2Proof/Machine/RegWrite.lean ====
section
/-! DEFINITION. Writes of the control window (R6, R7, R512-R518): the range checks and the rules of each register. A write
that a rule ignores changes nothing. -/

namespace Sys2Proof.Machine

/-- The level source of an enable or a status register is sampled again (R440). -/
def resample (s : State) (off : Nat) : State := levelSample s (srcOfStatus off)

/-- Store the implemented bits of a register. -/
def storeReg (s : State) (off mask : Nat) (v : Word) : State := resample (s.setReg off (v &&& w32 mask)) off

/-- W1C: the written ones clear their bits (Table 0-5). A level source whose cause holds pends again. -/
def clearBits (s : State) (off : Nat) (v : Word) : State := resample (s.setReg off (s.reg off &&& ~~~ v)) off

/-- A condition of a write; where it fails the write is ignored. -/
def writeIf (c : Bool) (s s' : State) : State := if c then s' else s

/-- A number lies in a range. -/
def inRange (lo hi n : Nat) : Bool := decide (lo ≤ n) && decide (n ≤ hi)

/-! ## COMPOSE (R118, R129, R131) -/

/-- The canvas buffers of a size are placed anew (R131). -/
def placeCanvas (s : State) (v : Word) : State :=
  let n := fld v 6 0 * fld v 21 16 * 393216
  let s1 := unplace (unplace s s.comp.canvasBase0) s.comp.canvasBase1
  let (b, s2) := place s1 n
  let (c, s3) := place s2 n
  { s3 with comp := { s3.comp with canvasBase0 := b, canvasBase1 := c } }

/-- A write of `CANVAS_SIZE` (R129, R131, Table 5-7). -/
def canvasSizeOp (s : State) (v : Word) : State :=
  if inRange 1 32 (fld v 21 16) && inRange 1 64 (fld v 6 0) && !anyContract s then
    placeCanvas (s.setReg Off.canvasSize (v &&& 0x003F007F#32)) v
  else s

/-- A write of `CANVAS_COLOUR` (R129, Table 5-7). -/
def canvasColourOp (s : State) (v : Word) : State :=
  writeIf (fld v 17 16 != 3 && inRange 100 10000 (fld v 13 0) && !anyContract s) s (s.setReg Off.canvasColour (v &&& 0x00033FFF#32))

/-- R118: a layer of a contract that is not FREE names a set on an axis: 0 horizontal, 1 vertical. -/
def coefBusy (s : State) (set axis : Nat) : Bool :=
  s.contracts.any fun p => p.2.state != .free && p.2.layers.any fun l => (if axis = 0 then l.hset else l.vset) == set

/-- The eight taps of the four data registers, `SCL_DATA3` being written. -/
def dataTaps (s : State) (v : Word) : List Int :=
  [s.reg (Off.sclData 0), s.reg (Off.sclData 1), s.reg (Off.sclData 2), v].flatMap
    fun w => [sext 12 (fld w 11 0), sext 12 (fld w 27 16)]

/-- R118: the taps of a phase sum to 1,024; vertically taps 6 and 7 are 0. -/
def tapsOk (axis : Nat) (ts : List Int) : Bool :=
  ts.foldl (· + ·) 0 == 1024 && (axis == 0 || (ts.getD 6 0 == 0 && ts.getD 7 0 == 0))

/-- Commit a phase and mark it in its half. -/
def commitPhase (c : Compose) (set axis ph : Nat) (ts : List Int) : Compose :=
  { c with taps := mset [] c.taps (phaseKey set axis ph) ts
           loaded := mmod 0 c.loaded (halfKey set axis) fun m => m ||| BitVec.ofNat 64 (2 ^ ph) }

/-- A write of `SCL_DATA0`-`SCL_DATA3` by an agent (R118). -/
def sclDataOp (s : State) (a : Agent) (i : Nat) (v : Word) : State :=
  let sel := s.sel a Off.sclSel
  let set := fld sel 3 0
  let axis := fld sel 16 16
  if coefBusy s set axis then setStatus s Off.compStatus 1
  else if set < 4 then s
  else
    let w := v &&& 0x0FFF0FFF#32
    let s1 := s.setReg (Off.sclData i) w
    if i ≠ 3 then s1
    else if tapsOk axis (dataTaps s w) then { s1 with comp := commitPhase s1.comp set axis (fld sel 13 8) (dataTaps s w) }
    else setStatus s1 Off.compStatus 2

/-! ## EGRESS (R272, R281, Table 10-14) -/

/-- A port carries an endpoint of a contract that is not FREE. -/
def portUsed (s : State) (p : Nat) : Bool :=
  s.contracts.any fun c => c.2.state != .free && c.2.endpoints.any fun e => (epPorts s e).contains p

/-- The values that `EG_PORT_CFG` takes (Table 10-14). -/
def portCfgOk (v : Word) : Bool :=
  decide (fld v 13 8 < 32) && decide (fld v 3 2 < 3) && decide (fld v 1 0 < 2) && !(fld v 3 2 == 2 && fld v 1 0 == 1)

/-- A write of `EG_PORT_CFG` p (R258, R281): a change of `SPEED` or `FEC` restarts the link; `EN` 0 holds it down. -/
def portCfgOp (s : State) (p : Nat) (v : Word) : State :=
  if portCfgOk v && !portUsed s p then
    let old := s.reg (Off.egPortCfg p)
    let s1 := checkPairs (s.setReg (Off.egPortCfg p) (v &&& 0x7F1F#32)) p
    if fld old 3 0 ≠ fld v 3 0 ∨ !bit v 4 then linkFall s1 p else s1
  else s

/-! ## POOL (R299) -/

/-- A write of `POOL_RSV` of the agent's owner: ignored where the sum of a pool's reserves would exceed its kept count. -/
def poolRsvOp (s : State) (o : Nat) (v : Word) : State :=
  let held := [0, 1, 2].foldl (fun m p => mset 0 m (128 * p + o) (min (reserve s.buf p o) (usedBy s.buf p o))) s.buf.rsvHeld
  let b : Buffers := { s.buf with rsv := mset none s.buf.rsv o (if v = rsvReset o then none else some v), rsvHeld := held }
  if [0, 1, 2].all fun p => decide (sumSet b p ≤ poolKept p) then relevel { s with buf := b }
  else setStatus s Off.poolStatus 4

/-! ## SCHED (R314, R315, R319) -/

/-- An access is under way. -/
def schedGo (s : State) : Bool := bit (s.reg Off.schedAcc) 31

/-- A write of `SCHED_ACC`: ignored while `GO` is 1; `ERR` is read-only; writing 0 to `GO` starts nothing. -/
def schedAccOp (s : State) (v : Word) : State :=
  if schedGo s then s else s.setReg Off.schedAcc ((s.reg Off.schedAcc &&& 0x40000000#32) ||| (v &&& 0x80000003#32))

/-- The four data registers. -/
def setSchedData (s : State) (d0 d1 d2 d3 : Nat) : State :=
  (((s.setReg (Off.schedData 0) (w32 d0)).setReg (Off.schedData 1) (w32 d1)).setReg (Off.schedData 2) (w32 d2)).setReg
    (Off.schedData 3) (w32 d3)

/-- The access ends: `GO` 0 and `ERR`. -/
def schedEnd (s : State) (err : Bool) : State :=
  s.setReg Off.schedAcc (w32 (b2n err * 2 ^ 30 + fld (s.reg Off.schedAcc) 1 0))
def schedFail (s : State) : State := schedEnd (setSchedData s 0 0 0 0) true

/-- `READ_CFG` of queue q (Table 12-5). A class-0 queue has no weight in Table 12-3: a free value. -/
def schedReadCfg (s : State) (q : Nat) : State :=
  let c := s.queueCfg q
  let w := if q % 4 = 0 then Config.freeNat s.free % 256 else c.w
  let s1 := setSchedData s (c.shpRate * 256 + w) c.shpBurst c.polRate c.polBurst
  schedEnd { s1 with free := if q % 4 = 0 then s1.free + 1 else s1.free } false

/-- The configuration that the data registers give. -/
def schedNewCfg (s : State) : QCfg :=
  let d := fun i => s.reg (Off.schedData i)
  { w := fld (d 0) 7 0, shpRate := fld (d 0) 25 8, shpBurst := fld (d 1) 23 0, polRate := fld (d 2) 17 0, polBurst := fld (d 3) 23 0 }

/-- The ranges of Table 12-5. -/
def qcfgOk (c : QCfg) : Bool :=
  inRange 1 255 c.w && decide (c.shpRate ≤ 250000) && decide (9236 ≤ c.shpBurst) && decide (c.polRate ≤ 250000) && decide (9236 ≤ c.polBurst)

/-- R314, R315: the tokens of a queue that a new configuration sets on one port. -/
def retoken (now : Nat) (old new : QCfg) (x : QState) : QState :=
  let y := if old.shpRate ≠ new.shpRate ∨ old.shpBurst ≠ new.shpBurst then { x with shpTokens := 0, shpAt := now } else x
  if old.polRate ≠ new.polRate ∨ old.polBurst ≠ new.polBurst then { y with polTokens := 12800 * new.polBurst, polAt := now } else y

/-- `WRITE_CFG` of queue q, of class 1-3 and in range. -/
def schedWriteCfg (s : State) (q : Nat) : State :=
  let new := schedNewCfg s
  if q % 4 = 0 ∨ !qcfgOk new then schedFail s
  else
    let old := s.queueCfg q
    let s1 : State := { s with qcfg := mset (qcfgReset q) s.qcfg q new }
    schedEnd ((List.range 32).foldl (fun t p => t.modPort p fun x => modQueue x q (retoken s.wt.now old new)) s1) false

/-- The frames of a queue on a port. -/
def queueFrames (x : Port) (q : Nat) : List Frame :=
  if q % 4 = 0 then x.class0.filter fun f => f.queue == q else (qstate x q).frames

/-- `READ_STATE` of queue q on port p (Table 12-5). -/
def schedReadState (s : State) (p q : Nat) : State :=
  if !s.domainOn (46 + p / 4) then schedFail s
  else
    let x := s.port p
    let fs := queueFrames x q
    let held := match fs with
      | f :: _ => q % 4 != 0 && !eligible s x q f
      | [] => false
    let age := match fs with
      | f :: _ => min 65535 ((s.wt.now - f.enq) / 16000)
      | [] => 0
    let tag := if fs.isEmpty then 0 else (qstate x q).f.toNat
    schedEnd (setSchedData s (b2n (!fs.isEmpty) * 2 ^ 31 + b2n held * 2 ^ 30 + min 65535 fs.length)
      (sumOf (fs.map fun f => wireLen f.bytes)) age tag) false

/-- The access of the engine that is under way ends (R319, R515). -/
def schedRun (s : State) : State :=
  if !schedGo s then s
  else
    let sel := s.reg Off.schedQSel
    match fld (s.reg Off.schedAcc) 1 0 with
    | 0 => schedReadCfg s (fld sel 15 0)
    | 1 => schedWriteCfg s (fld sel 15 0)
    | 2 => schedReadState s (fld sel 28 24) (fld sel 15 0)
    | _ => schedFail s

/-- `AGE_LIMIT`: every field 1-1,000. -/
def ageOk (v : Word) : Bool := inRange 1 1000 (fld v 29 20) && inRange 1 1000 (fld v 19 10) && inRange 1 1000 (fld v 9 0)

/-- A write of `URG_POL_RATE` or `URG_POL_BURST` that changes it fills the port's urgent policer (R315). -/
def urgOp (s : State) (p off : Nat) (v : Word) : State :=
  if s.reg off = v then s
  else
    let s1 := s.setReg off v
    s1.modPort p fun x => { x with urgTokens := 12800 * fld (s1.reg (Off.urgBurst p)) 15 0, urgAt := s.wt.now }

/-- SCHED registers. -/
def writeSched (s : State) (off : Nat) (v : Word) : State :=
  if off = Off.schedAcc then schedAccOp s v
  else if off = Off.schedQSel then writeIf (!schedGo s) s (s.setReg off (v &&& 0x1F00FFFF#32))
  else if off < 0x220020 then writeIf (!schedGo s) s (s.setReg off v)
  else if off = Off.ageLimit then writeIf (ageOk v) s (s.setReg off (v &&& 0x3FFFFFFF#32))
  else
    let p := (off - 0x220100) / 8
    if off % 8 = 0 then writeIf (decide (fld v 11 0 ≤ 2000)) s (urgOp s p off (v &&& 0xFFF#32))
    else writeIf (decide (9236 ≤ fld v 15 0)) s (urgOp s p off (v &&& 0xFFFF#32))

/-! ## TABLES (Table 13-7) -/

/-- The entry that `TBL_SEL` selects: by index, or the local entry bound to a slot. -/
def tblSelected (s : State) (v : Word) : TEntry :=
  if bit v 30 then match boundEntry s.tbl (fld v 14 0) with
    | some p => p.2
    | none => {}
  else mget {} s.tbl.entries (fld v 14 0)

/-- `TBL_DATA0`-`TBL_DATA3` of an entry. -/
def tblWords (e : TEntry) : List Nat :=
  [e.mac % 2 ^ 32,
   b2n e.valid * 2 ^ 31 + e.kind % 4 * 2 ^ 29 + b2n e.pinned * 2 ^ 28 + b2n e.deferred * 2 ^ 27 + b2n e.hit * 2 ^ 26
     + b2n e.seenClear * 2 ^ 25 + e.mac / 2 ^ 32 % 65536,
   b2n e.slot.isSome * 2 ^ 31 + e.slot.getD 0 % 16384 * 65536 + e.lastPort % 32 * 256 + e.port % 32,
   e.module % 16 * 2 ^ 24 + e.moves % 8]

/-- A write of `TBL_SEL` by an agent latches the entry for that agent (R514). -/
def tblSelOp (s : State) (a : Agent) (v : Word) : State :=
  let ws := tblWords (tblSelected s v)
  (List.range 4).foldl (fun t i => t.setLatch a (Off.tblData i) (w32 (ws.getD i 0))) (s.setSel a Off.tblSel (v &&& 0x40007FFF#32))

/-! ## RINGS (R373, R388) -/

/-- A base half of a ring that is not enabled. -/
def sqBaseOp (s : State) (r : Nat) (hi : Bool) (v : Word) : State :=
  if bit (s.sq r).cfg 31 then s
  else s.modSq r fun q => if hi then { q with baseHi := v } else { q with baseLo := v &&& 0xFFFFF000#32 }
def cqBaseOp (s : State) (r : Nat) (hi : Bool) (v : Word) : State :=
  if bit (s.cq r).cfg 31 then s
  else s.modCq r fun q => if hi then { q with baseHi := v } else { q with baseLo := v &&& 0xFFFFF000#32 }

/-- A write of `TLM_CFG`: `EN` naming a disabled CQ is rejected. Enabling starts at the buffer's base. -/
def tlmCfgOp (s : State) (v : Word) : State :=
  if bit v 31 && !bit (s.cq (fld v 9 0)).cfg 31 then cfgReject s
  else
    let s1 := if bit v 31 && !bit (s.reg Off.tlmCfg) 31 then s.modRings fun x => { x with tlmPtr := 0, tlmUsed := [] } else s
    s1.setReg Off.tlmCfg (v &&& 0x800003FF#32)

/-- `TLM_BYTES`: 64 KiB to 256 MiB, a multiple of 64 KiB. -/
def tlmBytesOk (v : Word) : Bool := inRange 65536 268435456 (fld v 28 0) && fld v 15 0 == 0

/-- RINGS registers of the ring that the agent selects. -/
def writeRings (s : State) (a : Agent) (off : Nat) (v : Word) : State :=
  let r := s.seln a Off.ringSel
  let free := !bit (s.reg Off.tlmCfg) 31
  match off with
  | 0x70008 => sqBaseOp s r false v
  | 0x7000C => sqBaseOp s r true v
  | 0x70010 => sqCfgOp s r v
  | 0x70018 => cqBaseOp s r false v
  | 0x7001C => cqBaseOp s r true v
  | 0x70020 => cqCfgOp s r v
  | 0x70024 => cqCoalOp s r v
  | 0x70030 => storeReg s off 0x7F v
  | 0x70038 => tlmCfgOp s v
  | 0x7003C => writeIf free s (s.setReg off (v &&& 0xFFFF0000#32))
  | 0x70040 => writeIf free s (s.setReg off v)
  | 0x70044 => writeIf (free && tlmBytesOk v) s (s.setReg off (v &&& 0x1FFFFFFF#32))
  | _ => s

/-! ## The always-on blocks -/

/-- INTC registers. -/
def writeIntc (s : State) (off : Nat) (v : Word) : State :=
  if off < 0x30200 then intPendOp s ((off - 0x30100) / 4) v
  else if off < 0x30300 then intMaskOp s ((off - 0x30200) / 4) v
  else if off < 0x33000 then srcCfgOp s ((off - 0x31000) / 4) v
  else if off % 16 = 4 then completeOp s ((off - 0x33000) / 16) v
  else threshOp s ((off - 0x33000) / 16) v

/-- FAULT registers. `RESTART_CAUSE` and `RESTART_TICK` are RWS. -/
def writeFault (s : State) (a : Agent) (off : Nat) (v : Word) : State :=
  if off < 0x40400 then
    if off % 32 = 8 then writeIf (inRange 10 65535 (fld v 15 0)) s (s.setReg off (v &&& 0xFFFF#32)) else storeReg s off 0xFFFF v
  else match off with
    | 0x40400 => fltAckBy s a v
    | 0x40404 => injectOp s v
    | 0x4040C => s.modFlt fun f => { f with restartCause := v &&& 0x01FF0F07#32 }
    | 0x40410 => s.modFlt fun f => { f with restartTick := setFld f.restartTick 31 0 v.toNat }
    | 0x40414 => s.modFlt fun f => { f with restartTick := setFld f.restartTick 63 32 v.toNat }
    | _ => s

/-- A slot of contract c that starts in frame f will still fire (R23, R524). -/
def willFire (c : Contract) (f : Nat) : Bool :=
  contractActive c && match c.nLast with
    | some n => decide (f ≤ n)
    | none => true

/-- The slot that a write of `LSLOT_CTRL` by a control core commits (Tables 2-8, 2-11): its time and argument as staged. A
relative slot fires next for the first frame after the contract's last boundary whose fire tick has not come, and is armed
only while it will fire (R524). An absolute slot whose fire tick is not later than the present `WALLTIME` has already passed
and is marked (R27; entry 116 of the log). -/
def committedSlot (s : State) (v : Word) : LSlot :=
  let t := sext 64 ((s.reg Off.lslotTimeLo).toNat + 2 ^ 32 * (s.reg Off.lslotTimeHi).toNat)
  let c := fld v 21 16
  let x := s.contract c
  let f := max (match x.frame with
    | some f => f + 1
    | none => x.n0) (firstAfter x ((s.wallNow : Int) - t))
  let armed := bit v 31 && realAction (fld v 3 0)
  { time := t, rel := bit v 30, armed := armed && (!bit v 30 || willFire x f), contract := c, unit := fld v 15 8
    action := fld v 3 0, arg := (s.reg Off.lslotArg).toNat, next := if bit v 30 then f else 0
    late := if armed && !bit v 30 && decide (t ≤ (s.wallNow : Int)) then some s.wallNow else none }

/-- Launch slots are written by the control cores only (R24). -/
def writeSlot (s : State) (a : Agent) (off : Nat) (v : Word) : State :=
  match a with
  | .host => s
  | .cc _ => if off = Off.lslotCtrl then s.modSlot (s.seln a Off.lslotSel) fun _ => committedSlot s v else s.setReg off v

/-- WALLTIME registers. -/
def writeTime (s : State) (a : Agent) (off : Nat) (v : Word) : State :=
  match off with
  | 0x50014 => foldCfgOp s v
  | 0x50018 => writeIf (!anyActive s) s (s.setReg off v)
  | 0x5001C => writeIf (inRange 125 10000 (fld v 13 0)) s (s.setReg off (v &&& 0x3FFF#32))
  | 0x50020 => s.setReg off v
  | 0x50024 => s.setReg off v
  | _ => writeSlot s a off v

/-- GLOBAL, CLKPWR and LINK registers; `ADMIT_SUSTAIN` is ignored while a contract is not FREE (R69). -/
def writeSys (s : State) (off : Nat) (v : Word) : State :=
  match off with
  | 0x40 => writeIf (inRange 400 1350 (fld v 15 0) && !anyContract s) s (s.setReg off (v &&& 0xFFFF#32))
  | 0x10008 => pdForceOp s false v
  | 0x1000C => pdForceOp s true v
  | 0x10014 => s.setReg off (v &&& 0x9F0FFFFF#32)
  | 0x6000C => storeReg s off 0x1FF v
  | 0x60010 => linkCfgOp s v
  | 0x60014 => linkCtrlOp s v
  | _ => s

/-- DOORBELL registers. -/
def writeDoorbell (s : State) (off : Nat) (v : Word) : State :=
  let r := (off - 0x80000) / 8
  if off % 8 = 0 then sqTailOp s r v else cqHeadOp s r v

/-! ## The pixel path, egress and the service blocks -/

/-- Registers of the pixel path. -/
def writePixel (s : State) (a : Agent) (off mask : Nat) (v : Word) : State :=
  if off = Off.canvasSize then canvasSizeOp s v
  else if off = Off.canvasColour then canvasColourOp s v
  else if 0x110014 ≤ off ∧ off < 0x110024 then sclDataOp s a ((off - 0x110014) / 4) v
  else if off = Off.corrCfg then writeIf (fld v 1 0 != 3) s (s.setReg off (v &&& w32 mask))
  else if off = Off.corrStale then writeIf (inRange 100 60000 (fld v 15 0)) s (s.setReg off (v &&& w32 mask))
  else if off = Off.prxLutData then lutWrite s a v
  else storeReg s off mask v

/-- A write into the control-store window: read-only to the host (R254); a control core writes 32 bits of a word of the
common. -/
def writeCstore (s : State) (a : Agent) (off : Nat) (v : Word) : State :=
  let w := (off - 0x180000) / 16
  match a with
  | .host => s
  | .cc _ => if w < 0x2000 then s
    else s.modDrover (s.seln a Off.cstoreSel) fun x => { x with
      store := mmod 0 x.store w fun (y : BitVec 128) => setFld y (8 * (off % 16) + 31) (8 * (off % 16)) v.toNat }

/-- DROVER registers. -/
def writeDrover (s : State) (off mask : Nat) (v : Word) : State :=
  if off % 4096 = 0x14 then writeIf (decide (1024 ≤ fld v 23 0)) s (s.setReg off (v &&& w32 mask)) else storeReg s off mask v

/-- EGRESS registers. -/
def writeEgress (s : State) (off mask : Nat) (v : Word) : State :=
  if off < 0x202000 then (if off % 256 = 0 then portCfgOp s ((off - 0x200000) / 256) v else storeReg s off mask v)
  else if off = Off.egEthertype then writeIf (decide (0x600 ≤ fld v 15 0) && !anyContract s) s (s.setReg off (v &&& w32 mask))
  else if off = Off.egGroupMacHi then writeIf (bit v 8 && !anyContract s) s (s.setReg off (v &&& w32 mask))
  else writeIf (!anyContract s) s (s.setReg off v)

/-- Registers of the tables, peer ports, DMA, memory, tallies and pools. -/
def writeService (s : State) (a : Agent) (off mask : Nat) (v : Word) : State :=
  if off = Off.tblCfg then writeIf (inRange 1 600 (fld v 25 16)) s (s.setReg off (v &&& w32 mask))
  else if off = Off.memCfg then writeIf (inRange 8 16 (fld v 19 16) && inRange 1 24 (fld v 12 8)) s (s.setReg off (v &&& w32 mask))
  else if off = Off.memPortRank then portRankOp s (s.seln a Off.memPortSel) v
  else if off = Off.poolRsv then poolRsvOp s (s.seln a Off.poolOwnSel) v
  else storeReg s off mask v

/-- Writes of a selector (R514): values out of range are ignored; `TRIM_SEL` takes no host write (R486). -/
def writeSel (s : State) (a : Agent) (off mask : Nat) (v : Word) : State :=
  let w := v &&& w32 mask
  if off = Off.tblSel then tblSelOp s a v
  else if off = Off.tempSel then writeIf (decide (fld v 4 0 < 24)) s (s.setSel a off w)
  else if off = Off.dmaChSel then writeIf (decide (fld v 4 0 < 17)) s (s.setSel a off w)
  else if off = Off.trimSel then writeIf (a != .host) s (s.setSel a off w)
  else s.setSel a off w

/-- A write of a register of type RW, WO or RWS. -/
def writeBlock (s : State) (a : Agent) (off mask : Nat) (v : Word) : State :=
  match off / 65536 with
  | 0 => writeSys s off v
  | 1 => writeSys s off v
  | 3 => writeIntc s off v
  | 4 => writeFault s a off v
  | 5 => writeTime s a off v
  | 6 => writeSys s off v
  | 7 => writeRings s a off v
  | 8 => writeDoorbell s off v
  | 0x15 => writeDrover s off mask v
  | 0x16 => writeDrover s off mask v
  | 0x20 => writeEgress s off mask v
  | 0x22 => if off = Off.schedIntEn then storeReg s off mask v else writeSched s off v
  | n => if n < 0x15 then writePixel s a off mask v else writeService s a off mask v

/-- The write of a 32-bit register by an agent (R6, R7, R517, Table 0-5). -/
def writeReg (s : State) (a : Agent) (off : Nat) (v : Word) : State :=
  match regAt off with
  | none => s
  | some r =>
    if !reachable s a off then s
    else match r.ty with
      | .ro =>
        if 0x180000 ≤ off ∧ off < 0x1C0000 then writeCstore s a off v
        else if 0x50034 ≤ off ∧ off < 0x50044 then writeSlot s a off v
        else s
      | .rc => s
      | .w1c => clearBits s off (v &&& w32 r.mask)
      | _ => if isSelector off then writeSel s a off r.mask v else writeBlock s a off r.mask v

end Sys2Proof.Machine
end

