-- ==== Sys2Proof/Machine/WindowAccess.lean ====
section
/-! DEFINITION. Commands that access the control window: the host's transactions (R356-R361), the writes and reads that
are rows of their own, and the access engine of the scheduler (R319). -/

namespace Sys2Proof.Machine

/-! ## Transactions of the host (R356, R358, R360) -/

/-- R356: the limits of a request of n bytes. -/
def requestOk (limit addr n : Nat) : Bool :=
  inRange 4 limit n && n % 4 == 0 && addr % 4 == 0 && decide (addr % 4096 + n ≤ 4096)

/-- R360: a request that the control window takes. -/
def windowOk (addr n : Nat) : Bool := decide (addr < 2 ^ 26) && inRange 4 64 n && decide (addr % 4096 + n ≤ 4096)

/-- R360: consecutive 32-bit reads in ascending address order: the bytes and the state after them. -/
def readWords : Nat → Nat → State → List Byte × State
  | 0, _, s => ([], s)
  | n + 1, off, s =>
    let rest := readWords n (off + 4) (readState s .host off)
    (leBytes 4 (readValue s .host off).toNat ++ rest.1, rest.2)

/-- R360: consecutive 32-bit writes in ascending address order. -/
def writeWords : Nat → Nat → List Byte → State → State
  | 0, _, _, s => s
  | n + 1, off, bs, s => writeWords n (off + 4) (bs.drop 4) (writeReg s .host off (w32 (leAt bs 0 4)))

/-- Queue the CPL that answers a host MRD; its tag is busy until it is sent. -/
def answer (s : State) (tag status : Nat) (bs : List Byte) : State :=
  sendTxn (s.modLink fun l => { l with hostTags := tag :: l.hostTags }) (.cpl tag status true 0 bs)

/-- A request that the window does not take sets `LINK_STATUS.UR`. -/
def unsupported (s : State) : State := setStatus s Off.linkStatus (2 ^ 6)

/-- What a bad request sets: `PROTO` where it breaks R356, `UR` where it breaks R360. -/
def requestBad (s : State) (limit addr n : Nat) : State :=
  let s1 := if requestOk limit addr n then s else protoError s
  if windowOk addr n then s1 else unsupported s1

/-- A host MRD (R358, R360). -/
def mrdTake (s : State) (tag addr n : Nat) : State :=
  if s.link.hostTags.contains tag then protoError s
  else if !requestOk 4096 addr n || !windowOk addr n then answer (requestBad s 4096 addr n) tag 1 []
  else
    let r := readWords (n / 4) addr s
    answer r.2 tag 0 r.1

/-- A host MWR (R358, R360). -/
def mwrTake (s : State) (addr : Nat) (bs : List Byte) : State :=
  if !requestOk 512 addr bs.length || !windowOk addr bs.length then requestBad s 512 addr bs.length
  else writeWords (bs.length / 4) addr bs s

/-- A transaction leaves the receive queue and its credits return (R352). -/
def mrdFreed (s : State) (t : Txn) : State := s.modLink fun l => { l with rxq := l.rxq.erase t, oweMrd := l.oweMrd + 1 }
def mwrFreed (s : State) (t : Txn) (n : Nat) : State :=
  s.modLink fun l => { l with rxq := l.rxq.erase t, oweMwr := l.oweMwr + creditUnits n }

/-- `LINK_MRD_RECEIVE` (R358, R360). No transaction arrives while the link is down. -/
def execLinkMrdReceive (tag : Fin 4096) (addr : Dword) (len : BitVec 16) (s : State) : Out :=
  let t : Txn := .mrd tag.val addr.toNat len.toNat
  if linkUp s && mayApply s.link t then .next (mrdTake (mrdFreed s t) tag.val addr.toNat len.toNat) else .next s

/-- `LINK_MWR_RECEIVE` (R358, R360). -/
def execLinkMwrReceive (addr : Dword) (bytes : List Byte) (s : State) : Out :=
  let t : Txn := .mwr addr.toNat bytes
  if linkUp s && mayApply s.link t then .next (mwrTake (mwrFreed s t bytes.length) addr.toNat bytes) else .next s

/-! ## Rows that are one access -/

/-- A write that lands only while its domain is ON (R7, R517). -/
def gated (d : Nat) (s s' : State) : State := if s.domainOn d then s' else s

/-- `READ_CFG`, `WRITE_CFG`, `READ_STATE`: a write of `SCHED_ACC` with `GO` = 1 and the row's `OP` (Table 12-7). -/
def execReadCfg (s : State) : Out := .next (schedAccOp s 0x80000000)
def execWriteCfg (s : State) : Out := .next (schedAccOp s 0x80000001)
def execReadState (s : State) : Out := .next (schedAccOp s 0x80000002)

/-- `SCHED_ACC_DONE` (R319). -/
def execSchedAccDone (s : State) : Out := .next (schedRun s)

/-- `SCL_DATA3_WRITE` (R118). -/
def execSclData3Write (a : Agent) (v : Word) (s : State) : Out := .next (gated 36 s (sclDataOp s a 3 v))

/-- `TBL_SEL_WRITE` (R514, Table 13-7). -/
def execTblSelWrite (a : Agent) (v : Word) (s : State) : Out := .next (gated 61 s (tblSelOp s a v))

/-- `CANVAS_SIZE_WRITE` (R129, R131). -/
def execCanvasSizeWrite (v : Word) (s : State) : Out := .next (gated 36 s (canvasSizeOp s v))

/-- `EG_PORT_CFG_WRITE` (R272, R281). -/
def execEgPortCfgWrite (p : Fin 32) (v : Word) (s : State) : Out := .next (gated (46 + p.val / 4) s (portCfgOp s p.val v))

/-- `LO_REGISTER_READ` (R513): the read of a register by an agent. -/
def execLoRegisterRead (a : Agent) (addr : BitVec 26) (s : State) : Out := .next (readState s a addr.toNat)

/-- `REGISTER_WRITE` (R6, R7, R512-R518): the write of any register by an agent. -/
def execRegisterWrite (a : Agent) (addr : BitVec 26) (v : Word) (s : State) : Out := .next (writeReg s a addr.toNat v)

end Sys2Proof.Machine
end

