-- ==== Sys2Proof/Machine/Dispatch.lean ====
section
/-! DEFINITION. The meaning of every command: one arm per constructor of `Instr`. -/

namespace Sys2Proof.Machine

/-- The effect of a command on everything but the queue. -/
def exec (i : Instr) (s : State) : Host.Outcome State Fault Refusal :=
  match i with
  | .nop sq d => Sys2Proof.Machine.execNop sq d s
  | .streamOpen sq d h cfg => Sys2Proof.Machine.execStreamOpen sq d h cfg s
  | .streamClose sq d => Sys2Proof.Machine.execStreamClose sq d s
  | .auSubmit sq d => Sys2Proof.Machine.execAuSubmit sq d s
  | .rawFrameSubmit sq d => Sys2Proof.Machine.execRawFrameSubmit sq d s
  | .rawSliceSubmit sq d => Sys2Proof.Machine.execRawSliceSubmit sq d s
  | .contractPropose sq d h => Sys2Proof.Machine.execContractPropose sq d h s
  | .contractCommit sq d => Sys2Proof.Machine.execContractCommit sq d s
  | .contractCommitAccept c => Sys2Proof.Machine.execContractCommitAccept c s
  | .contractRelease sq d => Sys2Proof.Machine.execContractRelease sq d s
  | .layoutUpdate sq d h => Sys2Proof.Machine.execLayoutUpdate sq d h s
  | .coefLoad sq d h => Sys2Proof.Machine.execCoefLoad sq d h s
  | .driftTableLoad sq d h => Sys2Proof.Machine.execDriftTableLoad sq d h s
  | .curveLoad sq d h => Sys2Proof.Machine.execCurveLoad sq d h s
  | .mapLoad sq d h => Sys2Proof.Machine.execMapLoad sq d h s
  | .ucodeLoad sq d h mismatch badWord => Sys2Proof.Machine.execUcodeLoad sq d h mismatch badWord s
  | .endpointSend sq d h => Sys2Proof.Machine.execEndpointSend sq d h s
  | .regionSend sq d h => Sys2Proof.Machine.execRegionSend sq d h s
  | .tableLearn sq d => Sys2Proof.Machine.execTableLearn sq d s
  | .tableRemove sq d => Sys2Proof.Machine.execTableRemove sq d s
  | .lpmInsert sq d => Sys2Proof.Machine.execLpmInsert sq d s
  | .lpmDelete sq d => Sys2Proof.Machine.execLpmDelete sq d s
  | .shadowAudit sq d h => Sys2Proof.Machine.execShadowAudit sq d h s
  | .dmaCopy sq d srcList dstList => Sys2Proof.Machine.execDmaCopy sq d srcList dstList s
  | .timeSet sq d => Sys2Proof.Machine.execTimeSet sq d s
  | .launchAt sq d => Sys2Proof.Machine.execLaunchAt sq d s
  | .proxyStart sq d => Sys2Proof.Machine.execProxyStart sq d s
  | .proxyStop sq d => Sys2Proof.Machine.execProxyStop sq d s
  | .latencyTolerance sq d => Sys2Proof.Machine.execLatencyTolerance sq d s
  | .nvmStore sq d => Sys2Proof.Machine.execNvmStore sq d s
  | .firmwareStage sq d h => Sys2Proof.Machine.execFirmwareStage sq d h s
  | .firmwareActivate sq d => Sys2Proof.Machine.execFirmwareActivate sq d s
  | .tallySnapshot sq d => Sys2Proof.Machine.execTallySnapshot sq d s
  | .traceConfig sq d => Sys2Proof.Machine.execTraceConfig sq d s
  | .frameBoundary k => Sys2Proof.Machine.execFrameBoundary k s
  | .launchTallySnapshot k => Sys2Proof.Machine.execLaunchTallySnapshot k s
  | .decodeStart k => Sys2Proof.Machine.execDecodeStart k s
  | .compositionStart k => Sys2Proof.Machine.execCompositionStart k s
  | .encoderStripeStart k mm => Sys2Proof.Machine.execEncoderStripeStart k mm s
  | .droverMapListStart k => Sys2Proof.Machine.execDroverMapListStart k s
  | .seamStripSend k => Sys2Proof.Machine.execSeamStripSend k s
  | .beacon k => Sys2Proof.Machine.execBeacon k s
  | .present k => Sys2Proof.Machine.execPresent k s
  | .blank k => Sys2Proof.Machine.execBlank k s
  | .releaseBlank c => Sys2Proof.Machine.execReleaseBlank c s
  | .messageRelease k => Sys2Proof.Machine.execMessageRelease k s
  | .hostInterrupt k => Sys2Proof.Machine.execHostInterrupt k s
  | .periodicBeacon p => Sys2Proof.Machine.execPeriodicBeacon p s
  | .launchTickReached c => Sys2Proof.Machine.execLaunchTickReached c s
  | .unitFetchResume st => Sys2Proof.Machine.execUnitFetchResume st s
  | .auFetchComplete st h info => Sys2Proof.Machine.execAuFetchComplete st h info s
  | .pictureDecodeDone st o => Sys2Proof.Machine.execPictureDecodeDone st o s
  | .repairDone core => Sys2Proof.Machine.execRepairDone core s
  | .rawFetchResume st => Sys2Proof.Machine.execRawFetchResume st s
  | .rawFetchDone st h => Sys2Proof.Machine.execRawFetchDone st h s
  | .paddockRowWritten c row poisoned => Sys2Proof.Machine.execPaddockRowWritten c row poisoned s
  | .overrunStepBegin k => Sys2Proof.Machine.execOverrunStepBegin k s
  | .granuleClaimGrant core mm => Sys2Proof.Machine.execGranuleClaimGrant core mm s
  | .stripeComplete core poisonCols mismatch => Sys2Proof.Machine.execStripeComplete core poisonCols mismatch s
  | .copyDone core => Sys2Proof.Machine.execCopyDone core s
  | .droverMicroword dr ev => Sys2Proof.Machine.execDroverMicroword dr ev s
  | .stallRelease dr => Sys2Proof.Machine.execStallRelease dr s
  | .learningLookupReturn dr => Sys2Proof.Machine.execLearningLookupReturn dr s
  | .droverReloadDone dr => Sys2Proof.Machine.execDroverReloadDone dr s
  | .frameTxEnd p parity => Sys2Proof.Machine.execFrameTxEnd p parity s
  | .shaperTokensReady p q => Sys2Proof.Machine.execShaperTokensReady p q s
  | .ageDrop p q => Sys2Proof.Machine.execAgeDrop p q s
  | .egressLinkUp p => Sys2Proof.Machine.execEgressLinkUp p s
  | .egressLinkDown p lock align => Sys2Proof.Machine.execEgressLinkDown p lock align s
  | .egressDelayReqReceive p frame age => Sys2Proof.Machine.execEgressDelayReqReceive p frame age s
  | .delayReqWindowReset p => Sys2Proof.Machine.execDelayReqWindowReset p s
  | .telemetryReceive p frame => Sys2Proof.Machine.execTelemetryReceive p frame s
  | .rxFrameDiscard p frame fcsOk fecUncorr => Sys2Proof.Machine.execRxFrameDiscard p frame fcsOk fecUncorr s
  | .driftStale slot => Sys2Proof.Machine.execDriftStale slot s
  | .poolAllocGrant h => Sys2Proof.Machine.execPoolAllocGrant h s
  | .poolCacheRefill pool => Sys2Proof.Machine.execPoolCacheRefill pool s
  | .poolCacheSpill pool => Sys2Proof.Machine.execPoolCacheSpill pool s
  | .learnEventApply => Sys2Proof.Machine.execLearnEventApply s
  | .ageSweepVisit => Sys2Proof.Machine.execAgeSweepVisit s
  | .learnNoticeReceive e bytes => Sys2Proof.Machine.execLearnNoticeReceive e bytes s
  | .tableEccError err => Sys2Proof.Machine.execTableEccError err s
  | .trieNodeRebuild stage node => Sys2Proof.Machine.execTrieNodeRebuild stage node s
  | .announceSend => Sys2Proof.Machine.execAnnounceSend s
  | .syncSend => Sys2Proof.Machine.execSyncSend s
  | .peerDelayReqSend e => Sys2Proof.Machine.execPeerDelayReqSend e s
  | .announceReceive e bytes => Sys2Proof.Machine.execAnnounceReceive e bytes s
  | .syncReceive e bytes residence => Sys2Proof.Machine.execSyncReceive e bytes residence s
  | .peerDelayReqReceive e bytes turn => Sys2Proof.Machine.execPeerDelayReqReceive e bytes turn s
  | .peerDelayRespReceive e bytes => Sys2Proof.Machine.execPeerDelayRespReceive e bytes s
  | .seamFrameReceive e bytes => Sys2Proof.Machine.execSeamFrameReceive e bytes s
  | .announceAgeOut m => Sys2Proof.Machine.execAnnounceAgeOut m s
  | .syncLossTimeout => Sys2Proof.Machine.execSyncLossTimeout s
  | .holdoverTimeout => Sys2Proof.Machine.execHoldoverTimeout s
  | .peerSilenceTimeout e => Sys2Proof.Machine.execPeerSilenceTimeout e s
  | .peerLinkUp e => Sys2Proof.Machine.execPeerLinkUp e s
  | .peerLinkDown e lanes fec fecUncorr => Sys2Proof.Machine.execPeerLinkDown e lanes fec fecUncorr s
  | .flitReceive flit fecUncorr => Sys2Proof.Machine.execFlitReceive flit fecUncorr s
  | .replayTimeout => Sys2Proof.Machine.execReplayTimeout s
  | .mgmtTimeout => Sys2Proof.Machine.execMgmtTimeout s
  | .linkSignalDetect signal locked => Sys2Proof.Machine.execLinkSignalDetect signal locked s
  | .trainComplete => Sys2Proof.Machine.execTrainComplete s
  | .trainTimeout => Sys2Proof.Machine.execTrainTimeout s
  | .recoveryEntry => Sys2Proof.Machine.execRecoveryEntry s
  | .recoveryComplete lanes => Sys2Proof.Machine.execRecoveryComplete lanes s
  | .recoveryTimeout => Sys2Proof.Machine.execRecoveryTimeout s
  | .linkMrdReceive tag addr len => Sys2Proof.Machine.execLinkMrdReceive tag addr len s
  | .linkMwrReceive addr bytes => Sys2Proof.Machine.execLinkMwrReceive addr bytes s
  | .linkCplReceive tag status last off bytes => Sys2Proof.Machine.execLinkCplReceive tag status last off bytes s
  | .cplTimeout tag => Sys2Proof.Machine.execCplTimeout tag s
  | .tagQuarantineEnd tag => Sys2Proof.Machine.execTagQuarantineEnd tag s
  | .sqTailDb r v => Sys2Proof.Machine.execSqTailDb r v s
  | .cqHeadDb r v => Sys2Proof.Machine.execCqHeadDb r v s
  | .descriptorFetch => Sys2Proof.Machine.execDescriptorFetch s
  | .submitHoldRelease r => Sys2Proof.Machine.execSubmitHoldRelease r s
  | .fenceRelease r => Sys2Proof.Machine.execFenceRelease r s
  | .completionWaitEnd r => Sys2Proof.Machine.execCompletionWaitEnd r s
  | .cqCoalTimeout r => Sys2Proof.Machine.execCqCoalTimeout r s
  | .heldMessageTimeout sq cid => Sys2Proof.Machine.execHeldMessageTimeout sq cid s
  | .claim t => Sys2Proof.Machine.execClaim t s
  | .complete t v => Sys2Proof.Machine.execComplete t v s
  | .intpendWrite k v => Sys2Proof.Machine.execIntpendWrite k v s
  | .srcCfgWrite src v => Sys2Proof.Machine.execSrcCfgWrite src v s
  | .unitFaultDetect f => Sys2Proof.Machine.execUnitFaultDetect f s
  | .sheepdogExpiry g => Sys2Proof.Machine.execSheepdogExpiry g s
  | .l3RestartDone pd => Sys2Proof.Machine.execL3RestartDone pd s
  | .fltack a v => Sys2Proof.Machine.execFltack a v s
  | .fltInject v => Sys2Proof.Machine.execFltInject v s
  | .ccHeartbeatMiss core => Sys2Proof.Machine.execCcHeartbeatMiss core s
  | .moduleRestart cause => Sys2Proof.Machine.execModuleRestart cause s
  | .dramTrainingDone sweeps => Sys2Proof.Machine.execDramTrainingDone sweeps s
  | .allBankRefresh ch drift0 drift1 => Sys2Proof.Machine.execAllBankRefresh ch drift0 drift1 s
  | .mr4Poll ch hot => Sys2Proof.Machine.execMr4Poll ch hot s
  | .arbiterDecision ch reqs => Sys2Proof.Machine.execArbiterDecision ch reqs s
  | .burstBreakPoint ch reqs => Sys2Proof.Machine.execBurstBreakPoint ch reqs s
  | .burstComplete ch op => Sys2Proof.Machine.execBurstComplete ch op s
  | .patrolRead linkEcc errs => Sys2Proof.Machine.execPatrolRead linkEcc errs s
  | .memPortRankWrite a v => Sys2Proof.Machine.execMemPortRankWrite a v s
  | .memPortWaitRead a => Sys2Proof.Machine.execMemPortWaitRead a s
  | .dmaChannelFree n => Sys2Proof.Machine.execDmaChannelFree n s
  | .powerGood => Sys2Proof.Machine.execPowerGood s
  | .powerGoodFall => Sys2Proof.Machine.execPowerGoodFall s
  | .clkinCountEnd ftmLow => Sys2Proof.Machine.execClkinCountEnd ftmLow s
  | .pllLock imageOk => Sys2Proof.Machine.execPllLock imageOk s
  | .clkinLoss => Sys2Proof.Machine.execClkinLoss s
  | .clkinReturn => Sys2Proof.Machine.execClkinReturn s
  | .resetnLow => Sys2Proof.Machine.execResetnLow s
  | .resetnRise => Sys2Proof.Machine.execResetnRise s
  | .startupComplete failed => Sys2Proof.Machine.execStartupComplete failed s
  | .domainGapEntry pd => Sys2Proof.Machine.execDomainGapEntry pd s
  | .domainWakeStart pd => Sys2Proof.Machine.execDomainWakeStart pd s
  | .domainEntryDone pd => Sys2Proof.Machine.execDomainEntryDone pd s
  | .domainWakeDone pd => Sys2Proof.Machine.execDomainWakeDone pd s
  | .pdForceOnWrite hi v => Sys2Proof.Machine.execPdForceOnWrite hi v s
  | .dieSensorSample temps => Sys2Proof.Machine.execDieSensorSample temps s
  | .tempStopHalt => Sys2Proof.Machine.execTempStopHalt s
  | .trefSample v => Sys2Proof.Machine.execTrefSample v s
  | .peakAllowanceUpdate => Sys2Proof.Machine.execPeakAllowanceUpdate s
  | .fanFail fan => Sys2Proof.Machine.execFanFail fan s
  | .nvmStoreDone readBackOk => Sys2Proof.Machine.execNvmStoreDone readBackOk s
  | .firmwareStageDone readBackOk => Sys2Proof.Machine.execFirmwareStageDone readBackOk s
  | .trimApply trim => Sys2Proof.Machine.execTrimApply trim s
  | .proxyCaptureStart => Sys2Proof.Machine.execProxyCaptureStart s
  | .proxyAuDone => Sys2Proof.Machine.execProxyAuDone s
  | .proxyStopDone => Sys2Proof.Machine.execProxyStopDone s
  | .readCfg => Sys2Proof.Machine.execReadCfg s
  | .writeCfg => Sys2Proof.Machine.execWriteCfg s
  | .readState => Sys2Proof.Machine.execReadState s
  | .sclData3Write a v => Sys2Proof.Machine.execSclData3Write a v s
  | .prxLutDataWrite a v => Sys2Proof.Machine.execPrxLutDataWrite a v s
  | .tblSelWrite a v => Sys2Proof.Machine.execTblSelWrite a v s
  | .loRegisterRead a addr => Sys2Proof.Machine.execLoRegisterRead a addr s
  | .retrain => Sys2Proof.Machine.execRetrain s
  | .linkCfgWrite v => Sys2Proof.Machine.execLinkCfgWrite v s
  | .sqCfgWrite a v => Sys2Proof.Machine.execSqCfgWrite a v s
  | .cqCfgWrite a v => Sys2Proof.Machine.execCqCfgWrite a v s
  | .canvasSizeWrite v => Sys2Proof.Machine.execCanvasSizeWrite v s
  | .egPortCfgWrite p v => Sys2Proof.Machine.execEgPortCfgWrite p v s
  | .foldCfgWrite v => Sys2Proof.Machine.execFoldCfgWrite v s
  | .ckoutCfgWrite v => Sys2Proof.Machine.execCkoutCfgWrite v s
  | .registerWrite a addr v => Sys2Proof.Machine.execRegisterWrite a addr v s
  | .flitSlot => Sys2Proof.Machine.execFlitSlot s
  | .schedAccDone => Sys2Proof.Machine.execSchedAccDone s
  | .shadowAuditDone => Sys2Proof.Machine.execShadowAuditDone s
  | .addNoticeSpreadSend => Sys2Proof.Machine.execAddNoticeSpreadSend s
  | .patrolIntervalEnd => Sys2Proof.Machine.execPatrolIntervalEnd s
  | .mainsLoss => Sys2Proof.Machine.execMainsLoss s
  | .mainsReturn => Sys2Proof.Machine.execMainsReturn s
  | .plugInModuleInserted cage classMw => Sys2Proof.Machine.execPlugInModuleInserted cage classMw s
  | .plugInModuleRemoved cage => Sys2Proof.Machine.execPlugInModuleRemoved cage s

end Sys2Proof.Machine
end

