-- ==== Sys2Proof/Machine/Tick.lean ====
section
/-! DEFINITION. One tick of the wall-time clock (R17, R35) and the level tallies of its clocks (R487). -/

namespace Sys2Proof.Machine

/-- R35: the slew of one tick, at most 2^-12 tick either way, in 2^-16 tick. -/
def slewStep (w : WallTime) : Int := clip (-16) 16 w.slew

/-- R17, R35: `WALLTIME` and its fraction advance by one tick and the slew of one tick. -/
def wallTick (w : WallTime) : WallTime :=
  let d := slewStep w
  let t : Int := (w.wall.toNat : Int) * 65536 + w.frac.toNat + 65536 + d
  { w with prev := w.wall, wall := BitVec.ofInt 64 (t / 65536), frac := BitVec.ofInt 16 (t % 65536), slew := w.slew - d }

/-- A burst of rank r waits at a channel (R421). -/
def rankWaits (s : State) (r : Nat) : Bool := s.mem.channels.any fun c => c.2.queue.any fun q => rankOf s q == r

/-- R487: the level tallies: 8 engine or fabric clocks of 1.28 GHz pass in a tick. -/
def levelTallies (s : State) : State :=
  let s1 := (List.range 4).foldl (fun t r => if rankWaits s r then tallyAdd t (986 + r) 8 else t) s
  s.drovers.foldl (fun t d => if d.2.act = .stall then tallyAdd t (512 + 8 * d.1 + 2) 8 else t) s1

/-- A tick: the model's own clock advances; while the PLLs are locked the wall-time clock and the level tallies do, too
(R468), and `READY` follows its conditions (R367). Everything else that happens at a time is a command of its own (entry 2 of the log). -/
def tick (s : State) : State :=
  let s1 : State := if s.pwr.pllLocked then levelTallies (s.modWt wallTick) else s
  readyFollow (s1.modWt fun w => { w with now := w.now + 1 })

end Sys2Proof.Machine
end

