-- ==== Sys2Proof/WellFormed.lean ====
section
/-! DEFINITION. Well-formed commands: what an operand must be beside its type for the command to be one that the hardware
can meet. The meanings are total and do not rest on it; a command that is not well-formed is no command of the spec. -/

namespace Sys2Proof

/-- A received Ethernet frame without its FCS: at least a header and at most 9,212 B (R256: 9,216 with FCS). -/
def frameOk (f : List Byte) : Bool := decide (14 ≤ f.length) && decide (f.length ≤ 9212)

/-- A fold frame is at least its common header of 12 bytes (Table 2-3). -/
def foldOk (bs : List Byte) : Bool := decide (12 ≤ bs.length)

/-- A port uses only the ranks of its traffic (Tables 1-5, 16-2); ports 45 and 46 take theirs from `MEM_PORT_RANK`. -/
def rankOk (p r : Nat) : Bool :=
  if p < 16 then decide (r ≤ 1) else if p < 45 then decide (r = 0) else decide (p < 47) || decide (1 ≤ r)

/-- A request of at least one burst, at a rank of its port. -/
def reqOk (r : MemReq) : Bool := decide (1 ≤ r.bursts) && rankOk r.port.val r.rank.val

/-- Bursts address the 56 GiB of device memory (R401); a write keeps within a codeword of 64 bytes. -/
def burstOk : BurstOp → Bool
  | .read a _ _ => decide (a < 0xE00000000)
  | .write a _ bs _ => decide (a < 0xE00000000) && decide (a % 64 + bs.length ≤ 64)

/-- A decoded picture has a listed chroma format and depth (Table 4-1). -/
def outcomeOk (o : DecOutcome) : Bool := decide (o.chroma < 4) && [8, 10, 12].contains o.depth

/-- A stream record has a listed chroma format, a size and a layer. -/
def cfgOk : CfgParse → Bool
  | .malformed => true
  | .ok r => decide (r.chroma < 4) && decide (0 < r.width) && decide (0 < r.height) && decide (0 < r.layers)

/-- A node of trie stage 1 to 4 is named by the 0, 8, 16 or 24 address bits that lead to it (R333, Table 13-3). -/
def nodeOk (stage : Fin 4) (i : Nat) : Bool := decide (i < 256 ^ stage.val)

/-- A table error names an entry or a node that exists. -/
def tblErrOk : TblErr → Bool
  | .corrected => true
  | .entry _ => true
  | .node st i => nodeOk st i

/-- The check, one arm per command. -/
def Instr.wf : Instr → Bool
  | .nop .. => true
  | .streamOpen _ _ _ cfg => cfgOk cfg
  | .streamClose .. => true
  | .auSubmit .. => true
  | .rawFrameSubmit .. => true
  | .rawSliceSubmit .. => true
  | .contractPropose .. => true
  | .contractCommit .. => true
  | .contractCommitAccept .. => true
  | .contractRelease .. => true
  | .layoutUpdate .. => true
  | .coefLoad .. => true
  | .driftTableLoad .. => true
  | .curveLoad .. => true
  | .mapLoad .. => true
  | .ucodeLoad .. => true
  | .endpointSend .. => true
  | .regionSend .. => true
  | .tableLearn .. => true
  | .tableRemove .. => true
  | .lpmInsert .. => true
  | .lpmDelete .. => true
  | .shadowAudit .. => true
  | .dmaCopy .. => true
  | .timeSet .. => true
  | .launchAt .. => true
  | .proxyStart .. => true
  | .proxyStop .. => true
  | .latencyTolerance .. => true
  | .nvmStore .. => true
  | .firmwareStage .. => true
  | .firmwareActivate .. => true
  | .tallySnapshot .. => true
  | .traceConfig .. => true
  | .frameBoundary .. => true
  | .launchTallySnapshot .. => true
  | .decodeStart .. => true
  | .compositionStart .. => true
  | .encoderStripeStart .. => true
  | .droverMapListStart .. => true
  | .seamStripSend .. => true
  | .beacon .. => true
  | .present .. => true
  | .blank .. => true
  | .releaseBlank .. => true
  | .messageRelease .. => true
  | .hostInterrupt .. => true
  | .periodicBeacon .. => true
  | .launchTickReached .. => true
  | .unitFetchResume .. => true
  | .auFetchComplete .. => true
  | .pictureDecodeDone _ o => outcomeOk o
  | .repairDone .. => true
  | .rawFetchResume .. => true
  | .rawFetchDone .. => true
  | .paddockRowWritten .. => true
  | .overrunStepBegin .. => true
  | .granuleClaimGrant .. => true
  | .stripeComplete .. => true
  | .copyDone .. => true
  | .droverMicroword .. => true
  | .stallRelease .. => true
  | .learningLookupReturn .. => true
  | .droverReloadDone .. => true
  | .frameTxEnd .. => true
  | .shaperTokensReady .. => true
  | .ageDrop .. => true
  | .egressLinkUp .. => true
  | .egressLinkDown .. => true
  | .egressDelayReqReceive _ f _ => frameOk f
  | .delayReqWindowReset .. => true
  | .telemetryReceive _ f => frameOk f
  | .rxFrameDiscard _ f _ _ => frameOk f
  | .driftStale .. => true
  | .poolAllocGrant .. => true
  | .poolCacheRefill .. => true
  | .poolCacheSpill .. => true
  | .learnEventApply .. => true
  | .ageSweepVisit .. => true
  | .learnNoticeReceive _ bs => foldOk bs
  | .tableEccError e => tblErrOk e
  | .trieNodeRebuild st i => nodeOk st i
  | .announceSend .. => true
  | .syncSend .. => true
  | .peerDelayReqSend .. => true
  | .announceReceive _ bs => foldOk bs
  | .syncReceive _ bs _ => foldOk bs
  | .peerDelayReqReceive _ bs _ => foldOk bs
  | .peerDelayRespReceive _ bs => foldOk bs
  | .seamFrameReceive _ bs => foldOk bs
  | .announceAgeOut .. => true
  | .syncLossTimeout .. => true
  | .holdoverTimeout .. => true
  | .peerSilenceTimeout .. => true
  | .peerLinkUp .. => true
  | .peerLinkDown .. => true
  | .flitReceive f _ => f.length == 256
  | .replayTimeout .. => true
  | .mgmtTimeout .. => true
  | .linkSignalDetect .. => true
  | .trainComplete .. => true
  | .trainTimeout .. => true
  | .recoveryEntry .. => true
  | .recoveryComplete .. => true
  | .recoveryTimeout .. => true
  | .linkMrdReceive .. => true
  | .linkMwrReceive _ bs => decide (bs.length < 65536)
  | .linkCplReceive _ _ _ _ bs => decide (bs.length < 65536)
  | .cplTimeout .. => true
  | .tagQuarantineEnd .. => true
  | .sqTailDb .. => true
  | .cqHeadDb .. => true
  | .descriptorFetch .. => true
  | .submitHoldRelease .. => true
  | .fenceRelease .. => true
  | .completionWaitEnd .. => true
  | .cqCoalTimeout .. => true
  | .heldMessageTimeout .. => true
  | .claim .. => true
  | .complete .. => true
  | .intpendWrite .. => true
  | .srcCfgWrite .. => true
  | .unitFaultDetect .. => true
  | .sheepdogExpiry .. => true
  | .l3RestartDone .. => true
  | .fltack .. => true
  | .fltInject .. => true
  | .ccHeartbeatMiss .. => true
  | .moduleRestart .. => true
  | .dramTrainingDone ws => ws.length == 32
  | .allBankRefresh .. => true
  | .mr4Poll .. => true
  | .arbiterDecision _ rs => rs.all reqOk
  | .burstBreakPoint _ rs => rs.all reqOk
  | .burstComplete _ op => burstOk op
  | .patrolRead .. => true
  | .memPortRankWrite .. => true
  | .memPortWaitRead .. => true
  | .dmaChannelFree .. => true
  | .powerGood .. => true
  | .powerGoodFall .. => true
  | .clkinCountEnd .. => true
  | .pllLock .. => true
  | .clkinLoss .. => true
  | .clkinReturn .. => true
  | .resetnLow .. => true
  | .resetnRise .. => true
  | .startupComplete ts => decide ts.Nodup
  | .domainGapEntry .. => true
  | .domainWakeStart .. => true
  | .domainEntryDone .. => true
  | .domainWakeDone .. => true
  | .pdForceOnWrite .. => true
  | .dieSensorSample ts => ts.length == 24
  | .tempStopHalt .. => true
  | .trefSample .. => true
  | .peakAllowanceUpdate .. => true
  | .fanFail .. => true
  | .nvmStoreDone .. => true
  | .firmwareStageDone .. => true
  | .trimApply .. => true
  | .proxyCaptureStart .. => true
  | .proxyAuDone => true
  | .proxyStopDone .. => true
  | .readCfg .. => true
  | .writeCfg .. => true
  | .readState .. => true
  | .sclData3Write .. => true
  | .prxLutDataWrite .. => true
  | .tblSelWrite .. => true
  | .loRegisterRead .. => true
  | .retrain .. => true
  | .linkCfgWrite .. => true
  | .sqCfgWrite .. => true
  | .cqCfgWrite .. => true
  | .canvasSizeWrite .. => true
  | .egPortCfgWrite .. => true
  | .foldCfgWrite .. => true
  | .ckoutCfgWrite .. => true
  | .registerWrite .. => true
  | .flitSlot .. => true
  | .schedAccDone .. => true
  | .shadowAuditDone .. => true
  | .addNoticeSpreadSend .. => true
  | .patrolIntervalEnd .. => true
  | .mainsLoss .. => true
  | .mainsReturn .. => true
  | .plugInModuleInserted .. => true
  | .plugInModuleRemoved .. => true

end Sys2Proof
end

