-- ==== Sys2Proof/Safety.lean ====
section
/-! DEFINITION. What counts as a sound state and a safe run of the module. -/

namespace Sys2Proof.Machine

/-- Device memory is in its canonical form: addresses strictly rising, no listed byte equal to what an unlisted address
reads as. -/
def Memory.wf (s : State) : Bool := mwf 0 s.mem.dram

/-- Every waiting command is well-formed. -/
def State.queueWf (s : State) : Bool := s.pending.all Instr.wf

/-- A sound state. -/
def State.Inv (s : State) : Prop := Memory.wf s = true ∧ s.queueWf = true

/-- A step is safe: it ends neither in a fault nor in a refusal. -/
def StepSafe (s : State) : Prop := ∃ t, step s = .next t

/-- The descriptor command of a ring starts: the module serves commands and `startCmd` gives the command's tag (R381). -/
def Starts (s : State) (sq : Fin 1024) (d : Desc) (ref : CmdRef) (t : State) : Prop :=
  s.serving = true ∧ startCmd s sq.val d = .go ref t

/-- Launch slot k fires now with action a, and `l` is the slot as its step sees it (R13, R22, R25). -/
def Fires (s : State) (k : Fin 8192) (a : Nat) (l : LSlot) : Prop :=
  s.serving = true ∧ firesNow s k.val = true ∧ (s.slot k.val).action = a
    ∧ l = { s.slot k.val with unit := unitFor (s.slot k.val) (s.slot k.val).next }

/-- A time message of a type on peer port e that the module takes (R29): the fold is enabled, the link is up, the frame's
version, fold and CRC are right. -/
def TimeMsgOk (s : State) (e : Nat) (bs : List Byte) (type : Nat) : Prop :=
  foldEn s = true ∧ (s.peer e).linkUp = true ∧ foldFrameOk s 64 bs = true ∧ u8 bs 0 = type ∧ u8 bs 2 < 16

/-- The state after the receipt of a time message has been noted (Table 2-12). -/
def heardNow (s : State) (e : Nat) : State := modPeerTime s e fun p => { p with lastHeard := some s.wt.now }

end Sys2Proof.Machine
end

