-- ==== Sys2Proof/Certificates/Slice0/Obligations.lean ====
section
/-! DEFINITION. The statements for the provers. Each docstring names the rules of the spec that it formalises. -/

open Sys2Proof Sys2Proof.Machine

/-! ## The queue and the whole machine -/

/-- A step takes the command at the front of the queue and answers what the command's meaning answers on the state with the
queue's rest. -/
def Obligations.StepRunsTheFrontCommand : Prop :=
  ∀ (c : Instr) (rest : List Instr) (s : State), s.pending = c :: rest → step s = exec c { s with pending := rest }

/-- On an empty queue one tick of the 160 MHz clock passes (the model's choice, log entry 2): the model's clock advances by
one, and while the PLLs are locked `WALLTIME` and its fraction advance by one tick and the slew of one tick, which is at most
2^-12 tick either way (R17, R35). -/
def Obligations.EmptyQueueIsOneTick : Prop :=
  ∀ s : State, s.pending = [] → ∃ t, step s = .next t ∧ t.wt.now = s.wt.now + 1 ∧ t.pending = [] ∧ t.regs = s.regs
    ∧ t.mem = s.mem ∧ t.contracts = s.contracts
    ∧ (s.pwr.pllLocked = false → t.wt.wall = s.wt.wall ∧ t.wt.frac = s.wt.frac)
    ∧ (s.pwr.pllLocked = true → -16 ≤ s.wt.slew → s.wt.slew ≤ 16 → s.wt.wall.toNat + 2 < 2 ^ 64 →
        t.wt.slew = 0 ∧ (t.wt.wall.toNat : Int) * 65536 + t.wt.frac.toNat
          = (s.wt.wall.toNat : Int) * 65536 + s.wt.frac.toNat + 65536 + s.wt.slew)

/-- Every step keeps a sound state sound: device memory stays in its canonical form and every waiting command stays
well-formed. -/
def Obligations.StepKeepsSound : Prop := ∀ s t : State, s.Inv → step s = .next t → t.Inv

/-- The state right after reset is sound, and nothing waits.
What reset leaves in registers of the blocks of the window (Table 22-2), read by the host; those of a domain that is not ON read 0
until it is (R7, R463). -/
def Obligations.ResetIsSound : Prop :=
  (State.reset.Inv ∧ State.reset.pending = [])
  ∧ ((∀ p ∈ [(0x027_0000, 0x400), (0x027_0010, 0xFFFFFFFF)], readValue State.reset .host p.1 = 0#32
    ∧ readValue (State.reset.modDomain 63 fun x => { x with state := .on }) .host p.1 = BitVec.ofNat 32 p.2)
  ∧ ∀ p ∈ [(0x000_0000, 0x7200), (0x000_0040, 0x546), (0x000_0044, 0x1D4C0), (0x001_0010, 100), (0x002_0000, 0xF000),
      (0x003_0000, 0x1000), (0x003_0200, 0xFFFFFFFE), (0x003_0204, 0xFFFFFFFF), (0x003_0288, 0), (0x004_0008, 2000),
      (0x005_000C, 2), (0x005_0014, 0x10000), (0x005_001C, 1000), (0x007_0000, 0x8000), (0x007_0024, 1),
      (0x007_0028, 0x80000000)],
    readValue State.reset .host p.1 = BitVec.ofNat 32 p.2)

/-- No command ends in a fault or a refusal: every command has an effect in every state. Commands neither add to the queue nor take from
it, time passes in ticks alone, and every command keeps the canonical form of device memory. -/
def Obligations.CommandsAnswerNextAndKeepQueueAndClock : Prop :=
  ∀ (c : Instr) (s : State), ∃ t, exec c s = .next t ∧ t.pending = s.pending ∧ t.wt.now = s.wt.now
    ∧ (Memory.wf s = true → Memory.wf t = true)

/-! ## Starting and completing a command -/

/-- R381, R382: a command whose descriptor no fetch brought, that needs no fence and finds its place, starts and is in flight;
one that a fetch brought starts only when it is the first of those fetched. The ring, the completion ring and the tag are those
of the descriptor and its ring.
R384, R390: a descriptor command whose opcode, flags or tag is not one of Table 15-2 completes with `INVALID_FIELD` and has
no other effect.
R472, R529: while the module does not serve commands, a descriptor command has no effect. -/
def Obligations.DescriptorStartsOrIsRejected : Prop :=
  (∀ (s : State) (sq : Nat) (d : Desc),
    ((s.rings.fetched.all fun f => !(f.sq == sq && f.d == d)) = true → submitFits s d = true → dFence d = false →
      ∃ t, startCmd s sq d = .go (cmdRef sq (sqCqOf (s.sq sq)) s.wt.now d) t
        ∧ t = s.modRings (fun x => { x with inflight := x.inflight ++ [cmdRef sq (sqCqOf (s.sq sq)) s.wt.now d] }))
    ∧ (∀ f fs, s.rings.fetched = f :: fs → f.sq = sq → f.d = d → dFence d = false →
      ∃ t, startCmd s sq d = .go (cmdRef sq f.cq f.at_ d) t ∧ t = s.modRings (fun x => { x with fetched := fs }))
    ∧ (∀ f fs, s.rings.fetched = f :: fs → (f.sq ≠ sq ∨ f.d ≠ d) → (fs.any fun g => g.sq == sq && g.d == d) = true →
      ∃ t, startCmd s sq d = .notYet t ∧ t = s))
  ∧ (∀ (sq : Fin 1024) (d : Desc) (s t : State) (ref : CmdRef) (h h2 : HostData) (cfg : CfgParse) (mm : BitVec 32) (bw : BitVec 14),
    Starts s sq d ref t →
    ∀ p ∈ [(Instr.nop sq d, 0x01), (.streamOpen sq d h cfg, 0x02), (.streamClose sq d, 0x03), (.auSubmit sq d, 0x04),
        (.rawFrameSubmit sq d, 0x05), (.rawSliceSubmit sq d, 0x06), (.contractPropose sq d h, 0x10), (.contractCommit sq d, 0x11),
        (.contractRelease sq d, 0x12), (.layoutUpdate sq d h, 0x13), (.coefLoad sq d h, 0x18), (.driftTableLoad sq d h, 0x19),
        (.curveLoad sq d h, 0x1A), (.mapLoad sq d h, 0x20), (.ucodeLoad sq d h mm bw, 0x21), (.endpointSend sq d h, 0x28),
        (.regionSend sq d h, 0x29), (.tableLearn sq d, 0x30), (.tableRemove sq d, 0x31), (.lpmInsert sq d, 0x32),
        (.lpmDelete sq d, 0x33), (.shadowAudit sq d h, 0x34), (.dmaCopy sq d h h2, 0x38), (.timeSet sq d, 0x40),
        (.launchAt sq d, 0x41), (.proxyStart sq d, 0x48), (.proxyStop sq d, 0x49), (.latencyTolerance sq d, 0x50),
        (.nvmStore sq d, 0x58), (.firmwareStage sq d h, 0x59), (.firmwareActivate sq d, 0x5A), (.tallySnapshot sq d, 0x60),
        (.traceConfig sq d, 0x61)],
      (dOpc d ≠ p.2 ∨ 4 ≤ descFld d 1 1 ∨ dCid d = 0xFFFF) → exec p.1 s = .next (completeWith t ref St.invalidField))
  ∧ (∀ (sq : Fin 1024) (d : Desc) (s : State) (h h2 : HostData) (cfg : CfgParse) (mm : BitVec 32) (bw : BitVec 14), s.serving = false →
    ∀ c ∈ [Instr.nop sq d, .streamOpen sq d h cfg, .streamClose sq d, .auSubmit sq d, .rawFrameSubmit sq d, .rawSliceSubmit sq d,
        .contractPropose sq d h, .contractCommit sq d, .contractRelease sq d, .layoutUpdate sq d h, .coefLoad sq d h,
        .driftTableLoad sq d h, .curveLoad sq d h, .mapLoad sq d h, .ucodeLoad sq d h mm bw, .endpointSend sq d h, .regionSend sq d h,
        .tableLearn sq d, .tableRemove sq d, .lpmInsert sq d, .lpmDelete sq d, .shadowAudit sq d h, .dmaCopy sq d h h2, .timeSet sq d,
        .launchAt sq d, .proxyStart sq d, .proxyStop sq d, .latencyTolerance sq d, .nvmStore sq d, .firmwareStage sq d h,
        .firmwareActivate sq d, .tallySnapshot sq d, .traceConfig sq d], exec c s = .next s)

/-- R377, R378, R379: a completion that finds room and nothing of its ring waiting is written as one 32-byte MWR at the ring's
tail with the phase bit, the tail moves on and the phase turns where it wraps; the command is no longer in flight.
R386: a completion that finds no room waits, its ring shows `FULL` and `RING_STATUS.CQ_FULL` is set; nothing is written to
the host. -/
def Obligations.CompletionsAreWrittenOrWait : Prop :=
  (∀ (s : State) (ref : CmdRef) (status r0 r1 r2 : Nat), s.rings.inflight.contains ref = true → cplOpen s = true →
    cqRoom s ref.cq = true → (s.rings.waiting.any fun k => k.cq == ref.cq) = false → r0 < 2 ^ 64 → r1 < 2 ^ 64 → r2 < 2 ^ 64 →
    let t := complete s ref status r0 r1 r2
    let q := s.cq ref.cq
    t.link.txq = s.link.txq ++ [.mwr (ringBase q.baseLo q.baseHi + 32 * q.tail)
        (leBytes 8 r0 ++ leBytes 8 r1 ++ leBytes 8 r2 ++ leBytes 2 ref.cid ++ leBytes 2 (s.sq ref.sq).fetch
          ++ leBytes 2 ref.sq ++ leBytes 1 status ++ leBytes 1 (128 * b2n q.phase))]
      ∧ (t.cq ref.cq).tail = (q.tail + 1) % ringSize q.cfg
      ∧ (t.cq ref.cq).phase = (if (q.tail + 1) % ringSize q.cfg = 0 then !q.phase else q.phase)
      ∧ t.rings.inflight = s.rings.inflight.erase ref ∧ t.mem = s.mem ∧ t.regs = s.regs ∧ t.contracts = s.contracts
      ∧ t.rings.waiting = s.rings.waiting)
  ∧ (∀ (s : State) (ref : CmdRef) (status r0 r1 r2 : Nat), s.rings.inflight.contains ref = true → cplOpen s = true →
    cqRoom s ref.cq = false → bit (s.cq ref.cq).cfg 31 = true →
    let t := complete s ref status r0 r1 r2
    t.link = s.link ∧ t.rings.waiting.length = s.rings.waiting.length + 1 ∧ t.rings.inflight = s.rings.inflight
      ∧ (t.cq ref.cq).full = true ∧ bit (t.reg Off.ringStatus) 4 = true ∧ t.mem = s.mem ∧ t.contracts = s.contracts)

/-! ## Launch slots and wall time (chapter 2) -/

/-- R22, R25, R524: a launch row whose slot is not due, is preceded by another due slot, or holds another action has no effect.
R22, R25: a slot fires only when it is armed and its tick has come, and then every due slot that Table 2-2 orders before it
has fired: an earlier tick, then the lower action code, then the lower slot number. Slots whose fire ticks the last tick of
`WALLTIME` passed fire on that tick, also where it skipped one of them.
R20, R23, R524, R26: what firing does to the slot. A relative slot goes on to the next frame and stays armed up to n_last; an
absolute one is disarmed and reads `FIRED`, and the `LAUNCH_AT` that armed it completes OK with its fire tick. -/
def Obligations.LaunchRowsWaitAndMoveTheirSlot : Prop :=
  (∀ (k : Fin 8192) (mm : Option (Fin 32)) (s : State), (s.serving = false ∨ firesNow s k.val = false) →
    ∀ c ∈ [Instr.frameBoundary k, .launchTallySnapshot k, .decodeStart k, .compositionStart k, .encoderStripeStart k mm,
        .droverMapListStart k, .seamStripSend k, .beacon k, .present k, .blank k, .messageRelease k, .hostInterrupt k],
      exec c s = .next s)
  ∧ (∀ (s : State) (k : Nat), firesNow s k = true →
    (s.slot k).armed = true ∧ fireTick s (s.slot k) ≤ (s.wallNow : Int)
      ∧ (∀ p ∈ s.wt.slots, slotDue s p.2 = true →
        firedOn s (s.slot k) < firedOn s p.2 ∨ (firedOn s (s.slot k) = firedOn s p.2
          ∧ ((s.slot k).action < p.2.action ∨ ((s.slot k).action = p.2.action ∧ k ≤ p.1))))
      ∧ ∀ l : LSlot, firedOn s l = if fireTick s l ≤ (s.wt.prev.toNat : Int) then fireTick s l else (s.wallNow : Int))
  ∧ (∀ (s : State) (k : Nat), (s.slot k).late = none →
    ((s.slot k).rel = true → (s.slot k).ref = none →
      ((fireSlot s k).slot k).next = (s.slot k).next + 1 ∧ ((s.slot k).moves = [] → fireTick s (s.slot k)
          = (((s.contract (s.slot k).contract).t0 + (s.slot k).next * (s.contract (s.slot k).contract).pnum
              / (s.contract (s.slot k).contract).pden) % 2 ^ 64 : Nat) + (s.slot k).time)
        ∧ ((s.slot k).action = 1 → ((fireSlot s k).slot k).arg = ((s.slot k).next + 1) % 2)
        ∧ ((fireSlot s k).slot k).armed = (match (s.contract (s.slot k).contract).nLast with
            | some n => decide ((s.slot k).next < n)
            | none => true))
    ∧ ((s.slot k).rel = false → ∀ ref, (s.slot k).ref = some ref →
      fireSlot s k = complete (s.modSlot k fun l => { l with armed := false, fired := true, ref := none }) ref St.ok
        (s.slot k).time.toNat 0 0))

/-- Every launch action of Table 2-2: a slot that fires runs the action for its unit, contract and frame. A step that lacks a flag or
a domain when its slot fires waits and is an overrun (R12).
Table 2-2, 0xC: a host-interrupt slot pends the global source its argument names. -/
def Obligations.LaunchActionsRun : Prop :=
  (∀ (k : Fin 8192) (s : State) (l : LSlot),
    (∀ mm : Option (Fin 32), Fires s k 0x5 l → encReady (fireSlot s k.val) l = true →
      exec (.encoderStripeStart k mm) s = .next (encStart (ringMismatch (fireSlot s k.val) l.contract mm) k.val l))
    ∧ (Fires s k 0x1 l → exec (.frameBoundary k) s = .next (boundary (fireSlot s k.val) l.contract l.next))
    ∧ (Fires s k 0x2 l → exec (.launchTallySnapshot k) s = .next (capture (fireSlot s k.val) (l.arg % 4)))
    ∧ (Fires s k 0x8 l → exec (.beacon k) s = .next (emitBeacon (guardDiscard (fireSlot s k.val) l.unit l.contract l.next) l.unit))
    ∧ (Fires s k 0x9 l → exec (.present k) s = .next (present (fireSlot s k.val) l.unit l.contract l.next))
    ∧ (Fires s k 0xA l → exec (.blank k) s = .next (emitBlanks (fireSlot s k.val) (l.unit % 32) (l.arg % 65536) 0 0xFF))
    ∧ (Fires s k 0x3 l → exec (.decodeStart k) s = .next (decodeStartOp (fireSlot s k.val) k.val l))
    ∧ (Fires s k 0x4 l → compReady (fireSlot s k.val) l = true →
      exec (.compositionStart k) s = .next (compBody (fireSlot s k.val) l))
    ∧ (Fires s k 0x4 l → compReady (fireSlot s k.val) l = false →
      exec (.compositionStart k) s = .next (overrun (fireSlot s k.val) k.val l pixOverrun 960))
    ∧ (Fires s k 0x6 l → (fireSlot s k.val).domainOn (drvDomain (l.unit % 32)) = true → exec (.droverMapListStart k) s
      = .next (mapListStart (fireSlot s k.val) (l.unit % 32) l.contract l.next l.arg))
    ∧ (Fires s k 0x7 l → exec (.seamStripSend k) s = .next
      (((frameContract ((fireSlot s k.val).contract l.contract) l.next).layers.zipIdx.filter fun p =>
          p.1.en && p.1.seam / 2 ^ l.unit % 2 == 1).foldl (sendStrip l.contract l.next l.arg l.unit) (fireSlot s k.val)))
    ∧ (Fires s k 0xB l → exec (.messageRelease k) s = .next (releaseMessage (fireSlot s k.val) l.arg)))
  ∧ (∀ (k : Fin 8192) (s : State) (l : LSlot), Fires s k 0xC l → 1 ≤ l.arg → l.arg < 64 → (fireSlot s k.val).intc.svc = 0 →
    ∃ t, exec (.hostInterrupt k) s = .next t ∧ srcBit t.intc.pend l.arg = true ∧ t.regs = (fireSlot s k.val).regs
      ∧ t.mem = (fireSlot s k.val).mem ∧ t.contracts = (fireSlot s k.val).contracts ∧ t.link = (fireSlot s k.val).link)

/-- R18, R19: an accepted `TIME_SET` loads `WALLTIME`, keeps the fraction, and completes OK with the tick at which it took effect;
in the bellwether the next SYNC carries `TIME_STEP`.
R18: `TIME_SET` completes with `STATE_CONFLICT` and has no effect while a contract is COMMITTED, RUNNING or DRAINING, in a
member other than the bellwether, and in a bellwether that has heard `CONTRACT_ACTIVE` within the last 3 ms.
R19, Table 2-12: a step of `WALLTIME` loads the value, sets `WT_STATUS.STEPPED` and disarms every absolute slot. -/
def Obligations.TimeSetLoadsWalltime : Prop :=
  (∀ (sq : Fin 1024) (d : Desc) (s t : State) (ref : CmdRef), Starts s sq d ref t → hdrOk d 0x40 [(16, 8)] = true →
    timeSetConflict t = false →
    exec (.timeSet sq d) s = .next (complete (stepWall (t.modWt fun w => { w with timeStep := w.timeStep || w.role == .bellwether })
      (BitVec.ofNat 64 (descFld d 16 8)) t.wt.frac) ref St.ok t.wallNow 0 0))
  ∧ (∀ (sq : Fin 1024) (d : Desc) (s t : State) (ref : CmdRef), Starts s sq d ref t → hdrOk d 0x40 [(16, 8)] = true →
    ((∃ p ∈ t.contracts, p.2.state = .committed ∨ p.2.state = .running ∨ p.2.state = .draining) ∨ t.wt.role = .member
      ∨ (t.wt.role = .bellwether ∧ ∃ p ∈ t.wt.heard, ∃ h u, p.2 = some h ∧ h.lastActive = some u ∧ t.wt.now ≤ u + 480000)) →
    exec (.timeSet sq d) s = .next (completeWith t ref St.stateConflict))
  ∧ (∀ (s : State) (v : Dword) (f : BitVec 16),
    let t := stepWall s v f
    t.wt.wall = v ∧ t.wt.frac = f ∧ bit (t.reg Off.wtStatus) 0 = true
      ∧ (∀ p ∈ t.wt.slots, p.2.rel = false → p.2.armed = false) ∧ t.mem = s.mem ∧ t.contracts = s.contracts)

/-- R26: a `LAUNCH_AT` whose fire tick is earlier than `WALLTIME` + 1,600 completes with `INVALID_FIELD` and has no effect; otherwise it
arms a free slot of 7,936-8,191, the lowest (which one is the model's choice, log entry 41), and completes when that slot fires, reporting the
fire tick; with every one of those slots armed it completes with `NO_RESOURCE`. -/
def Obligations.LaunchAtArmsASlot : Prop :=
  (∀ (sq : Fin 1024) (d : Desc) (s t : State) (ref : CmdRef), Starts s sq d ref t → hdrOk d 0x41 [(9, 3), (12, 4), (16, 8)] = true →
    launchAtOperands (descFld d 9 1) (descFld d 10 2) (descFld d 12 4) = true →
    (t.wallNow + 1600 ≤ descFld d 16 8 → ∀ k, freeAbsSlot t = some k →
      exec (.launchAt sq d) s = .next (t.modSlot k fun _ =>
        { time := (descFld d 16 8 : Nat), armed := true, unit := descFld d 10 2, action := descFld d 9 1, arg := descFld d 12 4, ref := some ref }))
    ∧ (t.wallNow + 1600 ≤ descFld d 16 8 → (∀ k, 7936 ≤ k → k ≤ 8191 → (t.slot k).armed = true) →
      exec (.launchAt sq d) s = .next (completeWith t ref St.noResource))
    ∧ (descFld d 16 8 < t.wallNow + 1600 → exec (.launchAt sq d) s = .next (completeWith t ref St.invalidField)))
  ∧ (∀ (s : State) (k : Nat), (freeAbsSlot s = some k ↔ 7936 ≤ k ∧ k ≤ 8191 ∧ (s.slot k).armed = false
      ∧ ∀ j, 7936 ≤ j → j < k → (s.slot j).armed = true))
  ∧ (∀ (s : State) (k : Nat) (ref : CmdRef), (s.slot k).rel = false → (s.slot k).late = none → (s.slot k).ref = some ref →
      ∃ u, fireSlot s k = complete u ref St.ok (s.slot k).time.toNat 0 0 ∧ (u.slot k).armed = false ∧ (u.slot k).ref = none
        ∧ u.rings = s.rings ∧ u.mem = s.mem ∧ u.contracts = s.contracts)

/-- Table 2-4: ANNOUNCE leaves on both peer ports every 1 ms, SYNC of the bellwether every 125 µs, DELAY_REQ every 1 ms on its port;
each with its own sequence number, and nothing before its interval has passed.
R29: a time message with another version, fold or CRC is discarded and counted at tally 994, with `PEER_STATUS.FRAME_DISCARD`.
R30, R31, R32: an ANNOUNCE of another module is forwarded and kept, and the election is held; one of this module with its own
nonce ends here; one with this module's number and another nonce makes the module a duplicate.
R33: DELAY_REQ is answered at once on the same port, with its receipt and transmit times; a DELAY_RESP gives one value of
d = ((t4 - t1) - (t3 - t2)) // 2 - ASYM, and the newest eight are kept.
R34, R35, Table 2-5: a member uses the bellwether's SYNC of the nearer port: the servo runs on its error. -/
def Obligations.TimeMessagesLeaveAndAreTaken : Prop :=
  (∀ (s : State) (e : Fin 2), foldEn s = true → s.wt.dup = false →
    (s.wt.lastAnnounce + 160000 ≤ s.wt.now → exec .announceSend s = .next ((sendBoth s (timeMsg s 1 s.wt.seqAnnounce false 0 0 0
        s.wt.nonce)).modWt fun w => { w with lastAnnounce := w.now, seqAnnounce := (w.seqAnnounce + 1) % 65536 }))
    ∧ (s.wt.now < s.wt.lastAnnounce + 160000 → exec .announceSend s = .next s)
    ∧ (s.wt.role = .bellwether → s.wt.lastSyncSent + 20000 ≤ s.wt.now → exec .syncSend s = .next ((sendBoth s (timeMsg s 2 s.wt.seqSync
        s.wt.timeStep (wall16 s) 0 0 0)).modWt fun w =>
          { w with lastSyncSent := w.now, seqSync := (w.seqSync + 1) % 65536, timeStep := false }))
    ∧ (s.wt.role ≠ .bellwether → exec .syncSend s = .next s)
    ∧ ((peerTime s e.val).lastReq + 160000 ≤ s.wt.now → exec (.peerDelayReqSend e) s = .next ((modPeerTime (peerSend s e.val
        (timeMsg s 3 s.wt.seqReq false (wall16 s) 0 0 0)) e.val fun p => { p with t1 := some (wall16 s), lastReq := s.wt.now }).modWt
          fun w => { w with seqReq := (w.seqReq + 1) % 65536 }))
    ∧ (s.wt.now < (peerTime s e.val).lastReq + 160000 → exec (.peerDelayReqSend e) s = .next s))
  ∧ (∀ (e : Fin 2) (bs : List Byte) (r : Nat) (s : State), foldEn s = true → (s.peer e.val).linkUp = true → foldFrameOk s 64 bs = false →
    ∀ c ∈ [Instr.announceReceive e bs, .syncReceive e bs r, .peerDelayReqReceive e bs r, .peerDelayRespReceive e bs],
      exec c s = .next (foldDiscard s e.val 994))
  ∧ (∀ (e : Fin 2) (bs : List Byte) (s : State), TimeMsgOk s e.val bs 1 →
    let s1 := heardNow s e.val
    (u8 bs 2 ≠ moduleNo s1 → (mget none s1.wt.heard (u8 bs 2)).isNone = false →
      exec (.announceReceive e bs) s = .next (elect (noteHeard (forwardFold s1 e.val bs false) bs)))
    ∧ (u8 bs 2 ≠ moduleNo s1 → (mget none s1.wt.heard (u8 bs 2)).isNone = true →
      exec (.announceReceive e bs) s = .next (startSpread (elect (noteHeard (forwardFold s1 e.val bs false) bs))))
    ∧ (u8 bs 2 = moduleNo s1 → leAt bs 42 6 = s1.wt.nonce → exec (.announceReceive e bs) s = .next s1)
    ∧ (u8 bs 2 = moduleNo s1 → leAt bs 42 6 ≠ s1.wt.nonce →
      exec (.announceReceive e bs) s = .next (duplicate (forwardFold s1 e.val bs false))))
  ∧ (∀ (e : Fin 2) (bs : List Byte) (turn : Nat) (s : State),
    (TimeMsgOk s e.val bs 3 → exec (.peerDelayReqReceive e bs turn) s = .next ((peerSend (heardNow s e.val) e.val
        (timeMsg (heardNow s e.val) 4 s.wt.seqResp false 0 (wall16 s) (wall16 s + turn) 0)).modWt fun w =>
          { w with seqResp := (s.wt.seqResp + 1) % 65536 }))
    ∧ (TimeMsgOk s e.val bs 4 → ∀ t1, (peerTime s e.val).t1 = some t1 → ∃ t, exec (.peerDelayRespReceive e bs) s = .next t
        ∧ (peerTime t e.val).t1 = none
        ∧ (peerTime t e.val).samples = ((((wall16 s - t1) - (timeAt bs 48 - timeAt bs 32)) / 2 - peerAsym s e.val)
            :: (peerTime s e.val).samples).take 8
        ∧ t.wt.wall = s.wt.wall ∧ t.regs = s.regs ∧ t.mem = s.mem))
  ∧ (∀ (e : Fin 2) (bs : List Byte) (r : Nat) (s : State), TimeMsgOk s e.val bs 2 →
    let s1 := heardNow s e.val
    let s2 := forwardFold s1 e.val (syncForward s1 e.val bs r) false
    let s3 := s2.modWt fun w => { w with lastSync := some w.now, lastHops := mset none w.lastHops e.val (some (u8 bs 3, w.now)) }
    (u8 bs 2 = moduleNo s1 → s1.wt.role = .bellwether → exec (.syncReceive e bs r) s = .next s1)
    ∧ (s1.wt.role ≠ .bellwether → s2.wt.role = .member → s2.wt.bellwether = some (u8 bs 2) → bestPort s2 e.val (u8 bs 3) = true →
        exec (.syncReceive e bs r) s = .next (servo s3 (syncError s1 e.val bs) ((u8 bs 11).testBit 2)))
    ∧ (s1.wt.role ≠ .bellwether → s2.wt.role = .member → s2.wt.bellwether = some (u8 bs 2) → bestPort s2 e.val (u8 bs 3) = false →
        exec (.syncReceive e bs r) s = .next s3))

/-- R31: the bellwether that an election gives is eligible and no eligible module is better: none has a higher priority, and none with
its priority a lower number.
R35: what the servo does with an error: a step where it exceeds 1,600 ticks and no contract is active, UNLOCKED where one is, a
slew by a quarter in every other case.
R36: entry to UNLOCKED sets `WT_STATUS.UNLOCK` and raises `TIME_UNLOCK` (fault group 13, bit 0).
Table 2-5, Table 2-12: no SYNC for 375 µs leads a LOCKED member into HOLDOVER, 10 s in HOLDOVER into UNLOCKED; a peer port that is
silent for 3 ms sets its `PEER_DOWN` bit; an ANNOUNCE older than 3 ms ages out and the election is held again. None of them acts
before its time. -/
def Obligations.ServoElectionAndFoldTimers : Prop :=
  (∀ (s : State) (w : Nat), winner s = some w → ∃ p, (w, p) ∈ candidates s
    ∧ ∀ q ∈ candidates s, q.2 < p ∨ (q.2 = p ∧ w ≤ q.1))
  ∧ (∀ (s : State) (e : Int), (1600 * 65536 < e.natAbs → anyActive s = false →
      servoAct s e false = stepWall s (BitVec.ofInt 64 ((wall16 s + e) / 65536)) (BitVec.ofInt 16 (wall16 s + e)))
    ∧ (1600 * 65536 < e.natAbs → anyActive s = true → servoAct s e false = enterTime s .unlocked)
    ∧ (e.natAbs ≤ 1600 * 65536 → servoAct s e false = s.modWt fun w => { w with slew := e / 4, slewSet := e / 4 }))
  ∧ (∀ s : State, s.wt.tstate ≠ .unlocked →
    let t := enterTime s .unlocked
    t.wt.tstate = .unlocked ∧ bit (t.reg Off.wtStatus) 1 = true ∧ bit (t.reg (Off.fltStat 13)) 0 = true ∧ t.mem = s.mem)
  ∧ (∀ (s : State) (e : Fin 2) (m : Fin 16),
    (s.wt.role = .member → s.wt.tstate = .locked → s.wt.lastSync.getD 0 + 60000 ≤ s.wt.now →
        exec .syncLossTimeout s = .next (enterTime s .holdover))
    ∧ (s.wt.now < s.wt.lastSync.getD 0 + 60000 → exec .syncLossTimeout s = .next s)
    ∧ (s.wt.tstate = .holdover → s.wt.holdSince + 1600000000 ≤ s.wt.now → exec .holdoverTimeout s = .next (enterTime s .unlocked))
    ∧ (s.wt.now < s.wt.holdSince + 1600000000 → exec .holdoverTimeout s = .next s)
    ∧ (∀ h, foldEn s = true → (peerTime s e.val).lastHeard = some h → h + 480000 ≤ s.wt.now →
        ∃ t, exec (.peerSilenceTimeout e) s = .next t ∧ bit (t.reg Off.wtStatus) (6 + e.val) = true
          ∧ (peerTime t e.val).lastHeard = none ∧ t.mem = s.mem ∧ t.contracts = s.contracts)
    ∧ (∀ h, (peerTime s e.val).lastHeard = some h → s.wt.now < h + 480000 → exec (.peerSilenceTimeout e) s = .next s)
    ∧ (∀ h, mget none s.wt.heard m.val = some h → h.at_ + 480000 < s.wt.now → exec (.announceAgeOut m) s
        = .next (elect (dropModule (s.modWt fun w => { w with heard := mset none w.heard m.val none }) m.val)))
    ∧ (∀ h, mget none s.wt.heard m.val = some h → s.wt.now ≤ h.at_ + 480000 → exec (.announceAgeOut m) s = .next s))

/-- R519: a peer link comes up with lock and alignment on its four lanes, and goes down at once, losing what was on its way, with
`PEER_STATUS.LINK_DOWN`, and `LANE_FAULT` where a lane lost lock; `FEC_UNCORR` where an uncorrectable codeword was received.
R44: a write of `FOLD_CFG` is ignored while a contract is COMMITTED, RUNNING or DRAINING; else it is stored, setting `FOLD_EN` joins
the fold in ACQUIRE and clearing it leaves the fold. -/
def Obligations.PeerLinksAndFoldCfg : Prop :=
  (∀ (e : Fin 2) (lanes : BitVec 4) (fec : Bool) (s : State),
    (peerMayRise s e.val = true → exec (.peerLinkUp e) s
      = .next (s.modPeer e.val fun p => { p with linkUp := true, lanes := 0xF, fec := true }))
    ∧ (peerMayRise s e.val = false → exec (.peerLinkUp e) s = .next s)
    ∧ ((s.peer e.val).linkUp = true → lanes ≠ 0xF → exec (.peerLinkDown e lanes fec false) s
      = .next (setStatus (s.modPeer e.val fun _ => { lanes := lanes }) (Off.peerStatus e.val) 3))
    ∧ ((s.peer e.val).linkUp = true → exec (.peerLinkDown e 0xF fec false) s
      = .next (setStatus (s.modPeer e.val fun _ => { lanes := 0xF, fec := fec }) (Off.peerStatus e.val) 1))
    ∧ ((s.peer e.val).linkUp = true → ∃ t, exec (.peerLinkDown e lanes fec true) s = .next t ∧ (t.peer e.val).linkUp = false
        ∧ bit (t.reg (Off.peerStatus e.val)) 0 = true ∧ bit (t.reg (Off.peerStatus e.val)) 3 = true)
    ∧ ((s.peer e.val).linkUp = false → ∀ u, exec (.peerLinkDown e lanes fec u) s = .next s))
  ∧ (∀ (v : Word) (s : State),
    (anyActive s = true → exec (.foldCfgWrite v) s = .next s)
    ∧ (anyActive s = false → bit v 4 = false → foldEn s = false → exec (.foldCfgWrite v) s = .next (s.setReg Off.foldCfg (v &&& 0x00FF001F#32)))
    ∧ (anyActive s = false → bit v 4 = true → foldEn s = false →
        exec (.foldCfgWrite v) s = .next (joinFold (s.setReg Off.foldCfg (v &&& 0x00FF001F#32))))
    ∧ (anyActive s = false → bit v 4 = false → foldEn s = true →
        exec (.foldCfgWrite v) s = .next (leaveFold (s.setReg Off.foldCfg (v &&& 0x00FF001F#32))))
    ∧ (anyActive s = false → bit v 4 = true → foldEn s = true →
        exec (.foldCfgWrite v) s = .next (elect (s.setReg Off.foldCfg (v &&& 0x00FF001F#32)))))

/-! ## Contracts (chapter 3) -/

/-- R57, R63, Table 3-1: a well-formed proposal of a FREE contract whose streams are OPEN and whose slots are free is evaluated: the
report goes to the host before the completion; accepted, the contract is PROPOSED with the S and Wd of its verdict; refused, it stays
FREE and the completion is `CONTRACT_REFUSED` with reason and detail.
R48, R49, Table 3-3: `CONTRACT_PROPOSE` of a contract that is not FREE, `CONTRACT_COMMIT` of one that is not PROPOSED or lacks a map
list or a coefficient plane, and `LAYOUT_UPDATE` of one that is neither COMMITTED nor RUNNING complete with `STATE_CONFLICT` and have no
side effect. -/
def Obligations.ProposalIsAdmittedOrRefused : Prop :=
  (∀ (sq : Fin 1024) (d : Desc) (bs : List Byte) (s t : State) (ref : CmdRef), Starts s sq d ref t → proposeFields d = true →
    let n := descFld d 8 1
    let c := parseProposal bs
    let v := evaluate t n c
    let u := writeReport t (descFld d 32 8) v
    (t.contract n).state = .free → bs.length = descFld d 24 4 → proposalOk t n bs = true → proposalStates t n c = true →
    linkUp t = true → fits t (proposalBytes c) = true →
    (v.reason = 0 → exec (.contractPropose sq d (.ok bs)) s = .next (complete (acceptProposal u n c v) ref St.ok 0 0 0)
        ∧ ((acceptProposal u n c v).contract n).state = .proposed ∧ ((acceptProposal u n c v).contract n).stage = v.stage
        ∧ ((acceptProposal u n c v).contract n).wd = v.decWin)
    ∧ (v.reason ≠ 0 → exec (.contractPropose sq d (.ok bs)) s
        = .next (complete u ref St.contractRefused (v.reason + 256 * v.detail) 0 0) ∧ u.contracts = t.contracts))
  ∧ (∀ (sq : Fin 1024) (d : Desc) (h : HostData) (s t : State) (ref : CmdRef), Starts s sq d ref t →
    (proposeFields d = true → (t.contract (descFld d 8 1)).state ≠ .free →
      exec (.contractPropose sq d h) s = .next (completeWith t ref St.stateConflict))
    ∧ (commitFields t d = true → ((t.contract (descFld d 8 1)).state ≠ .proposed
        ∨ ∃ e ∈ (t.contract (descFld d 8 1)).endpoints, (mget none (t.contract (descFld d 8 1)).maps e.slot) = none
            ∨ (mget {} t.corr.coefs (16384 * descFld d 8 1 + e.slot)).inForce = none) →
      exec (.contractCommit sq d) s = .next (completeWith t ref St.stateConflict))
    ∧ (layoutFields d = true → (t.contract (descFld d 8 1)).state ≠ .committed → (t.contract (descFld d 8 1)).state ≠ .running →
      exec (.layoutUpdate sq d h) s = .next (completeWith t ref St.stateConflict)))

/-- R37: `CONTRACT_COMMIT` on a module whose time state is not LOCKED completes with `STATE_CONFLICT`, and has no other effect. -/
def Obligations.CommitNeedsLockedTime : Prop :=
  ∀ (sq : Fin 1024) (d : Desc) (s t : State) (ref : CmdRef), Starts s sq d ref t → commitFields t d = true → t.wt.tstate ≠ .locked →
    exec (.contractCommit sq d) s = .next (completeWith t ref St.stateConflict)

/-- R50, R298, R524: a commit waits until the contract's rings can be built; then, with `AT_FRAME`, it takes `FIRST_FRAME` where that
frame's boundary lies at least 160,000 ticks ahead and is `INVALID_FIELD` where it does not; without, it takes the smallest such frame.
The contract is COMMITTED, its rings are laid out, its availability counters start from 0 (R460), its slots are armed from n0, and the
completion reports n0.
R50: the frame that a commit without `AT_FRAME` takes has its boundary at least 160,000 ticks ahead, where its launch tick is a value
of 64 bits (R20), and no earlier frame has.
R298: the commit that waited is accepted once its rings can be built, and nothing happens before.
R48, R51: a release of a FREE contract completes OK; of a DRAINING one joins the release that began the drain; of a PROPOSED or
COMMITTED one frees it; of a RUNNING one fixes n_last as the latest frame whose boundary has fired, and no slot stays armed for a later
frame. -/
def Obligations.CommitAndReleaseFollowTheState : Prop :=
  (∀ (sq : Fin 1024) (d : Desc) (s t : State) (ref : CmdRef), Starts s sq d ref t → commitFields t d = true →
    let n := descFld d 8 1
    let at_ := descFld d 9 1 == 1
    let f := descFld d 16 8
    let p := planRings t n
    let ok := fun (n0 : Nat) => complete (armSlots (((buildRings p n).modFlt fun x => { x with avail := mset {} x.avail n {} }).modContract n
      fun c => { c with state := .committed, n0 := n0, commit := none, nextLaunch := n0 }) n n0) ref St.ok n0 t.comp.canvasBase0 t.comp.canvasBase1
    commitStates t n = true →
    (ringsBuildable p n = false → exec (.contractCommit sq d) s = .next (p.modContract n fun c => { c with commit := some (ref, at_, f) }))
    ∧ (ringsBuildable p n = true → at_ = true → firstOk t n f = true → exec (.contractCommit sq d) s = .next (ok f))
    ∧ (ringsBuildable p n = true → at_ = true → firstOk t n f = false → exec (.contractCommit sq d) s
        = .next (completeWith (p.modContract n fun c => { c with commit := none }) ref St.invalidField))
    ∧ (ringsBuildable p n = true → at_ = false → exec (.contractCommit sq d) s
        = .next (ok (autoFirst (t.contract n) t.wallNow (boundaryOffset t n))))
    ∧ p.contracts = t.contracts ∧ p.wt = t.wt ∧ p.mem = t.mem)
  ∧ (∀ (c : Contract) (wall : Nat) (d : Int), 0 < c.pnum → 0 < c.pden →
    (c.t0 + autoFirst c wall d * c.pnum / c.pden < 2 ^ 64 → (wall : Int) + 160000 ≤ launchTick c (autoFirst c wall d) + d)
      ∧ ∀ n, (wall : Int) + 160000 ≤ launchTick c n + d → autoFirst c wall d ≤ n)
  ∧ (∀ (c : Fin 64) (s : State) (ref : CmdRef) (a : Bool) (f : Nat), (s.contract c.val).commit = some (ref, a, f) → s.serving = true →
    (ringsBuildable s c.val = true → exec (.contractCommitAccept c) s = .next (commitDecide s c.val ref a f))
    ∧ (ringsBuildable s c.val = false → exec (.contractCommitAccept c) s = .next s))
  ∧ (∀ (sq : Fin 1024) (d : Desc) (s t : State) (ref : CmdRef), Starts s sq d ref t → hdrOk d 0x12 [(8, 2)] = true →
    descFld d 8 1 < 64 → descFld d 9 1 < 2 →
    let n := descFld d 8 1
    ((t.contract n).state = .free → exec (.contractRelease sq d) s = .next (complete t ref St.ok (2 ^ 64 - 1) 0 0))
    ∧ ((t.contract n).state = .draining →
        exec (.contractRelease sq d) s = .next (t.modContract n fun c => { c with releases := c.releases ++ [ref] }))
    ∧ ((t.contract n).state = .proposed → (t.contract n).commit = none →
        exec (.contractRelease sq d) s = .next (complete (freeContract t n) ref St.ok (2 ^ 64 - 1) 0 0))
    ∧ ((t.contract n).state = .committed → (t.contract n).commit = none →
        exec (.contractRelease sq d) s = .next (complete (freeContract t n) ref St.ok (2 ^ 64 - 1) 0 0))
    ∧ ((t.contract n).state = .running → t.wallNow < launchTick (t.contract n) ((t.contract n).frame.getD 0 + b2n (descFld d 9 1 == 1)) →
        ∃ u, exec (.contractRelease sq d) s = .next u ∧ (u.contract n).state = .draining
          ∧ (u.contract n).nLast = some ((t.contract n).frame.getD 0) ∧ (u.contract n).blankOut = (descFld d 9 1 == 1)
          ∧ (u.contract n).releases = [ref] ∧ u.mem = t.mem ∧ u.regs = t.regs ∧ u.rings = t.rings
          ∧ ∀ p ∈ u.wt.slots, slotOf n p.2 = true → p.2.armed = true → p.2.next ≤ (t.contract n).frame.getD 0))

/-- R52, R53: a `LAYOUT_UPDATE` that re-admission accepts waits for a frame boundary, which its completion names when it is written;
refused, it completes with `CONTRACT_REFUSED` and changes no contract. Either way its report goes out first.
R51, R269: the ports of a draining contract send its BLANK once, when L(n_last + 1) less the guard has come; nothing before. R460: a
contract's launch tick, once reached, is counted by `launchReached`, and a module that does not serve counts none.
R398, R466: `LATENCY_TOLERANCE` sets the wake latency that gaps may use, at most 10 s, and completes OK. -/
def Obligations.LayoutAndDrain : Prop :=
  (∀ (sq : Fin 1024) (d : Desc) (bs : List Byte) (s t : State) (ref : CmdRef), Starts s sq d ref t → layoutFields d = true →
    let n := descFld d 8 1
    let c := t.contract n
    let xs := layoutSources c d bs
    let ch := Change.layout (layoutLayers d bs) xs (layoutBackground d)
    let v := readmit t n { c with deferred := c.deferred ++ [{ change := ch }] }
    let u := writeReport t (descFld d 32 8) v
    linkUp t = true → (c.state = .committed ∨ c.state = .running) → layoutOk t c d bs = true → sourcesOpen t xs = true →
    (v.reason = 0 → exec (.layoutUpdate sq d (.ok bs)) s
        = .next (completeDeferred (acceptLayout u n ref ch xs v) ref n))
    ∧ (v.reason ≠ 0 → exec (.layoutUpdate sq d (.ok bs)) s
        = .next (complete u ref St.contractRefused (v.reason + 256 * v.detail) 0 0) ∧ u.contracts = t.contracts))
  ∧ (∀ (c : Fin 64) (s : State),
    (blankDue s (s.contract c.val) = true → s.serving = true → exec (.releaseBlank c) s = .next
        ((contractPorts s (s.contract c.val)).foldl (fun t p => emitBlank t p 0xFFFF
          (launchTick (s.contract c.val) ((s.contract c.val).nLast.getD 0 + 1)) c.val)
          (s.modContract c.val fun x => { x with blankSent := true })))
    ∧ (blankDue s (s.contract c.val) = false → exec (.releaseBlank c) s = .next s)
    ∧ (s.serving = true → exec (.launchTickReached c) s = .next (launchReached s c.val))
    ∧ (s.serving = false → exec (.launchTickReached c) s = .next s))
  ∧ (∀ (sq : Fin 1024) (d : Desc) (s t : State) (ref : CmdRef), Starts s sq d ref t → hdrOk d 0x50 [(12, 4)] = true →
    (descFld d 12 4 ≤ 10000000 → exec (.latencyTolerance sq d) s
      = .next (completeWith (t.modPwr fun p => { p with tolerance := descFld d 12 4 }) ref St.ok))
    ∧ (10000000 < descFld d 12 4 → exec (.latencyTolerance sq d) s = .next (completeWith t ref St.invalidField)))

/-! ## Streams and decode cores (chapter 4) -/

/-- R72, R73, R74, R108: a well-formed `STREAM_OPEN` of a CLOSED stream whose buffers fit opens it: a RAW stream with three frame buffers,
a coded one with its picture store and its input buffer; the completion carries the first buffer's device address; no other stream
and no byte of device memory changes. Buffers that do not fit are `NO_RESOURCE`; a configuration outside what Tables 4-1 and 4-2 support is
`UNSUPPORTED_TOOL`; a configuration that is not in its format or does not parse is `INVALID_FIELD`.
R48: a stream that is not CLOSED is a `STATE_CONFLICT`.
R48: `STREAM_CLOSE` of a stream that a contract names is a `STATE_CONFLICT`. R47, R82: of a CLOSED stream it completes OK; of a
FLUSHING one it joins the close that waits; of an OPEN one it aborts what is queued, and the stream is CLOSED when nothing of it is
being decoded, else FLUSHING with nothing left but the units being decoded. -/
def Obligations.StreamsOpenAndClose : Prop :=
  (∀ (sq : Fin 1024) (d : Desc) (h : HostData) (cfg : CfgParse) (s t : State) (ref : CmdRef), Starts s sq d ref t → openFields d = true →
    let n := descFld d 8 1
    let rawBytes := 3 * (descFld d 32 4 * descFld d 30 2)
    ((t.stream n).state ≠ .closed → exec (.streamOpen sq d h cfg) s = .next (completeWith t ref St.stateConflict))
    ∧ ((t.stream n).state = .closed → codecOf (descFld d 9 1) = some .raw → fits t rawBytes = true →
        ∃ u a, exec (.streamOpen sq d h cfg) s = .next (complete u ref St.ok a 0 0) ∧ a = (place t rawBytes).1
          ∧ (u.stream n).state = .open_ ∧ (u.stream n).codec = .raw ∧ (u.stream n).storeAddr = a ∧ (u.stream n).width = descFld d 28 2
          ∧ (u.stream n).height = descFld d 30 2 ∧ (u.stream n).stride = descFld d 32 4 ∧ (u.stream n).rawFmt = descFld d 11 1
          ∧ (∀ m, m ≠ n → u.stream m = t.stream m) ∧ u.mem.dram = t.mem.dram ∧ u.regs = t.regs ∧ u.contracts = t.contracts
          ∧ u.rings = t.rings)
    ∧ (∀ c r bs, (t.stream n).state = .closed → codecOf (descFld d 9 1) = some c → c ≠ .raw → linkUp t = true → h = .ok bs → cfg = .ok r →
        recordFormat c bs = true → seqSupported c r = true → fits t (storeBytes r + descFld d 12 4) = true →
        ∃ u a, exec (.streamOpen sq d h cfg) s = .next (complete u ref St.ok a 0 0) ∧ a = (place t (storeBytes r)).1
          ∧ (u.stream n).state = .open_ ∧ (u.stream n).codec = c ∧ (u.stream n).storeAddr = a ∧ (u.stream n).record = r ∧ (u.stream n).sets = [bs]
          ∧ (u.stream n).ibufBytes = descFld d 12 4 ∧ (u.stream n).units = []
          ∧ (∀ m, m ≠ n → u.stream m = t.stream m) ∧ u.mem.dram = t.mem.dram ∧ u.regs = t.regs ∧ u.contracts = t.contracts
          ∧ u.rings = t.rings)
    ∧ ((t.stream n).state = .closed → codecOf (descFld d 9 1) = some .raw → fits t rawBytes = false →
        exec (.streamOpen sq d h cfg) s = .next (completeWith t ref St.noResource))
    ∧ (∀ c bs, (t.stream n).state = .closed → codecOf (descFld d 9 1) = some c → c ≠ .raw → linkUp t = true → h = .ok bs →
        ((recordFormat c bs = false ∨ cfg = .malformed) → exec (.streamOpen sq d h cfg) s = .next (completeWith t ref St.invalidField))
        ∧ (∀ r, recordFormat c bs = true → cfg = .ok r → seqSupported c r = false →
            exec (.streamOpen sq d h cfg) s = .next (completeWith t ref St.unsupportedTool))))
  ∧ (∀ (sq : Fin 1024) (d : Desc) (s t : State) (ref : CmdRef), Starts s sq d ref t → hdrOk d 0x03 [(8, 1)] = true →
    let n := descFld d 8 1
    (streamNamed t n = true → exec (.streamClose sq d) s = .next (completeWith t ref St.stateConflict))
    ∧ (streamNamed t n = false → (t.stream n).state = .closed → exec (.streamClose sq d) s = .next (completeWith t ref St.ok))
    ∧ (streamNamed t n = false → (t.stream n).state = .flushing → exec (.streamClose sq d) s
        = .next (t.modStream n fun x => { x with closes := x.closes ++ [ref] }))
    ∧ (streamNamed t n = false → (t.stream n).state = .open_ → ∃ u, exec (.streamClose sq d) s = .next u
        ∧ (if ((t.stream n).units.any fun v => v.phase == .decoding) = true then
            (u.stream n).state = .flushing ∧ (u.stream n).units = (t.stream n).units.filter (fun v => v.phase == .decoding)
              ∧ (u.stream n).rawQueue = [] ∧ (u.stream n).closes = (t.stream n).closes ++ [ref]
          else u.stream n = {})
        ∧ (∀ m, m ≠ n → u.stream m = t.stream m) ∧ u.mem.dram = t.mem.dram))

/-- R77, R78: an accepted `AU_SUBMIT` queues one unit at the end of its stream and counts it; a unit over half the input buffer is
`INVALID_FIELD`, a stream that is not OPEN a `STATE_CONFLICT`. A fetch that completes makes the first fetching unit complete; a fetch
starts only where there is room, so the input buffer never holds more than its size. -/
def Obligations.UnitsAreQueuedAndFetched : Prop :=
  (∀ (sq : Fin 1024) (d : Desc) (s t : State) (ref : CmdRef), Starts s sq d ref t → hdrOk d 0x04 [(8, 2), (16, 12)] = true →
    descFld d 9 1 < 4 →
    let n := descFld d 8 1
    let x := t.stream n
    (x.state ≠ .open_ → exec (.auSubmit sq d) s = .next (completeWith t ref St.stateConflict))
    ∧ (x.state = .open_ → (x.codec = .raw ∨ x.ibufBytes / 2 < descFld d 24 4) →
        exec (.auSubmit sq d) s = .next (completeWith t ref St.invalidField))
    ∧ (x.state = .open_ → x.codec ≠ .raw → descFld d 24 4 ≤ x.ibufBytes / 2 → ∃ u v, exec (.auSubmit sq d) s = .next u
        ∧ (u.stream n).units.map (fun w => w.ref) = x.units.map (fun w => w.ref) ++ [ref] ∧ (u.stream n).units.getLast? = some v
        ∧ v.bytes = descFld d 24 4 ∧ v.addr = descFld d 16 8 ∧ (v.phase = .waiting ∨ v.phase = .fetching)
        ∧ (u.stream n).submits = x.submits + 1 ∧ (x.ibufUsed ≤ x.ibufBytes → (u.stream n).ibufUsed ≤ (u.stream n).ibufBytes)
        ∧ (∀ m, m ≠ n → u.stream m = t.stream m) ∧ u.mem = t.mem ∧ u.regs = t.regs ∧ u.rings = t.rings ∧ u.contracts = t.contracts))
  ∧ (∀ (st : Fin 256) (bs : List Byte) (info : UnitInfo) (s : State),
    ((∀ u ∈ (s.stream st.val).units, u.phase ≠ .fetching) → exec (.auFetchComplete st (.ok bs) info) s = .next s)
    ∧ (∀ a u b, (s.stream st.val).units = a ++ u :: b → u.phase = .fetching → (∀ v ∈ a, v.phase = .decoding) → linkUp s = true →
        ∃ t, exec (.auFetchComplete st (.ok bs) info) s = .next t
          ∧ (t.stream st.val).units = a ++ { u with
              phase := .complete, data := bs.take u.bytes, info := info
              rap := isRap (s.stream st.val).codec (bs.take u.bytes) info, bad := 0 } :: b
          ∧ t.mem = s.mem ∧ t.regs = s.regs ∧ t.rings = s.rings))
  ∧ (∀ (st : Fin 256) (s : State), ∃ t, exec (.unitFetchResume st) s = .next t
    ∧ (t.stream st.val).units.map (fun w => w.ref) = (s.stream st.val).units.map (fun w => w.ref)
    ∧ ((s.stream st.val).ibufUsed ≤ (s.stream st.val).ibufBytes → (t.stream st.val).ibufUsed ≤ (t.stream st.val).ibufBytes)
    ∧ t.mem = s.mem ∧ t.regs = s.regs ∧ t.rings = s.rings ∧ t.contracts = s.contracts)

/-- R87: a decode start makes units of its stream into units being decoded, in decode order and up to the window's pictures, the first
one always. R102: a core's decode start abandons a repair that still runs; a repair that finished in time overwrites what a retired core
left of the stream's pictures and frees its core.
R79, R89-R96: the end of a unit's decoding: with no unit being decoded nothing happens; else the first of them leaves the queue
with its bytes, and its completion carries the status, the picture's order and the error classes. R92: the status of a unit whose
picture is not marked is OK, of a poisoned one `POISONED_DATA`, of one that is not supported `UNSUPPORTED_TOOL`, of a marked or skipped one
`CONCEALED`. R93: the stand-in is a picture decoded without a mark, and none that lies before the place is later. -/
def Obligations.PicturesAreDecoded : Prop :=
  ((∀ (k : Fin 8192) (s : State) (l : LSlot), Fires s k 0x3 l → exec (.decodeStart k) s = .next (decodeStartOp (fireSlot s k.val) k.val l)
    ∧ (l.unit < 16 → ((decodeStartOp (fireSlot s k.val) k.val l).dec l.unit).repair = none))
  ∧ (∀ (s : State) (x : Stream) (cores : List Nat) (frame m : Nat) (us : List Au),
    let r := takeUnits (unitCost x) (takenUnit s x cores frame) m 0 none us
    let costs := (r.zip us).filterMap fun p => if p.1.phase = .decoding ∧ p.2.phase ≠ .decoding then some (unitCost x p.2) else none
    r.map (fun u => u.ref) = us.map (fun u => u.ref)
      ∧ costs.sum ≤ max m (costs.headD 0)
      ∧ (∀ p ∈ r.zip us, p.1 = p.2 ∨ (p.2.phase = .complete ∧ ∃ cs cut second, p.1 = { p.2 with
          phase := .decoding, decFrame := frame, cores := cs, cut := cut, second := second })))
  ∧ (∀ (core : Fin 16) (s : State), ((s.dec core.val).repair = none → exec (.repairDone core) s = .next s)
    ∧ (∀ n, (s.dec core.val).repair = some n → ∃ t, exec (.repairDone core) s = .next t ∧ (t.dec core.val).repair = none
        ∧ (t.dec core.val).act = 0 ∧ (t.stream n).blaming = false ∧ (∀ p ∈ (t.stream n).pictures, p.cut = []) ∧ t.mem = s.mem ∧ t.contracts = s.contracts ∧ t.rings = s.rings)))
  ∧ ((∀ (st : Fin 256) (o : DecOutcome) (s : State),
    ((s.stream st.val).units.find? (fun u => u.phase == .decoding) = none → exec (.pictureDecodeDone st o) s = .next s)
    ∧ (∀ u, (s.stream st.val).units.find? (fun u => u.phase == .decoding) = some u →
        exec (.pictureDecodeDone st o) s = .next (pictureDone s st.val u o)))
  ∧ (∀ (x : Stream) (u : Au) (o : DecOutcome),
    (skippedUnit x u = false → marked x u o = false → unitStatus x u o = St.ok)
    ∧ (u.bad = St.poisonedData → unitStatus x u o = St.poisonedData)
    ∧ (unsupportedUnit x u = true → u.bad ≠ St.poisonedData → unitStatus x u o = St.unsupportedTool)
    ∧ ((skippedUnit x u = true ∨ recovering x u = true) → unsupportedUnit x u = false → u.bad ≠ St.poisonedData → o.poisonedRef = false →
        unitStatus x u o = St.concealed))
  ∧ (∀ (x : Stream) (cvs : Nat) (order : Int) (p : Picture), standIn x cvs order = some p →
      p ∈ x.pictures ∧ p.concealed = false ∧ p.standin = false ∧ before p.cvs p.order cvs order = true
        ∧ ∀ q ∈ x.pictures, q.concealed = false → q.standin = false → q.hidden = false → before q.cvs q.order cvs order = true →
          picBefore p q = false)
  ∧ (∀ (x : Stream) (reorder : Nat) (eos : Bool), ∀ p ∈ (release x reorder eos).pictures, ∃ q ∈ x.pictures,
      (p = q ∨ (q.available = false ∧ p = { q with available := true }
        ∧ (eos = true ∨ reorder ≤ x.pictures.countP fun r => picBefore q r)))))

/-! ## Raw sources, composition and seams (chapter 5) -/

/-- R109, R111: a raw submit whose stream is not OPEN is a `STATE_CONFLICT`; with a stream that is not RAW or a wrong byte count it is
`INVALID_FIELD`; else it is queued and counted, and where nothing waits before it it takes a buffer at once: one that is neither in
use nor the newest complete frame, or, for a slice, the buffer that carries its tag.
R109, R111, R391: the data of the head of a raw queue lands in its buffer, at the slice's rows, and nowhere else; a whole frame is then
the newest complete one. A queue whose head has no buffer waits. -/
def Obligations.RawFramesReachTheirBuffers : Prop :=
  ((∀ (sq : Fin 1024) (d : Desc) (s t : State) (ref : CmdRef), Starts s sq d ref t →
    let n := descFld d 8 1
    let x := t.stream n
    let job := fun (slice : Option Nat) (b : Option Nat) =>
      ({ ref := ref, tag := descFld d 12 4, slice := slice, bytes := descFld d 24 4, addr := descFld d 16 8, sgl := bit d 73, buf := b } : RawSubmit)
    (hdrOk d 0x05 [(8, 2), (12, 16)] = true → (descFld d 9 1 = 0 ∨ descFld d 9 1 = 2) →
      (x.state ≠ .open_ → exec (.rawFrameSubmit sq d) s = .next (completeWith t ref St.stateConflict))
      ∧ (x.state = .open_ → (x.codec ≠ .raw ∨ descFld d 24 4 ≠ x.stride * x.height) →
          exec (.rawFrameSubmit sq d) s = .next (completeWith t ref St.invalidField))
      ∧ (x.state = .open_ → x.codec = .raw → descFld d 24 4 = x.stride * x.height → x.rawQueue = [] →
          ∃ u, exec (.rawFrameSubmit sq d) s = .next u ∧ (u.stream n).rawQueue = [job none (chooseBuf t n)]
            ∧ (u.stream n).submits = x.submits + 1 ∧ (∀ b, chooseBuf t n = some b → (rawBuf (u.stream n) b).held = true
                ∧ (rawBuf (u.stream n) b).tag = descFld d 12 4 ∧ (rawBuf (u.stream n) b).complete = false)
            ∧ (u.stream n).newest = x.newest ∧ (∀ m, m ≠ n → u.stream m = t.stream m) ∧ u.mem = t.mem ∧ u.rings = t.rings))
    ∧ (hdrOk d 0x06 [(8, 20)] = true → (descFld d 9 1 = 0 ∨ descFld d 9 1 = 2) →
      (x.state ≠ .open_ → exec (.rawSliceSubmit sq d) s = .next (completeWith t ref St.stateConflict))
      ∧ (x.state = .open_ → x.codec = .raw → descFld d 10 2 < sliceCount x → descFld d 24 4 = x.stride * sliceRows x (descFld d 10 2) →
          x.rawQueue = [] → ∀ b, bufOfTag x (descFld d 12 4) = some b →
          ∃ u, exec (.rawSliceSubmit sq d) s = .next u ∧ (u.stream n).rawQueue = [job (some (descFld d 10 2)) (some b)]
            ∧ (u.stream n).submits = x.submits + 1
            ∧ (u.stream n).bufs = x.bufs ∧ (∀ m, m ≠ n → u.stream m = t.stream m) ∧ u.mem = t.mem ∧ u.rings = t.rings)))
  ∧ (∀ (s : State) (n b : Nat), chooseBuf s n = some b → b < 3 ∧ bufInUse s n b = false ∧ (s.stream n).newest ≠ some b))
  ∧ (∀ (st : Fin 256) (h : HostData) (s : State),
    ((s.stream st.val).rawQueue = [] → exec (.rawFetchDone st h) s = .next s)
    ∧ (∀ r rs, (s.stream st.val).rawQueue = r :: rs → r.buf = none → exec (.rawFetchDone st h) s = .next s)
    ∧ (∀ r rs b bs, (s.stream st.val).rawQueue = r :: rs → r.buf = some b → linkUp s = true → h = .ok bs →
        (s.stream st.val).state = .open_ → memBad s (rawDest (s.stream st.val) r b) r.bytes = false → bs.length = r.bytes → ∃ t, exec (.rawFetchDone st h) s = .next t
          ∧ (∀ a, memByte t a = if rawDest (s.stream st.val) r b ≤ a ∧ a < rawDest (s.stream st.val) r b + r.bytes
              then bs.getD (a - rawDest (s.stream st.val) r b) 0 else memByte s a)
          ∧ (r.slice = none → (rawBuf (s.stream st.val) b).complete = false → (t.stream st.val).newest = some b)
          ∧ t.contracts = s.contracts)
    ∧ ((s.stream st.val).rawQueue = [] → (s.stream st.val).state ≠ .flushing → exec (.rawFetchResume st) s = .next s)
    ∧ (∀ r rs b, (s.stream st.val).rawQueue = r :: rs → r.buf = none → r.slice = none → chooseBuf s st.val = some b →
        (s.stream st.val).state = .open_ → ∃ t q, exec (.rawFetchResume st) s = .next t
          ∧ (t.stream st.val).rawQueue = { r with buf := some b } :: q ∧ q = rs ∧ t.mem = s.mem))

/-- R12, Table 1-3: a launch step whose flag is absent waits, and the overrun is counted (960 composition, 961 encoder, 962 drover); a
step whose flag is there runs; a step that waited runs once its flag is there, and not before. -/
def Obligations.StepsRunOrWait : Prop :=
  (∀ (k : Fin 8192) (mm : Option (Fin 32)) (s : State) (l : LSlot), let u := fireSlot s k.val
    (Fires s k 0x4 l → exec (.compositionStart k) s = .next (if compReady u l then compBody u l else overrun u k.val l pixOverrun 960))
    ∧ (Fires s k 0x5 l → exec (.encoderStripeStart k mm) s
        = .next (if encReady u l then encStart (ringMismatch u l.contract mm) k.val l else overrun u k.val l 48 961))
    ∧ (Fires s k 0x6 l → exec (.droverMapListStart k) s = .next (if u.domainOn (drvDomain (l.unit % 32))
        then mapListStart u (l.unit % 32) l.contract l.next l.arg else overrun u k.val l (drvFault (l.unit % 32) 3) 962)))
  ∧ (∀ (s : State) (k : Nat) (l : LSlot) (f n : Nat),
      (overrun s k l f n).comp.waits = s.comp.waits ++ [(k, l)] ∧ (overrun s k l f n).mem = s.mem)
  ∧ (∀ (k : Fin 8192) (s : State), ((∀ w ∈ s.comp.waits, w.1 ≠ k.val) → exec (.overrunStepBegin k) s = .next s)
    ∧ (∀ l, s.comp.waits.find? (fun w => w.1 == k.val) = some (k.val, l) → (waitReady s l = false ∨ s.serving = false) →
        exec (.overrunStepBegin k) s = .next s)
    ∧ (∀ l, s.comp.waits.find? (fun w => w.1 == k.val) = some (k.val, l) → waitReady s l = true → s.serving = true →
        exec (.overrunStepBegin k) s
          = .next (waitBody { s with comp := { s.comp with waits := s.comp.waits.erase (k.val, l) } } k.val l)))

/-- R131, Table 1-3: the oldest composing row of that number is written, unless a slot of it still waits or the correction unit restarts
(R152).
R130: a canvas pixel that no shown layer covers is the background; of layers that cover it, each is blended over those before it.
R127: a seam strip is sent, in frames of 64 rows, by the layers that send one on the port; a good seam frame is stored and stands for
its part of the strip alone; on a link that is down or outside the fold nothing is taken. -/
def Obligations.PaddockAndSeams : Prop :=
  ((∀ (c : Fin 64) (row : Fin 32) (p : List (Nat × Nat)) (s : State),
    ((∀ j ∈ (s.contract c.val).rowsComposing, j.row ≠ row.val) → exec (.paddockRowWritten c row p) s = .next s)
    ∧ (∀ j, (s.contract c.val).rowsComposing.find? (fun j => j.row == row.val) = some j →
        ((rowWaits s c.val j.frame j.row = true ∨ s.serving = false ∨ s.domainOn 36 = false) → exec (.paddockRowWritten c row p) s = .next s)
        ∧ (rowWaits s c.val j.frame j.row = false → s.serving = true → s.domainOn 36 = true → ∃ t, exec (.paddockRowWritten c row p) s = .next t
            ∧ t = rowWritten s c.val j p ∧ (t.contract c.val).rowsWritten = (s.contract c.val).rowsWritten ++ [(j.frame, j.row)]
            ∧ (t.contract c.val).rowsComposing = (s.contract c.val).rowsComposing.erase j)))
  ∧ (∀ (s : State) (bg : List Nat) (looks : List Look) (x y : Nat),
    ((∀ k ∈ looks, covers k.l x y = false) → composedPx s bg looks x y = [bg.getD 0 0, bg.getD 1 0, bg.getD 2 0])
    ∧ (∀ k, composedPx s bg (looks ++ [k]) x y = if covers k.l x y then
        blendPixel k.l (layerPx s k x y).1 (layerPx s k x y).2 (composedPx s bg looks x y) else composedPx s bg looks x y)))
  ∧ ((∀ (k : Fin 8192) (s : State) (l : LSlot), Fires s k 0x7 l →
    exec (.seamStripSend k) s = .next (((frameContract ((fireSlot s k.val).contract l.contract) l.next).layers.zipIdx.filter fun p =>
      p.1.en && p.1.seam / 2 ^ l.unit % 2 == 1).foldl (sendStrip l.contract l.next l.arg l.unit) (fireSlot s k.val)))
  ∧ (∀ (e : Fin 2) (bs : List Byte) (s : State),
    ((foldEn s = false ∨ (s.peer e.val).linkUp = false) → exec (.seamFrameReceive e bs) s = .next s)
    ∧ (foldEn s = true → (s.peer e.val).linkUp = true → foldFrameOk s (32 + 128 * leAt bs 12 2) bs = false →
        exec (.seamFrameReceive e bs) s = .next (foldDiscard s e.val 995))
    ∧ (foldEn s = true → (s.peer e.val).linkUp = true → foldFrameOk s (32 + 128 * leAt bs 12 2) bs = true → u8 bs 0 = 0x10 →
        1 ≤ leAt bs 12 2 → leAt bs 12 2 ≤ 64 → ∃ t, exec (.seamFrameReceive e bs) s = .next t
          ∧ parseSeam e.val bs ∈ t.comp.seams
          ∧ (∀ y ∈ t.comp.seams, sameStrip (parseSeam e.val bs) y = true → y = parseSeam e.val bs)
          ∧ (∀ y, sameStrip (parseSeam e.val bs) y = false → (y ∈ t.comp.seams ↔ y ∈ s.comp.seams))
          ∧ t.mem = s.mem ∧ t.regs = s.regs ∧ t.contracts = s.contracts ∧ t.wt = s.wt)))

/-- R129, Table 5-7: a write of `CANVAS_SIZE` in range, with no contract but FREE ones, is stored and places both canvas buffers anew; any
other changes nothing. R118: a write of `SCL_DATA3` commits the phase where its taps sum to 1,024; a sum that does not sets
`COMP_STATUS` bit 1; a set in use sets bit 0 and stores nothing; sets 0-3 are fixed.
R52, R144-R146, R148, R149: a good load of a PROPOSED contract is in force at once and completes OK from the first frame on; of a COMMITTED or RUNNING
one it waits for the frame boundary that its completion names when it is written. The planes of a `COEF_LOAD` are written to the endpoint's
pending store and nowhere else. -/
def Obligations.CanvasLoadsAndBoundaries : Prop :=
  ((∀ (v : Word) (s : State), s.domainOn 36 = true →
    (1 ≤ fld v 21 16 → fld v 21 16 ≤ 32 → 1 ≤ fld v 6 0 → fld v 6 0 ≤ 64 → anyContract s = false →
      ∃ t, exec (.canvasSizeWrite v) s = .next t ∧ t.reg Off.canvasSize = v &&& 0x003F007F#32 ∧ t.mem.dram = s.mem.dram
        ∧ (t.comp.canvasBase0, fld v 6 0 * fld v 21 16 * 393216) ∈ t.mem.placed
        ∧ (t.comp.canvasBase1, fld v 6 0 * fld v 21 16 * 393216) ∈ t.mem.placed ∧ t.contracts = s.contracts)
    ∧ ((fld v 21 16 = 0 ∨ 32 < fld v 21 16 ∨ fld v 6 0 = 0 ∨ 64 < fld v 6 0 ∨ anyContract s = true) →
        exec (.canvasSizeWrite v) s = .next s))
  ∧ (∀ (a : Agent) (v : Word) (s : State), s.domainOn 36 = true →
    let sel := s.sel a Off.sclSel
    let set := fld sel 3 0
    let axis := fld sel 16 16
    let w := v &&& 0x0FFF0FFF#32
    (coefBusy s set axis = true → exec (.sclData3Write a v) s = .next (setStatus s Off.compStatus 1))
    ∧ (coefBusy s set axis = false → set < 4 → exec (.sclData3Write a v) s = .next s)
    ∧ (coefBusy s set axis = false → 4 ≤ set → tapsOk axis (dataTaps s w) = true → ∃ t, exec (.sclData3Write a v) s = .next t
        ∧ (∀ k, mget [] t.comp.taps k = if k = phaseKey set axis (fld sel 13 8) then dataTaps s w else mget [] s.comp.taps k)
        ∧ (mget 0 t.comp.loaded (halfKey set axis)).getLsbD (fld sel 13 8) = true ∧ t.reg (Off.sclData 3) = w ∧ t.mem = s.mem)
    ∧ (coefBusy s set axis = false → 4 ≤ set → tapsOk axis (dataTaps s w) = false →
        exec (.sclData3Write a v) s = .next (setStatus (s.setReg (Off.sclData 3) w) Off.compStatus 2)))
  ∧ (∀ (v : Word) (a : Agent) (s : State), s.domainOn 36 = false →
    exec (.canvasSizeWrite v) s = .next s ∧ exec (.sclData3Write a v) s = .next s))
  ∧ (∀ (sq : Fin 1024) (d : Desc) (bs : List Byte) (s t : State) (ref : CmdRef), Starts s sq d ref t →
    let n := descFld d 8 1
    let c := t.contract n
    let i := descFld d 9 1
    n < 64 → linkUp t = true →
    (hdrOk d 0x19 [(8, 2), (16, 8)] = true → i < 8 → driftOk bs = true → placeFree t.corr.drifts (8 * n + i) 1024 (isProposed t n) = true →
      (c.state = .proposed → exec (.driftTableLoad sq d (.ok bs)) s
        = .next (complete (modDrift t (8 * n + i) (putForce (driftTable bs))) ref St.ok fromFirst 0 0))
      ∧ ((c.state = .committed ∨ c.state = .running) → exec (.driftTableLoad sq d (.ok bs)) s
        = .next (completeDeferred (defer_ (modDrift t (8 * n + i) (putWait (driftTable bs))) n { change := .drift i, wait := some ref }) ref n)))
    ∧ (hdrOk d 0x1A [(8, 2), (16, 8)] = true → i < 4 → bs.length = 24576 → placeFree t.corr.curves (4 * n + i) 128 (isProposed t n) = true →
      (c.state = .proposed → exec (.curveLoad sq d (.ok bs)) s
        = .next (complete (modCurve t (4 * n + i) (putForce (words16 bs 0 12288))) ref St.ok fromFirst 0 0))
      ∧ ((c.state = .committed ∨ c.state = .running) → exec (.curveLoad sq d (.ok bs)) s
        = .next (completeDeferred (defer_ (modCurve t (4 * n + i) (putWait (words16 bs 0 12288))) n { change := .curve i, wait := some ref })
            ref n)))
    ∧ (∀ e r, hdrOk d 0x18 [(8, 1), (16, 12)] = true → bs.length = descFld d 24 4 → 64 ≤ bs.length →
      endpointAt c (leAt bs 0 2) = some e → parseCoef e bs = some r →
      (coefAllocated (coefStore t n e.slot) = true ∨ fits t (2 * coefStoreBytes e) = true) →
      let p := pendingStore (coefStore (allocCoef t n e) n e.slot) e
      let planes := bs.drop 64
      (c.state = .proposed → ∃ u, exec (.coefLoad sq d (.ok bs)) s = .next (complete u ref St.ok fromFirst 0 0)
        ∧ (coefStore u n e.slot).inForce = some r ∧ u.contracts = t.contracts
        ∧ (∀ a, (a < p ∨ p + planes.length ≤ a) → memByte u a = memByte t a)
        ∧ (memBad t p planes.length = false → ∀ i < planes.length, memByte u (p + i) = planes.getD i 0))
      ∧ ((c.state = .committed ∨ c.state = .running) → ∃ u, exec (.coefLoad sq d (.ok bs)) s = .next (completeDeferred u ref n)
        ∧ (coefStore u n e.slot).pending = some r ∧ (coefStore u n e.slot).inForce = (coefStore t n e.slot).inForce
        ∧ (∀ a, (a < p ∨ p + planes.length ≤ a) → memByte u a = memByte t a)
        ∧ (memBad t p planes.length = false → ∀ i < planes.length, memByte u (p + i) = planes.getD i 0))))

/-! ## Per-lamp correction (chapter 6) -/

/-- R139, R140, R141, R142: with the unit matrix, unit gains, no curve and 16 bits a lamp's value passes unchanged up to the last curve
entry; every drive code fits its depth; a matrix channel that leaves 0-65,535 is counted and clipped. R150: a gain moves by at most the
slew towards its target and reaches it when it is no further.
R117, R123, R526: at every phase the taps of the built-in scaler sets sum to 1,024; a stored linear value lies within 2 codes of the
exact one rounded, for HLG within 4, and a linear source passes as it is (what lies within these bounds is free, log entry 4). -/
def Obligations.CorrectionAndScalerArithmetic : Prop :=
  ((∀ (rgb : List Nat) (dither n lx ly : Nat), rgb.length = 3 → (∀ v ∈ rgb, v < 65520) →
    correctLamp [16384, 0, 0, 0, 16384, 0, 0, 0, 16384] [32768, 32768, 32768] none dither 16 n lx ly rgb = (rgb, 0))
  ∧ (∀ (m : List Int) (gains rgb : List Nat) (curve : Option (List Nat)) (dither n lx ly b : Nat), b = 8 ∨ b = 10 ∨ b = 12 ∨ b = 14 →
    ∀ v ∈ (correctLamp m gains curve dither b n lx ly rgb).1, v < 2 ^ b)
  ∧ (∀ (m : List Int) (rgb : List Nat), (matrixStage m rgb).1.length = 3 ∧ (∀ v ∈ (matrixStage m rgb).1, v ≤ 65535)
    ∧ ((matrixStage m rgb).2 = 0 ↔ ∀ i < 3, 0 ≤ matrixAcc m i rgb ∧ matrixAcc m i rgb ≤ 65535))
  ∧ (∀ (slew : Nat) (g target : Int), 0 < slew → (driftStep slew g target - g).natAbs ≤ slew
    ∧ ((target - g).natAbs ≤ slew → driftStep slew g target = target) ∧ ((driftStep slew g target - target).natAbs ≤ (g - target).natAbs)))
  ∧ ((∀ (s : State) (set axis win wout ph : Nat), set < 4 → axis < 2 → ph < 64 →
    (List.range 8).foldl (fun a t => a + scaleTap s set axis win wout ph t) 0 = 1024)
  ∧ (∀ (nits white : Nat) (rgb : List Nat),
    linearise nits white 8 rgb = rgb
    ∧ (∀ i, i < rgb.length → (((linearise nits white 16 rgb).getD i 0 : Nat) - eotfPq nits (rgb.getD i 0)).natAbs ≤ 2)
    ∧ (∀ k i, k ∈ [1, 6, 14, 15] → i < rgb.length →
        (((linearise nits white k rgb).getD i 0 : Nat) - eotfSdr nits white (rgb.getD i 0)).natAbs ≤ 2)
    ∧ (∀ i e, i < 3 → eotfHlg nits rgb i = some e → (((linearise nits white 18 rgb).getD i 0 : Nat) - e).natAbs ≤ 4)))

/-! ## Sward and the encoder cores (chapters 7 and 8) -/

/-- R158: the forward transform is the reversible YCoCg-R transform with a shift towards minus infinity, it is exact in both directions,
and it takes R, G and B of b bits into the ranges of Table 7-2. -/
def Obligations.ColourTransformIsReversible : Prop :=
  (∀ r g b : Int, ycocg (r, g, b) = (b + (r - b) >>> 1 + (g - (b + (r - b) >>> 1)) >>> 1, r - b, g - (b + (r - b) >>> 1)))
  ∧ (∀ y co cg : Int, unYcocg (y, co, cg) = (y - cg >>> 1 - co >>> 1 + co, cg + (y - cg >>> 1), y - cg >>> 1 - co >>> 1))
  ∧ (∀ p : Px, unYcocg (ycocg p) = p ∧ ycocg (unYcocg p) = p)
  ∧ (∀ (w : Nat) (r g b : Int), 0 ≤ r → r ≤ 2 ^ w - 1 → 0 ≤ g → g ≤ 2 ^ w - 1 → 0 ≤ b → b ≤ 2 ^ w - 1 →
      let p := ycocg (r, g, b)
      0 ≤ p.1 ∧ p.1 ≤ 2 ^ w - 1 ∧ -(2 ^ w - 1) ≤ p.2.1 ∧ p.2.1 ≤ 2 ^ w - 1 ∧ -(2 ^ w - 1) ≤ p.2.2 ∧ p.2.2 ≤ 2 ^ w - 1)

/-- R166, R167: a reconstructed sample lies within the quantiser's bound q of its source and in the range of its component.
R173, R174, R175: every code word that an encoder writes for a residual or a vector is read back as what it stands for, and the bits
after it are left. -/
def Obligations.SwardCodesReadBack : Prop :=
  (∀ (x p lo hi : Int) (q : Nat), lo ≤ x → x ≤ hi → (recon p (quant x p q) q lo hi - x).natAbs ≤ q ∧ lo ≤ recon p (quant x p q) q lo hi
      ∧ recon p (quant x p q) q lo hi ≤ hi)
  ∧ ((∀ (b : Nat) (x : Ctx) (e : Int) (rest : List Bool), foldM e < 2 ^ (b + 2) → readResidual b x (putResidual b x e ++ rest) = some (e, rest))
  ∧ (∀ (v : Int) (rest : List Bool), v.natAbs ≤ 255 → readSe (putSe v ++ rest) = some (v, rest))
  ∧ (∀ (p v : Int × Int) (rest : List Bool), (-64 ≤ v.1 ∧ v.1 ≤ 63 ∧ -32 ≤ v.2 ∧ v.2 ≤ 31) → (-64 ≤ p.1 ∧ p.1 ≤ 63 ∧ -32 ≤ p.2 ∧ p.2 ≤ 31) →
      readMv p (putMv p v ++ rest) = some (v, rest)))

/-- R163, R167, R173: what a decoder reads from the bits that code a tuft's samples is what the encoder reconstructed, with the same context
after it, for every prediction from the samples before, every quantiser step and every starting context. -/
def Obligations.SamplesReadBack : Prop :=
  ∀ (b q : Nat) (lo hi : Int) (pred : List Int → Nat → Int) (vs acc : List Int) (x : Ctx) (rest : List Bool),
    hi - lo < 2 ^ (b + 1) → (∀ v ∈ vs, lo ≤ v ∧ v ≤ hi) → (∀ a j, lo ≤ pred a j ∧ pred a j ≤ hi) →
    let o := putSamples b q lo hi pred vs acc x []
    readSamples b q lo hi pred vs.length acc x (o.1.flatten ++ rest) = some (o.2.1, o.2.2, rest)
      ∧ o.2.1.length = acc.length + vs.length

/-- R192, R287, R197, R296: an encoder core finishes the stripe it codes and goes on; a core that waits for a credit tries again, where its
claim may meet a pointer mismatch of a ring; a new core's copied rows end its copying. R195: a stripe answers the mark of its position at its
start and uses it up. A core that does none of this changes nothing. -/
def Obligations.EncoderCoresFinish : Prop :=
  ∀ (core : Fin 16) (cols : List Nat) (mm : Option (Fin 32)) (s : State),
    ((s.encCore core.val).jobs = [] → exec (.stripeComplete core cols mm) s = .next s)
    ∧ (((s.encCore core.val).act ≠ 1 ∨ s.serving = false) → exec (.stripeComplete core cols mm) s = .next s)
    ∧ (∀ j js e, (s.encCore core.val).jobs = j :: js → (s.encCore core.val).act = 1 → s.serving = true →
        endpointAt (s.contract j.contract) j.slot = some e → exec (.stripeComplete core cols none) s
          = .next (encKick (finishStripe s core.val e j cols) core.val)
          ∧ ((finishStripe s core.val e j cols).encCore core.val).jobs = js
          ∧ ((finishStripe s core.val e j cols).encCore core.val).act = 0)
    ∧ ((s.encCore core.val).act = 2 → s.serving = true → exec (.granuleClaimGrant core none) s = .next (encKick s core.val)
        ∧ ∀ p, exec (.granuleClaimGrant core (some p)) s = .next (encKick (ringReset s (headContract s core.val) p.val) core.val))
    ∧ (((s.encCore core.val).act ≠ 2 ∨ s.serving = false) → exec (.granuleClaimGrant core mm) s = .next s)
    ∧ (((s.encCore core.val).copying = [] ∨ s.serving = false) → exec (.copyDone core) s = .next s)
    ∧ ((s.encCore core.val).copying ≠ [] → s.serving = true → ∃ t, exec (.copyDone core) s = .next t
        ∧ (t.encCore core.val).copying = [] ∧ t.contracts = s.contracts
        ∧ ((s.encCore core.val).act = 1 → (t.encCore core.val).jobs = (s.encCore core.val).jobs))
    ∧ (∀ e j, let b := beginStripe s e j
        b.2.repair = repairMarked s j ∧ b.2.intra = codesIntra s e j ∧ repairMarked b.1 j = false)

/-- R211, R217, R212: `PROXY_START` needs a COMMITTED or RUNNING contract and a STOPPED proxy, and makes it RUNNING with its fields;
`PROXY_STOP` of a RUNNING one lets the picture in progress finish; the proxy is then STOPPED and no `PROXY_STOP` waits.
A capture takes one of two buffers; while `THROTTLED` is set nothing is encoded (R68).
R218: a write of `PRX_LUT_DATA` while the proxy is STOPPED sets the entry that the agent's index names and moves the index on; while it
runs, or while its domain is not ON, it changes nothing. -/
def Obligations.ProxyRunsAndStops : Prop :=
  ((∀ (sq : Fin 1024) (d : Desc) (s t : State) (ref : CmdRef), Starts s sq d ref t →
    (prxFields t d = true → prxStates t d = false → exec (.proxyStart sq d) s = .next (completeWith t ref St.stateConflict))
    ∧ (prxFields t d = true → prxStates t d = true → prxFits (t.contract (descFld d 8 1)) d = false →
        exec (.proxyStart sq d) s = .next (completeWith t ref St.invalidField))
    ∧ (prxFields t d = true → prxStates t d = true → prxFits (t.contract (descFld d 8 1)) d = true → ∃ u,
        exec (.proxyStart sq d) s = .next (completeWith u ref St.ok) ∧ u.prx.state = .running ∧ u.prx.contract = descFld d 8 1
          ∧ u.prx.captures = [] ∧ u.prx.needIdr = true ∧ u.prx.lut = t.prx.lut ∧ u.mem = t.mem ∧ u.regs = t.regs ∧ u.contracts = t.contracts)
    ∧ (hdrOk d 0x49 [] = true →
        (t.prx.state = .stopped → exec (.proxyStop sq d) s = .next (completeWith t ref St.ok))
        ∧ (t.prx.state = .running → ∃ u, exec (.proxyStop sq d) s = .next u ∧ u.prx.state = .stopping
            ∧ u.prx.stopRefs = t.prx.stopRefs ++ [ref] ∧ u.prx.captures = t.prx.captures.take 1 ∧ u.prx.due = [] ∧ u.mem = t.mem
            ∧ u.rings = t.rings)
        ∧ (t.prx.state = .stopping → exec (.proxyStop sq d) s
            = .next (t.modPrx fun p => { p with stopRefs := p.stopRefs ++ [ref] }))))
  ∧ (∀ (s : State), (s.prx.due = [] → exec .proxyCaptureStart s = .next s)
    ∧ (∀ n ns, s.prx.due = n :: ns → s.pwr.over105 = false → s.pwr.throttled = false → s.prx.captures.length < 2 →
        exec .proxyCaptureStart s = .next (s.modPrx fun p => { p with
          due := ns, captures := p.captures ++ [⟨n, capturePlanes s (s.contract s.prx.contract) n⟩] }))
    ∧ (s.prx.captures = [] → exec .proxyAuDone s = .next s)
    ∧ (s.pwr.throttled = true → exec .proxyAuDone s = .next s)
    ∧ (∀ n ns, s.prx.captures = n :: ns → s.prx.state ≠ .stopped → s.pwr.throttled = false → ∃ t, exec .proxyAuDone s = .next t
        ∧ t.prx.captures = ns ∧ t.mem = s.mem ∧ t.contracts = s.contracts)
    ∧ (s.prx.state ≠ .stopping → exec .proxyStopDone s = .next s)
    ∧ (s.prx.state = .stopping → ∃ t, exec .proxyStopDone s = .next t ∧ t.prx.state = .stopped ∧ t.prx.captures = [] ∧ t.prx.stopRefs = [])))
  ∧ (∀ (a : Agent) (v : Word) (s : State), let k := (s.sel a Off.prxLutSel).toNat % 4096
    (s.prx.state = .stopped → s.domainOn 37 = true → ∃ t, exec (.prxLutDataWrite a v) s = .next t
      ∧ (∀ j, prxLut t j = if j = k then v.setWidth 10 else prxLut s j) ∧ t.sel a Off.prxLutSel = BitVec.ofNat 32 ((k + 1) % 4096)
      ∧ t.regs = s.regs ∧ t.mem = s.mem)
    ∧ ((s.prx.state ≠ .stopped ∨ s.domainOn 37 = false) → exec (.prxLutDataWrite a v) s = .next s))

/-! ## Drovers (chapter 9) -/

/-- R239, R52, R53: a good map image is re-admitted; accepted on a PROPOSED contract it is in force at once; refused, it
completes `CONTRACT_REFUSED`. R253: an object image that fails its verification is `INVALID_FIELD` with its check code, and no drover
changes; a good one is loaded into every drover of the mask; drovers whose images use the common are a `STATE_CONFLICT`. -/
def Obligations.MapAndMicrocodeLoads : Prop :=
  (∀ (sq : Fin 1024) (d : Desc) (bs : List Byte) (s t : State) (ref : CmdRef), Starts s sq d ref t →
    hdrOk d 0x20 [(8, 1), (16, 12), (32, 8)] = true → descFld d 8 1 < 64 → descFld d 32 8 % 64 = 0 →
    let n := descFld d 8 1
    let img := parseImage bs
    let v := readmit t n { t.contract n with deferred := (t.contract n).deferred ++ [{ change := .map img }] }
    linkUp t = true → loadState (t.contract n) = true → bs.length = descFld d 24 4 → imageOk t (t.contract n) bs = true → fits t bs.length = true →
    (v.reason = 0 → (t.contract n).state = .proposed → ∃ u, exec (.mapLoad sq d (.ok bs)) s = .next (complete u ref St.ok fromFirst 0 0)
        ∧ ∃ m, mget none (u.contract n).maps img.slot = some m ∧ m = { img with base := m.base })
    ∧ (v.reason ≠ 0 → exec (.mapLoad sq d (.ok bs)) s
        = .next (complete (writeReport t (descFld d 32 8) v) ref St.contractRefused (v.reason + 256 * v.detail) 0 0)))
  ∧ (∀ (sq : Fin 1024) (d : Desc) (bs : List Byte) (mm : BitVec 32) (bw : BitVec 14) (s t : State) (ref : CmdRef), Starts s sq d ref t →
    hdrOk d 0x21 [(12, 16)] = true → linkUp t = true →
    (ucodeConflict t (descFld d 12 4) = true → exec (.ucodeLoad sq d (.ok bs) mm bw) s = .next (completeWith t ref St.stateConflict))
    ∧ (ucodeConflict t (descFld d 12 4) = false → bs.length = descFld d 24 4 → (verifyUcode t bs).1 ≠ 0 → ∃ u,
        exec (.ucodeLoad sq d (.ok bs) mm bw) s = .next (complete u ref St.invalidField (verifyUcode t bs).1 (verifyUcode t bs).2 0)
          ∧ (∀ p, u.drover p = t.drover p) ∧ u.mem = t.mem ∧ u.regs = t.regs)
    ∧ (ucodeConflict t (descFld d 12 4) = false → bs.length = descFld d 24 4 → (verifyUcode t bs).1 = 0 → mm = 0 → ∃ u,
        exec (.ucodeLoad sq d (.ok bs) mm bw) s = .next (complete u ref St.ok 0 0 0)
          ∧ (∀ p < 32, (u.drover p).store = (if (descFld d 12 4).testBit p then loadedCommon bs else (t.drover p).store)
              ∧ (u.drover p).disp = (if (descFld d 12 4).testBit p then loadedDisp bs else (t.drover p).disp))
          ∧ u.mem = t.mem ∧ u.regs = t.regs))

/-- R222, R225, R226: what one microword does to the registers: an addition writes its destination alone and sets Z and C, a word without an
operation changes no register and no flag; the next address is the one after, or that of a jump, a call or a return that is taken, and a call
pushes and a return pops the stack. R227: a stalled word goes on when its stall is released, a `PACK` once the pixels that it takes are delivered (R230); R295: a pointer
mismatch of the assembly FIFO resets it; R249: a reloaded drover returns to idle; R223, R236: a lookup that hits gives the command its MAC. A drover that does not run changes nothing. -/
def Obligations.DroversExecuteWords : Prop :=
  (∀ (dr : Fin 32) (ev : DroverEvent) (s : State), (droverLive s dr.val = false → ev ≠ .asmMismatch → exec (.droverMicroword dr ev) s = .next s
      ∧ exec (.stallRelease dr) s = .next s ∧ exec (.learningLookupReturn dr) s = .next s)
    ∧ (droverLive s dr.val = true → (s.drover dr.val).act = .stall → exec (.droverMicroword dr .none) s = .next s
      ∧ exec (.stallRelease dr) s = .next (droverGo s dr.val (pbNeed s dr.val) false))
    ∧ (s.serving = true → exec (.droverMicroword dr .asmMismatch) s = .next (asmReset s dr.val))
    ∧ (droverLive s dr.val = true → (s.drover dr.val).act ≠ .stall → exec (.stallRelease dr) s = .next s
      ∧ exec (.droverMicroword dr .none) s = .next (droverGo s dr.val 0 false))
    ∧ ((s.drover dr.val).act = .halted → s.domainOn (drvDomain dr.val) = true → exec (.droverReloadDone dr) s
        = .next (s.modDrover dr.val fun x => { x with act := .idle }))
    ∧ ((s.drover dr.val).act ≠ .halted → exec (.droverReloadDone dr) s = .next s)
    ∧ (∀ l m e, droverLive s dr.val = true → runningCmd s dr.val = some (l, m) → (s.drover dr.val).lkDone = false →
        lookupSlot s m.e.slot = some e → exec (.learningLookupReturn dr) s
          = .next (s.modDrover dr.val fun x => { x with lkDone := true, lkMac := some e.mac })))
  ∧ (∀ (k : DCtx) (free : Nat) (r : DReg), let a := operand k (Mw.srcA k.w)
    let b := operand k (Mw.srcB k.w)
    let o := Mw.dst k.w
    (Mw.alu k.w = 2 → 1 ≤ o → o < 16 → mget 0 (wordRegs k free r).v o = a + b
      ∧ (∀ j, j ≠ o → mget 0 (wordRegs k free r).v j = mget 0 r.v j) ∧ (wordRegs k free r).z = decide (a + b = 0)
      ∧ (wordRegs k free r).c = decide (2 ^ 32 ≤ a.toNat + b.toNat))
    ∧ (Mw.alu k.w = 0 → (wordRegs k free r).v = r.v ∧ (wordRegs k free r).z = k.x.reg.z ∧ (wordRegs k free r).c = k.x.reg.c)
    ∧ (Mw.nam k.w = 0 → (wordRegs k free r).pc = (r.pc + 1) % 16384 ∧ (wordRegs k free r).stack = r.stack)
    ∧ (Mw.nam k.w = 1 → taken k = true → (wordRegs k free r).pc = Mw.target k.w ∧ (wordRegs k free r).stack = r.stack)
    ∧ (Mw.nam k.w = 2 → taken k = true → (wordRegs k free r).pc = Mw.target k.w ∧ (wordRegs k free r).stack = (r.pc + 1) % 16384 :: r.stack)
    ∧ (Mw.nam k.w = 3 → taken k = true → ∀ p ps, r.stack = p :: ps → (wordRegs k free r).pc = p ∧ (wordRegs k free r).stack = ps))

/-! ## Egress, buffer pools, scheduler (chapters 10 to 12) -/

/-- R325, R334, R394: a well-formed message command takes a message id and is offered; without a route and not
held it completes `INVALID_FIELD`; a second held message of its tag is a `STATE_CONFLICT`. R301: an offered message whose owner finds a
buffer goes on to its payload, else it waits and sets `POOL_STATUS.ALLOC_WAIT`.
R395: a launch slot sends the held message of its tag, which leaves the list, and is tallied (999) where there is none; a message
held for 60 s is freed and completes `TIMEOUT`, not before. R301: the first waiting message that finds a buffer goes on. -/
def Obligations.MessagesAreSentOrHeld : Prop :=
  (∀ (sq : Fin 1024) (d : Desc) (h : HostData) (s t : State) (ref : CmdRef), Starts s sq d ref t →
    let u := (drawFree t).2
    let id := (drawFree t).1 % 2 ^ 32
    (hdrOk d 0x28 [(8, 24)] = true → msgFields d 10 11 12 = true → descFld d 8 2 < 16384 →
      ((descFld d 13 1).testBit 1 = true → tagHeld t ref.sq ref.cid = true →
        exec (.endpointSend sq d h) s = .next (completeWith t ref St.stateConflict))
      ∧ (((descFld d 13 1).testBit 1 = false ∨ tagHeld t ref.sq ref.cid = false) → h ≠ .badList → exec (.endpointSend sq d h) s
          = .next (offerMessage u (msgOf ref d id false 10 11 12) h)))
    ∧ (hdrOk d 0x29 [(8, 5), (13, 24)] = true → msgFields d 34 35 36 = true → descFld d 12 1 ≤ 32 → descFld d 32 2 < 16384 →
      ((descFld d 13 1).testBit 1 = true → tagHeld t ref.sq ref.cid = true →
        exec (.regionSend sq d h) s = .next (completeWith t ref St.stateConflict))
      ∧ (((descFld d 13 1).testBit 1 = false ∨ tagHeld t ref.sq ref.cid = false) → h ≠ .badList → exec (.regionSend sq d h) s
          = .next (offerMessage u (msgOf ref d id true 34 35 36) h))))
  ∧ (∀ (s : State) (m : HeldMsg) (h : HostData), (m.hold = false → route s m = none → offerMessage s m h = completeWith s m.ref St.invalidField)
    ∧ ((m.hold = true ∨ (route s m).isSome = true) → let w := { m with owner := msgOwner s m }
      (canAlloc s.buf (poolFor (msgLen m)) w.owner = true → offerMessage s m h = grantMessage s w h)
      ∧ (canAlloc s.buf (poolFor (msgLen m)) w.owner = false → (offerMessage s m h).eg.waiting = s.eg.waiting ++ [w]
          ∧ bit ((offerMessage s m h).reg Off.poolStatus) 1 = true ∧ (offerMessage s m h).buf = s.buf ∧ (offerMessage s m h).mem = s.mem)))
  ∧ (∀ (k : Fin 8192) (s : State) (l : LSlot), Fires s k 0xB l → let u := fireSlot s k.val
    (heldOf u (l.arg / 65536) (l.arg % 65536) = none → exec (.messageRelease k) s = .next (tallyAdd u 999 1))
    ∧ (∀ m p h, heldOf u (l.arg / 65536) (l.arg % 65536) = some m → m.buf = some (p, h) →
        exec (.messageRelease k) s = .next (sendMessage (unhold u m) m p h)))
  ∧ (∀ (sq : Fin 1024) (cid : BitVec 16) (s : State),
    (heldOf s sq.val cid.toNat = none → exec (.heldMessageTimeout sq cid) s = .next s)
    ∧ (∀ m, heldOf s sq.val cid.toNat = some m → s.wt.now < m.since + 9600000000 → exec (.heldMessageTimeout sq cid) s = .next s)
    ∧ (∀ m p h, heldOf s sq.val cid.toNat = some m → m.since + 9600000000 ≤ s.wt.now → m.buf = some (p, h) →
        exec (.heldMessageTimeout sq cid) s = .next (completeWith (freeBuf (unhold s m) p h) m.ref St.timeout)))
  ∧ (∀ (s : State) (h : HostData), (s.eg.waiting = [] → exec (.poolAllocGrant h) s = .next s)
    ∧ (∀ m, s.eg.waiting.find? (fun m => canAlloc s.buf (poolFor (msgLen m)) m.owner) = some m →
        exec (.poolAllocGrant h) s = .next (grantMessage (s.modEg fun e => { e with waiting := e.waiting.erase m }) m h)))

/-- R303: a handle cache below 256 takes 256 handles from the free ring, where it has them, and one above 768 gives 256 back; nothing else
moves a handle. R297: a frame of n bytes takes the smallest pool that holds it. R302: a buffer whose count is above 1 stays, with one
reference less.
R319, Table 12-7: a write of an access starts it where none is under way; the engine then reads or writes the selected queue's configuration
or reads its state, `GO` clears, and a `WRITE_CFG` out of range or of class 0 sets `ERR` and changes no queue.
R309: an idle port whose link is up sends its own frames first, up to two in a row where others wait, and the BLANK of 120 °C
before all (R479); then class 0; a port that is sending goes on. R314: a queue without a shaping rate is always eligible; tokens never exceed the burst. R318: the head of a class 1-3
queue that is older than its limit is dropped, and no other frame is.
R258: the link of a port rises where its domain is on, it is enabled, its cage holds a module in normal power mode and the module
runs; it falls with `LINK_DOWN` set. R272, R281, Table 10-14: a write of `EG_PORT_CFG` that is in range
and of a port without an endpoint is stored; a change of speed or FEC or a cleared `EN` brings the link down. -/
def Obligations.PoolsPortsAndScheduler : Prop :=
  ((∀ (p : Fin 3) (s : State), let x := s.pool p.val
    (x.cache < 256 → x.cache + 256 ≤ freeBufs s.buf p.val → ∃ t, exec (.poolCacheRefill p) s = .next t ∧ (t.pool p.val).cache = x.cache + 256
      ∧ (t.pool p.val).bufs = x.bufs ∧ t.regs = s.regs ∧ t.mem = s.mem)
    ∧ ((256 ≤ x.cache ∨ freeBufs s.buf p.val < x.cache + 256) → exec (.poolCacheRefill p) s = .next s)
    ∧ (768 < x.cache → ∃ t, exec (.poolCacheSpill p) s = .next t ∧ (t.pool p.val).cache = x.cache - 256 ∧ (t.pool p.val).bufs = x.bufs
      ∧ t.regs = s.regs ∧ t.mem = s.mem)
    ∧ (x.cache ≤ 768 → exec (.poolCacheSpill p) s = .next s))
  ∧ (∀ n : Nat, (n ≤ 256 → poolFor n = 0) ∧ (256 < n → n ≤ 2048 → poolFor n = 1) ∧ (2048 < n → poolFor n = 2))
  ∧ (∀ (s : State) (p h : Nat), 1 < (mget {} (s.pool p).bufs h).refs → p < 3 → (mget {} ((decRef s p h).pool p).bufs h).refs
      = (mget {} (s.pool p).bufs h).refs - 1))
  ∧ ((∀ s : State, (schedGo s = true → exec .readCfg s = .next s ∧ exec .writeCfg s = .next s ∧ exec .readState s = .next s)
    ∧ (schedGo s = false → ∀ p ∈ [(Instr.readCfg, 0), (.writeCfg, 1), (.readState, 2)], ∃ t, exec p.1 s = .next t ∧ schedGo t = true
        ∧ fld (t.reg Off.schedAcc) 1 0 = p.2 ∧ (∀ off, off ≠ Off.schedAcc → t.reg off = s.reg off) ∧ t.qcfg = s.qcfg ∧ t.mem = s.mem))
  ∧ (∀ s : State, (schedGo s = false → exec .schedAccDone s = .next s)
    ∧ (schedGo s = true → fld (s.reg Off.schedAcc) 1 0 = 1 → let q := fld (s.reg Off.schedQSel) 15 0
        (q % 4 ≠ 0 → qcfgOk (schedNewCfg s) = true → ∃ t, exec .schedAccDone s = .next t ∧ schedGo t = false
          ∧ bit (t.reg Off.schedAcc) 30 = false ∧ (∀ j, t.queueCfg j = if j = q then schedNewCfg s else s.queueCfg j))
        ∧ ((q % 4 = 0 ∨ qcfgOk (schedNewCfg s) = false) → ∃ t, exec .schedAccDone s = .next t ∧ schedGo t = false
          ∧ bit (t.reg Off.schedAcc) 30 = true ∧ t.qcfg = s.qcfg))
    ∧ (schedGo s = true → fld (s.reg Off.schedAcc) 1 0 = 0 → fld (s.reg Off.schedQSel) 15 0 % 4 ≠ 0 → ∃ t, exec .schedAccDone s = .next t
        ∧ schedGo t = false ∧ t.reg (Off.schedData 2) = w32 (s.queueCfg (fld (s.reg Off.schedQSel) 15 0)).polRate ∧ t.qcfg = s.qcfg)
    ∧ (schedGo s = true → fld (s.reg Off.schedAcc) 1 0 = 2 → s.domainOn (46 + fld (s.reg Off.schedQSel) 28 24 / 4) = false →
        ∃ t, exec .schedAccDone s = .next t ∧ schedGo t = false ∧ bit (t.reg Off.schedAcc) 30 = true)))
  ∧ ((∀ (s : State) (p : Nat), (s.port p).linkUp = true → (s.port p).current = none →
    (∀ f fs, (s.port p).portQ = f :: fs → (f.first = true ∨ (s.port p).builtRun < 2 ∨ queuedReady s (s.port p) = false) →
      ∃ g, ((portGo s p).port p).current = some g ∧ g = { f with bytes := g.bytes } ∧ ((portGo s p).port p).portQ = fs
        ∧ ((portGo s p).port p).class0 = (s.port p).class0)
    ∧ (∀ g gs, ((s.port p).portQ = [] ∨ (2 ≤ (s.port p).builtRun ∧ ((s.port p).portQ.head?.all fun f => !f.first) = true)) → (s.port p).class0 = g :: gs →
      ∃ h, ((portGo s p).port p).current = some h ∧ h = { g with bytes := h.bytes } ∧ ((portGo s p).port p).class0 = gs
        ∧ ((portGo s p).port p).portQ = (s.port p).portQ))
  ∧ (∀ (s : State) (p : Nat), ((s.port p).current ≠ none ∨ (s.port p).linkUp = false) → portGo s p = s)
  ∧ (∀ (p : Fin 32) (parity : Bool) (s : State), ((s.port p.val).current = none → exec (.frameTxEnd p parity) s = .next s)
    ∧ (∀ f, (s.port p.val).current = some f → f.src = .port → f.msg = none → exec (.frameTxEnd p parity) s
        = .next (portGo (traceSent (countSent (s.modPort p.val fun x => { x with current := none }) p.val f) f) p.val)))
  ∧ (∀ (p : Fin 32) (q : Fin 65536) (s : State), ((qstate (s.port p.val) q.val).frames = [] →
      exec (.shaperTokensReady p q) s = .next s ∧ exec (.ageDrop p q) s = .next s)
    ∧ (∀ f fs, (qstate (s.port p.val) q.val).frames = f :: fs →
      (eligible s (s.port p.val) q.val f = true → exec (.shaperTokensReady p q) s = .next (portGo s p.val))
      ∧ (eligible s (s.port p.val) q.val f = false → exec (.shaperTokensReady p q) s = .next s)
      ∧ ((q.val % 4 = 0 ∨ s.wt.now ≤ f.enq + ageLimit s (q.val % 4)) → exec (.ageDrop p q) s = .next s)
      ∧ (q.val % 4 ≠ 0 → f.enq + ageLimit s (q.val % 4) < s.wt.now → ∃ u, exec (.ageDrop p q) s = .next (portKick (dropFrame u p.val f .dropped) p.val)
          ∧ (qstate (u.port p.val) q.val).frames = fs ∧ bit (u.reg Off.schedStatus) 0 = true)))
  ∧ (∀ (s : State) (x : Port) (q : Nat) (f : Frame), (s.queueCfg q).shpRate = 0 → eligible s x q f = true)
  ∧ (∀ tokens at_ now rate burst : Nat, grown tokens at_ now rate burst ≤ 12800 * burst))
  ∧ ((∀ (p : Fin 32) (s : State),
    (linkMayRise s p.val = false → exec (.egressLinkUp p) s = .next s)
    ∧ (linkMayRise s p.val = true → (s.port p.val).portQ = [] → (s.port p.val).class0 = [] → (s.port p.val).queues = [] →
        (s.port p.val).current = none → ∃ t, exec (.egressLinkUp p) s = .next t ∧ (t.port p.val).linkUp = true ∧ (t.port p.val).v = 0
          ∧ (∀ q, q ≠ p.val → t.port q = s.port q) ∧ t.regs = s.regs ∧ t.mem = s.mem)
    ∧ ((s.port p.val).linkUp = true → (s.port p.val).portQ = [] → (s.port p.val).class0 = [] → (s.port p.val).queues = [] →
        (s.port p.val).current = none → ∀ lock align, ∃ t, exec (.egressLinkDown p lock align) s = .next t ∧ (t.port p.val).linkUp = false
          ∧ bit (t.reg (Off.egPortStatus p.val)) 0 = true ∧ t.mem = s.mem ∧ t.contracts = s.contracts))
  ∧ (∀ (p : Fin 32) (v : Word) (s : State),
    ((s.domainOn (46 + p.val / 4) = false ∨ portCfgOk v = false ∨ portUsed s p.val = true) → exec (.egPortCfgWrite p v) s = .next s)
    ∧ (s.domainOn (46 + p.val / 4) = true → portCfgOk v = true → portUsed s p.val = false → let old := s.reg (Off.egPortCfg p.val)
        let u := checkPairs (s.setReg (Off.egPortCfg p.val) (v &&& 0x7F1F#32)) p.val
        exec (.egPortCfgWrite p v) s = .next (if fld old 3 0 ≠ fld v 3 0 ∨ bit v 4 = false then linkFall u p.val else u))))

/-- R265, R267: a DELAY_REQ is answered with the tick of its first bit kept for `TURN`, up to 4,096 in a second of wall time, then counted (tally 1000) and not answered; a new second starts at 0.
R279: any frame that is neither a DELAY_REQ nor a TELEMETRY of the port is discarded and counted (tally 1001). R278: a TELEMETRY updates
the endpoint's temperature, teaches the table and goes to the host. R150: an endpoint with no valid reading for `CORR_STALE` is stale.
R39: a port emits a BEACON at every interval. -/
def Obligations.PortsReceiveFrames : Prop :=
  (∀ (p : Fin 32) (bs : List Byte) (age : Word) (ok fec : Bool) (s : State),
    ((s.port p.val).linkUp = false → exec (.egressDelayReqReceive p bs age) s = .next s ∧ exec (.telemetryReceive p bs) s = .next s
      ∧ exec (.rxFrameDiscard p bs ok fec) s = .next s)
    ∧ ((s.port p.val).linkUp = true →
      (rxIs s p.val 5 bs = false → exec (.egressDelayReqReceive p bs age) s = .next (rxDiscard s p.val bs true))
      ∧ (rxIs s p.val 9 bs = false → exec (.telemetryReceive p bs) s = .next (rxDiscard s p.val bs true))
      ∧ (rxIs s p.val 9 bs = true → exec (.telemetryReceive p bs) s = .next (tlmHost (tlmLearn (noteTemp s (beAt bs 18 2) bs) p.val
          (beAt bs 18 2) bs) p.val (beAt bs 18 2) bs))
      ∧ ((ok = false ∨ fec = true ∨ (rxIs s p.val 5 bs = false ∧ rxIs s p.val 9 bs = false)) →
        exec (.rxFrameDiscard p bs ok fec) s = .next (rxDiscard (fecBad s p.val fec) p.val bs (ok && !fec)))
      ∧ (rxIs s p.val 5 bs = true → let u := dreqWindow s p.val
        ((u.port p.val).dreqCount < 4096 → exec (.egressDelayReqReceive p bs age) s
          = .next (sendBuilt (u.modPort p.val fun x => { x with dreqCount := x.dreqCount + 1 }) p.val
            { bytes := delayResp s p.val bs, t2 := some ((s.wt.wall.toNat : Int) * 65536 + s.wt.frac.toNat - age.toNat) }))
        ∧ (4096 ≤ (u.port p.val).dreqCount → exec (.egressDelayReqReceive p bs age) s
          = .next (tallyAdd (setStatus u (Off.egPortStatus p.val) 0x10) 1000 1))))
    ∧ ((s.port p.val).dreqSecond ≠ s.wallNow / 160000000 → exec (.delayReqWindowReset p) s
        = .next (s.modPort p.val fun x => { x with dreqSecond := s.wallNow / 160000000, dreqCount := 0 }))
    ∧ ((s.port p.val).dreqSecond = s.wallNow / 160000000 → exec (.delayReqWindowReset p) s = .next s)
    ∧ (s.serving = true → (s.port p.val).lastBeacon + 160 * fld (s.reg Off.beaconInterval) 13 0 ≤ s.wt.now → exec (.periodicBeacon p) s
        = .next (emitBeacon (s.modPort p.val fun y => { y with lastBeacon := s.wt.now }) p.val))
    ∧ (s.wt.now < (s.port p.val).lastBeacon + 160 * fld (s.reg Off.beaconInterval) 13 0 → exec (.periodicBeacon p) s = .next s))
  ∧ (∀ (slot : Fin 16384) (s : State), let e := mget {} s.corr.eps slot.val
    ((slotEndpoint s slot.val = none ∨ (e.temp = none ∧ e.newest = none) ∨ e.stale = true ∨ s.wt.now < e.lastValid + staleAfter s) →
      exec (.driftStale slot) s = .next s)
    ∧ ((slotEndpoint s slot.val).isSome = true → (e.temp.isSome = true ∨ e.newest.isSome = true) → e.stale = false →
        e.lastValid + staleAfter s ≤ s.wt.now → ∃ t, exec (.driftStale slot) s = .next t ∧ (mget {} t.corr.eps slot.val).stale = true
          ∧ (mget {} t.corr.eps slot.val).gains = e.gains ∧ bit (t.reg Off.corrStatus) 1 = true ∧ t.mem = s.mem ∧ t.contracts = s.contracts))

/-! ## Tables (chapter 13) -/

/-- R326, R336: a well-formed table command enters the learn queue, or the trie, where no audit runs and it finds its place; else it waits in
order. R333: `LPM_INSERT` sets the port set of its prefix and `LPM_DELETE` removes it; the completion reports the number of prefixes;
a trie without room is `NO_RESOURCE`.
R326, R327, R331, R335, R338: the oldest event of the queue is applied while PD61 is on; the sweeper visits one entry when its time has come, clears its hit bit, marks it, and
removes it on the third visit without a hit; a good notice of another module is forwarded and queued, one of its own teaches nothing; an
uncorrectable entry is lost, a bad node hides its prefixes until it is rebuilt. R514: a write of `TBL_SEL` latches the entry.
R334, R338: a lookup gives the longest installed prefix of at most the length asked that contains the WCA and that no bad node hides; none
where there is none. -/
def Obligations.TablesChangeInOrder : Prop :=
  ((∀ (sq : Fin 1024) (d : Desc) (s t : State) (ref : CmdRef), Starts s sq d ref t →
    let go := fun (h : HeldTbl) => if heldReady t h = true ∧ t.tbl.held = [] then runHeld t h
      else t.modTbl fun x => { x with held := x.held ++ [h] }
    (hdrOk d 0x30 [(8, 9)] = true → descFld d 14 2 < 16384 → descFld d 16 1 < 32 →
      exec (.tableLearn sq d) s = .next (go (.ev (.learn ref (descMac d) (descFld d 14 2) (descFld d 16 1)))))
    ∧ (hdrOk d 0x31 [(8, 6)] = true → exec (.tableRemove sq d) s = .next (go (.ev (.remove ref (descMac d)))))
    ∧ (hdrOk d 0x32 [(8, 5), (16, 4)] = true → prefixClean (descFld d 8 4) (descFld d 12 1) = true →
      exec (.lpmInsert sq d) s = .next (go (.lpm ref false ⟨descFld d 8 4, descFld d 12 1, BitVec.ofNat 32 (descFld d 16 4)⟩)))
    ∧ (hdrOk d 0x33 [(8, 5)] = true → prefixClean (descFld d 8 4) (descFld d 12 1) = true →
      exec (.lpmDelete sq d) s = .next (go (.lpm ref true ⟨descFld d 8 4, descFld d 12 1, 0⟩))))
  ∧ (∀ (s : State) (ref : CmdRef) (p : Prefix),
    (trieFits (insertPrefix s.tbl.prefixes p) = true → ∃ u, runHeld s (.lpm ref false p) = complete u ref St.ok u.tbl.prefixes.length 0 0
      ∧ p ∈ u.tbl.prefixes ∧ (∀ q ∈ u.tbl.prefixes, q.wca = p.wca → q.len = p.len → q = p)
      ∧ (∀ q, (q.wca ≠ p.wca ∨ q.len ≠ p.len) → (q ∈ u.tbl.prefixes ↔ q ∈ s.tbl.prefixes)) ∧ u.regs = s.regs ∧ u.mem = s.mem)
    ∧ (trieFits (insertPrefix s.tbl.prefixes p) = false → runHeld s (.lpm ref false p) = completeWith s ref St.noResource)
    ∧ (∃ u, runHeld s (.lpm ref true p) = complete u ref St.ok u.tbl.prefixes.length 0 0
      ∧ (∀ q, q ∈ u.tbl.prefixes ↔ q ∈ s.tbl.prefixes ∧ ¬(q.wca = p.wca ∧ q.len = p.len)) ∧ u.regs = s.regs ∧ u.mem = s.mem)))
  ∧ ((∀ s : State, (s.tbl.queue = [] → exec .learnEventApply s = .next s) ∧ (s.domainOn 61 = false → exec .learnEventApply s = .next s)
    ∧ (∀ q qs, s.tbl.queue = q :: qs → s.domainOn 61 = true →
        exec .learnEventApply s = .next (drainHeld (applyEvent (s.modTbl fun t => { t with queue := qs }) q.ev)))
    ∧ (s.tbl.spread = [] → exec .addNoticeSpreadSend s = .next s)
    ∧ (∀ i is, s.tbl.spread = i :: is → ∃ t, exec .addNoticeSpreadSend s = .next t ∧ t.tbl.spread = is ∧ t.tbl.entries = s.tbl.entries))
  ∧ (∀ s : State, let i := s.tbl.sweep
    let e := mget {} s.tbl.entries i
    (16 * s.wt.now < s.tbl.visitAt → exec .ageSweepVisit s = .next s)
    ∧ (s.tbl.visitAt ≤ 16 * s.wt.now → ∃ t, exec .ageSweepVisit s = .next t ∧ t.tbl.sweep = (i + 1) % 32768
      ∧ t.tbl.visitAt = s.tbl.visitAt + sweepStep s
      ∧ (e.valid = true → e.kind = 0 → e.hit = true → mget {} t.tbl.entries i = { e with hit := false, seenClear := false })
      ∧ (e.valid = true → e.kind = 0 → e.hit = false → e.seenClear = false → mget {} t.tbl.entries i = { e with seenClear := true })
      ∧ (e.valid = true → e.kind = 0 → e.hit = false → e.seenClear = true → (mget {} t.tbl.entries i).valid = false)
      ∧ ((e.valid = false ∨ e.kind ≠ 0) → t.tbl.entries = s.tbl.entries) ∧ t.mem = s.mem ∧ t.contracts = s.contracts))
  ∧ (∀ (e : Fin 2) (bs : List Byte) (s : State), ((foldEn s = false ∨ (s.peer e.val).linkUp = false) → exec (.learnNoticeReceive e bs) s = .next s)
    ∧ (foldEn s = true → (s.peer e.val).linkUp = true → foldFrameOk s 64 bs = true → noticeOk bs = true →
      (u8 bs 2 = moduleNo s → exec (.learnNoticeReceive e bs) s = .next s)
      ∧ (u8 bs 2 ≠ moduleNo s → exec (.learnNoticeReceive e bs) s = .next (offerEvent (forwardFold s e.val bs false) (32 + e.val)
          (.notice (u8 bs 10) (beNat (slice bs 12 6)) (u8 bs 2) (u8 bs 20))))))
  ∧ (∀ (err : TblErr) (j : Fin 4) (i : Nat) (a : Agent) (v : Word) (s : State),
    (s.domainOn 61 = false → exec (.tableEccError err) s = .next s ∧ exec (.tblSelWrite a v) s = .next s)
    ∧ (s.domainOn 61 = true → ∃ t, exec (.tableEccError .corrected) s = .next t ∧ bit (t.reg Off.tblStatus) 5 = true ∧ t.tbl = s.tbl)
    ∧ (∀ k : Fin 32768, s.domainOn 61 = true → ∃ t, exec (.tableEccError (.entry k)) s = .next t ∧ (mget {} t.tbl.entries k.val).valid = false
        ∧ (∀ n, n ≠ k.val → mget {} t.tbl.entries n = mget {} s.tbl.entries n) ∧ bit (t.reg Off.tblStatus) 6 = true)
    ∧ (s.domainOn 61 = true → ∃ t, exec (.tableEccError (.node j i)) s = .next t ∧ t.tbl.badNodes.contains (j.val + 1, i) = true
        ∧ bit (t.reg Off.tblStatus) 6 = true ∧ t.tbl.prefixes = s.tbl.prefixes)
    ∧ (exec (.trieNodeRebuild j i) s = .next (s.modTbl fun t => { t with badNodes := t.badNodes.erase (j.val + 1, i) }))
    ∧ (s.domainOn 61 = true → ∃ t, exec (.tblSelWrite a v) s = .next t ∧ t.sel a Off.tblSel = v &&& 0x40007FFF#32 ∧ t.tbl = s.tbl
        ∧ t.regs = s.regs ∧ t.mem = s.mem)))
  ∧ (∀ (t : Tables) (wca len : Nat) (fit : Prefix → Prop), (∀ p, fit p ↔ p ∈ t.prefixes ∧ p.len ≤ len ∧ contains_ p wca = true
      ∧ reaches t wca (stageOf p.len) = true) →
    (∀ p, lpmLookup t wca len = some p → fit p ∧ ∀ q, fit q → q.len ≤ p.len)
    ∧ (lpmLookup t wca len = none → ∀ q, ¬ fit q))

/-- R336, R337: a well-formed `SHADOW_AUDIT` starts where none runs, else it is a `STATE_CONFLICT`; its end reports every mismatch to the host, counts
them in its completion and lets the waiting table commands go on; with no audit running, or while R68, R478 or a restart of PD61 holds it, the end does nothing. -/
def Obligations.ShadowAuditRuns : Prop :=
  (∀ (sq : Fin 1024) (d : Desc) (bs : List Byte) (s t : State) (ref : CmdRef), Starts s sq d ref t → linkUp t = true → auditFields d = true →
    (t.tbl.audit ≠ none → exec (.shadowAudit sq d (.ok bs)) s = .next (completeWith t ref St.stateConflict))
    ∧ (t.tbl.audit = none → bs.length = 16 * descFld d 24 4 → (auditOf ref d bs).records.all shadowOk = true →
        exec (.shadowAudit sq d (.ok bs)) s = .next (t.modTbl fun x => { x with audit := some (auditOf ref d bs) }))
    ∧ (t.tbl.audit = none → (bs.length ≠ 16 * descFld d 24 4 ∨ (auditOf ref d bs).records.all shadowOk = false) →
        exec (.shadowAudit sq d (.ok bs)) s = .next (completeWith t ref St.invalidField)))
  ∧ (∀ s : State, (s.tbl.audit = none → exec .shadowAuditDone s = .next s)
    ∧ ((s.pwr.over105 = true ∨ s.pwr.throttled = true ∨ s.domainOn 61 = false) → exec .shadowAuditDone s = .next s)
    ∧ (∀ a, s.tbl.audit = some a → s.pwr.over105 = false → s.pwr.throttled = false → s.domainOn 61 = true → exec .shadowAuditDone s = .next (auditEnd s a)
        ∧ (a.records = [] → a.prefixes = false → a.statics = false → ∃ u, auditEnd s a = drainHeld (complete u a.ref St.ok 0 0 0)
            ∧ u.tbl.audit = none ∧ u.tbl.prefixes = s.tbl.prefixes ∧ u.tbl.entries = s.tbl.entries)))

/-! ## The host link and the control window (chapters 14 and 22) -/

/-- R343: in one slot the transmitter sends nothing while the link is DOWN, a management flit in TRAIN, RECOVERY and every 72nd slot, and else a
resent flit, a new DATA flit, or an IDLE flit. R345: every flit sent is 256 bytes with the CRC that a receiver checks.
R346, R347, R348, R352: what a flit received in ACTIVE, DEGRADED or RECOVERY does: a bad one asks for a NAK; a good IDLE flit applies its
acknowledgement and its credits; a good DATA flit in sequence is taken and the expected number moves on, one out of sequence delivers
nothing. R351, R363: in TRAIN only management flits train the link, and a bad flit breaks the run. R349: after 1,024 flit times without progress the flits not acknowledged are sent again; R362: 288 slots without a
management flit lead to RECOVERY. -/
def Obligations.FlitsTravelInSequence : Prop :=
  ((∀ s : State, (s.link.lstate = .down → exec .flitSlot s = .next s)
    ∧ ((s.link.lstate = .train ∨ s.link.lstate = .recovery) → exec .flitSlot s = .next (s.modLink (emitMgmt s)))
    ∧ (carriesData s = true → s.link.slot % 72 = 71 → exec .flitSlot s = .next (s.modLink (emitMgmt s)))
    ∧ (carriesData s = true → s.link.slot % 72 ≠ 71 → ∀ q p rest, s.link.resend = (q, p) :: rest →
        exec .flitSlot s = .next (s.modLink fun l => { emit l 0 q p with resend := rest }))
    ∧ (carriesData s = true → s.link.slot % 72 ≠ 71 → s.link.resend = [] → (512 ≤ s.link.replay.length ∨ dataReady s.link = false) →
        exec .flitSlot s = .next (s.modLink fun l => emit l 1 l.seq []))
    ∧ (carriesData s = true → s.link.slot % 72 ≠ 71 → s.link.resend = [] → s.link.replay.length < 512 → dataReady s.link = true →
        ∃ t p, exec .flitSlot s = .next t ∧ t.link.replay = s.link.replay ++ [(s.link.seq, p)] ∧ t.link.seq = (s.link.seq + 1) % 4096
          ∧ t.link.slot = s.link.slot + 1 ∧ t.regs = s.regs ∧ t.mem = s.mem ∧ t.rings = s.rings))
  ∧ (∀ (ft seq ack cc cn : Nat) (nak : Bool) (p : List Byte), p.length ≤ 244 → flitGood (flitBytes ft seq ack nak cc cn p) = true))
  ∧ ((∀ (f : List Byte) (fec : Bool) (s : State), let h := BitVec.ofNat 32 (leAt f 0 4)
    let v := if fec = true then flitUncorr s else s
    let u := v.modLink fun l => applyCredit (applyAck l (fld h 17 6)) (fld h 4 3) (fld h 2 0)
    (s.link.lstate = .down → exec (.flitReceive f fec) s = .next s)
    ∧ (s.link.lstate = .train →
      (flitGood f = false → exec (.flitReceive f fec) s = .next (v.modLink fun l => { l with nak := true, peerRun := 0 }))
      ∧ (flitGood f = true → (fld h 31 30 = 2 → exec (.flitReceive f fec) s = .next (trainMgmt v (slice f 4 244)))
        ∧ (fld h 31 30 < 2 → exec (.flitReceive f fec) s = .next v)))
    ∧ (s.link.lstate ≠ .down → s.link.lstate ≠ .train →
      (flitGood f = false → exec (.flitReceive f fec) s = .next (v.modLink fun l => { l with nak := true }))
      ∧ (flitGood f = true → bit h 5 = false →
        (fld h 31 30 = 1 → exec (.flitReceive f fec) s = .next u)
        ∧ (fld h 31 30 = 2 → exec (.flitReceive f fec) s = .next (takeMgmt u (slice f 4 244)))
        ∧ (fld h 31 30 = 0 → fld h 29 18 = s.link.expect → ∀ part q, unpackFlit 64 s.link.rxPart (slice f 4 244) [] = some (part, q) →
            ∃ t, exec (.flitReceive f fec) s = .next t ∧ t.link.expect = (s.link.expect + 1) % 4096 ∧ t.link.rxq = s.link.rxq ++ q
              ∧ t.link.rxPart = part ∧ t.regs = v.regs ∧ t.mem = s.mem ∧ t.rings = s.rings)
        ∧ (fld h 31 30 = 0 → fld h 29 18 ≠ s.link.expect → ∃ t, exec (.flitReceive f fec) s = .next t ∧ t.link.rxq = s.link.rxq
              ∧ t.link.expect = s.link.expect ∧ t.regs = v.regs ∧ t.mem = s.mem ∧ t.rings = s.rings))))
  ∧ (∀ (s : State), (carriesData s = true → s.link.ackSlot + 1024 ≤ s.link.slot → s.link.replay ≠ [] → s.link.resends < 8 →
        ∃ t, exec .replayTimeout s = .next t ∧ t.link.resend = s.link.replay ∧ t.link.resends = s.link.resends + 1
          ∧ bit (t.reg Off.linkStatus) 3 = true ∧ t.mem = s.mem)
    ∧ (carriesData s = true → s.link.ackSlot + 1024 ≤ s.link.slot → s.link.replay ≠ [] → 8 ≤ s.link.resends →
        exec .replayTimeout s = .next (enterRecovery s))
    ∧ ((carriesData s = false ∨ s.link.slot < s.link.ackSlot + 1024) → exec .replayTimeout s = .next s)
    ∧ (carriesData s = true → s.link.lastMgmt + 288 ≤ s.link.slot → exec .mgmtTimeout s = .next (enterRecovery s))
    ∧ ((carriesData s = false ∨ s.link.slot < s.link.lastMgmt + 288) → exec .mgmtTimeout s = .next s)))

/-- R362, R363, R364: the link's states. DOWN goes to TRAIN with signal after 10 ms; TRAIN ends after 16 management flits of the adapter in
ACTIVE with four lanes, in DEGRADED with fewer, or in DOWN; RECOVERY, entered only from ACTIVE and DEGRADED, ends in the same ones; the timeouts of TRAIN (100 ms) and RECOVERY (10 ms) and a
retraining lead to DOWN. Nothing acts before its time. R365: DOWN keeps device memory and every contract.
R356, R357, R359: a CPL behind an earlier write in the receive queue waits; one for no read is a protocol error, one for a quarantined tag is discarded and counted (tally 998); one that fits and is not
the last adds its bytes. A read without its last CPL after `CPL_TIMEOUT` fails and its tag is quarantined for 1 s, not before.
R370, Table 14-8: `LINK_CFG` in range is stored, and a change of `LANE_EN` takes the link DOWN; out of range it is ignored. -/
def Obligations.LinkStatesAndTags : Prop :=
  ((∀ (s : State) (signal locked : BitVec 4), (s.link.lstate = .down → s.domainOn 56 = true → hostCage s = true → signal &&& laneEn s ≠ 0 →
        s.link.since + 1600000 ≤ s.wt.now → ∃ t, exec (.linkSignalDetect signal locked) s = .next t ∧ t.link.lstate = .train
          ∧ t.link.since = s.wt.now ∧ t.link.lanesMod = signal &&& locked &&& laneEn s ∧ t.mem = s.mem ∧ t.contracts = s.contracts)
    ∧ ((s.link.lstate ≠ .down ∨ s.wt.now < s.link.since + 1600000 ∨ signal &&& laneEn s = 0) →
        exec (.linkSignalDetect signal locked) s = .next s)
    ∧ ((s.link.lstate = .active ∨ s.link.lstate = .degraded) → ∃ t, exec .recoveryEntry s = .next t ∧ t.link.lstate = .recovery
        ∧ bit (t.reg Off.linkStatus) 2 = true ∧ t.mem = s.mem ∧ t.contracts = s.contracts)
    ∧ (s.link.lstate ≠ .active → s.link.lstate ≠ .degraded → exec .recoveryEntry s = .next s)
    ∧ (s.link.lstate = .train → s.link.since + 16000000 ≤ s.wt.now → exec .trainTimeout s = .next (enterDown s))
    ∧ ((s.link.lstate ≠ .train ∨ s.wt.now < s.link.since + 16000000) → exec .trainTimeout s = .next s)
    ∧ (s.link.lstate = .recovery → s.link.since + 1600000 ≤ s.wt.now → exec .recoveryTimeout s = .next (enterDown s))
    ∧ ((s.link.lstate ≠ .recovery ∨ s.wt.now < s.link.since + 1600000) → exec .recoveryTimeout s = .next s)
    ∧ (s.domainOn 56 = true → exec .retrain s = .next (enterDown s)) ∧ (s.domainOn 56 = false → exec .retrain s = .next s))
  ∧ (∀ (lanes : BitVec 4) (s : State), (s.link.lstate ≠ .recovery → exec (.recoveryComplete lanes) s = .next s)
    ∧ (s.link.lstate = .recovery → laneSet (lanes &&& s.link.lanesUsed) ≠ 0 → s.wt.now ≤ s.link.since + 1600000 → ∃ t,
        exec (.recoveryComplete lanes) s = .next t
          ∧ t.link.lstate = (if laneSet (lanes &&& s.link.lanesUsed) = 0xF then .active else .degraded) ∧ t.link.slot = 0
          ∧ (s.link.replay ≠ [] → t.link.resend = s.link.replay ∧ bit (t.reg Off.linkStatus) 3 = true) ∧ t.mem = s.mem)
    ∧ (s.link.lstate = .recovery → (laneSet (lanes &&& s.link.lanesUsed) = 0 ∨ s.link.since + 1600000 < s.wt.now) →
        exec (.recoveryComplete lanes) s = .next (enterDown s)))
  ∧ (∀ (s : State), ((s.link.lstate ≠ .train ∨ s.link.peer = none ∨ s.link.peerRun < 16) → exec .trainComplete s = .next s)
    ∧ (∀ p set, s.link.lstate = .train → s.link.peer = some p → selectedSet s.link = some set → 16 ≤ s.link.peerRun →
      (s.wt.now ≤ s.link.since + 16000000 → (s.link.epochHeld = none ∨ s.link.epochHeld = some p.epoch) → s.rings.waiting = [] →
        ∃ t, exec .trainComplete s = .next t ∧ t.link.lstate = (if set = 0xF then .active else .degraded) ∧ t.link.epochHost = p.epoch
          ∧ t.link.limMrd = p.limMrd ∧ t.link.limMwr = p.limMwr ∧ t.link.lanesUsed = set ∧ t.link.seq = 0 ∧ t.link.expect = 0
          ∧ t.mem = s.mem ∧ t.contracts = s.contracts)
      ∧ (s.link.since + 16000000 < s.wt.now → exec .trainComplete s = .next (enterDown s))))
  ∧ (∀ s : State, (enterDown s).link.lstate = .down ∧ (∀ a, memByte (enterDown s) a = memByte s a) ∧ (enterDown s).contracts = s.contracts))
  ∧ ((∀ (tag : Fin 4096) (st : Fin 8) (last : Bool) (off : BitVec 16) (bs : List Byte) (s : State),
    let x : Txn := .cpl tag.val st.val last off.toNat bs
    let u := s.modLink fun l => { l with rxq := l.rxq.erase x }
    ((linkUp s = false ∨ mayApply s.link x = false) → exec (.linkCplReceive tag st last off bs) s = .next s)
    ∧ (linkUp s = true → mayApply s.link x = true →
    ((mget none s.link.quarantine tag.val).isSome = true → exec (.linkCplReceive tag st last off bs) s
        = .next (tallyAdd (setStatus u Off.linkStatus (2 ^ 5)) 998 1))
    ∧ (mget none s.link.quarantine tag.val = none → mget none s.link.reads tag.val = none →
        exec (.linkCplReceive tag st last off bs) s = .next (protoError u))
    ∧ (∀ m, mget none s.link.quarantine tag.val = none → mget none s.link.reads tag.val = some m → cplFits m st.val last off.toNat bs = true →
        (last = false → ∃ t m2, exec (.linkCplReceive tag st last off bs) s = .next t ∧ mget none t.link.reads tag.val = some m2
          ∧ m2.data = m.data ++ bs ∧ t.rings = s.rings ∧ t.regs = s.regs ∧ t.mem = s.mem)
        ∧ (last = true → ∃ u2 m2, exec (.linkCplReceive tag st last off bs) s = .next (deliverRead u2 m2) ∧ m2.data = m.data ++ bs
          ∧ mget none u2.link.reads tag.val = none))))
  ∧ (∀ (tag : Fin 4096) (s : State), (mget none s.link.reads tag.val = none → exec (.cplTimeout tag) s = .next s)
    ∧ (∀ m, mget none s.link.reads tag.val = some m →
        (s.wt.now < m.at_ + 160000 * fld (s.reg Off.linkCfg) 9 0 → exec (.cplTimeout tag) s = .next s)
        ∧ (m.at_ + 160000 * fld (s.reg Off.linkCfg) 9 0 ≤ s.wt.now → ∃ u, exec (.cplTimeout tag) s = .next (pump (failRead u m))
            ∧ mget none u.link.reads tag.val = none ∧ mget none u.link.quarantine tag.val = some (s.wt.now + 160000000) ∧ u.rings = s.rings))
    ∧ (∀ t, mget none s.link.quarantine tag.val = some t → s.wt.now < t → exec (.tagQuarantineEnd tag) s = .next s)
    ∧ (∀ t, mget none s.link.quarantine tag.val = some t → t ≤ s.wt.now → ∃ u, exec (.tagQuarantineEnd tag) s = .next (pump u)
        ∧ mget none u.link.quarantine tag.val = none ∧ u.link.reads = s.link.reads ∧ u.regs = s.regs ∧ u.mem = s.mem))
  ∧ (∀ (v : Word) (s : State), let ok := 1 ≤ fld v 9 0 ∧ fld v 9 0 ≤ 1000 ∧ fld v 19 16 ≠ 0
    ((s.domainOn 56 = false ∨ ¬ ok) → exec (.linkCfgWrite v) s = .next s)
    ∧ (s.domainOn 56 = true → ok → fld v 19 16 = fld (s.reg Off.linkCfg) 19 16 →
        exec (.linkCfgWrite v) s = .next (s.setReg Off.linkCfg (v &&& 0x010F03FF#32)))
    ∧ (s.domainOn 56 = true → ok → fld v 19 16 ≠ fld (s.reg Off.linkCfg) 19 16 →
        exec (.linkCfgWrite v) s = .next (enterDown (s.setReg Off.linkCfg (v &&& 0x010F03FF#32))))))

/-- R360: a host MRD that the window takes is answered by one CPL with the registers' values, a host MWR writes them in ascending order. R358,
R360: a bad request sets `PROTO` where it breaks R356 and `UR` where the window does not take it; a bad read is answered with status 1, one on
a busy tag with nothing. R357: a request behind an earlier write in the receive queue waits; nothing arrives while the link is down. -/
def Obligations.HostAccessesTheWindow : Prop :=
  ∀ (tag : Fin 4096) (addr : Dword) (len : BitVec 16) (bs : List Byte) (s : State),
    let x : Txn := .mrd tag.val addr.toNat len.toNat
    let y : Txn := .mwr addr.toNat bs
    let r := mrdFreed s x
    let w := mwrFreed s y bs.length
    ((linkUp s = false ∨ mayApply s.link x = false) → exec (.linkMrdReceive tag addr len) s = .next s)
    ∧ ((linkUp s = false ∨ mayApply s.link y = false) → exec (.linkMwrReceive addr bs) s = .next s)
    ∧ (linkUp s = true → mayApply s.link x = true →
      (s.link.hostTags.contains tag.val = true → exec (.linkMrdReceive tag addr len) s = .next (protoError r))
      ∧ (s.link.hostTags.contains tag.val = false → requestOk 4096 addr.toNat len.toNat = true → windowOk addr.toNat len.toNat = true →
        ∃ vs u, readWords (len.toNat / 4) addr.toNat r = (vs, u) ∧ vs.length = len.toNat
          ∧ exec (.linkMrdReceive tag addr len) s = .next (answer u tag.val 0 vs))
      ∧ (s.link.hostTags.contains tag.val = false → (requestOk 4096 addr.toNat len.toNat = false ∨ windowOk addr.toNat len.toNat = false) →
        exec (.linkMrdReceive tag addr len) s = .next (answer (requestBad r 4096 addr.toNat len.toNat) tag.val 1 [])))
    ∧ (linkUp s = true → mayApply s.link y = true →
      (requestOk 512 addr.toNat bs.length = true → windowOk addr.toNat bs.length = true →
        exec (.linkMwrReceive addr bs) s = .next (writeWords (bs.length / 4) addr.toNat bs w))
      ∧ ((requestOk 512 addr.toNat bs.length = false ∨ windowOk addr.toNat bs.length = false) → ∃ t, exec (.linkMwrReceive addr bs) s = .next t
          ∧ (requestOk 512 addr.toNat bs.length = false → bit (t.reg Off.linkStatus) 7 = true)
          ∧ (windowOk addr.toNat bs.length = false → bit (t.reg Off.linkStatus) 6 = true)
          ∧ t.mem = s.mem ∧ t.rings = s.rings ∧ t.contracts = s.contracts))

/-! ## Rings (chapter 15) -/

/-- R375, R376, R378: a doorbell of a disabled ring sets `DB_DISABLED`, one that moves backwards `DB_REGRESS`, and neither moves anything; another
moves the tail of the submission ring, and of a completion ring the head. R373: enabling a ring with a legal size empties it; an illegal one is
rejected with `CFG_REJECT`. Table 15-5: `NOP` completes OK.
R380, R383: a fetch turn reads at most 8 descriptors of one ring, never past its tail, its end or a 4 KiB page, into a free tag; with no ring
ready, or 32 reads in flight, it does nothing, and with every place taken it sets `INFLIGHT_LIMIT`. R381, R382: a held submit starts once it finds a
place, a fenced command once no earlier command of its ring is in flight. R386: a ring for which nothing waits shows `FULL` no
more. -/
def Obligations.RingsAreSetUpAndFetched : Prop :=
  ((∀ (r : Fin 1024) (v : Word) (s : State),
    (bit (s.sq r.val).cfg 31 = false → exec (.sqTailDb r v) s = .next (setStatus s Off.ringStatus (2 ^ 1)))
    ∧ (bit (s.cq r.val).cfg 31 = false → exec (.cqHeadDb r v) s = .next (setStatus s Off.ringStatus (2 ^ 1)))
    ∧ (bit (s.sq r.val).cfg 31 = true → let n := 2 ^ fld (s.sq r.val).cfg 4 0
        let t := fld v 15 0 % n
        (ringDist n (s.sq r.val).fetch t < ringDist n (s.sq r.val).fetch (s.sq r.val).tail →
          exec (.sqTailDb r v) s = .next (setStatus s Off.ringStatus (2 ^ 2)))
        ∧ (ringDist n (s.sq r.val).fetch (s.sq r.val).tail ≤ ringDist n (s.sq r.val).fetch t → ∃ u, exec (.sqTailDb r v) s = .next u
          ∧ u.sq r.val = { s.sq r.val with tail := t, err := false } ∧ (∀ q, q ≠ r.val → u.sq q = s.sq q) ∧ u.rings.cqs = s.rings.cqs
          ∧ u.regs = s.regs ∧ u.mem = s.mem ∧ u.rings.inflight = s.rings.inflight))
    ∧ (bit (s.cq r.val).cfg 31 = true → let h := fld v 15 0 % ringSize (s.cq r.val).cfg
        (headRegress (s.cq r.val) h = true → exec (.cqHeadDb r v) s = .next (setStatus s Off.ringStatus (2 ^ 2)))
        ∧ (headRegress (s.cq r.val) h = false → ∃ u, exec (.cqHeadDb r v) s = .next u ∧ (u.cq r.val).head = h
          ∧ (u.cq r.val).tail = (s.cq r.val).tail ∧ (∀ q, q ≠ r.val → u.cq q = s.cq q) ∧ u.rings.sqs = s.rings.sqs ∧ u.regs = s.regs ∧ u.mem = s.mem)))
  ∧ (∀ (a : Agent) (v : Word) (s : State), let r := (s.sel a Off.ringSel).toNat
    (bit (s.sq r).cfg 31 = false → bit v 31 = true →
      (log2Ok (v &&& sqCfgMask) = true → bit (s.cq (fld (v &&& sqCfgMask) 21 12)).cfg 31 = true → ∃ u, exec (.sqCfgWrite a v) s = .next u
        ∧ (u.sq r).cfg = v &&& sqCfgMask ∧ (u.sq r).fetch = 0 ∧ (u.sq r).tail = 0 ∧ (u.sq r).err = false ∧ u.regs = s.regs ∧ u.mem = s.mem)
      ∧ ((log2Ok (v &&& sqCfgMask) = false ∨ bit (s.cq (fld (v &&& sqCfgMask) 21 12)).cfg 31 = false) →
        exec (.sqCfgWrite a v) s = .next (setStatus s Off.ringStatus (2 ^ 3))))
    ∧ (bit (s.sq r).cfg 31 = true → bit v 31 = true → exec (.sqCfgWrite a v) s = .next s)
    ∧ (bit (s.cq r).cfg 31 = false → bit v 31 = true →
      (log2Ok (v &&& cqCfgMask) = true → ∃ u, exec (.cqCfgWrite a v) s = .next u ∧ (u.cq r).cfg = v &&& cqCfgMask ∧ (u.cq r).tail = 0
        ∧ (u.cq r).head = 0 ∧ (u.cq r).phase = true ∧ (u.cq r).full = false ∧ u.regs = s.regs ∧ u.mem = s.mem)
      ∧ (log2Ok (v &&& cqCfgMask) = false → exec (.cqCfgWrite a v) s = .next (setStatus s Off.ringStatus (2 ^ 3)))))
  ∧ (∀ (sq : Fin 1024) (d : Desc) (s t : State) (ref : CmdRef), Starts s sq d ref t → hdrOk d 0x01 [] = true →
    exec (.nop sq d) s = .next (completeWith t ref St.ok)))
  ∧ ((∀ s : State, ((s.serving = false ∨ linkUp s = false ∨ turn s = none) → exec .descriptorFetch s = .next s)
    ∧ (∀ r cyc, s.serving = true → linkUp s = true → turn s = some (r, cyc) →
        (placesLeft s = 0 → exec .descriptorFetch s = .next (setStatus s Off.ringStatus (2 ^ 5)))
        ∧ (placesLeft s ≠ 0 → 32 ≤ (readsOut s).length → exec .descriptorFetch s = .next s)
        ∧ (∀ tag, placesLeft s ≠ 0 → (readsOut s).length < 32 → freeTag s = some tag → ∃ t m, exec .descriptorFetch s = .next t
            ∧ mget none t.link.reads tag = some m ∧ m.for_ = .descriptors r (s.sq r).fetch (turnCount (s.sq r) (placesLeft s))
            ∧ t.link.txq = s.link.txq ++ [.mrd tag m.addr m.len] ∧ m.len = 64 * turnCount (s.sq r) (placesLeft s)
            ∧ t.rings.sqs = s.rings.sqs ∧ t.regs = s.regs ∧ t.mem = s.mem)))
  ∧ (∀ (q : Sq) (room : Nat), turnCount q room ≤ 8 ∧ turnCount q room ≤ room
      ∧ (q.fetch < ringSize q.cfg → q.fetch + turnCount q room ≤ ringSize q.cfg ∧ (q.fetch % 64 + turnCount q room) * 64 ≤ 4096))
  ∧ (∀ (r : Fin 1024) (s : State), ((s.sq r.val).held = none → exec (.submitHoldRelease r) s = .next s)
    ∧ ((s.sq r.val).fenced = none → exec (.fenceRelease r) s = .next s)
    ∧ (∀ d, (s.sq r.val).held = some d → (s.serving = false ∨ submitFits s d = false) → exec (.submitHoldRelease r) s = .next s)
    ∧ (∀ d, (s.sq r.val).held = some d → s.serving = true → submitFits s d = true → ∃ t, exec (.submitHoldRelease r) s = .next t
        ∧ (t.sq r.val).held = none ∧ t.rings.inflight = s.rings.inflight ++ [cmdRef r.val (sqCqOf (s.sq r.val)) s.wt.now d]
        ∧ (∃ f fs, t.rings.fetched = f :: fs ∧ f.d = d ∧ f.sq = r.val ∧ fs = s.rings.fetched) ∧ t.mem = s.mem ∧ t.regs = s.regs)
    ∧ (∀ d ref, (s.sq r.val).fenced = some d → s.serving = true → fenceBlocked s r.val d = false → fencedRef s r.val d = some ref →
        ∃ t, exec (.fenceRelease r) s = .next t ∧ (t.sq r.val).fenced = none ∧ (∃ f fs, t.rings.fetched = f :: fs ∧ f.d = d ∧ f.sq = r.val
          ∧ fs = s.rings.fetched) ∧ t.rings.inflight = s.rings.inflight ∧ t.mem = s.mem)
    ∧ (∀ d, (s.sq r.val).fenced = some d → fenceBlocked s r.val d = true → exec (.fenceRelease r) s = .next s)
    ∧ ((∀ c ∈ s.rings.waiting, c.cq ≠ r.val) → exec (.completionWaitEnd r) s = .next (s.modCq r.val fun q => { q with full := false }))
    ∧ (∃ t, exec (.cqCoalTimeout r) s = .next t ∧ t = levelSample s (768 + fld (s.cq r.val).cfg 23 16) ∧ t.rings = s.rings ∧ t.regs = s.regs)))

/-! ## Device memory and the DMA engine (chapters 16 and 17) -/

/-- R402: no two device addresses share a channel and an offset. R411, R416: a good write of a burst stores its bytes at their addresses and
nowhere else; a poisoned one stores nothing and sets bit 4 of `MEM_STATUS`; a read stores nothing. R412, R415: a word with more errors than the code corrects is counted and
reported.
R404, R405: a channel is trained where both its lanes pass, an eye of 24 taps; training ends with every channel, else it is repeated up to 3
times, then the module stops. R406, R408, R410: a refresh that is due closes every row and serves every RFM mark of its channel alone. R409: a
poll, every 16 ms, above 85 °C doubles the refresh rate. R417: a patrol reads codeword after
codeword; its interval starts the next cycle. -/
def Obligations.BurstsReachKeptMemory : Prop :=
  ((∀ a b : Nat, a < deviceTop → b < deviceTop → memChannel a = memChannel b → memOffset a = memOffset b → a = b)
  ∧ (∀ (ch : Fin 32) (a : Nat) (bs : List Byte) (ecc : Bool) (errs : List (Fin 72)) (s : State),
    (memChannel a ≠ ch.val → exec (.burstComplete ch (.write a ecc bs false)) s = .next s ∧ exec (.burstComplete ch (.read a ecc errs)) s = .next s)
    ∧ (memChannel a = ch.val → bs.length = 64 → (memBad s a 64 = false ∨ a % 64 = 0) → ∃ t, exec (.burstComplete ch (.write a ecc bs false)) s = .next t
        ∧ (∀ b, memByte t b = if a ≤ b ∧ b < a + bs.length then bs.getD (b - a) 0 else memByte s b) ∧ t.regs = s.regs ∧ t.contracts = s.contracts)
    ∧ (memChannel a = ch.val → ∃ t, exec (.burstComplete ch (.write a ecc bs true)) s = .next t ∧ (∀ b, memByte t b = memByte s b)
        ∧ bit (t.reg Off.memStatus) 4 = true ∧ t.contracts = s.contracts)
    ∧ (memChannel a = ch.val → ∃ t, exec (.burstComplete ch (.read a ecc errs)) s = .next t ∧ (∀ b, memByte t b = memByte s b) ∧ t.contracts = s.contracts
        ∧ (fetchesCheck (s.channel ch.val) (memOffset a) ecc = true → errs ≠ [] → correctable (s.channel ch.val) errs = false →
            bit (t.reg Off.memStatus) 1 = true ∧ t.mem.lastUe = a / 64 * 64))))
  ∧ ((∀ (ws : List (Sweep × Sweep)) (s : State), ((s.pwr.phase ≠ .training ∨ s.mem.trained = true) → exec (.dramTrainingDone ws) s = .next s)
    ∧ (s.pwr.phase = .training → s.mem.trained = false → let u := trainAll (ws.take 32) 0 s
      (ws.length = 32 → (∀ x ∈ ws, lanePass x.1 = true ∧ lanePass x.2 = true) → allTrained u = true)
      ∧ (allTrained u = true → ∃ t, exec (.dramTrainingDone ws) s = .next t ∧ t.mem.trained = true ∧ t.mem.dram = s.mem.dram ∧ t.regs = s.regs
          ∧ ∀ ch, t.channel ch = u.channel ch)
      ∧ (allTrained u = false → s.mem.attempts < 3 → exec (.dramTrainingDone ws) s
          = .next (u.modMem fun m => { m with attempts := m.attempts + 1 }))
      ∧ (allTrained u = false → 3 ≤ s.mem.attempts → ∃ t, exec (.dramTrainingDone ws) s = .next t ∧ t.pwr.phase = .stopped
          ∧ bit t.pwr.bootStatus 4 = true ∧ t.mem.dram = s.mem.dram)))
  ∧ (∀ (now : Nat) (x : Sweep × Sweep) (c : Channel), (c.trained = true → trainChannel now x c = c)
    ∧ (c.trained = false → ((trainChannel now x c).trained = true ↔ (24 ≤ eyeWidth x.1 ∧ 24 ≤ eyeWidth x.2))))
  ∧ (∀ (ch : Fin 32) (a b : Int) (hot : Bool) (s : State),
    (refreshDue s ch.val = false → exec (.allBankRefresh ch a b) s = .next s)
    ∧ (refreshDue s ch.val = true → ∃ t, exec (.allBankRefresh ch a b) s = .next t ∧ (t.channel ch.val).rows = [] ∧ (t.channel ch.val).rfm = 0
        ∧ (t.channel ch.val).refAt = s.wt.now ∧ (∀ c, c ≠ ch.val → t.channel c = s.channel c) ∧ t.mem.dram = s.mem.dram)
    ∧ ((s.mem.trained = false ∨ s.wt.now < (s.channel ch.val).mr4At + 2560000) → exec (.mr4Poll ch hot) s = .next s)
    ∧ (s.mem.trained = true → (s.channel ch.val).mr4At + 2560000 ≤ s.wt.now → ∃ u, exec (.mr4Poll ch hot) s = .next u
        ∧ (u.channel ch.val).fastRefresh = hot ∧ (∀ c, c ≠ ch.val → u.channel c = s.channel c) ∧ u.mem.dram = s.mem.dram ∧ u.regs = s.regs))
  ∧ (∀ s : State, ((s.serving = false ∨ bit (s.reg Off.memCfg) 0 = false) → (∀ ecc errs, exec (.patrolRead ecc errs) s = .next s)
        ∧ exec .patrolIntervalEnd s = .next s)
    ∧ (s.serving = true → bit (s.reg Off.memCfg) 0 = true → s.mem.patrolRun = true → s.mem.patrolPos + 1 < patrolWords →
        ∃ t, exec (.patrolRead false []) s = .next t ∧ t.mem.patrolPos = s.mem.patrolPos + 1 ∧ t.mem.patrolRun = true ∧ t.mem.dram = s.mem.dram
          ∧ t.regs = s.regs)
    ∧ (s.serving = true → bit (s.reg Off.memCfg) 0 = true → s.mem.patrolStart + patrolTicks s ≤ s.wt.now → s.mem.patrolRun = false →
        exec .patrolIntervalEnd s = .next (s.modMem fun m => { m with patrolStart := s.wt.now, patrolRun := true, patrolPos := 0 }))))

/-- R419: a decision on a free channel grants the highest rank present, at most 8 bursts; on a busy one the requests only join. R420,
R424: a transfer ends with its last burst; a waiting port of higher rank takes it over and the rest goes back to the head of the queue. R423, R516: the
rank of ports 45 and 46 and the longest wait, which a read clears.
R427, R430-R432: a `DMA_COPY` of good fields and ranges becomes pieces of 64 KiB that go to free channels of its class; a range outside what it may
use is `INVALID_FIELD`. R428, R434, R435: a channel whose reads have ended drains its piece: the bytes go to their ranges and nowhere
else; the last piece completes the command OK; a failed read ends it. A free channel takes the next piece of its group. -/
def Obligations.ArbiterGrantsAndCopies : Prop :=
  ((∀ (ch : Fin 32) (reqs : List MemReq) (s : State), let u := s.modChannel ch.val (arrive s.wt.now reqs)
    ((u.channel ch.val).holder.isSome = true → exec (.arbiterDecision ch reqs) s = .next u)
    ∧ ((u.channel ch.val).holder = none → (u.channel ch.val).queue ≠ [] → ∃ t g, exec (.arbiterDecision ch reqs) s = .next t
        ∧ (t.channel ch.val).holder = some g ∧ (t.channel ch.val).left = g.bursts ∧ g.bursts ≤ 8
        ∧ (∀ q ∈ (u.channel ch.val).queue, rankOf s g ≤ rankOf s q) ∧ t.mem.dram = s.mem.dram)
    ∧ ((u.channel ch.val).holder = none → exec (.burstBreakPoint ch reqs) s = .next u)
    ∧ (∀ h, (u.channel ch.val).holder = some h → (u.channel ch.val).left ≤ 1 → ∃ t, exec (.burstBreakPoint ch reqs) s = .next t
        ∧ (t.channel ch.val).holder = none ∧ (t.channel ch.val).queue = (u.channel ch.val).queue ∧ t.mem.dram = s.mem.dram)
    ∧ (∀ h, (u.channel ch.val).holder = some h → 1 < (u.channel ch.val).left → (∃ q ∈ (u.channel ch.val).queue, rankOf s q < rankOf s h) →
        ∃ t, exec (.burstBreakPoint ch reqs) s = .next t ∧ (t.channel ch.val).holder = none
          ∧ (t.channel ch.val).queue = { h with bursts := (u.channel ch.val).left - 1 } :: (u.channel ch.val).queue)
    ∧ (∀ h, (u.channel ch.val).holder = some h → 1 < (u.channel ch.val).left → (∀ q ∈ (u.channel ch.val).queue, rankOf s h ≤ rankOf s q) →
        ∃ t, exec (.burstBreakPoint ch reqs) s = .next t ∧ (t.channel ch.val).holder = some h ∧ (t.channel ch.val).left = (u.channel ch.val).left - 1))
  ∧ (∀ (a : Agent) (v : Word) (s : State), let p := (s.sel a Off.memPortSel).toNat
    ((fld v 1 0 = 0 ∨ (p ≠ 45 ∧ p ≠ 46)) → exec (.memPortRankWrite a v) s = .next s)
    ∧ (fld v 1 0 ≠ 0 → p = 45 → exec (.memPortRankWrite a v) s = .next (s.modMem fun m => { m with rank45 := fld v 1 0 }))
    ∧ (fld v 1 0 ≠ 0 → p = 46 → exec (.memPortRankWrite a v) s = .next (s.modMem fun m => { m with rank46 := fld v 1 0 }))
    ∧ (∃ t, exec (.memPortWaitRead a) s = .next t ∧ mget 0 t.mem.waits p = 0 ∧ (∀ q, q ≠ p → mget 0 t.mem.waits q = mget 0 s.mem.waits q)
        ∧ t.mem.dram = s.mem.dram ∧ t.regs = s.regs)))
  ∧ ((∀ (sq : Fin 1024) (d : Desc) (h h2 : HostData) (s t : State) (ref : CmdRef), Starts s sq d ref t → dmaFields d = true →
    dmaSrcSgl d = false → dmaDstSgl d = false →
    let src := [(descFld d 16 8, dmaBytes d)]
    let dst := [(descFld d 24 8, dmaBytes d)]
    (((dmaSrcHost d = true ∨ devSrcOk src = true) ∧ (dmaDstHost d = true ∨ devDstOk t dst = true)) →
      ((dmaDstHost d = false ∨ hostDstOk dst = true) → exec (.dmaCopy sq d h h2) s = .next (startXfer t ref d src dst))
      ∧ (dmaDstHost d = true → hostDstOk dst = false → exec (.dmaCopy sq d h h2) s = .next (completeWith t ref St.invalidField)))
    ∧ (((dmaSrcHost d = false ∧ devSrcOk src = false) ∨ (dmaDstHost d = false ∧ devDstOk t dst = false)) →
      exec (.dmaCopy sq d h h2) s = .next (completeWith (setStatus t Off.dmaStatus 4) ref St.invalidField)))
  ∧ (∀ (n : Fin 17) (s : State),
    (mget none s.dma.channels n.val = none → exec (.dmaChannelFree n) s = .next (dealPieces s))
    ∧ (∀ c, mget none s.dma.channels n.val = some c → let v := setChan s n.val none
      ((c.todo ≠ [] ∨ c.inflight ≠ 0) → exec (.dmaChannelFree n) s = .next s)
      ∧ (c.todo = [] → c.inflight = 0 → mget none s.dma.xfers c.piece.xfer = none → exec (.dmaChannelFree n) s = .next (dealPieces v))
      ∧ (∀ x, c.todo = [] → c.inflight = 0 → mget none s.dma.xfers c.piece.xfer = some x →
        (pieceData s x c = .poisoned → exec (.dmaChannelFree n) s = .next (dealPieces (pieceFailed v c.piece.xfer St.poisonedData)))
        ∧ (∀ bs a, pieceData s x c = .ok bs → bs.length = c.piece.len → x.pieces = 1 → x.flush = [] → x.flushing = 0 → x.dstHost = false →
            cutRanges x.dst c.piece.off c.piece.len = [(a, c.piece.len)] → memBad s a c.piece.len = false →
            ∃ u, exec (.dmaChannelFree n) s = .next (dealPieces (completeWith u x.ref St.ok)) ∧ mget none u.dma.xfers c.piece.xfer = none
              ∧ mget none u.dma.channels n.val = none ∧ (∀ b, memByte u b = if a ≤ b ∧ b < a + c.piece.len then bs.getD (b - a) 0 else memByte s b)
              ∧ u.regs = s.regs ∧ u.rings = s.rings ∧ u.contracts = s.contracts))))
  ∧ (∀ (s : State) (k st : Nat) (x : Xfer), mget none s.dma.xfers k = some x → ∃ u, pieceFailed s k st = dmaFail u x.ref st
      ∧ mget none u.dma.xfers k = none ∧ (∀ q ∈ u.dma.waiting, q.xfer ≠ k) ∧ u.mem = s.mem ∧ u.regs = s.regs)
  ∧ (∀ (k total : Nat), ((piecesOf k total).map fun p => p.len).sum = total ∧ ∀ p ∈ piecesOf k total, 1 ≤ p.len ∧ p.len ≤ 65536 ∧ p.off + p.len ≤ total))

/-! ## Interrupts and faults (chapter 18) -/

/-- R442: a read of `CLAIM` t returns the claimable source of t with the highest `PRIO`, the lowest number on a tie, clears its pending bit,
puts it in service and records t as its claimer; nothing claimable, it returns 0 and changes nothing.
R516: an RC value is one value that every agent shares: what one agent's read cleared is cleared for another. `MEM_PORT_WAIT` is one
value for each port, `CLAIM` one for each target. -/
def Obligations.ClaimTakesTheHighestPriority : Prop :=
  (∀ (t : Fin 5) (a : Agent) (s : State), ∃ n, readValue s a (Off.claim t.val) = BitVec.ofNat 32 n ∧ n < 2048
    ∧ ((∀ m, claimableBy s t.val m = false) → n = 0)
    ∧ (n = 0 → (∀ m, claimableBy s t.val m = false) ∧ exec (.claim t) s = .next s)
    ∧ (n ≠ 0 → claimableBy s t.val n = true
        ∧ (∀ m, claimableBy s t.val m = true → s.prio m < s.prio n ∨ (s.prio m = s.prio n ∧ n ≤ m))
        ∧ ∃ u, exec (.claim t) s = .next u ∧ srcBit u.intc.pend n = false ∧ srcBit u.intc.svc n = true
          ∧ mget none u.intc.claimer n = some t.val ∧ (∀ m, m ≠ n → m ≠ 1 → srcBit u.intc.pend m = srcBit s.intc.pend m)
          ∧ (∀ m, m ≠ n → srcBit u.intc.svc m = srcBit s.intc.svc m) ∧ u.intc.mask = s.intc.mask ∧ u.regs = s.regs ∧ u.mem = s.mem))
  ∧ ((∀ (a b : Agent) (s : State), s.seln a Off.memPortSel = s.seln b Off.memPortSel → ∃ t, exec (.loRegisterRead a 0x260028#26) s = .next t
      ∧ readValue t b 0x260028 = 0
      ∧ (∀ c, s.seln c Off.memPortSel ≠ s.seln a Off.memPortSel → readValue t c 0x260028 = readValue s c 0x260028))
  ∧ (∀ (a b : Agent) (t : Fin 5) (s : State), readValue s a (Off.claim t.val) = readValue s b (Off.claim t.val)
      ∧ exec (.loRegisterRead a (BitVec.ofNat 26 (Off.claim t.val))) s = exec (.claim t) s
      ∧ (∀ u, exec (.claim t) s = .next u → claimWinner s t.val ≠ 0 → readValue u b (Off.claim t.val) ≠ readValue s a (Off.claim t.val))))

/-- R443: a write of n to `COMPLETE` t ends service of n where n is in service and was claimed through `CLAIM` t, and is ignored otherwise.
A level source pends again only if its cause is still asserted, an edge source never. Source 1 is left out of the pending clauses: the end
of service may change `DEVSTATE`, which is that source's own event (Table 18-1). -/
def Obligations.CompletionEndsService : Prop :=
  ∀ (t : Fin 5) (v : Word) (s : State), let n := fld v 10 0
    ((srcBit s.intc.svc n = false ∨ mget none s.intc.claimer n ≠ some t.val) → exec (.complete t v) s = .next s)
    ∧ (srcBit s.intc.svc n = true → mget none s.intc.claimer n = some t.val → ∃ u, exec (.complete t v) s = .next u
        ∧ srcBit u.intc.svc n = false ∧ mget none u.intc.claimer n = none
        ∧ (srcEdge n = true → levelCause u n = false)
        ∧ (n ≠ 1 → levelCause u n = true → srcBit u.intc.pend n = true)
        ∧ (n ≠ 1 → levelCause u n = false → srcBit u.intc.pend n = srcBit s.intc.pend n)
        ∧ (∀ m, m ≠ n → m ≠ 1 → srcBit u.intc.pend m = srcBit s.intc.pend m)
        ∧ (∀ m, m ≠ n → srcBit u.intc.svc m = srcBit s.intc.svc m) ∧ u.intc.mask = s.intc.mask ∧ u.regs = s.regs ∧ u.mem = s.mem)

/-- R6, R7, R513, R517, Table 0-5: a write to a reserved address, to a block whose domain is not ON, or by the host to a read-only register
changes nothing; a write of 1 clears exactly those bits of a W1C register; an interrupt enable takes its implemented bits, and nothing else
moves. A read of `WT_NOW_LO` latches `WT_NOW_HI` for its agent alone.
R446, R448, Table 18-10: a write of `INTPEND` stores its word, a write of `SRC_CFG` its register, and with `TARGET` 5-7 neither. -/
def Obligations.RegistersAreWrittenAndRead : Prop :=
  ((∀ (a : Agent) (addr : BitVec 26) (v : Word) (s : State), let o := addr.toNat
    let only := fun (t : State) => (∀ x, x ≠ o → t.reg x = s.reg x) ∧ t.mem = s.mem ∧ t.contracts = s.contracts ∧ t.rings = s.rings
    ((regAt o = none ∨ reachable s a o = false) → exec (.registerWrite a addr v) s = .next s ∧ readValue s a o = 0
      ∧ exec (.loRegisterRead a addr) s = .next s)
    ∧ (∀ r, regAt o = some r → reachable s a o = true →
      (a = .host → r.ty = .ro → exec (.registerWrite a addr v) s = .next s)
      ∧ (r.ty = .rc → exec (.registerWrite a addr v) s = .next s)
      ∧ (r.ty = .w1c → ∃ t, exec (.registerWrite a addr v) s = .next t ∧ t.reg o = s.reg o &&& ~~~ (v &&& BitVec.ofNat 32 r.mask) ∧ only t)
      ∧ (o ∈ [Off.linkIntEn, Off.ringIntEn, Off.compIntEn, Off.corrIntEn, Off.prxIntEn, Off.poolIntEn, Off.schedIntEn, Off.tblIntEn,
            Off.dmaIntEn, Off.memIntEn] → ∃ t, exec (.registerWrite a addr v) s = .next t ∧ t.reg o = v &&& BitVec.ofNat 32 r.mask ∧ only t)))
  ∧ (∀ (a : Agent) (s : State), ∃ t, exec (.loRegisterRead a 0x50000#26) s = .next t ∧ t.regs = s.regs ∧ t.mem = s.mem
      ∧ readValue t a 0x50004 = BitVec.ofNat 32 (s.wt.wall.toNat / 2 ^ 32)
      ∧ readValue t a 0x50008 = s.wt.frac.setWidth 32
      ∧ (∀ b, b ≠ a → readValue t b 0x50004 = readValue s b 0x50004)))
  ∧ ((∀ (src : Fin 2048) (v : Word) (s : State), ((srcReal src.val = false ∨ 5 ≤ fld v 6 4) → exec (.srcCfgWrite src v) s = .next s)
    ∧ (srcReal src.val = true → fld v 6 4 < 5 → ∃ u, exec (.srcCfgWrite src v) s = .next u ∧ u.reg (Off.srcCfg src.val) = v &&& 0x27F#32
        ∧ u.intc.svc = s.intc.svc ∧ u.intc.mask = s.intc.mask ∧ u.mem = s.mem))
  ∧ (∀ (k : Fin 64) (v : Word) (s : State), ∃ u, exec (.intpendWrite k v) s = .next u ∧ u.intc.svc = s.intc.svc ∧ u.intc.mask = s.intc.mask
      ∧ u.regs = s.regs ∧ u.mem = s.mem ∧ (∀ j < 32, bit v j = true → srcReal (32 * k.val + j) = true → srcBit u.intc.pend (32 * k.val + j) = true)
      ∧ (∀ j < 32, bit v j = false → 32 * k.val + j ≠ 1 → levelCause s (32 * k.val + j) = false → srcBit u.intc.pend (32 * k.val + j) = false)))

/-- R450, R452, R481: a detected unit fault, and an error of NVM that its ECC corrected, sets its bit of its group, and a fault of level 2 or more starts the group's sheepdog. R453: an acknowledgement by a
control core stops it, one by the host does nothing. R454: the timer acts at its deadline and not before. R456: a restarted domain comes back ON.
R459: an injection takes effect in a module that is in factory mode alone. -/
def Obligations.FaultsAreRaisedAndServed : Prop :=
  (∀ (f : Fin 512) (s : State), (((unitFault f.val = false ∧ f.val ≠ 320) ∨ s.pwr.pllLocked = false ∨ s.pwr.phase = .stopped) → exec (.unitFaultDetect f) s = .next s)
    ∧ (f.val = 320 → s.pwr.pllLocked = true → s.pwr.phase ≠ .stopped → ∃ t, exec (.unitFaultDetect f) s = .next t ∧ bit (t.reg Off.nvmStatus) 2 = true
        ∧ bit (t.reg (Off.fltStat 20)) 0 = true ∧ t.mem = s.mem ∧ t.contracts = s.contracts)
    ∧ (unitFault f.val = true → s.pwr.pllLocked = true → s.pwr.phase ≠ .stopped → ∃ t, exec (.unitFaultDetect f) s = .next t
        ∧ bit (t.reg (Off.fltStat (f.val / 16))) (f.val % 16) = true ∧ t.mem = s.mem ∧ t.contracts = s.contracts ∧ t.rings = s.rings))
  ∧ (∀ (s : State) (f l : Nat), fltLevel f = some l → 1 ≤ l → fltImmediate f = false →
      (mget ({} : Dog) s.flt.dogs (f / 16)).deadline = none →
      (mget ({} : Dog) (raiseFault s f).flt.dogs (f / 16)).deadline = some (s.wt.now + usTicks (s.reg (Off.fltDog (f / 16))).toNat))
  ∧ (∀ (i : Fin 4) (s : State), s.pwr.pllLocked = true → s.pwr.phase ≠ .stopped → ∃ t, exec (.ccHeartbeatMiss i) s = .next t
      ∧ bit (t.reg (Off.fltStat 18)) i.val = true ∧ t.mem = s.mem ∧ t.contracts = s.contracts)
  ∧ (∀ (g : Fin 32) (s : State), ((mget ({} : Dog) s.flt.dogs g.val).deadline = none → exec (.sheepdogExpiry g) s = .next s)
    ∧ (∀ dl, (mget ({} : Dog) s.flt.dogs g.val).deadline = some dl → s.wt.now < dl → exec (.sheepdogExpiry g) s = .next s)
    ∧ (∀ dl, (mget ({} : Dog) s.flt.dogs g.val).deadline = some dl → dl ≤ s.wt.now → s.pwr.phase ≠ .stopped →
        exec (.sheepdogExpiry g) s = .next (dogExpire s g.val)))
  ∧ (∀ (i : Fin 4) (v : Word) (s : State), exec (.fltack .host v) s = .next s ∧ (armedOf s (fld v 4 0) = [] → ∃ t,
      exec (.fltack (.cc i) v) s = .next t ∧ (mget ({} : Dog) t.flt.dogs (fld v 4 0)).deadline = none ∧ t.regs = s.regs ∧ t.mem = s.mem))
  ∧ (∀ (pd : Fin 64) (s : State), ((s.domain pd.val).restarting = false → exec (.l3RestartDone pd) s = .next s)
    ∧ ((s.domain pd.val).restarting = true → s.pwr.phase ≠ .stopped → pd.val ≠ 61 → pd.val ≠ 62 → ∃ t, exec (.l3RestartDone pd) s = .next t
        ∧ (t.domain pd.val).state = .on ∧ (t.domain pd.val).restarting = false ∧ t.regs = s.regs ∧ t.mem = s.mem)
    ∧ ((s.domain pd.val).restarting = true → s.pwr.phase ≠ .stopped → (pd.val = 61 ∨ pd.val = 62) → let u := s.modDomain pd.val fun _ => { state := .on }
        ∃ v : State, v.tbl = u.tbl ∧ v.dma = u.dma ∧ v.regs = u.regs ∧ v.mem = u.mem
          ∧ exec (.l3RestartDone pd) s = .next (if pd.val = 61 then rebuildTables v else dealPieces v)))
  ∧ (∀ (v : Word) (s : State), (s.flt.factory = false → exec (.fltInject v) s = .next s)
    ∧ (s.flt.factory = true → bit v 31 = false → exec (.fltInject v) s = .next (s.setReg Off.fltInject (v &&& 0x800001FF#32)))
    ∧ (s.flt.factory = true → bit v 31 = true → fld v 8 0 = 1 → ∃ t, exec (.fltInject v) s = .next t
        ∧ bit (t.reg (Off.fltStat 0)) 1 = true ∧ bit (t.reg (Off.fltInjected 0)) 1 = true ∧ t.mem = s.mem ∧ t.contracts = s.contracts))

/-! ## Power, temperature, non-volatile memory and the sensors (chapters 19 and 20) -/

/-- R458, R470, R473, R475, R476: power-up and every restart begin with the registers, the rings, the streams and the contracts of reset;
settings banks, firmware slots, plug-in modules and waiting commands stay, and what NVM was writing is cut off. A restart counts and names
its cause (Table 18-9: 1 an L4 restart with its source, 2 activation, 3 `RESETN` or loss of `CLKIN`) and keeps device memory (the model's
choice, log entry 57). A row whose condition does not hold changes nothing. -/
def Obligations.PowerUpAndRestartsClearTheModule : Prop :=
  let cleared := fun (s t : State) (p : Phase) => t.pwr.phase = p ∧ t.regs = [] ∧ t.rings = State.reset.rings ∧ t.streams = []
    ∧ t.contracts = [] ∧ t.nvm = nvmCut s.nvm ∧ t.cages = s.cages ∧ t.pending = s.pending ∧ t.wt.now = s.wt.now
  let restarted := fun (s t : State) (cause f : Nat) => cleared s t .restarting ∧ t.mem.dram = s.mem.dram ∧ t.flt.restartTick = s.wt.wall
    ∧ t.flt.restartCause.toNat = f * 65536 + min 15 (fld s.flt.restartCause 11 8 + 1) * 256 + cause
  (∀ s : State, (s.pwr.phase = .off → s.pwr.mainsLost = none → ∃ t, exec .powerGood s = .next t ∧ cleared s t .reset
      ∧ t.flt.restartCause = 0 ∧ t.mem.dram = [])
    ∧ ((s.pwr.phase ≠ .off ∨ s.pwr.mainsLost ≠ none) → exec .powerGood s = .next s)
    ∧ (∀ m, s.pwr.mainsLost = some m → s.pwr.phase ≠ .off → m + 3200000 ≤ s.wt.now → ∃ t, exec .powerGoodFall s = .next t
      ∧ cleared s t .off ∧ t.flt.restartCause = 0 ∧ t.mem.dram = [])
    ∧ (∀ m, s.pwr.mainsLost = some m → s.wt.now < m + 3200000 → exec .powerGoodFall s = .next s))
  ∧ (∀ (s : State) (f : Fin 512), (l4Due s f.val = true → ∃ t, exec (.moduleRestart (.l4 f)) s = .next t ∧ restarted s t 1 f.val)
    ∧ (l4Due s f.val = false → exec (.moduleRestart (.l4 f)) s = .next s))
  ∧ (∀ s : State, (activateDue s = true → ∃ t, exec (.moduleRestart .activate) s = .next t ∧ restarted s t 2 0)
    ∧ (activateDue s = false → exec (.moduleRestart .activate) s = .next s)
    ∧ (s.pwr.clkin = false → s.pwr.phase = .running → ∃ t, exec (.moduleRestart .resetn) s = .next t ∧ restarted s t 3 0)
    ∧ (s.pwr.phase ≠ .off → ∃ t, exec .resetnLow s = .next t ∧ restarted s t 3 0 ∧ t.pwr.resetLow = some s.wt.now)
    ∧ (s.pwr.resetLow ≠ none → ∃ t, exec .resetnRise s = .next t ∧ t = { s with pwr := { s.pwr with resetLow := none, clkinSince := s.wt.now } })
    ∧ (s.pwr.phase ≠ .off → s.pwr.clkin = true → ∃ t, exec .clkinLoss s = .next t ∧ restarted s t 3 0 ∧ t.pwr.clkin = false)
    ∧ (s.pwr.clkin = false → s.pwr.clkinSince + 1600 ≤ s.wt.now → ∃ t, exec .clkinReturn s = .next t ∧ t.pwr.clkin = true
      ∧ t.pwr.clkinSince = s.wt.now ∧ t.regs = s.regs ∧ t.mem = s.mem)
    ∧ (s.pwr.clkin = true → exec .clkinReturn s = .next s))

/-- R469, R472, R474, R483: start-up goes by the `CLKIN` count, the PLLs' lock, with the settings of the bank in force, and the self-tests:
a failure that is fatal ends it in STOPPED with `SELFTEST_STOP`, and any other failure leaves its unit retired in READY. -/
def Obligations.StartUpRuns : Prop :=
  (∀ (b : Bool) (s : State),
    (starting s = true → s.pwr.clkCounted = false → s.pwr.clkinSince + 6710887 ≤ s.wt.now → ∃ t, exec (.clkinCountEnd b) s = .next t
      ∧ t.pwr.clkCounted = true ∧ t.flt.factory = b ∧ t.pwr.phase = s.pwr.phase ∧ t.regs = s.regs ∧ t.mem = s.mem ∧ t.nvm = s.nvm)
    ∧ (s.wt.now < s.pwr.clkinSince + 6710887 → exec (.clkinCountEnd b) s = .next s)
    ∧ (starting s = true → s.pwr.clkCounted = true → ∃ t, exec (.pllLock b) s = .next t ∧ t.pwr.phase = .training ∧ t.pwr.pllLocked = true
      ∧ t.domainOn 56 = true ∧ t.domainOn 0 = false ∧ bit t.pwr.bootStatus 1 = !b
      ∧ bit t.pwr.bootStatus 0 = (!s.nvm.bankA.valid && !s.nvm.bankB.valid)
      ∧ (forceB s.nvm = true → t.comp.taps = s.nvm.bankB.settings.taps ∧ t.prx.lut = s.nvm.bankB.settings.lut)
      ∧ (forceB s.nvm = false → s.nvm.bankA.valid = true → t.comp.taps = s.nvm.bankA.settings.taps ∧ t.prx.lut = s.nvm.bankA.settings.lut)
      ∧ t.nvm.bankA = s.nvm.bankA ∧ t.nvm.bankB = s.nvm.bankB ∧ t.mem = s.mem)
    ∧ ((starting s = false ∨ s.pwr.clkCounted = false) → exec (.pllLock b) s = .next s))
  ∧ (∀ (fs : List SelfTest) (s : State),
    ((s.pwr.phase ≠ .training ∨ s.mem.trained = false) → exec (.startupComplete fs) s = .next s)
    ∧ (s.pwr.phase = .training → s.mem.trained = true → (∀ f ∈ fs, fatalTest f = none) → ∃ t, exec (.startupComplete fs) s = .next t
      ∧ t.pwr.phase = .running ∧ (∀ d, d < 64 → t.domainOn d = true) ∧ t.contracts = s.contracts
      ∧ (∀ n : Fin 16, .decode n ∈ fs → (t.dec n.val).role = .retired) ∧ (fs = [] → t.pwr.bootStatus = s.pwr.bootStatus))
    ∧ (∀ f u, s.pwr.phase = .training → s.mem.trained = true → f ∈ fs → fatalTest f = some u → ∃ t, exec (.startupComplete fs) s = .next t
      ∧ t.pwr.phase = .stopped ∧ bit t.pwr.bootStatus 3 = true ∧ readyWant t = false))

/-- R463-R467: a domain enters the state chosen for it, wakes ahead of its work, and ends both after the times of Table 19-1; a wake asked
for during an entry follows it; forcing wakes; what waited for PD62 goes on. Other domains, memory and registers that lie elsewhere stay. -/
def Obligations.DomainsSleepAndWake : Prop :=
  ∀ (pd : Fin 64) (s : State), let d := pd.val
    let x := s.domain d
    let kept := fun (t : State) => (∀ e, e ≠ d → t.domain e = s.domain e) ∧ t.mem = s.mem ∧ t.contracts = s.contracts
      ∧ (∀ o, regDomain o ≠ some d → t.reg o = s.reg o)
    (s.serving = true → x.state = .on → x.waking = none → x.restarting = false → domainBusy s d = false → chosenState s d ≠ .on →
        ∃ t, exec (.domainGapEntry pd) s = .next t ∧ (t.domain d).state = chosenState s d
          ∧ (t.domain d).entering = some (chosenState s d, s.wt.now + entryTicks (chosenState s d)) ∧ kept t)
    ∧ ((domainBusy s d = true ∨ chosenState s d = .on) → exec (.domainGapEntry pd) s = .next s)
    ∧ (s.serving = true → wakeDue s d = true → x.state ≠ .on → x.waking = none → x.restarting = false →
        ∃ t, exec (.domainWakeStart pd) s = .next t ∧ kept t ∧ (t.domain d).state = x.state
          ∧ (x.entering = none → (t.domain d).waking = some (s.wt.now + wakeTicks x.state))
          ∧ (x.entering ≠ none → (t.domain d).waking = none ∧ (t.domain d).wakeReq = true))
    ∧ (∀ e k, x.entering = some (e, k) → (s.wt.now < k → exec (.domainEntryDone pd) s = .next s)
        ∧ (k ≤ s.wt.now → ∃ t, exec (.domainEntryDone pd) s = .next t ∧ (t.domain d).entering = none ∧ kept t
          ∧ (x.wakeReq = true → x.state ≠ .on → x.waking = none → x.restarting = false →
              (t.domain d).waking = some (s.wt.now + wakeTicks x.state))))
    ∧ (∀ k, x.waking = some k → (s.wt.now < k → exec (.domainWakeDone pd) s = .next s)
        ∧ (k ≤ s.wt.now → ∃ t, exec (.domainWakeDone pd) s = .next t ∧ t.domainOn d = true ∧ (t.domain d).waking = none ∧ (d ≠ 62 → kept t)
          ∧ (d = 62 → t = dealPieces (s.modDomain 62 fun y => { y with state := .on, waking := none }))))
    ∧ (∀ hi v, ∃ t, exec (.pdForceOnWrite hi v) s = .next t ∧ t.reg (if hi then Off.pdForceHi else Off.pdForceLo) = v
        ∧ t.mem = s.mem ∧ (domainForced t d = false → t.domain d = x)
        ∧ (domainForced t d = true → s.serving = true → x.state ≠ .on → x.waking = none → x.restarting = false → x.entering = none →
            (t.domain d).waking = some (s.wt.now + wakeTicks x.state)))

/-- R68, R477-R480: a sample of the dies moves the two thresholds with their release points, and 120 °C begins the stop, which halts the
module 10 µs later with no launch slot armed and no port up; Tref is taken; a failed fan drives every fan to its full speed; the peak
allowance, updated every 10 ms, stays within 120 s, never falls at a Tref of 55 °C or below, and throttles when it is gone. -/
def Obligations.TemperatureAndPeakAllowance : Prop :=
  (∀ (ts : List (BitVec 16)) (s : State), let h := tempOf (hottest ts).2
    ((ts.length ≠ 24 ∨ s.pwr.pllLocked = false) → exec (.dieSensorSample ts) s = .next s)
    ∧ (ts.length = 24 → s.pwr.pllLocked = true → ∃ t, exec (.dieSensorSample ts) s = .next t ∧ t.pwr.temps = ts
        ∧ (t.pwr.over100 = true ↔ (if s.pwr.over100 then 97 * 16 ≤ h else 100 * 16 ≤ h))
        ∧ (t.pwr.over105 = true ↔ (if s.pwr.over105 then 100 * 16 ≤ h else 105 * 16 ≤ h))
        ∧ (120 * 16 ≤ h → s.pwr.tempStop = false → s.pwr.phase ≠ .stopped → t.pwr.tempStop = true ∧ t.pwr.stopAt = some (s.wt.now + 1600))
        ∧ (h < 120 * 16 → t.pwr.stopAt = s.pwr.stopAt) ∧ t.pwr.phase = s.pwr.phase ∧ t.mem.dram = s.mem.dram))
  ∧ (∀ s : State, (∀ k, s.pwr.stopAt = some k → k ≤ s.wt.now → ∃ t, exec .tempStopHalt s = .next t ∧ t.pwr.phase = .stopped
        ∧ (∀ n, (t.slot n).armed = false) ∧ (∀ p, (t.port p).linkUp = false) ∧ t.peerE.linkUp = false ∧ t.peerW.linkUp = false)
    ∧ (∀ k, s.pwr.stopAt = some k → s.wt.now < k → exec .tempStopHalt s = .next s)
    ∧ (s.pwr.stopAt = none → exec .tempStopHalt s = .next s)
    ∧ (∀ v, s.pwr.pllLocked = true → ∃ t, exec (.trefSample v) s = .next t ∧ t.pwr.tref = v ∧ t.pwr.temps = s.pwr.temps ∧ t.regs = s.regs)
    ∧ (∀ v, s.pwr.pllLocked = false → exec (.trefSample v) s = .next s)
    ∧ (∀ i, s.pwr.pllLocked = true → ∃ t, exec (.fanFail i) s = .next t ∧ t.pwr.fansFailed.getLsbD i.val = true ∧ t.pwr.fanSpeed = 100
        ∧ bit (t.reg (Off.fltStat 17)) 3 = true)
    ∧ ((s.serving = false ∨ s.wt.now < s.pwr.peakAt) → exec .peakAllowanceUpdate s = .next s)
    ∧ (s.serving = true → s.pwr.peakAt ≤ s.wt.now → s.pwr.peakLeft ≤ 120000000 → ∃ t, exec .peakAllowanceUpdate s = .next (dealPieces t)
        ∧ t.pwr.peakAt = s.wt.now + 1600000 ∧ t.pwr.peakLeft ≤ 120000000
        ∧ (tempOf s.pwr.tref ≤ 55 * 16 → s.pwr.peakLeft ≤ t.pwr.peakLeft) ∧ (t.pwr.peakLeft = 0 → t.pwr.throttled = true)
        ∧ (12000000 ≤ t.pwr.peakLeft → t.pwr.throttled = false) ∧ t.regs = s.regs ∧ t.mem = s.mem ∧ t.contracts = s.contracts))

/-- R481, R482: a store takes its snapshot when it starts, in the bank that is not in force, which is invalid while it is written; its
read-back makes the bank valid with the next sequence number, or leaves it invalid; the other bank stays. A store meets a store with
`STATE_CONFLICT` and waits for a stage.
R484, R485: an image is staged in the slot that does not run, which is empty until its read-back is good; a bad image leaves it empty;
activation needs a staged slot; the slot that runs stays. A staged trim takes effect: those of start-up only while the
module starts, those of the pixel path at once only while no contract runs. -/
def Obligations.StoresAndImages : Prop :=
  ((∀ (sq : Fin 1024) (d : Desc) (s t : State) (ref : CmdRef), Starts s sq d ref t → hdrOk d 0x58 [] = true →
    (storing t = true → exec (.nvmStore sq d) s = .next (completeWith t ref St.stateConflict))
    ∧ (∀ r k, t.nvm.writing = some (.stage r k) → exec (.nvmStore sq d) s
        = .next (t.modNvm fun n => { n with waiting := n.waiting ++ [.store ref {}] }))
    ∧ (t.nvm.writing = none → ∃ u, exec (.nvmStore sq d) s = .next u ∧ u.nvm.writing = some (.store ref (snapSettings t))
        ∧ (storeToB t.nvm = true → u.nvm.bankA = t.nvm.bankA ∧ u.nvm.bankB.valid = false ∧ u.nvm.bankB.wear = t.nvm.bankB.wear + 1)
        ∧ (storeToB t.nvm = false → u.nvm.bankB = t.nvm.bankB ∧ u.nvm.bankA.valid = false ∧ u.nvm.bankA.wear = t.nvm.bankA.wear + 1)
        ∧ u.regs = t.regs ∧ u.rings = t.rings ∧ u.mem = t.mem))
  ∧ (∀ (ok : Bool) (s : State) (ref : CmdRef) (x : Settings), s.nvm.writing = some (.store ref x) → s.nvm.waiting = [] →
    (s.serving = false → exec (.nvmStoreDone ok) s = .next s)
    ∧ (s.serving = true → ∃ t, exec (.nvmStoreDone ok) s = .next t ∧ t.nvm.writing = none
        ∧ (storeToB s.nvm = true → t.nvm.bankA = s.nvm.bankA)
        ∧ (storeToB s.nvm = false → t.nvm.bankB = s.nvm.bankB)
        ∧ (ok = true → storeToB s.nvm = true → t.nvm.bankB.valid = true ∧ t.nvm.bankB.settings = x ∧ t.nvm.bankB.seq = nextSeq s.nvm)
        ∧ (ok = true → storeToB s.nvm = false → t.nvm.bankA.valid = true ∧ t.nvm.bankA.settings = x ∧ t.nvm.bankA.seq = nextSeq s.nvm)
        ∧ (ok = false → t.nvm.bankA = s.nvm.bankA ∧ t.nvm.bankB = s.nvm.bankB ∧ bit (t.reg Off.nvmStatus) 1 = true))))
  ∧ (let runs := fun (n : Nvm) => if n.running1 then n.slot1 else n.slot0
  (∀ (sq : Fin 1024) (d : Desc) (bs : List Byte) (s t : State) (ref : CmdRef), Starts s sq d ref t →
    (linkUp t = true → hdrOk d 0x59 [(9, 1), (16, 12)] = true → (descFld d 9 1 = 0 ∨ descFld d 9 1 = 2) → t.nvm.writing = none →
      ∃ u, exec (.firmwareStage sq d (.ok bs)) s = .next u ∧ runs u.nvm = runs t.nvm ∧ (spareSlot u.nvm).empty = true ∧ u.nvm.staged = false
        ∧ u.mem = t.mem ∧ (∀ k, bs.length = descFld d 24 4 → imageRelease bs = some k → u.nvm.writing = some (.stage ref (some k)))
        ∧ ((bs.length ≠ descFld d 24 4 ∨ imageRelease bs = none) → u.nvm.writing = none))
    ∧ (hdrOk d 0x5A [] = true → t.nvm.staged = false → exec (.firmwareActivate sq d) s = .next (completeWith t ref St.stateConflict))
    ∧ (hdrOk d 0x5A [] = true → t.nvm.staged = true → ∃ u, exec (.firmwareActivate sq d) s = .next u ∧ u.nvm.activated = some ref
        ∧ runs u.nvm = runs t.nvm))
  ∧ (∀ (ok : Bool) (s : State) (ref : CmdRef) (k : Nat), s.serving = true → s.nvm.writing = some (.stage ref (some k)) → s.nvm.waiting = [] →
    ∃ t, exec (.firmwareStageDone ok) s = .next t ∧ t.nvm.writing = none ∧ runs t.nvm = runs s.nvm ∧ t.nvm.bankA = s.nvm.bankA
      ∧ t.nvm.bankB = s.nvm.bankB ∧ (ok = true → t.nvm.staged = true ∧ spareSlot t.nvm = ⟨false, k⟩)
      ∧ (ok = false → t.nvm.staged = s.nvm.staged ∧ spareSlot t.nvm = spareSlot s.nvm ∧ bit (t.reg Off.nvmStatus) 1 = true))
  ∧ (∀ (i : Fin 4096) (s : State), let due := (startTrim i.val = true → s.pwr.phase = .training) ∧ (pixelTrim i.val = true → someRunning s = false)
    (¬ due → exec (.trimApply i) s = .next s)
    ∧ (due → ∃ t, exec (.trimApply i) s = .next t ∧ trimOf t i.val = inForceTrim (trimOf s i.val)
        ∧ (∀ j, j ≠ i.val → trimOf t j = trimOf s j) ∧ t.regs = s.regs ∧ t.mem = s.mem)
    ∧ (∀ v x, inForceTrim ⟨x, some v⟩ = ⟨v, none⟩)))

/-- R471, R500, R507: mains that return within the hold-up cancel the fall; a plug-in module above its cage's limit stays in low power;
links go down with their module; a write of `CKOUT_CFG` takes its implemented bits.
R489-R493: `TALLY_SNAPSHOT` captures every tally and the tick unless `HELD`, and other buffers stay; turning tracing on numbers the
records from 0 and seeds the tagging, an enabled trace is a `STATE_CONFLICT`, and turning it off drops the tagged items. -/
def Obligations.CagesSnapshotsAndTracing : Prop :=
  ((∀ s : State, (s.pwr.mainsLost = none → ∃ t, exec .mainsLoss s = .next t ∧ t.pwr.mainsLost = some s.wt.now ∧ t.regs = s.regs ∧ t.mem = s.mem)
    ∧ (s.pwr.mainsLost ≠ none → exec .mainsLoss s = .next s)
    ∧ (∃ t, exec .mainsReturn s = .next t ∧ t.pwr.mainsLost = none ∧ exec .powerGoodFall t = .next t ∧ t.regs = s.regs ∧ t.mem = s.mem)
    ∧ (∀ v, ∃ t, exec (.ckoutCfgWrite v) s = .next t ∧ t.reg Off.ckoutCfg = v &&& 0x9F0FFFFF#32
        ∧ (∀ o, o ≠ Off.ckoutCfg → t.reg o = s.reg o) ∧ t.mem = s.mem ∧ t.contracts = s.contracts))
  ∧ (∀ (c : Fin 11) (mw : Nat) (s : State),
    (∃ t, exec (.plugInModuleInserted c mw) s = .next t
      ∧ mget {} t.cages c.val = { present := true, classMw := mw, lowPower := decide ((if c.val = 10 then 12000 else 3500) < mw) }
      ∧ (∀ e, e ≠ c.val → mget {} t.cages e = mget {} s.cages e) ∧ t.regs = s.regs ∧ t.mem = s.mem)
    ∧ (∃ t, exec (.plugInModuleRemoved c) s = .next t ∧ (mget {} t.cages c.val).present = false
      ∧ (∀ e, e ≠ c.val → mget {} t.cages e = mget {} s.cages e)
      ∧ (∀ p, p / 4 = c.val → c.val < 8 → (t.port p).linkUp = false) ∧ (∀ p, p / 4 ≠ c.val → (t.port p).linkUp = (s.port p).linkUp)
      ∧ (c.val = 8 → t.peerE.linkUp = false) ∧ (c.val = 9 → t.peerW.linkUp = false) ∧ (c.val = 10 → t.link.lstate = .down))))
  ∧ (∀ (sq : Fin 1024) (d : Desc) (s t : State) (ref : CmdRef), Starts s sq d ref t →
    (snapFields d = false → exec (.tallySnapshot sq d) s = .next (completeWith t ref St.invalidField))
    ∧ (snapFields d = true → ∃ u, exec (.tallySnapshot sq d) s = .next u ∧ u.mem = t.mem ∧ u.contracts = t.contracts
        ∧ (∀ b, b ≠ descFld d 8 1 → snapOf u b = snapOf t b)
        ∧ (descFld d 9 1 = 1 → snapOf u (descFld d 8 1) = snapOf t (descFld d 8 1))
        ∧ (descFld d 9 1 = 0 → (snapOf u (descFld d 8 1)).tick = some t.wallNow ∧ (snapOf u (descFld d 8 1)).values = t.tly.counts))
    ∧ (traceFields d = false → exec (.traceConfig sq d) s = .next (completeWith t ref St.invalidField))
    ∧ (traceFields d = true → descFld d 8 1 = 1 → t.tly.traceEn = true → exec (.traceConfig sq d) s = .next (completeWith t ref St.stateConflict))
    ∧ (traceFields d = true → descFld d 8 1 = 1 → t.tly.traceEn = false → ∃ u, exec (.traceConfig sq d) s = .next u ∧ u.tly.traceEn = true
        ∧ u.tly.interval = descFld d 12 4 ∧ u.tly.ringAddr = descFld d 16 8 ∧ u.tly.ringBytes = descFld d 24 4 ∧ u.tly.wptr = 0
        ∧ u.tly.traceSeq = 0 ∧ u.tly.drop = 0 ∧ u.tly.lfsr = t.link.epochMod ∧ u.tly.items = [] ∧ u.mem = t.mem)
    ∧ (traceFields d = true → descFld d 8 1 = 0 → ∃ u, exec (.traceConfig sq d) s = .next u ∧ u.tly.traceEn = false ∧ u.tly.items = []
        ∧ u.mem = t.mem))

/-! ## Every command completes somewhere -/

/-- The commands of chapter 2 complete (R18, R26, R29-R36, R44, R519): under the conditions that the rules give, each answers a next
state with its own effect.
The contract commands complete (Table 3-1, R50-R53, R57, R298, R398, R460): under the conditions that the rules give, each answers a
next state with its own effect. -/
def Obligations.TimeAndContractCommandsComplete : Prop :=
  ((∀ (sq : Fin 1024) (d : Desc) (s t : State) (ref : CmdRef), Starts s sq d ref t →
    (hdrOk d 0x40 [(16, 8)] = true → timeSetConflict t = false → exec (.timeSet sq d) s = .next (timeSetApply ref d t))
    ∧ (∀ k, hdrOk d 0x41 [(9, 3), (12, 4), (16, 8)] = true → launchAtOperands (descFld d 9 1) (descFld d 10 2) (descFld d 12 4) = true →
        t.wallNow + 1600 ≤ descFld d 16 8 → freeAbsSlot t = some k →
        exec (.launchAt sq d) s = .next (t.modSlot k fun _ => armAbs d ref)))
  ∧ (∀ (e : Fin 2) (s : State), foldEn s = true → s.wt.dup = false →
    (s.wt.lastAnnounce + 160000 ≤ s.wt.now → ∃ t, exec .announceSend s = .next t ∧ t.wt.seqAnnounce = (s.wt.seqAnnounce + 1) % 65536
        ∧ t.wt.lastAnnounce = s.wt.now ∧ t.mem = s.mem ∧ t.contracts = s.contracts)
    ∧ (s.wt.role = .bellwether → s.wt.lastSyncSent + 20000 ≤ s.wt.now → ∃ t, exec .syncSend s = .next t
        ∧ t.wt.seqSync = (s.wt.seqSync + 1) % 65536 ∧ t.wt.lastSyncSent = s.wt.now ∧ t.wt.timeStep = false ∧ t.mem = s.mem)
    ∧ ((peerTime s e.val).lastReq + 160000 ≤ s.wt.now → ∃ t, exec (.peerDelayReqSend e) s = .next t
        ∧ (peerTime t e.val).t1 = some (wall16 s) ∧ t.wt.seqReq = (s.wt.seqReq + 1) % 65536 ∧ t.mem = s.mem))
  ∧ (∀ (e : Fin 2) (bs : List Byte) (s : State) (r : Nat), let s1 := heardNow s e.val
    (TimeMsgOk s e.val bs 1 → exec (.announceReceive e bs) s = .next (announceTake e.val bs s1))
    ∧ (TimeMsgOk s e.val bs 2 → exec (.syncReceive e bs r) s = .next (syncTake e.val bs r s1))
    ∧ (TimeMsgOk s e.val bs 3 → exec (.peerDelayReqReceive e bs r) s = .next (delayReqTake e.val r s1))
    ∧ (TimeMsgOk s e.val bs 4 → exec (.peerDelayRespReceive e bs) s = .next (delayRespTake e.val bs s1)))
  ∧ (∀ (e : Fin 2) (m : Fin 16) (s : State) (h : Heard) (a : Nat),
    (mget none s.wt.heard m.val = some h → h.at_ + 480000 < s.wt.now → exec (.announceAgeOut m) s
        = .next (elect (dropModule (s.modWt fun w => { w with heard := mset none w.heard m.val none }) m.val)))
    ∧ (s.wt.role = .member → s.wt.tstate = .locked → s.wt.lastSync.getD 0 + 60000 ≤ s.wt.now →
        exec .syncLossTimeout s = .next (enterTime s .holdover))
    ∧ (s.wt.tstate = .holdover → s.wt.holdSince + 1600000000 ≤ s.wt.now → exec .holdoverTimeout s = .next (enterTime s .unlocked))
    ∧ (foldEn s = true → (peerTime s e.val).lastHeard = some a → a + 480000 ≤ s.wt.now → ∃ t, exec (.peerSilenceTimeout e) s = .next t
        ∧ bit (t.reg Off.wtStatus) (6 + e.val) = true ∧ t.wt.lostAt = some s.wt.now ∧ t.mem = s.mem)
    ∧ (peerMayRise s e.val = true → exec (.peerLinkUp e) s
        = .next (s.modPeer e.val fun p => { p with linkUp := true, lanes := 0xF, fec := true }))
    ∧ ((s.peer e.val).linkUp = true → ∀ lanes fec, exec (.peerLinkDown e lanes fec false) s = .next (peerFallTo s e.val lanes fec)
        ∧ ((peerFallTo s e.val lanes fec).peer e.val).linkUp = false)
    ∧ (anyActive s = false → ∀ v, exec (.foldCfgWrite v) s = .next (foldCfgOp s v)
        ∧ (bit v 4 = false → foldEn s = false → (foldCfgOp s v).reg Off.foldCfg = v &&& 0x00FF001F#32))))
  ∧ ((∀ (sq : Fin 1024) (d : Desc) (bs : List Byte) (s t : State) (ref : CmdRef), Starts s sq d ref t → linkUp t = true →
    let n := descFld d 8 1
    (proposeFields d = true → (t.contract n).state = .free → bs.length = descFld d 24 4 → proposalOk t n bs = true →
      proposalStates t n (parseProposal bs) = true → fits t (proposalBytes (parseProposal bs)) = true →
      exec (.contractPropose sq d (.ok bs)) s = .next (proposeAdmit ref d (parseProposal bs) t))
    ∧ (layoutFields d = true → layoutState (t.contract n) = true → layoutOk t (t.contract n) d bs = true →
      sourcesOpen t (layoutSources (t.contract n) d bs) = true →
      exec (.layoutUpdate sq d (.ok bs)) s = .next (layoutAdmit ref d bs t)))
  ∧ (∀ (sq : Fin 1024) (d : Desc) (s t : State) (ref : CmdRef), Starts s sq d ref t →
    let n := descFld d 8 1
    (commitFields t d = true → commitStates t n = true → exec (.contractCommit sq d) s
      = .next (commitTry t n ref (descFld d 9 1 == 1) (descFld d 16 8)))
    ∧ (hdrOk d 0x12 [(8, 2)] = true → descFld d 8 1 < 64 → descFld d 9 1 < 2 → exec (.contractRelease sq d) s
      = .next (releaseRun t n ref (descFld d 9 1 == 1)))
    ∧ (hdrOk d 0x50 [(12, 4)] = true → descFld d 12 4 ≤ 10000000 → exec (.latencyTolerance sq d) s
      = .next (completeWith (t.modPwr fun p => { p with tolerance := descFld d 12 4 }) ref St.ok)))
  ∧ (∀ (c : Fin 64) (s : State) (ref : CmdRef) (a : Bool) (f : Nat), s.serving = true →
    ((s.contract c.val).commit = some (ref, a, f) → ringsBuildable s c.val = true →
      exec (.contractCommitAccept c) s = .next (commitDecide s c.val ref a f))
    ∧ (blankDue s (s.contract c.val) = true → exec (.releaseBlank c) s = .next
        ((contractPorts s (s.contract c.val)).foldl (fun t p => emitBlank t p 0xFFFF
          (launchTick (s.contract c.val) ((s.contract c.val).nLast.getD 0 + 1)) c.val)
          (s.modContract c.val fun x => { x with blankSent := true })))
    ∧ exec (.launchTickReached c) s = .next (launchReached s c.val)))

/-- The stream, raw, load and proxy commands complete (Table 3-2, R47, R72, R77, R109, R111, R118, R129, R144-R149, R211, R217, R218, R239, R253):
under the conditions that the rules give, streamOpen, streamClose, auSubmit, rawFrameSubmit, rawSliceSubmit, coefLoad, driftTableLoad, curveLoad,
mapLoad, ucodeLoad, proxyStart, proxyStop, unitFetchResume, auFetchComplete, pictureDecodeDone, repairDone, rawFetchResume, rawFetchDone,
paddockRowWritten, overrunStepBegin, seamFrameReceive, granuleClaimGrant, stripeComplete, copyDone, droverMicroword, stallRelease,
learningLookupReturn, droverReloadDone, proxyCaptureStart, proxyAuDone, proxyStopDone, canvasSizeWrite, sclData3Write and prxLutDataWrite answer a
next state with their own effect. -/
def Obligations.StreamAndPixelCommandsComplete : Prop :=
  (∀ (sq : Fin 1024) (d : Desc) (h : HostData) (cfg : CfgParse) (s t : State) (ref : CmdRef), Starts s sq d ref t →
    let n := descFld d 8 1
    let x := t.stream n
    let raw := 3 * (descFld d 32 4 * descFld d 30 2)
    (openFields d = true → x.state = .closed → codecOf (descFld d 9 1) = some .raw → fits t raw = true →
      ∃ u, exec (.streamOpen sq d h cfg) s = .next (complete u ref St.ok (place t raw).1 0 0) ∧ (u.stream n).state = .open_)
    ∧ (∀ c r bs, openFields d = true → x.state = .closed → codecOf (descFld d 9 1) = some c → c ≠ .raw → linkUp t = true → h = .ok bs → cfg = .ok r →
      recordFormat c bs = true → seqSupported c r = true → fits t (storeBytes r + descFld d 12 4) = true →
      ∃ u, exec (.streamOpen sq d h cfg) s = .next (complete u ref St.ok (place t (storeBytes r)).1 0 0) ∧ (u.stream n).state = .open_)
    ∧ (hdrOk d 0x03 [(8, 1)] = true → streamNamed t n = false →
      (x.state = .closed → exec (.streamClose sq d) s = .next (completeWith t ref St.ok))
      ∧ (x.state = .open_ → exec (.streamClose sq d) s = .next (flushStream t n ref)))
    ∧ (hdrOk d 0x04 [(8, 2), (16, 12)] = true → descFld d 9 1 < 4 → x.state = .open_ → x.codec ≠ .raw → descFld d 24 4 ≤ x.ibufBytes / 2 →
      exec (.auSubmit sq d) s = .next (auAccept ref d t))
    ∧ ((descFld d 9 1 = 0 ∨ descFld d 9 1 = 2) → x.state = .open_ → x.codec = .raw →
      (hdrOk d 0x05 [(8, 2), (12, 16)] = true → descFld d 24 4 = x.stride * x.height → exec (.rawFrameSubmit sq d) s = .next (rawAccept ref d none t))
      ∧ (hdrOk d 0x06 [(8, 20)] = true → descFld d 10 2 < sliceCount x → descFld d 24 4 = x.stride * sliceRows x (descFld d 10 2) →
        exec (.rawSliceSubmit sq d) s = .next (rawAccept ref d (some (descFld d 10 2)) t)))
    ∧ (prxFields t d = true → prxStates t d = true → prxFits (t.contract n) d = true →
      exec (.proxyStart sq d) s = .next (completeWith (t.modPrx fun p => prxRunning p ref d (t.contract n)) ref St.ok))
    ∧ (hdrOk d 0x49 [] = true → t.prx.state = .stopped → exec (.proxyStop sq d) s = .next (completeWith t ref St.ok)))
  ∧ (∀ (sq : Fin 1024) (d : Desc) (bs : List Byte) (mm : BitVec 32) (bw : BitVec 14) (s t : State) (ref : CmdRef), Starts s sq d ref t → linkUp t = true →
    let n := descFld d 8 1
    let i := descFld d 9 1
    (n < 64 → (t.contract n).state = .proposed →
      (∀ e r, hdrOk d 0x18 [(8, 1), (16, 12)] = true → bs.length = descFld d 24 4 → 64 ≤ bs.length → endpointAt (t.contract n) (leAt bs 0 2) = some e →
        parseCoef e bs = some r → exec (.coefLoad sq d (.ok bs)) s = .next (coefStoreRec ref n e r (bs.drop 64) t))
      ∧ (hdrOk d 0x19 [(8, 2), (16, 8)] = true → i < 8 → driftOk bs = true → placeFree t.corr.drifts (8 * n + i) 1024 (isProposed t n) = true →
        exec (.driftTableLoad sq d (.ok bs)) s = .next (complete (modDrift t (8 * n + i) (putForce (driftTable bs))) ref St.ok fromFirst 0 0))
      ∧ (hdrOk d 0x1A [(8, 2), (16, 8)] = true → i < 4 → bs.length = 24576 → placeFree t.corr.curves (4 * n + i) 128 (isProposed t n) = true →
        exec (.curveLoad sq d (.ok bs)) s = .next (complete (modCurve t (4 * n + i) (putForce (words16 bs 0 12288))) ref St.ok fromFirst 0 0))
      ∧ (hdrOk d 0x20 [(8, 1), (16, 12), (32, 8)] = true → descFld d 32 8 % 64 = 0 → bs.length = descFld d 24 4 →
        imageOk t (t.contract n) bs = true → fits t bs.length = true →
        exec (.mapLoad sq d (.ok bs)) s = .next (mapAdmit ref d n (parseImage bs) bs.length t)))
    ∧ (hdrOk d 0x21 [(12, 16)] = true → ucodeConflict t (descFld d 12 4) = false → bs.length = descFld d 24 4 →
      exec (.ucodeLoad sq d (.ok bs) mm bw) s = .next (ucodeRun ref (descFld d 12 4) bs mm bw t)))
  ∧ (∀ (st : Fin 256) (h : HostData) (info : UnitInfo) (o : DecOutcome) (s : State) (ref : CmdRef) (u : Au) (r : RawSubmit) (rs : List RawSubmit) (b : Nat),
    exec (.unitFetchResume st) s = .next (s.modStream st.val fetchNext)
    ∧ (fetchingRef (s.stream st.val) = some ref → exec (.auFetchComplete st h info) s = .next (settle (markIngest (s.modStream st.val fun x =>
        { x with units := auFetched x.codec (hostSays s h) info x.units }) ref) st.val))
    ∧ ((s.stream st.val).units.find? (fun u => u.phase == .decoding) = some u → exec (.pictureDecodeDone st o) s = .next (pictureDone s st.val u o))
    ∧ exec (.rawFetchResume st) s = .next (rawGo s st.val)
    ∧ ((s.stream st.val).rawQueue = r :: rs → r.buf = some b → exec (.rawFetchDone st h) s = .next (rawDone st.val (hostSays s h) r b s)))
  ∧ (∀ (core : Fin 16) (n : Nat) (s : State), (s.dec core.val).repair = some n → ∃ t, exec (.repairDone core) s = .next t
      ∧ (t.dec core.val).repair = none ∧ (t.dec core.val).act = 0 ∧ t.mem = s.mem)
  ∧ (∀ (c : Fin 64) (row : Fin 32) (p : List (Nat × Nat)) (j : RowJob) (s : State), (s.contract c.val).rowsComposing.find? (fun j => j.row == row.val) = some j →
      rowWaits s c.val j.frame j.row = false → s.serving = true → s.domainOn 36 = true →
      exec (.paddockRowWritten c row p) s = .next (rowWritten s c.val j p))
  ∧ (∀ (k : Fin 8192) (l : LSlot) (s : State), s.comp.waits.find? (fun w => w.1 == k.val) = some (k.val, l) → waitReady s l = true → s.serving = true →
      exec (.overrunStepBegin k) s = .next (waitBody { s with comp := { s.comp with waits := s.comp.waits.erase (k.val, l) } } k.val l))
  ∧ (∀ (e : Fin 2) (bs : List Byte) (s : State), foldEn s = true → (s.peer e.val).linkUp = true → foldFrameOk s (32 + 128 * leAt bs 12 2) bs = true →
      u8 bs 0 = 0x10 → 1 ≤ leAt bs 12 2 → leAt bs 12 2 ≤ 64 → exec (.seamFrameReceive e bs) s = .next
        { s with comp := { s.comp with seams := (s.comp.seams.filter fun y => !sameStrip (parseSeam e.val bs) y) ++ [parseSeam e.val bs] } })
  ∧ (∀ (core : Fin 16) (cols : List Nat) (s : State), s.serving = true →
    ((s.encCore core.val).act = 2 → exec (.granuleClaimGrant core none) s = .next (encKick s core.val))
    ∧ (∀ j js e, (s.encCore core.val).jobs = j :: js → (s.encCore core.val).act = 1 → endpointAt (s.contract j.contract) j.slot = some e →
      exec (.stripeComplete core cols none) s = .next (encKick (finishStripe s core.val e j cols) core.val))
    ∧ ((s.encCore core.val).copying ≠ [] → ∃ t, exec (.copyDone core) s = .next t ∧ (t.encCore core.val).copying = []))
  ∧ (∀ (dr : Fin 32) (l : RowList) (m : ListCmd) (s : State),
    (droverLive s dr.val = true →
      ((s.drover dr.val).act ≠ .stall → exec (.droverMicroword dr .none) s = .next (droverGo s dr.val 0 false))
      ∧ ((s.drover dr.val).act = .stall → exec (.stallRelease dr) s = .next (droverGo s dr.val (pbNeed s dr.val) false))
      ∧ (∀ e, runningCmd s dr.val = some (l, m) → (s.drover dr.val).lkDone = false → lookupSlot s m.e.slot = some e →
        exec (.learningLookupReturn dr) s = .next (s.modDrover dr.val fun x => { x with lkDone := true, lkMac := some e.mac })))
    ∧ ((s.drover dr.val).act = .halted → s.domainOn (drvDomain dr.val) = true →
      exec (.droverReloadDone dr) s = .next (s.modDrover dr.val fun x => { x with act := .idle })))
  ∧ (∀ (a : Agent) (v : Word) (n : Nat) (ns : List Nat) (x : Capture) (xs : List Capture) (s : State),
    (s.prx.due = n :: ns → s.pwr.over105 = false → s.pwr.throttled = false → s.prx.captures.length < 2 → exec .proxyCaptureStart s
      = .next (s.modPrx fun p => { p with due := ns, captures := p.captures ++ [⟨n, capturePlanes s (s.contract s.prx.contract) n⟩] }))
    ∧ (s.prx.captures = x :: xs → s.prx.state ≠ .stopped → s.pwr.throttled = false → exec .proxyAuDone s = .next (prxDeliver s x false St.ok).2)
    ∧ (s.prx.state = .stopping → s.prx.captures = [] → exec .proxyStopDone s = .next (prxStopped (prxEnd s)))
    ∧ (s.prx.state = .stopped → s.domainOn 37 = true → let k := (s.sel a Off.prxLutSel).toNat % 4096
      exec (.prxLutDataWrite a v) s = .next ((s.modPrx fun p => { p with lut := mset (lutReset k) p.lut k (v.setWidth 10) }).setSel a Off.prxLutSel
        (BitVec.ofNat 32 ((k + 1) % 4096))))
    ∧ (s.domainOn 36 = true →
      (1 ≤ fld v 21 16 → fld v 21 16 ≤ 32 → 1 ≤ fld v 6 0 → fld v 6 0 ≤ 64 → anyContract s = false →
        exec (.canvasSizeWrite v) s = .next (placeCanvas (s.setReg Off.canvasSize (v &&& 0x003F007F#32)) v))
      ∧ (let sel := s.sel a Off.sclSel
        let w := v &&& 0x0FFF0FFF#32
        coefBusy s (fld sel 3 0) (fld sel 16 16) = false → 4 ≤ fld sel 3 0 → tapsOk (fld sel 16 16) (dataTaps s w) = true →
          ∃ t, exec (.sclData3Write a v) s = .next t ∧ t.comp = commitPhase s.comp (fld sel 3 0) (fld sel 16 16) (fld sel 13 8) (dataTaps s w)
            ∧ t.mem = s.mem)))

/-- The commands of the egress ports, the buffer pools, the scheduler and the tables complete (R150, R257, R258, R267, R272, R278, R279, R301, R303,
R309, R314, R318, R319, R325-R338, R394, R395, R514): under the conditions that the rules give, endpointSend, regionSend, heldMessageTimeout,
poolAllocGrant, poolCacheRefill, poolCacheSpill, frameTxEnd, shaperTokensReady, ageDrop, egressLinkUp, egressLinkDown, egPortCfgWrite, periodicBeacon,
egressDelayReqReceive, delayReqWindowReset, telemetryReceive, rxFrameDiscard, driftStale, readCfg, writeCfg, readState, schedAccDone, tableLearn,
tableRemove, lpmInsert, lpmDelete, shadowAudit, shadowAuditDone, learnEventApply, ageSweepVisit, learnNoticeReceive, addNoticeSpreadSend,
tableEccError, trieNodeRebuild and tblSelWrite answer a next state with their own effect. -/
def Obligations.EgressAndTableCommandsComplete : Prop :=
  (∀ (sq : Fin 1024) (d : Desc) (bs : List Byte) (s t : State) (ref : CmdRef), Starts s sq d ref t →
    let u := (drawFree t).2
    let id := (drawFree t).1 % 2 ^ 32
    (hdrOk d 0x28 [(8, 24)] = true → msgFields d 10 11 12 = true → descFld d 8 2 < 16384 → tagHeld t ref.sq ref.cid = false →
      exec (.endpointSend sq d (.ok bs)) s = .next (offerMessage u (msgOf ref d id false 10 11 12) (.ok bs)))
    ∧ (hdrOk d 0x29 [(8, 5), (13, 24)] = true → msgFields d 34 35 36 = true → descFld d 12 1 ≤ 32 → descFld d 32 2 < 16384 →
      tagHeld t ref.sq ref.cid = false → exec (.regionSend sq d (.ok bs)) s = .next (offerMessage u (msgOf ref d id true 34 35 36) (.ok bs)))
    ∧ (hdrOk d 0x30 [(8, 9)] = true → descFld d 14 2 < 16384 → descFld d 16 1 < 32 →
      exec (.tableLearn sq d) s = .next (offerHeld t (.ev (.learn ref (descMac d) (descFld d 14 2) (descFld d 16 1)))))
    ∧ (hdrOk d 0x31 [(8, 6)] = true → exec (.tableRemove sq d) s = .next (offerHeld t (.ev (.remove ref (descMac d)))))
    ∧ (hdrOk d 0x32 [(8, 5), (16, 4)] = true → prefixClean (descFld d 8 4) (descFld d 12 1) = true → exec (.lpmInsert sq d) s
      = .next (offerHeld t (.lpm ref false ⟨descFld d 8 4, descFld d 12 1, BitVec.ofNat 32 (descFld d 16 4)⟩)))
    ∧ (hdrOk d 0x33 [(8, 5)] = true → prefixClean (descFld d 8 4) (descFld d 12 1) = true → exec (.lpmDelete sq d) s
      = .next (offerHeld t (.lpm ref true ⟨descFld d 8 4, descFld d 12 1, 0⟩)))
    ∧ (linkUp t = true → auditFields d = true → t.tbl.audit = none → bs.length = 16 * descFld d 24 4 →
      (auditOf ref d bs).records.all shadowOk = true →
      exec (.shadowAudit sq d (.ok bs)) s = .next (t.modTbl fun x => { x with audit := some (auditOf ref d bs) })))
  ∧ (∀ (sq : Fin 1024) (cid : BitVec 16) (h : HostData) (m : HeldMsg) (p k : Nat) (s : State),
    (heldOf s sq.val cid.toNat = some m → m.since + 9600000000 ≤ s.wt.now → m.buf = some (p, k) →
      exec (.heldMessageTimeout sq cid) s = .next (completeWith (freeBuf (unhold s m) p k) m.ref St.timeout))
    ∧ (s.eg.waiting.find? (fun m => canAlloc s.buf (poolFor (msgLen m)) m.owner) = some m →
      exec (.poolAllocGrant h) s = .next (grantMessage (s.modEg fun e => { e with waiting := e.waiting.erase m }) m h)))
  ∧ (∀ (p : Fin 3) (s : State),
    ((s.pool p.val).cache < 256 → (s.pool p.val).cache + 256 ≤ freeBufs s.buf p.val →
      exec (.poolCacheRefill p) s = .next (s.modPool p.val fun x => { x with cache := x.cache + 256 }))
    ∧ (768 < (s.pool p.val).cache → exec (.poolCacheSpill p) s = .next (s.modPool p.val fun x => { x with cache := x.cache - 256 })))
  ∧ (∀ (p : Fin 32) (q : Fin 65536) (f : Frame) (fs : List Frame) (s : State),
    ((s.port p.val).current = some f → f.src = .port → f.msg = none → ∀ parity, exec (.frameTxEnd p parity) s
      = .next (portGo (traceSent (countSent (s.modPort p.val fun x => { x with current := none }) p.val f) f) p.val))
    ∧ ((qstate (s.port p.val) q.val).frames = f :: fs →
      (eligible s (s.port p.val) q.val f = true → exec (.shaperTokensReady p q) s = .next (portGo s p.val))
      ∧ (q.val % 4 ≠ 0 → f.enq + ageLimit s (q.val % 4) < s.wt.now → ∃ u, exec (.ageDrop p q) s = .next (portKick (dropFrame u p.val f .dropped) p.val)
        ∧ bit (u.reg Off.schedStatus) 0 = true)))
  ∧ (∀ (p : Fin 32) (lock align : Bool) (v : Word) (s : State),
    (linkMayRise s p.val = true → exec (.egressLinkUp p) s = .next (portGo (s.modPort p.val fun x =>
      { x with linkUp := true, blockLock := true, fecAlign := fld (s.reg (Off.egPortCfg p.val)) 3 2 != 0, v := 0 }) p.val))
    ∧ ((s.port p.val).linkUp = true → ∃ a b, exec (.egressLinkDown p lock align) s = .next (discardAll (setStatus (s.modPort p.val fun x =>
      { x with linkUp := false, blockLock := a, fecAlign := b }) (Off.egPortStatus p.val) 1) p.val))
    ∧ (s.domainOn (46 + p.val / 4) = true → portCfgOk v = true → portUsed s p.val = false → bit v 4 = true →
      fld (s.reg (Off.egPortCfg p.val)) 3 0 = fld v 3 0 →
      exec (.egPortCfgWrite p v) s = .next (checkPairs (s.setReg (Off.egPortCfg p.val) (v &&& 0x7F1F#32)) p.val))
    ∧ (s.serving = true → (s.port p.val).lastBeacon + 160 * fld (s.reg Off.beaconInterval) 13 0 ≤ s.wt.now → exec (.periodicBeacon p) s
      = .next (emitBeacon (s.modPort p.val fun y => { y with lastBeacon := s.wt.now }) p.val)))
  ∧ (∀ (p : Fin 32) (bs : List Byte) (age : Word) (ok fec : Bool) (s : State), (s.port p.val).linkUp = true →
    (rxIs s p.val 5 bs = true → let u := dreqWindow s p.val
      (u.port p.val).dreqCount < 4096 → exec (.egressDelayReqReceive p bs age) s
        = .next (sendBuilt (u.modPort p.val fun x => { x with dreqCount := x.dreqCount + 1 }) p.val
          { bytes := delayResp s p.val bs, t2 := some ((s.wt.wall.toNat : Int) * 65536 + s.wt.frac.toNat - age.toNat) }))
    ∧ ((s.port p.val).dreqSecond ≠ s.wallNow / 160000000 → exec (.delayReqWindowReset p) s
      = .next (s.modPort p.val fun x => { x with dreqSecond := s.wallNow / 160000000, dreqCount := 0 }))
    ∧ (rxIs s p.val 9 bs = true → exec (.telemetryReceive p bs) s
      = .next (tlmHost (tlmLearn (noteTemp s (beAt bs 18 2) bs) p.val (beAt bs 18 2) bs) p.val (beAt bs 18 2) bs))
    ∧ ((ok = false ∨ fec = true ∨ (rxIs s p.val 5 bs = false ∧ rxIs s p.val 9 bs = false)) →
      exec (.rxFrameDiscard p bs ok fec) s = .next (rxDiscard (fecBad s p.val fec) p.val bs (ok && !fec))))
  ∧ (∀ (slot : Fin 16384) (s : State), (slotEndpoint s slot.val).isSome = true → let e := mget {} s.corr.eps slot.val
    (e.temp.isSome = true ∨ e.newest.isSome = true) → e.stale = false → e.lastValid + staleAfter s ≤ s.wt.now →
      exec (.driftStale slot) s = .next (setStatus { s with corr := { s.corr with eps := mset {} s.corr.eps slot.val { e with stale := true } } } Off.corrStatus 2))
  ∧ (∀ s : State,
    (schedGo s = false → let acc := fun (op : Word) => s.setReg Off.schedAcc ((s.reg Off.schedAcc &&& 0x40000000#32) ||| op)
      exec .readCfg s = .next (acc 0x80000000#32) ∧ exec .writeCfg s = .next (acc 0x80000001#32) ∧ exec .readState s = .next (acc 0x80000002#32))
    ∧ (schedGo s = true → let q := fld (s.reg Off.schedQSel) 15 0
      (fld (s.reg Off.schedAcc) 1 0 = 0 → exec .schedAccDone s = .next (schedReadCfg s q))
      ∧ (fld (s.reg Off.schedAcc) 1 0 = 1 → exec .schedAccDone s = .next (schedWriteCfg s q))
      ∧ (fld (s.reg Off.schedAcc) 1 0 = 2 → exec .schedAccDone s = .next (schedReadState s (fld (s.reg Off.schedQSel) 28 24) q))))
  ∧ (∀ (a : Audit) (q : QLearn) (qs : List QLearn) (i : Nat) (is : List Nat) (s : State),
    (s.tbl.audit = some a → s.pwr.over105 = false → s.pwr.throttled = false → s.domainOn 61 = true → exec .shadowAuditDone s = .next (auditEnd s a))
    ∧ (s.tbl.queue = q :: qs → s.domainOn 61 = true →
      exec .learnEventApply s = .next (drainHeld (applyEvent (s.modTbl fun t => { t with queue := qs }) q.ev)))
    ∧ (s.tbl.visitAt ≤ 16 * s.wt.now → ∃ t, exec .ageSweepVisit s = .next t ∧ t.tbl.sweep = (s.tbl.sweep + 1) % 32768)
    ∧ (s.tbl.spread = i :: is → ∃ t, exec .addNoticeSpreadSend s = .next t ∧ t.tbl.spread = is))
  ∧ (∀ (e : Fin 2) (bs : List Byte) (s : State), foldEn s = true → (s.peer e.val).linkUp = true → foldFrameOk s 64 bs = true → noticeOk bs = true →
    u8 bs 2 ≠ moduleNo s → exec (.learnNoticeReceive e bs) s = .next (offerEvent (forwardFold s e.val bs false) (32 + e.val)
      (.notice (u8 bs 10) (beNat (slice bs 12 6)) (u8 bs 2) (u8 bs 20))))
  ∧ (∀ (err : TblErr) (j : Fin 4) (i : Nat) (a : Agent) (v : Word) (s : State),
    (s.domainOn 61 = true → exec (.tableEccError err) s = .next (eccError s err)
      ∧ ∃ t, exec (.tblSelWrite a v) s = .next t ∧ t.sel a Off.tblSel = v &&& 0x40007FFF#32 ∧ t.tbl = s.tbl)
    ∧ exec (.trieNodeRebuild j i) s = .next (s.modTbl fun t => { t with badNodes := t.badNodes.erase (j.val + 1, i) }))

/-- The commands of the host link, the control window and the rings complete (R343-R349, R356-R365, R370, R373-R387, R6, R513): under the conditions that
the rules give, nop, sqTailDb, cqHeadDb, descriptorFetch, submitHoldRelease, fenceRelease, completionWaitEnd, cqCoalTimeout, sqCfgWrite, cqCfgWrite,
flitSlot, flitReceive, replayTimeout, mgmtTimeout, linkSignalDetect, trainComplete, trainTimeout, recoveryEntry, recoveryComplete, recoveryTimeout,
retrain, linkCfgWrite, linkMrdReceive, linkMwrReceive, linkCplReceive, cplTimeout, tagQuarantineEnd, loRegisterRead and registerWrite answer a next
state with their own effect. -/
def Obligations.LinkAndRingCommandsComplete : Prop :=
  (∀ (sq : Fin 1024) (d : Desc) (s t : State) (ref : CmdRef), Starts s sq d ref t → hdrOk d 0x01 [] = true →
    exec (.nop sq d) s = .next (completeWith t ref St.ok))
  ∧ (∀ (r : Fin 1024) (v : Word) (s : State),
    (bit (s.sq r.val).cfg 31 = true → let n := ringSize (s.sq r.val).cfg
      let t := fld v 15 0 % n
      ringDist n (s.sq r.val).fetch (s.sq r.val).tail ≤ ringDist n (s.sq r.val).fetch t →
        exec (.sqTailDb r v) s = .next (s.modSq r.val fun q => { q with tail := t, err := false }))
    ∧ (bit (s.cq r.val).cfg 31 = true → let h := fld v 15 0 % ringSize (s.cq r.val).cfg
      headRegress (s.cq r.val) h = false → ∃ u, exec (.cqHeadDb r v) s = .next u ∧ (u.cq r.val).head = h)
    ∧ exec (.completionWaitEnd r) s = .next (waitEnd s r.val)
    ∧ exec (.cqCoalTimeout r) s = .next (levelSample s (768 + fld (s.cq r.val).cfg 23 16)))
  ∧ (∀ (r cyc tag : Nat) (s : State), s.serving = true → linkUp s = true → turn s = some (r, cyc) → placesLeft s ≠ 0 → (readsOut s).length < 32 →
    freeTag s = some tag → exec .descriptorFetch s = .next (issueTurn s r cyc tag (turnCount (s.sq r) (placesLeft s))))
  ∧ (∀ (r : Fin 1024) (d : Desc) (ref : CmdRef) (s : State), s.serving = true →
    ((s.sq r.val).held = some d → submitFits s d = true → ∃ t, exec (.submitHoldRelease r) s = .next t ∧ (t.sq r.val).held = none
      ∧ t.rings.inflight = s.rings.inflight ++ [cmdRef r.val (sqCqOf (s.sq r.val)) s.wt.now d])
    ∧ ((s.sq r.val).fenced = some d → fenceBlocked s r.val d = false → fencedRef s r.val d = some ref → ∃ t, exec (.fenceRelease r) s = .next t
      ∧ (t.sq r.val).fenced = none ∧ t.rings.inflight = s.rings.inflight))
  ∧ (∀ (a : Agent) (v : Word) (s : State), let r := (s.sel a Off.ringSel).toNat
    bit v 31 = true →
    (bit (s.sq r).cfg 31 = false → log2Ok (v &&& sqCfgMask) = true → bit (s.cq (fld (v &&& sqCfgMask) 21 12)).cfg 31 = true →
      exec (.sqCfgWrite a v) s = .next (forgetReads (s.modSq r fun q => { q with cfg := v &&& sqCfgMask, fetch := 0, tail := 0, err := false }) r))
    ∧ (bit (s.cq r).cfg 31 = false → log2Ok (v &&& cqCfgMask) = true → exec (.cqCfgWrite a v) s = .next (s.modCq r fun c =>
      { c with cfg := v &&& cqCfgMask, tail := 0, head := 0, phase := true, full := false, pend := [] })))
  ∧ (∀ (f : List Byte) (s : State),
    ((s.link.lstate = .train ∨ s.link.lstate = .recovery) → exec .flitSlot s = .next (s.modLink (emitMgmt s)))
    ∧ ((s.link.lstate = .active ∨ s.link.lstate = .degraded) → flitGood f = true → let h := BitVec.ofNat 32 (leAt f 0 4)
      bit h 5 = false → fld h 31 30 = 1 → exec (.flitReceive f false) s
        = .next (s.modLink fun l => applyCredit (applyAck l (fld h 17 6)) (fld h 4 3) (fld h 2 0)))
    ∧ (carriesData s = true →
      (s.link.ackSlot + 1024 ≤ s.link.slot → s.link.replay ≠ [] → s.link.resends < 8 → ∃ t, exec .replayTimeout s = .next t
        ∧ t.link.resend = s.link.replay ∧ bit (t.reg Off.linkStatus) 3 = true)
      ∧ (s.link.lastMgmt + 288 ≤ s.link.slot → exec .mgmtTimeout s = .next (enterRecovery s))
      ∧ exec .recoveryEntry s = .next (enterRecovery s) ∧ (enterRecovery s).link.lstate = .recovery))
  ∧ (∀ (signal locked lanes : BitVec 4) (p : PeerMgmt) (set : BitVec 4) (s : State),
    (s.link.lstate = .down → s.domainOn 56 = true → hostCage s = true → signal &&& laneEn s ≠ 0 → s.link.since + 1600000 ≤ s.wt.now →
      ∃ t, exec (.linkSignalDetect signal locked) s = .next t ∧ t.link.lstate = .train)
    ∧ (s.link.lstate = .train → s.link.peer = some p → selectedSet s.link = some set → 16 ≤ s.link.peerRun → s.wt.now ≤ s.link.since + 16000000 →
      ∃ t, exec .trainComplete s = .next t ∧ t.link.lstate = (if set = 0xF then .active else .degraded))
    ∧ (s.link.lstate = .train → s.link.since + 16000000 ≤ s.wt.now → exec .trainTimeout s = .next (enterDown s))
    ∧ (s.link.lstate = .recovery →
      (laneSet (lanes &&& s.link.lanesUsed) ≠ 0 → s.wt.now ≤ s.link.since + 1600000 → ∃ t, exec (.recoveryComplete lanes) s = .next t
        ∧ t.link.lstate = (if laneSet (lanes &&& s.link.lanesUsed) = 0xF then .active else .degraded))
      ∧ (s.link.since + 1600000 ≤ s.wt.now → exec .recoveryTimeout s = .next (enterDown s)))
    ∧ (s.domainOn 56 = true → exec .retrain s = .next (enterDown s))
    ∧ (∀ v : Word, s.domainOn 56 = true → 1 ≤ fld v 9 0 → fld v 9 0 ≤ 1000 → fld v 19 16 ≠ 0 → fld v 19 16 = fld (s.reg Off.linkCfg) 19 16 →
      exec (.linkCfgWrite v) s = .next (s.setReg Off.linkCfg (v &&& 0x010F03FF#32))))
  ∧ (∀ (tag : Fin 4096) (addr : Dword) (len : BitVec 16) (bs : List Byte) (st : Fin 8) (last : Bool) (off : BitVec 16) (s : State),
    let x : Txn := .mrd tag.val addr.toNat len.toNat
    let y : Txn := .mwr addr.toNat bs
    let z : Txn := .cpl tag.val st.val last off.toNat bs
    let r := readWords (len.toNat / 4) addr.toNat (mrdFreed s x)
    linkUp s = true →
    (mayApply s.link x = true → s.link.hostTags.contains tag.val = false → requestOk 4096 addr.toNat len.toNat = true →
      windowOk addr.toNat len.toNat = true → exec (.linkMrdReceive tag addr len) s = .next (answer r.2 tag.val 0 r.1))
    ∧ (mayApply s.link y = true → requestOk 512 addr.toNat bs.length = true → windowOk addr.toNat bs.length = true →
      exec (.linkMwrReceive addr bs) s = .next (writeWords (bs.length / 4) addr.toNat bs (mwrFreed s y bs.length)))
    ∧ (∀ m, mayApply s.link z = true → mget none s.link.quarantine tag.val = none → mget none s.link.reads tag.val = some m →
      cplFits m st.val last off.toNat bs = true → last = false → ∃ t, exec (.linkCplReceive tag st last off bs) s = .next t
        ∧ mget none t.link.reads tag.val = some (cplAdded m st.val off.toNat bs)))
  ∧ (∀ (tag : Fin 4096) (m : MRead) (k : Nat) (s : State),
    (mget none s.link.reads tag.val = some m → m.at_ + 160000 * fld (s.reg Off.linkCfg) 9 0 ≤ s.wt.now → ∃ u, exec (.cplTimeout tag) s = .next (pump (failRead u m))
      ∧ mget none u.link.reads tag.val = none ∧ mget none u.link.quarantine tag.val = some (s.wt.now + 160000000))
    ∧ (mget none s.link.quarantine tag.val = some k → k ≤ s.wt.now → ∃ u, exec (.tagQuarantineEnd tag) s = .next (pump u)
      ∧ mget none u.link.quarantine tag.val = none))
  ∧ (∀ (a : Agent) (v : Word) (s : State), (∃ t, exec (.loRegisterRead a 0x50000#26) s = .next t
      ∧ readValue t a 0x50004 = BitVec.ofNat 32 (s.wt.wall.toNat / 2 ^ 32))
    ∧ (∀ (addr : BitVec 26) (r : RegRow), regAt addr.toNat = some r → reachable s a addr.toNat = true → r.ty = .w1c →
      ∃ t, exec (.registerWrite a addr v) s = .next t ∧ t.reg addr.toNat = s.reg addr.toNat &&& ~~~ (v &&& BitVec.ofNat 32 r.mask)))

/-- The memory, copy, interrupt and fault commands complete (R404-R408, R409, R411, R417, R419, R420, R423, R424, R427-R435, R442, R443, R446, R448,
R450-R459): under the conditions that the rules give, dramTrainingDone, allBankRefresh, mr4Poll, arbiterDecision, burstBreakPoint, burstComplete,
patrolRead, patrolIntervalEnd, memPortRankWrite, memPortWaitRead, dmaCopy, dmaChannelFree, claim, complete, intpendWrite, srcCfgWrite,
unitFaultDetect, sheepdogExpiry, l3RestartDone, fltack, fltInject, ccHeartbeatMiss and moduleRestart answer a next state with
their own effect. -/
def Obligations.MemoryAndFaultCommandsComplete : Prop :=
  (∀ (ws : List (Sweep × Sweep)) (s : State), s.pwr.phase = .training → s.mem.trained = false → allTrained (trainAll (ws.take 32) 0 s) = true →
    exec (.dramTrainingDone ws) s = .next ((trainAll (ws.take 32) 0 s).modMem fun m => { m with trained := true }))
  ∧ (∀ (ch : Fin 32) (a b : Int) (hot : Bool) (s : State),
    (refreshDue s ch.val = true → ∃ t, exec (.allBankRefresh ch a b) s = .next t ∧ (t.channel ch.val).rows = [] ∧ (t.channel ch.val).rfm = 0
      ∧ (t.channel ch.val).refAt = s.wt.now)
    ∧ (s.mem.trained = true → (s.channel ch.val).mr4At + 2560000 ≤ s.wt.now →
      exec (.mr4Poll ch hot) s = .next (s.modChannel ch.val fun c => { c with fastRefresh := hot, mr4At := s.wt.now })))
  ∧ (∀ (ch : Fin 32) (reqs : List MemReq) (s : State), let u := s.modChannel ch.val (arrive s.wt.now reqs)
    ((u.channel ch.val).holder = none → (u.channel ch.val).queue ≠ [] → ∃ t g, exec (.arbiterDecision ch reqs) s = .next t
      ∧ (t.channel ch.val).holder = some g ∧ (t.channel ch.val).left = g.bursts ∧ g.bursts ≤ 8 ∧ ∀ q ∈ (u.channel ch.val).queue, rankOf s g ≤ rankOf s q)
    ∧ (∀ h, (u.channel ch.val).holder = some h → (u.channel ch.val).left ≤ 1 → ∃ t, exec (.burstBreakPoint ch reqs) s = .next t
      ∧ (t.channel ch.val).holder = none))
  ∧ (∀ (ch : Fin 32) (a : Nat) (bs : List Byte) (ecc : Bool) (errs : List (Fin 72)) (s : State), memChannel a = ch.val →
    (bs.length = 64 → (memBad s a 64 = false ∨ a % 64 = 0) → ∃ t, exec (.burstComplete ch (.write a ecc bs false)) s = .next t
      ∧ ∀ b, memByte t b = if a ≤ b ∧ b < a + bs.length then bs.getD (b - a) 0 else memByte s b)
    ∧ (∃ t, exec (.burstComplete ch (.read a ecc errs)) s = .next t ∧ ∀ b, memByte t b = memByte s b))
  ∧ (∀ s : State, s.serving = true → bit (s.reg Off.memCfg) 0 = true →
    (s.mem.patrolRun = true → s.mem.patrolPos + 1 < patrolWords → ∃ t, exec (.patrolRead false []) s = .next t ∧ t.mem.patrolPos = s.mem.patrolPos + 1)
    ∧ (s.mem.patrolStart + patrolTicks s ≤ s.wt.now → s.mem.patrolRun = false →
      exec .patrolIntervalEnd s = .next (s.modMem fun m => { m with patrolStart := s.wt.now, patrolRun := true, patrolPos := 0 })))
  ∧ (∀ (a : Agent) (v : Word) (s : State), let p := (s.sel a Off.memPortSel).toNat
    (fld v 1 0 ≠ 0 → p = 45 → exec (.memPortRankWrite a v) s = .next (s.modMem fun m => { m with rank45 := fld v 1 0 }))
    ∧ exec (.memPortWaitRead a) s = .next (s.modMem fun m => { m with waits := mset 0 m.waits p 0 }))
  ∧ (∀ (sq : Fin 1024) (d : Desc) (h h2 : HostData) (s t : State) (ref : CmdRef), Starts s sq d ref t → dmaFields d = true → dmaSrcSgl d = false →
    dmaDstSgl d = false → let src := [(descFld d 16 8, dmaBytes d)]
    let dst := [(descFld d 24 8, dmaBytes d)]
    (dmaSrcHost d = true ∨ devSrcOk src = true) → (dmaDstHost d = true ∨ devDstOk t dst = true) → (dmaDstHost d = false ∨ hostDstOk dst = true) →
      exec (.dmaCopy sq d h h2) s = .next (startXfer t ref d src dst))
  ∧ (∀ (n : Fin 17) (c : Chan) (x : Xfer) (bs : List Byte) (a : Nat) (s : State), mget none s.dma.channels n.val = some c → c.todo = [] → c.inflight = 0 →
    mget none s.dma.xfers c.piece.xfer = some x → pieceData s x c = .ok bs → bs.length = c.piece.len → x.pieces = 1 → x.flush = [] → x.flushing = 0 →
    x.dstHost = false → cutRanges x.dst c.piece.off c.piece.len = [(a, c.piece.len)] → memBad s a c.piece.len = false →
      ∃ u, exec (.dmaChannelFree n) s = .next (dealPieces (completeWith u x.ref St.ok)) ∧ mget none u.dma.channels n.val = none
        ∧ ∀ b, memByte u b = if a ≤ b ∧ b < a + c.piece.len then bs.getD (b - a) 0 else memByte s b)
  ∧ (∀ (t : Fin 5) (m : Nat) (v : Word) (s : State),
    (claimableBy s t.val m = true → ∃ n u, exec (.claim t) s = .next u ∧ claimableBy s t.val n = true ∧ srcBit u.intc.pend n = false
      ∧ srcBit u.intc.svc n = true ∧ mget none u.intc.claimer n = some t.val)
    ∧ (srcBit s.intc.svc (fld v 10 0) = true → mget none s.intc.claimer (fld v 10 0) = some t.val → ∃ u, exec (.complete t v) s = .next u
      ∧ srcBit u.intc.svc (fld v 10 0) = false ∧ mget none u.intc.claimer (fld v 10 0) = none))
  ∧ (∀ (k : Fin 64) (src : Fin 2048) (v : Word) (s : State),
    (∃ u, exec (.intpendWrite k v) s = .next u ∧ ∀ j < 32, bit v j = true → srcReal (32 * k.val + j) = true → srcBit u.intc.pend (32 * k.val + j) = true)
    ∧ (srcReal src.val = true → fld v 6 4 < 5 → ∃ u, exec (.srcCfgWrite src v) s = .next u ∧ u.reg (Off.srcCfg src.val) = v &&& 0x27F#32))
  ∧ (∀ (f : Fin 512) (i : Fin 4) (g : Fin 32) (v : Word) (s : State), s.pwr.phase ≠ .stopped →
    (s.pwr.pllLocked = true →
      (unitFault f.val = true → ∃ t, exec (.unitFaultDetect f) s = .next t ∧ bit (t.reg (Off.fltStat (f.val / 16))) (f.val % 16) = true)
      ∧ exec (.ccHeartbeatMiss i) s = .next (raiseFault s (288 + i.val)))
    ∧ (∀ dl, (mget ({} : Dog) s.flt.dogs g.val).deadline = some dl → dl ≤ s.wt.now → exec (.sheepdogExpiry g) s = .next (dogExpire s g.val))
    ∧ (armedOf s (fld v 4 0) = [] → ∃ t, exec (.fltack (.cc i) v) s = .next t ∧ (mget ({} : Dog) t.flt.dogs (fld v 4 0)).deadline = none)
    ∧ (s.flt.factory = true → bit v 31 = true → fld v 8 0 = 1 → ∃ t, exec (.fltInject v) s = .next t ∧ bit (t.reg (Off.fltStat 0)) 1 = true))
  ∧ (∀ (pd : Fin 64) (f : Fin 512) (s : State),
    ((s.domain pd.val).restarting = true → s.pwr.phase ≠ .stopped → pd.val ≠ 61 → pd.val ≠ 62 → ∃ t, exec (.l3RestartDone pd) s = .next t
      ∧ (t.domain pd.val).state = .on ∧ (t.domain pd.val).restarting = false)
    ∧ (l4Due s f.val = true → ∃ t, exec (.moduleRestart (.l4 f)) s = .next t ∧ t.pwr.phase = .restarting ∧ t.contracts = [] ∧ t.streams = []))

/-- The power, non-volatile memory and tally commands complete (R463-R485, R489-R493, R500, R68): under the conditions that the rules give,
powerGood, powerGoodFall, clkinCountEnd, clkinLoss, clkinReturn, pllLock, resetnLow, resetnRise, startupComplete, domainGapEntry,
domainWakeStart, domainEntryDone, domainWakeDone, pdForceOnWrite, dieSensorSample, tempStopHalt, trefSample, peakAllowanceUpdate, fanFail,
nvmStore, nvmStoreDone, firmwareStage, firmwareStageDone, firmwareActivate, trimApply, mainsLoss, mainsReturn, plugInModuleInserted,
plugInModuleRemoved, ckoutCfgWrite, tallySnapshot and traceConfig answer a next state with their own effect. -/
def Obligations.PowerAndTallyCommandsComplete : Prop :=
  (∀ (b : Bool) (s : State),
    (s.pwr.phase = .off → s.pwr.mainsLost = none → ∃ t, exec .powerGood s = .next t ∧ t.pwr.phase = .reset ∧ t.regs = [])
    ∧ (∀ m, s.pwr.mainsLost = some m → s.pwr.phase ≠ .off → m + 3200000 ≤ s.wt.now → ∃ t, exec .powerGoodFall s = .next t ∧ t.pwr.phase = .off)
    ∧ (s.pwr.phase ≠ .off → ∃ t, exec .resetnLow s = .next t ∧ t.pwr.phase = .restarting ∧ t.pwr.resetLow = some s.wt.now)
    ∧ (s.pwr.resetLow ≠ none → exec .resetnRise s = .next (s.modPwr fun p => { p with resetLow := none, clkinSince := s.wt.now }))
    ∧ (s.pwr.phase ≠ .off → s.pwr.clkin = true → ∃ t, exec .clkinLoss s = .next t ∧ t.pwr.phase = .restarting ∧ t.pwr.clkin = false)
    ∧ (s.pwr.clkin = false → s.pwr.clkinSince + 1600 ≤ s.wt.now → ∃ t, exec .clkinReturn s = .next t ∧ t.pwr.clkin = true)
    ∧ (starting s = true → s.pwr.clkCounted = false → s.pwr.clkinSince + 6710887 ≤ s.wt.now → ∃ t, exec (.clkinCountEnd b) s = .next t
      ∧ t.pwr.clkCounted = true ∧ t.flt.factory = b)
    ∧ (starting s = true → s.pwr.clkCounted = true → ∃ t, exec (.pllLock b) s = .next t ∧ t.pwr.phase = .training ∧ t.pwr.pllLocked = true)
    ∧ (s.pwr.phase = .training → s.mem.trained = true → ∃ t, exec (.startupComplete []) s = .next t ∧ t.pwr.phase = .running))
  ∧ (∀ (pd : Fin 64) (hi : Bool) (v : Word) (s : State), let d := pd.val
    let x := s.domain d
    (s.serving = true → x.state = .on → x.waking = none → x.restarting = false → domainBusy s d = false → chosenState s d ≠ .on →
      ∃ t, exec (.domainGapEntry pd) s = .next t ∧ (t.domain d).state = chosenState s d)
    ∧ (s.serving = true → wakeDue s d = true → x.state ≠ .on → x.waking = none → x.restarting = false → x.entering = none →
      ∃ t, exec (.domainWakeStart pd) s = .next t ∧ (t.domain d).waking = some (s.wt.now + wakeTicks x.state))
    ∧ (∀ e k, x.entering = some (e, k) → k ≤ s.wt.now → ∃ t, exec (.domainEntryDone pd) s = .next t ∧ (t.domain d).entering = none)
    ∧ (∀ k, x.waking = some k → k ≤ s.wt.now → ∃ t, exec (.domainWakeDone pd) s = .next t ∧ t.domainOn d = true)
    ∧ (∃ t, exec (.pdForceOnWrite hi v) s = .next t ∧ t.reg (if hi then Off.pdForceHi else Off.pdForceLo) = v))
  ∧ (∀ (ts : List (BitVec 16)) (v : BitVec 16) (i : Fin 4) (s : State),
    (s.pwr.pllLocked = true → (ts.length = 24 → ∃ t, exec (.dieSensorSample ts) s = .next t ∧ t.pwr.temps = ts)
      ∧ (∃ t, exec (.trefSample v) s = .next t ∧ t.pwr.tref = v)
      ∧ (∃ t, exec (.fanFail i) s = .next t ∧ t.pwr.fansFailed.getLsbD i.val = true ∧ t.pwr.fanSpeed = 100))
    ∧ (∀ k, s.pwr.stopAt = some k → k ≤ s.wt.now → ∃ t, exec .tempStopHalt s = .next t ∧ t.pwr.phase = .stopped)
    ∧ (s.serving = true → s.pwr.peakAt ≤ s.wt.now → s.pwr.peakLeft ≤ 120000000 → ∃ t, exec .peakAllowanceUpdate s = .next (dealPieces t)
      ∧ t.pwr.peakAt = s.wt.now + 1600000))
  ∧ (∀ (sq : Fin 1024) (d : Desc) (bs : List Byte) (k : Nat) (s t : State) (ref : CmdRef), Starts s sq d ref t →
    (hdrOk d 0x58 [] = true → t.nvm.writing = none → ∃ u, exec (.nvmStore sq d) s = .next u ∧ u.nvm.writing = some (.store ref (snapSettings t)))
    ∧ (linkUp t = true → hdrOk d 0x59 [(9, 1), (16, 12)] = true → (descFld d 9 1 = 0 ∨ descFld d 9 1 = 2) → t.nvm.writing = none →
      bs.length = descFld d 24 4 → imageRelease bs = some k →
      ∃ u, exec (.firmwareStage sq d (.ok bs)) s = .next u ∧ u.nvm.writing = some (.stage ref (some k)))
    ∧ (hdrOk d 0x5A [] = true → t.nvm.staged = true →
      exec (.firmwareActivate sq d) s = .next (completeWith (t.modNvm fun n => { n with activated := some ref }) ref St.ok))
    ∧ (snapFields d = true → descFld d 9 1 = 0 → ∃ u, exec (.tallySnapshot sq d) s = .next u
      ∧ (snapOf u (descFld d 8 1)).tick = some t.wallNow ∧ (snapOf u (descFld d 8 1)).values = t.tly.counts)
    ∧ (traceFields d = true → (descFld d 8 1 = 0 ∨ t.tly.traceEn = false) →
      exec (.traceConfig sq d) s = .next (completeWith (traceSet t d) ref St.ok)))
  ∧ (∀ (ok : Bool) (i : Fin 4096) (ref : CmdRef) (x : Settings) (k : Nat) (s : State),
    (s.serving = true → s.nvm.waiting = [] →
      (s.nvm.writing = some (.store ref x) → ∃ t, exec (.nvmStoreDone ok) s = .next t ∧ t.nvm.writing = none)
      ∧ (s.nvm.writing = some (.stage ref (some k)) → ∃ t, exec (.firmwareStageDone true) s = .next t ∧ t.nvm.writing = none ∧ t.nvm.staged = true))
    ∧ (startTrim i.val = false → (pixelTrim i.val = true → someRunning s = false) → ∃ t, exec (.trimApply i) s = .next t
      ∧ trimOf t i.val = inForceTrim (trimOf s i.val)))
  ∧ (∀ (c : Fin 11) (mw : Nat) (v : Word) (s : State),
    (s.pwr.mainsLost = none → exec .mainsLoss s = .next (s.modPwr fun p => { p with mainsLost := some s.wt.now }))
    ∧ exec .mainsReturn s = .next (s.modPwr fun p => { p with mainsLost := none })
    ∧ (∃ t, exec (.plugInModuleInserted c mw) s = .next t ∧ (mget {} t.cages c.val).present = true)
    ∧ (∃ t, exec (.plugInModuleRemoved c) s = .next t ∧ (mget {} t.cages c.val).present = false)
    ∧ exec (.ckoutCfgWrite v) s = .next (s.setReg Off.ckoutCfg (v &&& 0x9F0FFFFF#32)))
end

