-- ==== Sys2Proof/Laws/Exact.lean ====
section
/-! SUPPORT. Ranges of the stored values of the transfer functions (R123). -/

namespace Sys2Proof.Machine

/-- A clipped value lies between the bounds. -/
theorem clip_range {lo hi : Int} (h : lo ≤ hi) (x : Int) : lo ≤ clip lo hi x ∧ clip lo hi x ≤ hi := by
  simp only [clip]; omega

/-- A stored value has 16 bits. -/
theorem fxStore_range (l : Int) : 0 ≤ fxStore l ∧ fxStore l ≤ 65535 := by
  unfold fxStore; exact clip_range (by decide) _

/-- The exact value of BT.1886 has 16 bits. -/
theorem eotfSdr_range (nits white v : Nat) : 0 ≤ eotfSdr nits white v ∧ eotfSdr nits white v ≤ 65535 := by
  unfold eotfSdr; exact fxStore_range _

/-- The exact value of PQ has 16 bits. -/
theorem eotfPq_range (nits v : Nat) : 0 ≤ eotfPq nits v ∧ eotfPq nits v ≤ 65535 := by
  unfold eotfPq; exact fxStore_range _

end Sys2Proof.Machine
end

