-- ==== Sys2Proof/Laws/Map.lean ====
section
/-! SUPPORT. Laws of the sparse array: what is written is read, every other place is unchanged, and the canonical form
is kept. -/

namespace Sys2Proof.Machine

theorem mget_minsert {α : Type} (d x : α) : ∀ (m : Map α) (i j : Nat), mget d (minsert m i x) j = if j = i then x else mget d m j
  | [], i, j => rfl
  | (k, v) :: m, i, j => by
    unfold minsert
    split
    · subst_vars; simp only [mget]; split <;> rfl
    · split
      · simp only [mget]
      · simp only [mget]
        rw [mget_minsert d x m i j]
        by_cases hj : j = k
        · subst hj; rw [if_pos rfl, if_neg (by omega), if_pos rfl]
        · rw [if_neg hj, if_neg hj]

theorem mget_merase {α : Type} (d : α) : ∀ (m : Map α) (i j : Nat), mget d (merase m i) j = if j = i then d else mget d m j
  | [], i, j => by simp [merase, mget]
  | (k, v) :: m, i, j => by
    unfold merase
    split
    · subst_vars
      rw [mget_merase d m i j]
      by_cases hj : j = i
      · rw [if_pos hj, if_pos hj]
      · simp only [mget]; rw [if_neg hj, if_neg hj, if_neg hj]
    · simp only [mget]
      rw [mget_merase d m i j]
      by_cases hj : j = k
      · subst hj; rw [if_pos rfl, if_neg (by omega), if_pos rfl]
      · rw [if_neg hj, if_neg hj]

/-- A read after a write: the written place reads as written, every other place as before. -/
theorem mget_mset {α : Type} [DecidableEq α] (d : α) (m : Map α) (i : Nat) (x : α) (j : Nat) :
    mget d (mset d m i x) j = if j = i then x else mget d m j := by
  unfold mset
  split
  · rename_i hx; rw [mget_merase d m i j, hx]
  · exact mget_minsert d x m i j

theorem risingFrom_le {α : Type} : ∀ (m : Map α) (lo lo' : Nat), lo' ≤ lo → risingFrom lo m = true → risingFrom lo' m = true
  | [], _, _, _, _ => rfl
  | (k, _) :: m, lo, lo', h, hr => by
    simp only [risingFrom, Bool.and_eq_true, decide_eq_true_eq] at hr ⊢
    exact ⟨by omega, hr.2⟩
theorem minsert_rising {α : Type} (x : α) : ∀ (m : Map α) (lo i : Nat), lo ≤ i → risingFrom lo m = true → risingFrom lo (minsert m i x) = true
  | [], lo, i, h, _ => by simpa [minsert, risingFrom] using h
  | (k, v) :: m, lo, i, h, hr => by
    simp only [risingFrom, Bool.and_eq_true, decide_eq_true_eq] at hr
    unfold minsert
    split
    · subst_vars; simp [risingFrom, hr]
    · split
      · simp only [risingFrom, Bool.and_eq_true, decide_eq_true_eq]; exact ⟨h, by omega, hr.2⟩
      · simp only [risingFrom, Bool.and_eq_true, decide_eq_true_eq]; exact ⟨hr.1, minsert_rising x m (k + 1) i (by omega) hr.2⟩
theorem merase_rising {α : Type} : ∀ (m : Map α) (lo i : Nat), risingFrom lo m = true → risingFrom lo (merase m i) = true
  | [], _, _, _ => rfl
  | (k, v) :: m, lo, i, hr => by
    simp only [risingFrom, Bool.and_eq_true, decide_eq_true_eq] at hr
    unfold merase
    split
    · exact merase_rising m lo i (risingFrom_le m _ _ (by omega) hr.2)
    · simp only [risingFrom, Bool.and_eq_true, decide_eq_true_eq]; exact ⟨hr.1, merase_rising m (k + 1) i hr.2⟩
theorem mem_minsert {α : Type} (x : α) (p : Nat × α) : ∀ (m : Map α) (i : Nat), p ∈ minsert m i x → p = (i, x) ∨ p ∈ m
  | [], i, h => by simpa [minsert] using h
  | (k, v) :: m, i, h => by
    unfold minsert at h
    split at h
    · rcases List.mem_cons.1 h with h | h
      · exact .inl h
      · exact .inr (List.mem_cons_of_mem _ h)
    · split at h
      · exact List.mem_cons.1 h
      · rcases List.mem_cons.1 h with h | h
        · exact .inr (h ▸ List.mem_cons_self ..)
        · rcases mem_minsert x p m i h with h | h
          · exact .inl h
          · exact .inr (List.mem_cons_of_mem _ h)
theorem mem_merase {α : Type} (p : Nat × α) : ∀ (m : Map α) (i : Nat), p ∈ merase m i → p ∈ m
  | [], i, h => h
  | (k, v) :: m, i, h => by
    unfold merase at h
    split at h
    · exact List.mem_cons_of_mem _ (mem_merase p m i h)
    · rcases List.mem_cons.1 h with h | h
      · exact h ▸ List.mem_cons_self ..
      · exact List.mem_cons_of_mem _ (mem_merase p m i h)
theorem mset_mwf {α : Type} [DecidableEq α] (d : α) (m : Map α) (i : Nat) (x : α) (h : mwf d m = true) : mwf d (mset d m i x) = true := by
  simp only [mwf, Bool.and_eq_true, List.all_eq_true, decide_eq_true_eq] at h ⊢
  unfold mset
  split
  · exact ⟨merase_rising m 0 i h.1, fun p hp => h.2 p (mem_merase p m i hp)⟩
  · rename_i hx
    refine ⟨minsert_rising x m 0 i (Nat.zero_le _) h.1, fun p hp => ?_⟩
    rcases mem_minsert x p m i hp with rfl | hp
    · exact hx
    · exact h.2 p hp

/-- A modified array: the modified place reads as the function of its old value. -/
theorem mget_mmod {α : Type} [DecidableEq α] (d : α) (m : Map α) (i : Nat) (f : α → α) (j : Nat) :
    mget d (mmod d m i f) j = if j = i then f (mget d m i) else mget d m j := mget_mset d m i _ j

theorem mmod_mwf {α : Type} [DecidableEq α] (d : α) (m : Map α) (i : Nat) (f : α → α) (h : mwf d m = true) :
    mwf d (mmod d m i f) = true := mset_mwf d m i _ h

end Sys2Proof.Machine
end

