-- ==== Sys2Proof/Laws/Keeps.lean ====
section
/-! SUPPORT. What every operation of the model keeps: the queue of waiting commands, the model's own clock, and the
canonical form of device memory. One lemma per operation, named after it. -/

set_option linter.unreachableTactic false
set_option linter.unusedTactic false
set_option linter.unusedVariables false
set_option maxRecDepth 10000
set_option maxHeartbeats 400000

namespace Sys2Proof.Machine

/-- The queue and the clock are those of `qq`, and device memory has its canonical form. -/
def Kept (qq : List Instr × Nat) (s : State) : Prop :=
  (s.pending = qq.1 ∧ s.wt.now = qq.2) ∧ mwf 0 s.mem.dram = true

theorem kept_upd {qq : List Instr × Nat} (e : State) {w : WallTime} {x2 x3 x4 x5 x6 x7 x8 x9 x10 x11 x12 x13 x14 x15 x16 x17} {m : Mem} {y1 y2 y3 y4 y5 y6 y7 y8 y9 y10 y11}
  (h : Kept qq e) (hm : w.now = e.wt.now ∧ m.dram = e.mem.dram) :
  Kept qq (State.mk w x2 x3 x4 x5 x6 x7 x8 x9 x10 x11 x12 x13 x14 x15 x16 x17 m y1 y2 y3 y4 y5 y6 y7 y8 y9 y10 y11 e.pending) := ⟨⟨h.1.1, hm.1.trans h.1.2⟩, by rw [hm.2]; exact h.2⟩
theorem foldl_kept {α : Type} {qq : List Instr × Nat} (g : State → α → State) (l : List α) (s : State) (hg : ∀ t x, Kept qq t → Kept qq (g t x)) (hs : Kept qq s) : Kept qq (l.foldl g s) := by
  induction l generalizing s with
  | nil => exact hs
  | cons x l ih => exact ih _ (hg _ _ hs)
theorem State_setReg_kept {qq : List Instr × Nat} (s : State) (off : Nat) (v : Word) (hK : Kept qq s) : Kept qq (State.setReg s off v) := ⟨hK.1, hK.2⟩
theorem State_setSel_kept {qq : List Instr × Nat} (s : State) (a : Agent) (off : Nat) (v : Word) (hK : Kept qq s) : Kept qq (State.setSel s a off v) := ⟨hK.1, hK.2⟩
theorem State_setLatch_kept {qq : List Instr × Nat} (s : State) (a : Agent) (off : Nat) (v : Word) (hK : Kept qq s) : Kept qq (State.setLatch s a off v) := ⟨hK.1, hK.2⟩
theorem State_modLink_kept {qq : List Instr × Nat} (s : State) (f : Link → Link) (hK : Kept qq s) : Kept qq (State.modLink s f) := ⟨hK.1, hK.2⟩
theorem State_modRings_kept {qq : List Instr × Nat} (s : State) (f : Rings → Rings) (hK : Kept qq s) : Kept qq (State.modRings s f) := ⟨hK.1, hK.2⟩
theorem State_modDma_kept {qq : List Instr × Nat} (s : State) (f : Dma → Dma) (hK : Kept qq s) : Kept qq (State.modDma s f) := ⟨hK.1, hK.2⟩
theorem State_modPwr_kept {qq : List Instr × Nat} (s : State) (f : Power → Power) (hK : Kept qq s) : Kept qq (State.modPwr s f) := ⟨hK.1, hK.2⟩
theorem State_modNvm_kept {qq : List Instr × Nat} (s : State) (f : Nvm → Nvm) (hK : Kept qq s) : Kept qq (State.modNvm s f) := ⟨hK.1, hK.2⟩
theorem State_modTbl_kept {qq : List Instr × Nat} (s : State) (f : Tables → Tables) (hK : Kept qq s) : Kept qq (State.modTbl s f) := ⟨hK.1, hK.2⟩
theorem State_modEg_kept {qq : List Instr × Nat} (s : State) (f : Egress → Egress) (hK : Kept qq s) : Kept qq (State.modEg s f) := ⟨hK.1, hK.2⟩
theorem State_modBuf_kept {qq : List Instr × Nat} (s : State) (f : Buffers → Buffers) (hK : Kept qq s) : Kept qq (State.modBuf s f) := ⟨hK.1, hK.2⟩
theorem State_modTly_kept {qq : List Instr × Nat} (s : State) (f : Tally → Tally) (hK : Kept qq s) : Kept qq (State.modTly s f) := ⟨hK.1, hK.2⟩
theorem State_modFlt_kept {qq : List Instr × Nat} (s : State) (f : Faults → Faults) (hK : Kept qq s) : Kept qq (State.modFlt s f) := ⟨hK.1, hK.2⟩
theorem State_modContract_kept {qq : List Instr × Nat} (s : State) (c : Nat) (f : Contract → Contract) (hK : Kept qq s) : Kept qq (State.modContract s c f) := ⟨hK.1, hK.2⟩
theorem State_modStream_kept {qq : List Instr × Nat} (s : State) (n : Nat) (f : Stream → Stream) (hK : Kept qq s) : Kept qq (State.modStream s n f) := ⟨hK.1, hK.2⟩
theorem State_modDec_kept {qq : List Instr × Nat} (s : State) (n : Nat) (f : DecCore → DecCore) (hK : Kept qq s) : Kept qq (State.modDec s n f) := ⟨hK.1, hK.2⟩
theorem State_modEncCore_kept {qq : List Instr × Nat} (s : State) (n : Nat) (f : EncCore → EncCore) (hK : Kept qq s) : Kept qq (State.modEncCore s n f) := ⟨hK.1, hK.2⟩
theorem State_modDrover_kept {qq : List Instr × Nat} (s : State) (n : Nat) (f : Drover → Drover) (hK : Kept qq s) : Kept qq (State.modDrover s n f) := ⟨hK.1, hK.2⟩
theorem State_modPort_kept {qq : List Instr × Nat} (s : State) (p : Nat) (f : Port → Port) (hK : Kept qq s) : Kept qq (State.modPort s p f) := ⟨hK.1, hK.2⟩
theorem State_modChannel_kept {qq : List Instr × Nat} (s : State) (c : Nat) (f : Channel → Channel) (hK : Kept qq s) : Kept qq (State.modChannel s c f) := ⟨hK.1, hK.2⟩
theorem State_modDomain_kept {qq : List Instr × Nat} (s : State) (d : Nat) (f : Domain → Domain) (hK : Kept qq s) : Kept qq (State.modDomain s d f) := ⟨hK.1, hK.2⟩
theorem State_modCq_kept {qq : List Instr × Nat} (s : State) (r : Nat) (f : Cq → Cq) (hK : Kept qq s) : Kept qq (State.modCq s r f) := ⟨hK.1, hK.2⟩
theorem State_modPeer_kept {qq : List Instr × Nat} (s : State) (e : Nat) (f : Peer → Peer) (hK : Kept qq s) : Kept qq (State.modPeer s e f) := by
  unfold State.modPeer; try dsimp only
  repeat' (first | with_reducible exact hK | with_reducible assumption | intro _ _ _ | intro _ _ | fail_if_no_progress (with_reducible apply kept_upd; on_goal 2 => exact ⟨rfl, rfl⟩) | split | rfl)
theorem State_modSlot_kept {qq : List Instr × Nat} (s : State) (k : Nat) (f : LSlot → LSlot) (hK : Kept qq s) : Kept qq (State.modSlot s k f) := ⟨hK.1, hK.2⟩
theorem State_modSlice_kept {qq : List Instr × Nat} (s : State) (k : Nat) (f : Slice → Slice) (hK : Kept qq s) : Kept qq (State.modSlice s k f) := ⟨hK.1, hK.2⟩
theorem pendRaw_kept {qq : List Instr × Nat} (s : State) (n : Nat) (hK : Kept qq s) : Kept qq (pendRaw s n) := ⟨hK.1, hK.2⟩
theorem devEvent_kept {qq : List Instr × Nat} (s0 s : State) (hK : Kept qq s) : Kept qq (devEvent s0 s) := by
  unfold devEvent; split
  · exact hK
  · exact ⟨hK.1, hK.2⟩
theorem pendSrc_kept {qq : List Instr × Nat} (s : State) (n : Nat) (hK : Kept qq s) : Kept qq (pendSrc s n) := by
  unfold pendSrc; try dsimp only
  repeat' (first | with_reducible exact hK | with_reducible assumption | with_reducible apply pendRaw_kept | with_reducible apply devEvent_kept | intro _ _ _ | intro _ _ | fail_if_no_progress (with_reducible apply kept_upd; on_goal 2 => exact ⟨rfl, rfl⟩) | split | rfl)
theorem levelSample_kept {qq : List Instr × Nat} (s : State) (n : Nat) (hK : Kept qq s) : Kept qq (levelSample s n) := by
  unfold levelSample; try dsimp only
  repeat' (first | with_reducible exact hK | with_reducible assumption | with_reducible apply pendSrc_kept | intro _ _ _ | intro _ _ | fail_if_no_progress (with_reducible apply kept_upd; on_goal 2 => exact ⟨rfl, rfl⟩) | split | rfl)
theorem setStatus_kept {qq : List Instr × Nat} (s : State) (off mask : Nat) (hK : Kept qq s) : Kept qq (setStatus s off mask) := by
  unfold setStatus; try dsimp only
  repeat' (first | with_reducible exact hK | with_reducible assumption | with_reducible apply State_setReg_kept | with_reducible apply levelSample_kept | intro _ _ _ | intro _ _ | fail_if_no_progress (with_reducible apply kept_upd; on_goal 2 => exact ⟨rfl, rfl⟩) | split | rfl)
theorem tallyAdd_kept {qq : List Instr × Nat} (s : State) (i n : Nat) (hK : Kept qq s) : Kept qq (tallyAdd s i n) := ⟨hK.1, hK.2⟩
theorem drawFree_kept {qq : List Instr × Nat} (s : State) (hK : Kept qq s) : Kept qq (drawFree s).2 := ⟨hK.1, hK.2⟩
theorem raiseFault_kept {qq : List Instr × Nat} (s : State) (f : Nat) (hK : Kept qq s) : Kept qq (raiseFault s f) := by
  unfold raiseFault; try dsimp only
  repeat' (first | with_reducible exact hK | with_reducible assumption | with_reducible apply State_modFlt_kept | with_reducible apply setStatus_kept | intro _ _ _ | intro _ _ | fail_if_no_progress (with_reducible apply kept_upd; on_goal 2 => exact ⟨rfl, rfl⟩) | split | rfl)
theorem dramWrite_mwf : ∀ (bs : List Byte) (m : Map Byte) (a : Nat), mwf 0 m = true → mwf 0 (dramWrite m a bs) = true
  | [], m, a, h => h
  | b :: bs, m, a, h => dramWrite_mwf bs _ _ (mset_mwf 0 m a b h)
theorem memWrite_kept {qq : List Instr × Nat} (s : State) (a : Nat) (bs : List Byte) (hK : Kept qq s) : Kept qq (memWrite s a bs) := by
  unfold memWrite; dsimp only
  split
  · exact ⟨hK.1, dramWrite_mwf _ _ _ hK.2⟩
  · exact setStatus_kept _ _ _ ⟨hK.1, dramWrite_mwf _ _ _ hK.2⟩
theorem place_kept {qq : List Instr × Nat} (s : State) (n : Nat) (hK : Kept qq s) : Kept qq (place s n).2 := ⟨hK.1, hK.2⟩
theorem unplace_kept {qq : List Instr × Nat} (s : State) (a : Nat) (hK : Kept qq s) : Kept qq (unplace s a) := ⟨hK.1, hK.2⟩
theorem peerSend_kept {qq : List Instr × Nat} (s : State) (e : Nat) (bs : List Byte) (hK : Kept qq s) : Kept qq (peerSend s e bs) := by
  unfold peerSend; try dsimp only
  repeat' (first | with_reducible exact hK | with_reducible assumption | with_reducible apply State_modPeer_kept | intro _ _ _ | intro _ _ | fail_if_no_progress (with_reducible apply kept_upd; on_goal 2 => exact ⟨rfl, rfl⟩) | split | rfl)
theorem markMismatch_kept {qq : List Instr × Nat} (s : State) (p : Nat) (hK : Kept qq s) : Kept qq (markMismatch s p) := by
  unfold markMismatch; try dsimp only
  repeat' (first | with_reducible exact hK | with_reducible assumption | with_reducible apply setStatus_kept | intro _ _ _ | intro _ _ | fail_if_no_progress (with_reducible apply kept_upd; on_goal 2 => exact ⟨rfl, rfl⟩) | split | rfl)
theorem checkPairs_kept {qq : List Instr × Nat} (s : State) (p : Nat) (hK : Kept qq s) : Kept qq (checkPairs s p) := by
  unfold checkPairs; try dsimp only
  repeat' (first | with_reducible exact hK | with_reducible assumption | with_reducible apply markMismatch_kept | with_reducible apply foldl_kept | intro _ _ _ | intro _ _ | fail_if_no_progress (with_reducible apply kept_upd; on_goal 2 => exact ⟨rfl, rfl⟩) | split | rfl)
theorem sendTxn_kept {qq : List Instr × Nat} (s : State) (t : Txn) (hK : Kept qq s) : Kept qq (sendTxn s t) := ⟨hK.1, hK.2⟩
theorem hostWrite_kept {qq : List Instr × Nat} (s : State) (a : Nat) (bs : List Byte) (hK : Kept qq s) : Kept qq (hostWrite s a bs) := ⟨hK.1, hK.2⟩
theorem modWt_kept {qq : List Instr × Nat} (s : State) (f : WallTime → WallTime) (hK : Kept qq s) (hf : (f s.wt).now = s.wt.now) : Kept qq (s.modWt f) := ⟨⟨hK.1.1, hf.trans hK.1.2⟩, hK.2⟩
theorem fixDeferred_kept {qq : List Instr × Nat} (s : State) (n f : Nat) (x : Deferred) (hK : Kept qq s) : Kept qq (fixDeferred s n f x) := by
  unfold fixDeferred; try dsimp only
  repeat' (first | with_reducible exact hK | with_reducible assumption | with_reducible apply State_modContract_kept | with_reducible apply modWt_kept | intro _ _ _ | intro _ _ | fail_if_no_progress (with_reducible apply kept_upd; on_goal 2 => exact ⟨rfl, rfl⟩) | split | rfl)
theorem putCpl_kept {qq : List Instr × Nat} (s : State) (c : Completion) (hK : Kept qq s) : Kept qq (putCpl s c) := by
  unfold putCpl; try dsimp only
  repeat' (first | with_reducible exact hK | with_reducible assumption | with_reducible apply State_modRings_kept | with_reducible apply State_modCq_kept | with_reducible apply levelSample_kept | with_reducible apply sendTxn_kept | intro _ _ _ | intro _ _ | fail_if_no_progress (with_reducible apply kept_upd; on_goal 2 => exact ⟨rfl, rfl⟩) | split | rfl)
theorem writeCpl_kept {qq : List Instr × Nat} (s : State) (c : Completion) (hK : Kept qq s) : Kept qq (writeCpl s c) := by
  unfold writeCpl; try dsimp only
  repeat' (first | with_reducible exact hK | with_reducible assumption | with_reducible apply fixDeferred_kept | with_reducible apply putCpl_kept | intro _ _ _ | intro _ _ | fail_if_no_progress (with_reducible apply kept_upd; on_goal 2 => exact ⟨rfl, rfl⟩) | split | rfl)
theorem drainCpl_kept {qq : List Instr × Nat} : ∀ (cs kept : List Completion) (s : State), Kept qq s → Kept qq (drainCpl cs kept s)
  | [], kept, s, hK => ⟨hK.1, hK.2⟩
  | c :: cs, kept, s, hK => by
    unfold drainCpl
    split
    · exact drainCpl_kept cs kept _ (writeCpl_kept s c hK)
    · exact drainCpl_kept cs _ s hK
theorem markFull_kept {qq : List Instr × Nat} (s : State) (r : Nat) (hK : Kept qq s) : Kept qq (markFull s r) := by
  unfold markFull; try dsimp only
  repeat' (first | with_reducible exact hK | with_reducible assumption | with_reducible apply State_modCq_kept | with_reducible apply setStatus_kept | intro _ _ _ | intro _ _ | fail_if_no_progress (with_reducible apply kept_upd; on_goal 2 => exact ⟨rfl, rfl⟩) | split | rfl)
theorem offerCpl_kept {qq : List Instr × Nat} (s : State) (c : Completion) (hK : Kept qq s) : Kept qq (offerCpl s c) := by
  unfold offerCpl; try dsimp only
  repeat' (first | with_reducible exact hK | with_reducible assumption | with_reducible apply State_modRings_kept | with_reducible apply writeCpl_kept | with_reducible apply markFull_kept | intro _ _ _ | intro _ _ | fail_if_no_progress (with_reducible apply kept_upd; on_goal 2 => exact ⟨rfl, rfl⟩) | split | rfl)
theorem complete_kept {qq : List Instr × Nat} (s : State) (ref : CmdRef) (status r0 r1 r2 : Nat) (hK : Kept qq s) : Kept qq (complete s ref status r0 r1 r2) := by
  unfold complete; try dsimp only
  repeat' (first | with_reducible exact hK | with_reducible assumption | with_reducible apply offerCpl_kept | intro _ _ _ | intro _ _ | fail_if_no_progress (with_reducible apply kept_upd; on_goal 2 => exact ⟨rfl, rfl⟩) | split | rfl)
theorem completeDeferred_kept {qq : List Instr × Nat} (s : State) (ref : CmdRef) (n : Nat) (hK : Kept qq s) : Kept qq (completeDeferred s ref n) := by
  unfold completeDeferred; try dsimp only
  repeat' (first | with_reducible exact hK | with_reducible assumption | with_reducible apply offerCpl_kept | intro _ _ _ | intro _ _ | fail_if_no_progress (with_reducible apply kept_upd; on_goal 2 => exact ⟨rfl, rfl⟩) | split | rfl)
theorem completeWith_kept {qq : List Instr × Nat} (s : State) (ref : CmdRef) (status : Nat) (hK : Kept qq s) : Kept qq (completeWith s ref status) := by
  unfold completeWith; try dsimp only
  repeat' (first | with_reducible exact hK | with_reducible assumption | with_reducible apply complete_kept | intro _ _ _ | intro _ _ | fail_if_no_progress (with_reducible apply kept_upd; on_goal 2 => exact ⟨rfl, rfl⟩) | split | rfl)
theorem offerOrDrop_kept {qq : List Instr × Nat} (s : State) (c : Completion) (hK : Kept qq s) : Kept qq (offerOrDrop s c).2 := by
  unfold offerOrDrop
  split
  · exact writeCpl_kept s c hK
  · exact hK
theorem fireSlot_kept {qq : List Instr × Nat} (s : State) (k : Nat) (hK : Kept qq s) : Kept qq (fireSlot s k) := by
  unfold fireSlot; try dsimp only
  repeat' (first | with_reducible exact hK | with_reducible assumption | with_reducible apply State_modSlot_kept | with_reducible apply setStatus_kept | with_reducible apply complete_kept | intro _ _ _ | intro _ _ | fail_if_no_progress (with_reducible apply kept_upd; on_goal 2 => exact ⟨rfl, rfl⟩) | split | rfl)
theorem modSq_kept {qq : List Instr × Nat} (s : State) (r : Nat) (f : Sq → Sq) (hK : Kept qq s) : Kept qq (s.modSq r f) := ⟨hK.1, hK.2⟩
theorem holdSubmit_kept {qq : List Instr × Nat} (s : State) (r : Nat) (d : Desc) (hK : Kept qq s) : Kept qq (holdSubmit s r d) := by
  unfold holdSubmit; try dsimp only
  repeat' (first | with_reducible exact hK | with_reducible assumption | with_reducible apply setStatus_kept | with_reducible apply modSq_kept | intro _ _ _ | intro _ _ | fail_if_no_progress (with_reducible apply kept_upd; on_goal 2 => exact ⟨rfl, rfl⟩) | split | rfl)
theorem check_kept {qq : List Instr × Nat} (ok : Bool) (st : Nat) (ref : CmdRef) (s : State) (k : State → State) (hk : ∀ t, Kept qq t → Kept qq (k t)) (hK : Kept qq s) : Kept qq (check ok st ref s k) := by
  unfold check
  split
  · exact hk s hK
  · exact completeWith_kept s ref st hK
theorem fetchOf_kept {qq : List Instr × Nat} (h : HostData) (ref : CmdRef) (s : State) (k : List Byte → State → State) (hk : ∀ bs t, Kept qq t → Kept qq (k bs t)) (hK : Kept qq s) : Kept qq (fetchOf h ref s k) := by
  unfold fetchOf
  split
  · exact hk _ s hK
  all_goals exact completeWith_kept s ref _ hK
theorem capture_kept {qq : List Instr × Nat} (s : State) (b : Nat) (hK : Kept qq s) : Kept qq (capture s b) := ⟨hK.1, hK.2⟩
theorem snapRun_kept {qq : List Instr × Nat} (ref : CmdRef) (d : Desc) (s : State) (hK : Kept qq s) : Kept qq (snapRun ref d s) := by
  unfold snapRun; try dsimp only
  repeat' (first | with_reducible exact hK | with_reducible assumption | with_reducible apply hostWrite_kept | with_reducible apply complete_kept | with_reducible apply capture_kept | intro _ _ _ | intro _ _ | fail_if_no_progress (with_reducible apply kept_upd; on_goal 2 => exact ⟨rfl, rfl⟩) | split | rfl)
theorem State_modAvail_kept {qq : List Instr × Nat} (s : State) (c : Nat) (f : Avail → Avail) (hK : Kept qq s) : Kept qq (State.modAvail s c f) := ⟨hK.1, hK.2⟩
theorem lateInput_kept {qq : List Instr × Nat} (s : State) (c n : Nat) (hK : Kept qq s) : Kept qq (lateInput s c n) := ⟨hK.1, hK.2⟩
theorem traceTag_kept {qq : List Instr × Nat} (s : State) (kind stream : Nat) (owner : Option Nat) (ref : CmdRef) (key : Option Nat) (hK : Kept qq s) : Kept qq (traceTag s kind stream owner ref key) := by
  unfold traceTag; try dsimp only
  repeat' (first | with_reducible exact hK | with_reducible assumption | with_reducible apply State_modTly_kept | intro _ _ _ | intro _ _ | fail_if_no_progress (with_reducible apply kept_upd; on_goal 2 => exact ⟨rfl, rfl⟩) | split | rfl)
theorem traceMark_kept {qq : List Instr × Nat} (s : State) (p : Traced → Bool) (f : Traced → Traced) (hK : Kept qq s) : Kept qq (traceMark s p f) := ⟨hK.1, hK.2⟩
theorem traceFlush_kept {qq : List Instr × Nat} (s : State) (hK : Kept qq s) : Kept qq (traceFlush s) := by
  unfold traceFlush; try dsimp only
  repeat' (first | with_reducible exact hK | with_reducible assumption | with_reducible apply State_modTly_kept | with_reducible apply hostWrite_kept | with_reducible apply foldl_kept | intro _ _ _ | intro _ _ | fail_if_no_progress (with_reducible apply kept_upd; on_goal 2 => exact ⟨rfl, rfl⟩) | split | rfl)
theorem traceWrite_kept {qq : List Instr × Nat} (s : State) (x : Traced) (launch : Option Nat) (frame : Nat) (late breach : Bool) (hK : Kept qq s) : Kept qq (traceWrite s x launch frame late breach) := by
  unfold traceWrite; try dsimp only
  repeat' (first | with_reducible exact hK | with_reducible assumption | with_reducible apply State_modTly_kept | with_reducible apply traceFlush_kept | intro _ _ _ | intro _ _ | fail_if_no_progress (with_reducible apply kept_upd; on_goal 2 => exact ⟨rfl, rfl⟩) | split | rfl)
theorem traceSet_kept {qq : List Instr × Nat} (s : State) (d : Desc) (hK : Kept qq s) : Kept qq (traceSet s d) := by
  unfold traceSet; try dsimp only
  repeat' (first | with_reducible exact hK | with_reducible assumption | with_reducible apply State_modTly_kept | with_reducible apply traceFlush_kept | intro _ _ _ | intro _ _ | fail_if_no_progress (with_reducible apply kept_upd; on_goal 2 => exact ⟨rfl, rfl⟩) | split | rfl)
theorem openRaw_kept {qq : List Instr × Nat} (ref : CmdRef) (d : Desc) (s : State) (hK : Kept qq s) : Kept qq (openRaw ref d s) := by
  unfold openRaw; try dsimp only
  repeat' (first | with_reducible exact hK | with_reducible assumption | with_reducible apply State_modStream_kept | with_reducible apply place_kept | with_reducible apply complete_kept | with_reducible apply check_kept | intro _ _ _ | intro _ _ | fail_if_no_progress (with_reducible apply kept_upd; on_goal 2 => exact ⟨rfl, rfl⟩) | split | rfl)
theorem openCoded_kept {qq : List Instr × Nat} (ref : CmdRef) (d : Desc) (codec : Codec) (r : StreamRec) (bs : List Byte) (s : State) (hK : Kept qq s) : Kept qq (openCoded ref d codec r bs s) := by
  unfold openCoded; try dsimp only
  repeat' (first | with_reducible exact hK | with_reducible assumption | with_reducible apply State_modStream_kept | with_reducible apply place_kept | with_reducible apply complete_kept | with_reducible apply check_kept | intro _ _ _ | intro _ _ | fail_if_no_progress (with_reducible apply kept_upd; on_goal 2 => exact ⟨rfl, rfl⟩) | split | rfl)
theorem openParsed_kept {qq : List Instr × Nat} (ref : CmdRef) (d : Desc) (codec : Codec) (cfg : CfgParse) (bs : List Byte) (s : State) (hK : Kept qq s) : Kept qq (openParsed ref d codec cfg bs s) := by
  unfold openParsed; try dsimp only
  repeat' (first | with_reducible exact hK | with_reducible assumption | with_reducible apply completeWith_kept | with_reducible apply check_kept | with_reducible apply openCoded_kept | intro _ _ _ | intro _ _ | fail_if_no_progress (with_reducible apply kept_upd; on_goal 2 => exact ⟨rfl, rfl⟩) | split | rfl)
theorem closedStream_kept {qq : List Instr × Nat} (s : State) (n : Nat) (hK : Kept qq s) : Kept qq (closedStream s n) := ⟨hK.1, hK.2⟩
theorem tryClose_kept {qq : List Instr × Nat} (s : State) (n : Nat) (hK : Kept qq s) : Kept qq (tryClose s n) := by
  unfold tryClose; try dsimp only
  repeat' (first | with_reducible exact hK | with_reducible assumption | with_reducible apply completeWith_kept | with_reducible apply closedStream_kept | with_reducible apply foldl_kept | intro _ _ _ | intro _ _ | fail_if_no_progress (with_reducible apply kept_upd; on_goal 2 => exact ⟨rfl, rfl⟩) | split | rfl)
theorem flushStream_kept {qq : List Instr × Nat} (s : State) (n : Nat) (ref : CmdRef) (hK : Kept qq s) : Kept qq (flushStream s n ref) := by
  unfold flushStream; try dsimp only
  repeat' (first | with_reducible exact hK | with_reducible assumption | with_reducible apply State_modStream_kept | with_reducible apply completeWith_kept | with_reducible apply tryClose_kept | with_reducible apply foldl_kept | intro _ _ _ | intro _ _ | fail_if_no_progress (with_reducible apply kept_upd; on_goal 2 => exact ⟨rfl, rfl⟩) | split | rfl)
theorem streamCloseRun_kept {qq : List Instr × Nat} (ref : CmdRef) (n : Nat) (s : State) (hK : Kept qq s) : Kept qq (streamCloseRun ref n s) := by
  unfold streamCloseRun; try dsimp only
  repeat' (first | with_reducible exact hK | with_reducible assumption | with_reducible apply State_modStream_kept | with_reducible apply completeWith_kept | with_reducible apply flushStream_kept | intro _ _ _ | intro _ _ | fail_if_no_progress (with_reducible apply kept_upd; on_goal 2 => exact ⟨rfl, rfl⟩) | split | rfl)
theorem tagSubmit_kept {qq : List Instr × Nat} (s : State) (kind n : Nat) (ref : CmdRef) (key : Option Nat) (hK : Kept qq s) : Kept qq (tagSubmit s kind n ref key) := by
  unfold tagSubmit; try dsimp only
  repeat' (first | with_reducible exact hK | with_reducible assumption | with_reducible apply traceTag_kept | intro _ _ _ | intro _ _ | fail_if_no_progress (with_reducible apply kept_upd; on_goal 2 => exact ⟨rfl, rfl⟩) | split | rfl)
theorem auAccept_kept {qq : List Instr × Nat} (ref : CmdRef) (d : Desc) (s : State) (hK : Kept qq s) : Kept qq (auAccept ref d s) := by
  unfold auAccept; try dsimp only
  repeat' (first | with_reducible exact hK | with_reducible assumption | with_reducible apply State_modStream_kept | with_reducible apply tagSubmit_kept | intro _ _ _ | intro _ _ | fail_if_no_progress (with_reducible apply kept_upd; on_goal 2 => exact ⟨rfl, rfl⟩) | split | rfl)
theorem dropDead_kept {qq : List Instr × Nat} (n : Nat) : ∀ (us : List Au) (s : State), Kept qq s → Kept qq (dropDead n us s)
  | [], s, hK => hK
  | u :: us, s, hK => by
    unfold dropDead
    split
    · apply dropDead_kept n us
      apply complete_kept
      split
      · apply foldl_kept
        · intro t x ht; exact setStatus_kept _ _ _ ht
        · exact State_modStream_kept _ _ _ hK
      · exact State_modStream_kept _ _ _ hK
    · exact hK
theorem settle_kept {qq : List Instr × Nat} (s : State) (n : Nat) (hK : Kept qq s) : Kept qq (settle s n) := by
  unfold settle; try dsimp only
  repeat' (first | with_reducible exact hK | with_reducible assumption | with_reducible apply tryClose_kept | with_reducible apply dropDead_kept | intro _ _ _ | intro _ _ | fail_if_no_progress (with_reducible apply kept_upd; on_goal 2 => exact ⟨rfl, rfl⟩) | split | rfl)
theorem markIngest_kept {qq : List Instr × Nat} (s : State) (ref : CmdRef) (hK : Kept qq s) : Kept qq (markIngest s ref) := ⟨hK.1, hK.2⟩
theorem takeBuf_kept {qq : List Instr × Nat} (s : State) (n b : Nat) (tag : Nat) (sliced : Bool) (hK : Kept qq s) : Kept qq (takeBuf s n b tag sliced) := by
  unfold takeBuf; try dsimp only
  repeat' (first | with_reducible exact hK | with_reducible assumption | with_reducible apply State_modStream_kept | with_reducible apply tallyAdd_kept | intro _ _ _ | intro _ _ | fail_if_no_progress (with_reducible apply kept_upd; on_goal 2 => exact ⟨rfl, rfl⟩) | split | rfl)
theorem startRaw_kept {qq : List Instr × Nat} (n : Nat) : ∀ (k : Nat) (s : State), Kept qq s → Kept qq (startRaw n k s)
  | 0, s, hK => hK
  | k + 1, s, hK => by
    unfold startRaw
    repeat' (first | exact hK | with_reducible apply startRaw_kept | with_reducible apply completeWith_kept | with_reducible apply State_modStream_kept | with_reducible apply takeBuf_kept | split)
theorem rawGo_kept {qq : List Instr × Nat} (s : State) (n : Nat) (hK : Kept qq s) : Kept qq (rawGo s n) := by
  unfold rawGo; try dsimp only
  repeat' (first | with_reducible exact hK | with_reducible assumption | with_reducible apply tryClose_kept | with_reducible apply startRaw_kept | intro _ _ _ | intro _ _ | fail_if_no_progress (with_reducible apply kept_upd; on_goal 2 => exact ⟨rfl, rfl⟩) | split | rfl)
theorem rawAccept_kept {qq : List Instr × Nat} (ref : CmdRef) (d : Desc) (slice : Option Nat) (s : State) (hK : Kept qq s) : Kept qq (rawAccept ref d slice s) := by
  unfold rawAccept; try dsimp only
  repeat' (first | with_reducible exact hK | with_reducible assumption | with_reducible apply State_modStream_kept | with_reducible apply tagSubmit_kept | with_reducible apply rawGo_kept | intro _ _ _ | intro _ _ | fail_if_no_progress (with_reducible apply kept_upd; on_goal 2 => exact ⟨rfl, rfl⟩) | split | rfl)
theorem rawDone_kept {qq : List Instr × Nat} (n : Nat) (h : HostData) (r : RawSubmit) (b : Nat) (s : State) (hK : Kept qq s) : Kept qq (rawDone n h r b s) := by
  unfold rawDone; try dsimp only
  repeat' (first | with_reducible exact hK | with_reducible assumption | with_reducible apply State_modStream_kept | with_reducible apply memWrite_kept | with_reducible apply complete_kept | with_reducible apply completeWith_kept | with_reducible apply markIngest_kept | with_reducible apply rawGo_kept | intro _ _ _ | intro _ _ | fail_if_no_progress (with_reducible apply kept_upd; on_goal 2 => exact ⟨rfl, rfl⟩) | split | rfl)
theorem applyBacklog_kept {qq : List Instr × Nat} (s : State) (n core m reorder : Nat) (hK : Kept qq s) : Kept qq (applyBacklog s n core m reorder) := by
  unfold applyBacklog; try dsimp only
  repeat' (first | with_reducible exact hK | with_reducible assumption | with_reducible apply State_modStream_kept | with_reducible apply setStatus_kept | with_reducible apply tallyAdd_kept | with_reducible apply completeWith_kept | with_reducible apply foldl_kept | intro _ _ _ | intro _ _ | fail_if_no_progress (with_reducible apply kept_upd; on_goal 2 => exact ⟨rfl, rfl⟩) | split | rfl)
theorem markDecStart_kept {qq : List Instr × Nat} (s : State) (us : List Au) (hK : Kept qq s) : Kept qq (markDecStart s us) := by
  unfold markDecStart; try dsimp only
  repeat' (first | with_reducible exact hK | with_reducible assumption | with_reducible apply traceMark_kept | with_reducible apply foldl_kept | intro _ _ _ | intro _ _ | fail_if_no_progress (with_reducible apply kept_upd; on_goal 2 => exact ⟨rfl, rfl⟩) | split | rfl)
theorem refreshCores_kept {qq : List Instr × Nat} (s : State) (n : Nat) (hK : Kept qq s) : Kept qq (refreshCores s n) := by
  unfold refreshCores; try dsimp only
  repeat' (first | with_reducible exact hK | with_reducible assumption | with_reducible apply State_modDec_kept | with_reducible apply foldl_kept | intro _ _ _ | intro _ _ | fail_if_no_progress (with_reducible apply kept_upd; on_goal 2 => exact ⟨rfl, rfl⟩) | split | rfl)
theorem streamDecodeStart_kept {qq : List Instr × Nat} (s : State) (c n core frame : Nat) (hK : Kept qq s) : Kept qq (streamDecodeStart s c n core frame) := by
  unfold streamDecodeStart; try dsimp only
  repeat' (first | with_reducible exact hK | with_reducible assumption | with_reducible apply State_modStream_kept | with_reducible apply lateInput_kept | with_reducible apply applyBacklog_kept | with_reducible apply markDecStart_kept | with_reducible apply refreshCores_kept | intro _ _ _ | intro _ _ | fail_if_no_progress (with_reducible apply kept_upd; on_goal 2 => exact ⟨rfl, rfl⟩) | split | rfl)
theorem abandonRepair_kept {qq : List Instr × Nat} (s : State) (core : Nat) (hK : Kept qq s) : Kept qq (abandonRepair s core) := by
  unfold abandonRepair; try dsimp only
  repeat' (first | with_reducible exact hK | with_reducible assumption | with_reducible apply State_modDec_kept | intro _ _ _ | intro _ _ | fail_if_no_progress (with_reducible apply kept_upd; on_goal 2 => exact ⟨rfl, rfl⟩) | split | rfl)
theorem decodeStartOp_kept {qq : List Instr × Nat} (s : State) (k : Nat) (l : LSlot) (hK : Kept qq s) : Kept qq (decodeStartOp s k l) := by
  unfold decodeStartOp; try dsimp only
  repeat' (first | with_reducible exact hK | with_reducible assumption | with_reducible apply streamDecodeStart_kept | with_reducible apply abandonRepair_kept | intro _ _ _ | intro _ _ | fail_if_no_progress (with_reducible apply kept_upd; on_goal 2 => exact ⟨rfl, rfl⟩) | split | rfl)
theorem addPicture_kept {qq : List Instr × Nat} (s : State) (n : Nat) (u : Au) (make : Nat → Picture) (hK : Kept qq s) : Kept qq (addPicture s n u make) := by
  unfold addPicture; try dsimp only
  repeat' (first | with_reducible exact hK | with_reducible assumption | with_reducible apply State_modStream_kept | intro _ _ _ | intro _ _ | fail_if_no_progress (with_reducible apply kept_upd; on_goal 2 => exact ⟨rfl, rfl⟩) | split | rfl)
theorem storePicture_kept {qq : List Instr × Nat} (s : State) (n : Nat) (u : Au) (o : DecOutcome) (hK : Kept qq s) : Kept qq (storePicture s n u o) := by
  unfold storePicture; try dsimp only
  repeat' (first | with_reducible exact hK | with_reducible assumption | with_reducible apply State_modStream_kept | with_reducible apply addPicture_kept | intro _ _ _ | intro _ _ | fail_if_no_progress (with_reducible apply kept_upd; on_goal 2 => exact ⟨rfl, rfl⟩) | split | rfl)
theorem reportCores_kept {qq : List Instr × Nat} (s : State) (x : Stream) (u : Au) (o : DecOutcome) (hK : Kept qq s) : Kept qq (reportCores s x u o) := by
  unfold reportCores; try dsimp only
  repeat' (first | with_reducible exact hK | with_reducible assumption | with_reducible apply setStatus_kept | with_reducible apply tallyAdd_kept | with_reducible apply foldl_kept | intro _ _ _ | intro _ _ | fail_if_no_progress (with_reducible apply kept_upd; on_goal 2 => exact ⟨rfl, rfl⟩) | split | rfl)
theorem markDecDone_kept {qq : List Instr × Nat} (s : State) (u : Au) (made : Option Picture) (concealed : Bool) (hK : Kept qq s) : Kept qq (markDecDone s u made concealed) := ⟨hK.1, hK.2⟩
theorem pictureDone_kept {qq : List Instr × Nat} (s : State) (n : Nat) (u : Au) (o : DecOutcome) (hK : Kept qq s) : Kept qq (pictureDone s n u o) := by
  unfold pictureDone; try dsimp only
  repeat' (first | with_reducible exact hK | with_reducible assumption | with_reducible apply State_modStream_kept | with_reducible apply complete_kept | with_reducible apply settle_kept | with_reducible apply refreshCores_kept | with_reducible apply storePicture_kept | with_reducible apply reportCores_kept | with_reducible apply markDecDone_kept | intro _ _ _ | intro _ _ | fail_if_no_progress (with_reducible apply kept_upd; on_goal 2 => exact ⟨rfl, rfl⟩) | split | rfl)
theorem writeReport_kept {qq : List Instr × Nat} (s : State) (addr : Nat) (v : Verdict) (hK : Kept qq s) : Kept qq (writeReport s addr v) := by
  unfold writeReport; try dsimp only
  repeat' (first | with_reducible exact hK | with_reducible assumption | with_reducible apply hostWrite_kept | intro _ _ _ | intro _ _ | fail_if_no_progress (with_reducible apply kept_upd; on_goal 2 => exact ⟨rfl, rfl⟩) | split | rfl)
theorem State_modPool_kept {qq : List Instr × Nat} (s : State) (p : Nat) (f : Pool → Pool) (hK : Kept qq s) : Kept qq (State.modPool s p f) := ⟨hK.1, hK.2⟩
theorem relevel_kept {qq : List Instr × Nat} (s : State) (hK : Kept qq s) : Kept qq (relevel s) := by
  unfold relevel; try dsimp only
  repeat' (first | with_reducible exact hK | with_reducible assumption | with_reducible apply setStatus_kept | intro _ _ _ | intro _ _ | fail_if_no_progress (with_reducible apply kept_upd; on_goal 2 => exact ⟨rfl, rfl⟩) | split | rfl)
theorem allocBuf_kept {qq : List Instr × Nat} (s : State) (p o refs : Nat) (hK : Kept qq s) : Kept qq (allocBuf s p o refs).2 := by
  unfold allocBuf
  exact relevel_kept _ (State_modPool_kept _ _ _ hK)
theorem doubleFree_kept {qq : List Instr × Nat} (s : State) (hK : Kept qq s) : Kept qq (doubleFree s) := by
  unfold doubleFree; try dsimp only
  repeat' (first | with_reducible exact hK | with_reducible assumption | with_reducible apply setStatus_kept | intro _ _ _ | intro _ _ | fail_if_no_progress (with_reducible apply kept_upd; on_goal 2 => exact ⟨rfl, rfl⟩) | split | rfl)
theorem freeBuf_kept {qq : List Instr × Nat} (s : State) (p h : Nat) (hK : Kept qq s) : Kept qq (freeBuf s p h) := by
  unfold freeBuf; try dsimp only
  repeat' (first | with_reducible exact hK | with_reducible assumption | with_reducible apply State_modBuf_kept | with_reducible apply State_modPool_kept | with_reducible apply relevel_kept | intro _ _ _ | intro _ _ | fail_if_no_progress (with_reducible apply kept_upd; on_goal 2 => exact ⟨rfl, rfl⟩) | split | rfl)
theorem refill_kept {qq : List Instr × Nat} (s : State) (p : Nat) (hK : Kept qq s) : Kept qq (refill s p) := by
  unfold refill; try dsimp only
  repeat' (first | with_reducible exact hK | with_reducible assumption | with_reducible apply State_modPool_kept | intro _ _ _ | intro _ _ | fail_if_no_progress (with_reducible apply kept_upd; on_goal 2 => exact ⟨rfl, rfl⟩) | split | rfl)
theorem spill_kept {qq : List Instr × Nat} (s : State) (p : Nat) (hK : Kept qq s) : Kept qq (spill s p) := by
  unfold spill; try dsimp only
  repeat' (first | with_reducible exact hK | with_reducible assumption | with_reducible apply State_modPool_kept | intro _ _ _ | intro _ _ | fail_if_no_progress (with_reducible apply kept_upd; on_goal 2 => exact ⟨rfl, rfl⟩) | split | rfl)
theorem State_modRing_kept {qq : List Instr × Nat} (s : State) (c p : Nat) (f : CRing → CRing) (hK : Kept qq s) : Kept qq (State.modRing s c p f) := ⟨hK.1, hK.2⟩
theorem reserveRing_kept {qq : List Instr × Nat} (c : Nat) (s : State) (p z : Nat) (hK : Kept qq s) : Kept qq (reserveRing c s p z) := by
  unfold reserveRing; try dsimp only
  repeat' (first | with_reducible exact hK | with_reducible assumption | with_reducible apply State_modBuf_kept | with_reducible apply State_modRing_kept | intro _ _ _ | intro _ _ | fail_if_no_progress (with_reducible apply kept_upd; on_goal 2 => exact ⟨rfl, rfl⟩) | split | rfl)
theorem planRings_kept {qq : List Instr × Nat} (s : State) (c : Nat) (hK : Kept qq s) : Kept qq (planRings s c) := by
  unfold planRings; try dsimp only
  repeat' (first | with_reducible exact hK | with_reducible assumption | with_reducible apply relevel_kept | with_reducible apply foldl_kept | intro _ _ _ | intro _ _ | fail_if_no_progress (with_reducible apply kept_upd; on_goal 2 => exact ⟨rfl, rfl⟩) | split | rfl)
theorem buildRings_kept {qq : List Instr × Nat} (s : State) (c : Nat) (hK : Kept qq s) : Kept qq (buildRings s c) := ⟨hK.1, hK.2⟩
theorem freeRings_kept {qq : List Instr × Nat} (s : State) (c : Nat) (hK : Kept qq s) : Kept qq (freeRings s c) := by
  unfold freeRings; try dsimp only
  repeat' (first | with_reducible exact hK | with_reducible assumption | with_reducible apply State_modBuf_kept | with_reducible apply relevel_kept | with_reducible apply foldl_kept | intro _ _ _ | intro _ _ | fail_if_no_progress (with_reducible apply kept_upd; on_goal 2 => exact ⟨rfl, rfl⟩) | split | rfl)
theorem addSlots_kept {qq : List Instr × Nat} (s : State) (ls : List LSlot) (hK : Kept qq s) : Kept qq (addSlots s ls) := ⟨hK.1, hK.2⟩
theorem armSlots_kept {qq : List Instr × Nat} (s : State) (n n0 : Nat) (hK : Kept qq s) : Kept qq (armSlots s n n0) := ⟨hK.1, hK.2⟩
theorem dropSlots_kept {qq : List Instr × Nat} (s : State) (n : Nat) (hK : Kept qq s) : Kept qq (dropSlots s n) := ⟨hK.1, hK.2⟩
theorem placeEndpoint_kept {qq : List Instr × Nat} (s : State) (e : Endpoint) (hK : Kept qq s) : Kept qq (placeEndpoint s e) := by
  unfold placeEndpoint; try dsimp only
  repeat' (first | with_reducible exact hK | with_reducible assumption | with_reducible apply place_kept | intro _ _ _ | intro _ _ | fail_if_no_progress (with_reducible apply kept_upd; on_goal 2 => exact ⟨rfl, rfl⟩) | split | rfl)
theorem placeStat_kept {qq : List Instr × Nat} (s : State) (n : Nat) (c : Contract) (hK : Kept qq s) : Kept qq (placeStat s n c) := by
  unfold placeStat; try dsimp only
  repeat' (first | with_reducible exact hK | with_reducible assumption | with_reducible apply place_kept | intro _ _ _ | intro _ _ | fail_if_no_progress (with_reducible apply kept_upd; on_goal 2 => exact ⟨rfl, rfl⟩) | split | rfl)
theorem ownStreams_kept {qq : List Instr × Nat} (s : State) (n : Nat) (xs : List Source) (hK : Kept qq s) : Kept qq (ownStreams s n xs) := by
  unfold ownStreams; try dsimp only
  repeat' (first | with_reducible exact hK | with_reducible assumption | with_reducible apply State_modStream_kept | with_reducible apply foldl_kept | intro _ _ _ | intro _ _ | fail_if_no_progress (with_reducible apply kept_upd; on_goal 2 => exact ⟨rfl, rfl⟩) | split | rfl)
theorem acceptProposal_kept {qq : List Instr × Nat} (s : State) (n : Nat) (c : Contract) (v : Verdict) (hK : Kept qq s) : Kept qq (acceptProposal s n c v) := by
  unfold acceptProposal; try dsimp only
  repeat' (first | with_reducible exact hK | with_reducible assumption | with_reducible apply State_modContract_kept | with_reducible apply relevel_kept | with_reducible apply reserveRing_kept | with_reducible apply addSlots_kept | with_reducible apply placeEndpoint_kept | with_reducible apply placeStat_kept | with_reducible apply ownStreams_kept | with_reducible apply foldl_kept | intro _ _ _ | intro _ _ | fail_if_no_progress (with_reducible apply kept_upd; on_goal 2 => exact ⟨rfl, rfl⟩) | split | rfl)
theorem proposeAdmit_kept {qq : List Instr × Nat} (ref : CmdRef) (d : Desc) (c : Contract) (s : State) (hK : Kept qq s) : Kept qq (proposeAdmit ref d c s) := by
  unfold proposeAdmit; try dsimp only
  repeat' (first | with_reducible exact hK | with_reducible assumption | with_reducible apply complete_kept | with_reducible apply writeReport_kept | with_reducible apply acceptProposal_kept | intro _ _ _ | intro _ _ | fail_if_no_progress (with_reducible apply kept_upd; on_goal 2 => exact ⟨rfl, rfl⟩) | split | rfl)
theorem proposeBlock_kept {qq : List Instr × Nat} (ref : CmdRef) (d : Desc) (bs : List Byte) (s : State) (hK : Kept qq s) : Kept qq (proposeBlock ref d bs s) := by
  unfold proposeBlock; try dsimp only
  repeat' (first | with_reducible exact hK | with_reducible assumption | with_reducible apply check_kept | with_reducible apply proposeAdmit_kept | intro _ _ _ | intro _ _ | fail_if_no_progress (with_reducible apply kept_upd; on_goal 2 => exact ⟨rfl, rfl⟩) | split | rfl)
theorem commitAccept_kept {qq : List Instr × Nat} (s : State) (n : Nat) (ref : CmdRef) (n0 : Nat) (hK : Kept qq s) : Kept qq (commitAccept s n ref n0) := by
  unfold commitAccept; try dsimp only
  repeat' (first | with_reducible exact hK | with_reducible assumption | with_reducible apply State_modFlt_kept | with_reducible apply State_modContract_kept | with_reducible apply complete_kept | with_reducible apply buildRings_kept | with_reducible apply armSlots_kept | intro _ _ _ | intro _ _ | fail_if_no_progress (with_reducible apply kept_upd; on_goal 2 => exact ⟨rfl, rfl⟩) | split | rfl)
theorem commitDecide_kept {qq : List Instr × Nat} (s : State) (n : Nat) (ref : CmdRef) (atFrame : Bool) (first : Nat) (hK : Kept qq s) : Kept qq (commitDecide s n ref atFrame first) := by
  unfold commitDecide; try dsimp only
  repeat' (first | with_reducible exact hK | with_reducible assumption | with_reducible apply State_modContract_kept | with_reducible apply completeWith_kept | with_reducible apply commitAccept_kept | intro _ _ _ | intro _ _ | fail_if_no_progress (with_reducible apply kept_upd; on_goal 2 => exact ⟨rfl, rfl⟩) | split | rfl)
theorem commitTry_kept {qq : List Instr × Nat} (s : State) (n : Nat) (ref : CmdRef) (atFrame : Bool) (first : Nat) (hK : Kept qq s) : Kept qq (commitTry s n ref atFrame first) := by
  unfold commitTry; try dsimp only
  repeat' (first | with_reducible exact hK | with_reducible assumption | with_reducible apply State_modContract_kept | with_reducible apply planRings_kept | with_reducible apply commitDecide_kept | intro _ _ _ | intro _ _ | fail_if_no_progress (with_reducible apply kept_upd; on_goal 2 => exact ⟨rfl, rfl⟩) | split | rfl)
theorem freeCoefs_kept {qq : List Instr × Nat} (s : State) (n : Nat) (hK : Kept qq s) : Kept qq (freeCoefs s n) := by
  unfold freeCoefs; try dsimp only
  repeat' (first | with_reducible exact hK | with_reducible assumption | with_reducible apply unplace_kept | with_reducible apply foldl_kept | intro _ _ _ | intro _ _ | fail_if_no_progress (with_reducible apply kept_upd; on_goal 2 => exact ⟨rfl, rfl⟩) | split | rfl)
theorem freeCodes_kept {qq : List Instr × Nat} (s : State) (n : Nat) (c : Contract) (hK : Kept qq s) : Kept qq (freeCodes s n c) := by
  unfold freeCodes; try dsimp only
  repeat' (first | with_reducible exact hK | with_reducible assumption | with_reducible apply unplace_kept | with_reducible apply foldl_kept | intro _ _ _ | intro _ _ | fail_if_no_progress (with_reducible apply kept_upd; on_goal 2 => exact ⟨rfl, rfl⟩) | split | rfl)
theorem stopProxyOf_kept {qq : List Instr × Nat} (s : State) (n : Nat) (hK : Kept qq s) : Kept qq (stopProxyOf s n) := by
  unfold stopProxyOf; try dsimp only
  repeat' (first | with_reducible exact hK | with_reducible assumption | intro _ _ _ | intro _ _ | fail_if_no_progress (with_reducible apply kept_upd; on_goal 2 => exact ⟨rfl, rfl⟩) | split | rfl)
theorem disownStreams_kept {qq : List Instr × Nat} (s : State) (n : Nat) (hK : Kept qq s) : Kept qq (disownStreams s n) := ⟨hK.1, hK.2⟩
theorem freeContract_kept {qq : List Instr × Nat} (s : State) (n : Nat) (hK : Kept qq s) : Kept qq (freeContract s n) := by
  unfold freeContract; try dsimp only
  repeat' (first | with_reducible exact hK | with_reducible assumption | with_reducible apply State_modContract_kept | with_reducible apply unplace_kept | with_reducible apply freeRings_kept | with_reducible apply dropSlots_kept | with_reducible apply freeCoefs_kept | with_reducible apply freeCodes_kept | with_reducible apply stopProxyOf_kept | with_reducible apply disownStreams_kept | with_reducible apply foldl_kept | intro _ _ _ | intro _ _ | fail_if_no_progress (with_reducible apply kept_upd; on_goal 2 => exact ⟨rfl, rfl⟩) | split | rfl)
theorem completeReleases_kept {qq : List Instr × Nat} (s : State) (rs : List CmdRef) (r0 : Nat) (hK : Kept qq s) : Kept qq (completeReleases s rs r0) := by
  unfold completeReleases; try dsimp only
  repeat' (first | with_reducible exact hK | with_reducible assumption | with_reducible apply complete_kept | with_reducible apply foldl_kept | intro _ _ _ | intro _ _ | fail_if_no_progress (with_reducible apply kept_upd; on_goal 2 => exact ⟨rfl, rfl⟩) | split | rfl)
theorem releaseIdle_kept {qq : List Instr × Nat} (s : State) (n : Nat) (ref : CmdRef) (hK : Kept qq s) : Kept qq (releaseIdle s n ref) := by
  unfold releaseIdle; try dsimp only
  repeat' (first | with_reducible exact hK | with_reducible assumption | with_reducible apply complete_kept | with_reducible apply completeWith_kept | with_reducible apply freeContract_kept | intro _ _ _ | intro _ _ | fail_if_no_progress (with_reducible apply kept_upd; on_goal 2 => exact ⟨rfl, rfl⟩) | split | rfl)
theorem drainEnd_kept {qq : List Instr × Nat} (s : State) (n : Nat) (hK : Kept qq s) : Kept qq (drainEnd s n) := by
  unfold drainEnd; try dsimp only
  repeat' (first | with_reducible exact hK | with_reducible assumption | with_reducible apply freeContract_kept | with_reducible apply completeReleases_kept | intro _ _ _ | intro _ _ | fail_if_no_progress (with_reducible apply kept_upd; on_goal 2 => exact ⟨rfl, rfl⟩) | split | rfl)
theorem beginDrain_kept {qq : List Instr × Nat} (s : State) (n : Nat) (ref : CmdRef) (blank : Bool) (hK : Kept qq s) : Kept qq (beginDrain s n ref blank) := ⟨hK.1, hK.2⟩
theorem releaseRun_kept {qq : List Instr × Nat} (s : State) (n : Nat) (ref : CmdRef) (blank : Bool) (hK : Kept qq s) : Kept qq (releaseRun s n ref blank) := by
  unfold releaseRun; try dsimp only
  repeat' (first | with_reducible exact hK | with_reducible assumption | with_reducible apply State_modContract_kept | with_reducible apply complete_kept | with_reducible apply releaseIdle_kept | with_reducible apply drainEnd_kept | with_reducible apply beginDrain_kept | intro _ _ _ | intro _ _ | fail_if_no_progress (with_reducible apply kept_upd; on_goal 2 => exact ⟨rfl, rfl⟩) | split | rfl)
theorem deferStep_kept {qq : List Instr × Nat} (s : State) (n : Nat) (x : Deferred) (hK : Kept qq s) : Kept qq (defer_ s n x) := by
  unfold defer_; try dsimp only
  repeat' (first | with_reducible exact hK | with_reducible assumption | with_reducible apply State_modContract_kept | intro _ _ _ | intro _ _ | fail_if_no_progress (with_reducible apply kept_upd; on_goal 2 => exact ⟨rfl, rfl⟩) | split | rfl)
theorem acceptLayout_kept {qq : List Instr × Nat} (s : State) (n : Nat) (ref : CmdRef) (ch : Change) (xs : List Source) (v : Verdict) (hK : Kept qq s) : Kept qq (acceptLayout s n ref ch xs v) := by
  unfold acceptLayout; try dsimp only
  repeat' (first | with_reducible exact hK | with_reducible assumption | with_reducible apply State_modContract_kept | with_reducible apply addSlots_kept | with_reducible apply ownStreams_kept | with_reducible apply deferStep_kept | intro _ _ _ | intro _ _ | fail_if_no_progress (with_reducible apply kept_upd; on_goal 2 => exact ⟨rfl, rfl⟩) | split | rfl)
theorem layoutAdmit_kept {qq : List Instr × Nat} (ref : CmdRef) (d : Desc) (bs : List Byte) (s : State) (hK : Kept qq s) : Kept qq (layoutAdmit ref d bs s) := by
  unfold layoutAdmit; try dsimp only
  repeat' (first | with_reducible exact hK | with_reducible assumption | with_reducible apply complete_kept | with_reducible apply completeDeferred_kept | with_reducible apply writeReport_kept | with_reducible apply acceptLayout_kept | intro _ _ _ | intro _ _ | fail_if_no_progress (with_reducible apply kept_upd; on_goal 2 => exact ⟨rfl, rfl⟩) | split | rfl)
theorem putEntry_kept {qq : List Instr × Nat} (s : State) (i : Nat) (e : TEntry) (hK : Kept qq s) : Kept qq (putEntry s i e) := ⟨hK.1, hK.2⟩
theorem sendNotice_kept {qq : List Instr × Nat} (s : State) (op : Nat) (e : TEntry) (hK : Kept qq s) : Kept qq (sendNotice s op e) := by
  unfold sendNotice; try dsimp only
  repeat' (first | with_reducible exact hK | with_reducible assumption | with_reducible apply State_modTbl_kept | with_reducible apply peerSend_kept | intro _ _ _ | intro _ _ | fail_if_no_progress (with_reducible apply kept_upd; on_goal 2 => exact ⟨rfl, rfl⟩) | split | rfl)
theorem putAnnounce_kept {qq : List Instr × Nat} (s : State) (i : Nat) (e : TEntry) (hK : Kept qq s) : Kept qq (putAnnounce s i e) := by
  unfold putAnnounce; try dsimp only
  repeat' (first | with_reducible exact hK | with_reducible assumption | with_reducible apply putEntry_kept | with_reducible apply sendNotice_kept | intro _ _ _ | intro _ _ | fail_if_no_progress (with_reducible apply kept_upd; on_goal 2 => exact ⟨rfl, rfl⟩) | split | rfl)
theorem removeEntry_kept {qq : List Instr × Nat} (s : State) (i : Nat) (hK : Kept qq s) : Kept qq (removeEntry s i) := by
  unfold removeEntry; try dsimp only
  repeat' (first | with_reducible exact hK | with_reducible assumption | with_reducible apply putEntry_kept | with_reducible apply sendNotice_kept | intro _ _ _ | intro _ _ | fail_if_no_progress (with_reducible apply kept_upd; on_goal 2 => exact ⟨rfl, rfl⟩) | split | rfl)
theorem fullBucket_kept {qq : List Instr × Nat} (s : State) (hK : Kept qq s) : Kept qq (fullBucket s) := by
  unfold fullBucket; try dsimp only
  repeat' (first | with_reducible exact hK | with_reducible assumption | with_reducible apply setStatus_kept | with_reducible apply tallyAdd_kept | intro _ _ _ | intro _ _ | fail_if_no_progress (with_reducible apply kept_upd; on_goal 2 => exact ⟨rfl, rfl⟩) | split | rfl)
theorem loopSuspect_kept {qq : List Instr × Nat} (s : State) (bits : Nat) (hK : Kept qq s) : Kept qq (loopSuspect s bits) := by
  unfold loopSuspect; try dsimp only
  repeat' (first | with_reducible exact hK | with_reducible assumption | with_reducible apply pendSrc_kept | with_reducible apply setStatus_kept | with_reducible apply raiseFault_kept | intro _ _ _ | intro _ _ | fail_if_no_progress (with_reducible apply kept_upd; on_goal 2 => exact ⟨rfl, rfl⟩) | split | rfl)
theorem foldConflict_kept {qq : List Instr × Nat} (s : State) (i j r : Nat) (hK : Kept qq s) : Kept qq (foldConflict s i j r) := by
  unfold foldConflict; try dsimp only
  repeat' (first | with_reducible exact hK | with_reducible assumption | with_reducible apply putEntry_kept | with_reducible apply loopSuspect_kept | intro _ _ _ | intro _ _ | fail_if_no_progress (with_reducible apply kept_upd; on_goal 2 => exact ⟨rfl, rfl⟩) | split | rfl)
theorem conflictsNew_kept {qq : List Instr × Nat} (s : State) (i mac : Nat) (hK : Kept qq s) : Kept qq (conflictsNew s i mac) := by
  unfold conflictsNew; try dsimp only
  repeat' (first | with_reducible exact hK | with_reducible assumption | with_reducible apply foldConflict_kept | with_reducible apply foldl_kept | intro _ _ _ | intro _ _ | fail_if_no_progress (with_reducible apply kept_upd; on_goal 2 => exact ⟨rfl, rfl⟩) | split | rfl)
theorem slotConflict_kept {qq : List Instr × Nat} (s : State) (hK : Kept qq s) : Kept qq (slotConflict s) := by
  unfold slotConflict; try dsimp only
  repeat' (first | with_reducible exact hK | with_reducible assumption | with_reducible apply setStatus_kept | with_reducible apply tallyAdd_kept | intro _ _ _ | intro _ _ | fail_if_no_progress (with_reducible apply kept_upd; on_goal 2 => exact ⟨rfl, rfl⟩) | split | rfl)
theorem unbindSlot_kept {qq : List Instr × Nat} (s : State) (slot : Nat) (hK : Kept qq s) : Kept qq (unbindSlot s slot) := by
  unfold unbindSlot; try dsimp only
  repeat' (first | with_reducible exact hK | with_reducible assumption | with_reducible apply putAnnounce_kept | intro _ _ _ | intro _ _ | fail_if_no_progress (with_reducible apply kept_upd; on_goal 2 => exact ⟨rfl, rfl⟩) | split | rfl)
theorem bindDynamic_kept {qq : List Instr × Nat} (s : State) (i slot : Nat) (hK : Kept qq s) : Kept qq (bindDynamic s i slot) := by
  unfold bindDynamic; try dsimp only
  repeat' (first | with_reducible exact hK | with_reducible assumption | with_reducible apply putAnnounce_kept | with_reducible apply slotConflict_kept | with_reducible apply unbindSlot_kept | intro _ _ _ | intro _ _ | fail_if_no_progress (with_reducible apply kept_upd; on_goal 2 => exact ⟨rfl, rfl⟩) | split | rfl)
theorem bindLearn_kept {qq : List Instr × Nat} (s : State) (i slot : Nat) (hK : Kept qq s) : Kept qq (bindLearn s i slot) := by
  unfold bindLearn; try dsimp only
  repeat' (first | with_reducible exact hK | with_reducible assumption | with_reducible apply slotConflict_kept | with_reducible apply bindDynamic_kept | intro _ _ _ | intro _ _ | fail_if_no_progress (with_reducible apply kept_upd; on_goal 2 => exact ⟨rfl, rfl⟩) | split | rfl)
theorem applied_kept {qq : List Instr × Nat} (s : State) (hK : Kept qq s) : Kept qq (applied s) := ⟨hK.1, hK.2⟩
theorem refused_kept {qq : List Instr × Nat} (s : State) (hK : Kept qq s) : Kept qq (refused s) := ⟨hK.1, hK.2⟩
theorem applyMove_kept {qq : List Instr × Nat} (s : State) (i : Nat) (e : TEntry) (slot p now : Nat) (hK : Kept qq s) : Kept qq (applyMove s i e slot p now) := by
  unfold applyMove; try dsimp only
  repeat' (first | with_reducible exact hK | with_reducible assumption | with_reducible apply tallyAdd_kept | with_reducible apply putEntry_kept | with_reducible apply putAnnounce_kept | with_reducible apply loopSuspect_kept | with_reducible apply bindLearn_kept | with_reducible apply applied_kept | with_reducible apply refused_kept | intro _ _ _ | intro _ _ | fail_if_no_progress (with_reducible apply kept_upd; on_goal 2 => exact ⟨rfl, rfl⟩) | split | rfl)
theorem applyTelemetry_kept {qq : List Instr × Nat} (s : State) (mac slot p now : Nat) (hK : Kept qq s) : Kept qq (applyTelemetry s mac slot p now) := by
  unfold applyTelemetry; try dsimp only
  repeat' (first | with_reducible exact hK | with_reducible assumption | with_reducible apply putEntry_kept | with_reducible apply putAnnounce_kept | with_reducible apply fullBucket_kept | with_reducible apply conflictsNew_kept | with_reducible apply bindLearn_kept | with_reducible apply applied_kept | with_reducible apply refused_kept | with_reducible apply applyMove_kept | intro _ _ _ | intro _ _ | fail_if_no_progress (with_reducible apply kept_upd; on_goal 2 => exact ⟨rfl, rfl⟩) | split | rfl)
theorem fwLearn_kept {qq : List Instr × Nat} (s : State) (mac slot port : Nat) (hK : Kept qq s) : Kept qq (fwLearn s mac slot port) := ⟨hK.1, hK.2⟩
theorem fwForget_kept {qq : List Instr × Nat} (s : State) (mac : Nat) (hK : Kept qq s) : Kept qq (fwForget s mac) := ⟨hK.1, hK.2⟩
theorem writeStatic_kept {qq : List Instr × Nat} (s : State) (i mac slot p : Nat) (hK : Kept qq s) : Kept qq (writeStatic s i mac slot p) := by
  unfold writeStatic; try dsimp only
  repeat' (first | with_reducible exact hK | with_reducible assumption | with_reducible apply putAnnounce_kept | with_reducible apply unbindSlot_kept | intro _ _ _ | intro _ _ | fail_if_no_progress (with_reducible apply kept_upd; on_goal 2 => exact ⟨rfl, rfl⟩) | split | rfl)
theorem learnStatic_kept {qq : List Instr × Nat} (s : State) (mac slot p : Nat) (hK : Kept qq s) : Kept qq (learnStatic s mac slot p).2 := by
  unfold learnStatic
  repeat' (first | exact hK | with_reducible apply applied_kept | with_reducible apply fwLearn_kept | with_reducible apply writeStatic_kept | with_reducible apply fullBucket_kept | with_reducible apply conflictsNew_kept | split)
theorem removeMac_kept {qq : List Instr × Nat} (s : State) (mac : Nat) (hK : Kept qq s) : Kept qq (removeMac s mac) := by
  unfold removeMac; try dsimp only
  repeat' (first | with_reducible exact hK | with_reducible assumption | with_reducible apply removeEntry_kept | with_reducible apply fwForget_kept | intro _ _ _ | intro _ _ | fail_if_no_progress (with_reducible apply kept_upd; on_goal 2 => exact ⟨rfl, rfl⟩) | split | rfl)
theorem applyAdd_kept {qq : List Instr × Nat} (s : State) (mac j port : Nat) (hK : Kept qq s) : Kept qq (applyAdd s mac j port) := by
  unfold applyAdd; try dsimp only
  repeat' (first | with_reducible exact hK | with_reducible assumption | with_reducible apply putEntry_kept | with_reducible apply fullBucket_kept | with_reducible apply foldConflict_kept | intro _ _ _ | intro _ _ | fail_if_no_progress (with_reducible apply kept_upd; on_goal 2 => exact ⟨rfl, rfl⟩) | split | rfl)
theorem undefer_kept {qq : List Instr × Nat} (s : State) (mac : Nat) (hK : Kept qq s) : Kept qq (undefer s mac) := by
  unfold undefer; try dsimp only
  repeat' (first | with_reducible exact hK | with_reducible assumption | with_reducible apply putEntry_kept | intro _ _ _ | intro _ _ | fail_if_no_progress (with_reducible apply kept_upd; on_goal 2 => exact ⟨rfl, rfl⟩) | split | rfl)
theorem applyRemove_kept {qq : List Instr × Nat} (s : State) (mac j : Nat) (hK : Kept qq s) : Kept qq (applyRemove s mac j) := by
  unfold applyRemove; try dsimp only
  repeat' (first | with_reducible exact hK | with_reducible assumption | with_reducible apply putEntry_kept | with_reducible apply undefer_kept | intro _ _ _ | intro _ _ | fail_if_no_progress (with_reducible apply kept_upd; on_goal 2 => exact ⟨rfl, rfl⟩) | split | rfl)
theorem dropModule_kept {qq : List Instr × Nat} (s : State) (j : Nat) (hK : Kept qq s) : Kept qq (dropModule s j) := by
  unfold dropModule; try dsimp only
  repeat' (first | with_reducible exact hK | with_reducible assumption | with_reducible apply applyRemove_kept | with_reducible apply foldl_kept | intro _ _ _ | intro _ _ | fail_if_no_progress (with_reducible apply kept_upd; on_goal 2 => exact ⟨rfl, rfl⟩) | split | rfl)
theorem applyEvent_kept {qq : List Instr × Nat} (s : State) (e : LearnEv) (hK : Kept qq s) : Kept qq (applyEvent s e) := by
  unfold applyEvent
  split
  · exact applyTelemetry_kept _ _ _ _ _ hK
  · split
    · exact applyAdd_kept _ _ _ _ hK
    · exact applyRemove_kept _ _ _ hK
  · rename_i ref mac slot p
    have := learnStatic_kept s mac slot p hK
    split
    · rename_i heq; rw [heq] at this; exact complete_kept _ _ _ _ _ _ this
    · rename_i heq; rw [heq] at this; exact completeWith_kept _ _ _ this
  · exact completeWith_kept _ _ _ (removeMac_kept _ _ hK)
theorem lostEvent_kept {qq : List Instr × Nat} (s : State) (hK : Kept qq s) : Kept qq (lostEvent s) := ⟨hK.1, hK.2⟩
theorem offerEvent_kept {qq : List Instr × Nat} (s : State) (rank : Nat) (e : LearnEv) (hK : Kept qq s) : Kept qq (offerEvent s rank e) := by
  unfold offerEvent; try dsimp only
  repeat' (first | with_reducible exact hK | with_reducible assumption | with_reducible apply State_modTbl_kept | with_reducible apply setStatus_kept | with_reducible apply lostEvent_kept | intro _ _ _ | intro _ _ | fail_if_no_progress (with_reducible apply kept_upd; on_goal 2 => exact ⟨rfl, rfl⟩) | split | rfl)
theorem setPrefixes_kept {qq : List Instr × Nat} (s : State) (ps : List Prefix) (hK : Kept qq s) : Kept qq (setPrefixes s ps) := ⟨hK.1, hK.2⟩
theorem runLpm_kept {qq : List Instr × Nat} (s : State) (ref : CmdRef) (delete : Bool) (p : Prefix) (hK : Kept qq s) : Kept qq (runLpm s ref delete p) := by
  unfold runLpm; try dsimp only
  repeat' (first | with_reducible exact hK | with_reducible assumption | with_reducible apply complete_kept | with_reducible apply completeWith_kept | with_reducible apply setPrefixes_kept | intro _ _ _ | intro _ _ | fail_if_no_progress (with_reducible apply kept_upd; on_goal 2 => exact ⟨rfl, rfl⟩) | split | rfl)
theorem runHeld_kept {qq : List Instr × Nat} (s : State) (e : HeldTbl) (hK : Kept qq s) : Kept qq (runHeld s e) := by
  unfold runHeld
  split
  · exact ⟨hK.1, hK.2⟩
  · exact runLpm_kept _ _ _ _ hK
theorem drainHeld_kept {qq : List Instr × Nat} (s : State) (hK : Kept qq s) : Kept qq (drainHeld s) := by
  unfold drainHeld; try dsimp only
  repeat' (first | with_reducible exact hK | with_reducible assumption | with_reducible apply State_modTbl_kept | with_reducible apply runHeld_kept | with_reducible apply foldl_kept | intro _ _ _ | intro _ _ | fail_if_no_progress (with_reducible apply kept_upd; on_goal 2 => exact ⟨rfl, rfl⟩) | split | rfl)
theorem offerHeld_kept {qq : List Instr × Nat} (s : State) (h : HeldTbl) (hK : Kept qq s) : Kept qq (offerHeld s h) := by
  unfold offerHeld; try dsimp only
  repeat' (first | with_reducible exact hK | with_reducible assumption | with_reducible apply State_modTbl_kept | with_reducible apply runHeld_kept | intro _ _ _ | intro _ _ | fail_if_no_progress (with_reducible apply kept_upd; on_goal 2 => exact ⟨rfl, rfl⟩) | split | rfl)
theorem learnApply_kept {qq : List Instr × Nat} (s : State) (hK : Kept qq s) : Kept qq (learnApply s) := by
  unfold learnApply; try dsimp only
  repeat' (first | with_reducible exact hK | with_reducible assumption | with_reducible apply State_modTbl_kept | with_reducible apply applyEvent_kept | with_reducible apply drainHeld_kept | intro _ _ _ | intro _ _ | fail_if_no_progress (with_reducible apply kept_upd; on_goal 2 => exact ⟨rfl, rfl⟩) | split | rfl)
theorem sweepOne_kept {qq : List Instr × Nat} (s : State) (hK : Kept qq s) : Kept qq (sweepOne s) := by
  unfold sweepOne; try dsimp only
  repeat' (first | with_reducible exact hK | with_reducible assumption | with_reducible apply State_modTbl_kept | with_reducible apply tallyAdd_kept | with_reducible apply putEntry_kept | with_reducible apply removeEntry_kept | intro _ _ _ | intro _ _ | fail_if_no_progress (with_reducible apply kept_upd; on_goal 2 => exact ⟨rfl, rfl⟩) | split | rfl)
theorem sweepVisit_kept {qq : List Instr × Nat} (s : State) (hK : Kept qq s) : Kept qq (sweepVisit s) := by
  unfold sweepVisit; try dsimp only
  repeat' (first | with_reducible exact hK | with_reducible assumption | with_reducible apply sweepOne_kept | intro _ _ _ | intro _ _ | fail_if_no_progress (with_reducible apply kept_upd; on_goal 2 => exact ⟨rfl, rfl⟩) | split | rfl)
theorem forwardFold_kept {qq : List Instr × Nat} (s : State) (e : Nat) (bs : List Byte) (own : Bool) (hK : Kept qq s) : Kept qq (forwardFold s e bs own) := by
  unfold forwardFold; try dsimp only
  repeat' (first | with_reducible exact hK | with_reducible assumption | with_reducible apply peerSend_kept | intro _ _ _ | intro _ _ | fail_if_no_progress (with_reducible apply kept_upd; on_goal 2 => exact ⟨rfl, rfl⟩) | split | rfl)
theorem foldDiscard_kept {qq : List Instr × Nat} (s : State) (e t : Nat) (hK : Kept qq s) : Kept qq (foldDiscard s e t) := by
  unfold foldDiscard; try dsimp only
  repeat' (first | with_reducible exact hK | with_reducible assumption | with_reducible apply setStatus_kept | with_reducible apply tallyAdd_kept | intro _ _ _ | intro _ _ | fail_if_no_progress (with_reducible apply kept_upd; on_goal 2 => exact ⟨rfl, rfl⟩) | split | rfl)
theorem noticeReceive_kept {qq : List Instr × Nat} (s : State) (e : Nat) (bs : List Byte) (hK : Kept qq s) : Kept qq (noticeReceive s e bs) := by
  unfold noticeReceive; try dsimp only
  repeat' (first | with_reducible exact hK | with_reducible assumption | with_reducible apply tallyAdd_kept | with_reducible apply offerEvent_kept | with_reducible apply forwardFold_kept | with_reducible apply foldDiscard_kept | intro _ _ _ | intro _ _ | fail_if_no_progress (with_reducible apply kept_upd; on_goal 2 => exact ⟨rfl, rfl⟩) | split | rfl)
theorem spreadSend_kept {qq : List Instr × Nat} (s : State) (hK : Kept qq s) : Kept qq (spreadSend s) := by
  unfold spreadSend; try dsimp only
  repeat' (first | with_reducible exact hK | with_reducible assumption | with_reducible apply State_modTbl_kept | with_reducible apply sendNotice_kept | intro _ _ _ | intro _ _ | fail_if_no_progress (with_reducible apply kept_upd; on_goal 2 => exact ⟨rfl, rfl⟩) | split | rfl)
theorem startSpread_kept {qq : List Instr × Nat} (s : State) (hK : Kept qq s) : Kept qq (startSpread s) := ⟨hK.1, hK.2⟩
theorem tblUe_kept {qq : List Instr × Nat} (s : State) (hK : Kept qq s) : Kept qq (tblUe s) := by
  unfold tblUe; try dsimp only
  repeat' (first | with_reducible exact hK | with_reducible assumption | with_reducible apply setStatus_kept | with_reducible apply raiseFault_kept | intro _ _ _ | intro _ _ | fail_if_no_progress (with_reducible apply kept_upd; on_goal 2 => exact ⟨rfl, rfl⟩) | split | rfl)
theorem eccError_kept {qq : List Instr × Nat} (s : State) (e : TblErr) (hK : Kept qq s) : Kept qq (eccError s e) := by
  unfold eccError
  split
  · exact tallyAdd_kept _ _ _ (setStatus_kept _ _ _ hK)
  · exact tblUe_kept _ (removeEntry_kept _ _ hK)
  · exact tblUe_kept _ ⟨hK.1, hK.2⟩
theorem auditRecord_kept {qq : List Instr × Nat} (a : Audit) (acc : List Mismatch × State) (r : List Byte) (hK : Kept qq acc.2) : Kept qq (auditRecord a acc r).2 := by
  have hf : Kept qq (if a.repair = true then learnStatic acc.2 (shadowMac r) (leAt r 2 2) (u8 r 10) else (none, acc.2)).2 := by
    split
    · exact learnStatic_kept _ _ _ _ hK
    · exact hK
  unfold auditRecord
  dsimp only
  repeat' (first | exact hK | exact hf | with_reducible apply setPrefixes_kept | split)
theorem auditExtras_kept {qq : List Instr × Nat} (a : Audit) (acc : List Mismatch × State) (hK : Kept qq acc.2) : Kept qq (auditExtras a acc).2 := by
  unfold auditExtras
  dsimp only
  repeat' (first | exact hK | assumption | with_reducible apply setPrefixes_kept | with_reducible apply removeMac_kept | with_reducible apply foldl_kept | intro _ _ _ | split)
theorem auditRecords_kept {qq : List Instr × Nat} (a : Audit) : ∀ (rs : List (List Byte)) (acc : List Mismatch × State), Kept qq acc.2 → Kept qq (rs.foldl (auditRecord a) acc).2
  | [], acc, hK => hK
  | r :: rs, acc, hK => auditRecords_kept a rs _ (auditRecord_kept a acc r hK)
theorem auditEnd_kept {qq : List Instr × Nat} (s : State) (a : Audit) (hK : Kept qq s) : Kept qq (auditEnd s a) := by
  have h1 : Kept qq (a.records.foldl (auditRecord a) ([], (auditExtras a ([], s)).2)).2 := auditRecords_kept a _ _ (auditExtras_kept a _ hK)
  unfold auditEnd
  dsimp only
  repeat' (first | with_reducible exact h1 | with_reducible apply drainHeld_kept | with_reducible apply complete_kept | with_reducible apply State_modTbl_kept | with_reducible apply pendSrc_kept | with_reducible apply setStatus_kept | with_reducible apply hostWrite_kept | split)
theorem markSent_kept {qq : List Instr × Nat} (s : State) (p : Nat) (f : Frame) (hK : Kept qq s) : Kept qq (markSent s p f) := by
  unfold markSent; try dsimp only
  repeat' (first | with_reducible exact hK | with_reducible assumption | with_reducible apply State_modContract_kept | with_reducible apply traceMark_kept | intro _ _ _ | intro _ _ | fail_if_no_progress (with_reducible apply kept_upd; on_goal 2 => exact ⟨rfl, rfl⟩) | split | rfl)
theorem startFrame_kept {qq : List Instr × Nat} (s : State) (p : Nat) (f : Frame) (built : Bool) (hK : Kept qq s) : Kept qq (startFrame s p f built) := by
  unfold startFrame; try dsimp only
  repeat' (first | with_reducible exact hK | with_reducible assumption | with_reducible apply State_modPort_kept | with_reducible apply markSent_kept | intro _ _ _ | intro _ _ | fail_if_no_progress (with_reducible apply kept_upd; on_goal 2 => exact ⟨rfl, rfl⟩) | split | rfl)
theorem portGo_kept {qq : List Instr × Nat} (s : State) (p : Nat) (hK : Kept qq s) : Kept qq (portGo s p) := by
  unfold portGo; try dsimp only
  repeat' (first | with_reducible exact hK | with_reducible assumption | with_reducible apply State_modPort_kept | with_reducible apply startFrame_kept | intro _ _ _ | intro _ _ | fail_if_no_progress (with_reducible apply kept_upd; on_goal 2 => exact ⟨rfl, rfl⟩) | split | rfl)
theorem decRef_kept {qq : List Instr × Nat} (s : State) (pool h : Nat) (hK : Kept qq s) : Kept qq (decRef s pool h) := by
  unfold decRef; try dsimp only
  repeat' (first | with_reducible exact hK | with_reducible assumption | with_reducible apply raiseFault_kept | with_reducible apply State_modPool_kept | with_reducible apply doubleFree_kept | with_reducible apply freeBuf_kept | intro _ _ _ | intro _ _ | fail_if_no_progress (with_reducible apply kept_upd; on_goal 2 => exact ⟨rfl, rfl⟩) | split | rfl)
theorem copyFate_kept {qq : List Instr × Nat} (s : State) (i p : Nat) (fate : Fate) (hK : Kept qq s) : Kept qq (copyFate s i p fate) := by
  unfold copyFate; try dsimp only
  repeat' (first | with_reducible exact hK | with_reducible assumption | with_reducible apply State_modEg_kept | with_reducible apply complete_kept | with_reducible apply completeWith_kept | intro _ _ _ | intro _ _ | fail_if_no_progress (with_reducible apply kept_upd; on_goal 2 => exact ⟨rfl, rfl⟩) | split | rfl)
theorem releaseFrame_kept {qq : List Instr × Nat} (s : State) (p : Nat) (f : Frame) (hK : Kept qq s) : Kept qq (releaseFrame s p f) := by
  unfold releaseFrame; try dsimp only
  repeat' (first | with_reducible exact hK | with_reducible assumption | with_reducible apply State_modPort_kept | with_reducible apply decRef_kept | intro _ _ _ | intro _ _ | fail_if_no_progress (with_reducible apply kept_upd; on_goal 2 => exact ⟨rfl, rfl⟩) | split | rfl)
theorem markLost_kept {qq : List Instr × Nat} (s : State) (p : Nat) (f : Frame) (hK : Kept qq s) : Kept qq (markLost s p f) := by
  unfold markLost; try dsimp only
  repeat' (first | with_reducible exact hK | with_reducible assumption | with_reducible apply State_modContract_kept | intro _ _ _ | intro _ _ | fail_if_no_progress (with_reducible apply kept_upd; on_goal 2 => exact ⟨rfl, rfl⟩) | split | rfl)
theorem dropFrame_kept {qq : List Instr × Nat} (s : State) (p : Nat) (f : Frame) (fate : Fate) (hK : Kept qq s) : Kept qq (dropFrame s p f fate) := by
  unfold dropFrame; try dsimp only
  repeat' (first | with_reducible exact hK | with_reducible assumption | with_reducible apply copyFate_kept | with_reducible apply releaseFrame_kept | with_reducible apply markLost_kept | intro _ _ _ | intro _ _ | fail_if_no_progress (with_reducible apply kept_upd; on_goal 2 => exact ⟨rfl, rfl⟩) | split | rfl)
theorem portTally_kept {qq : List Instr × Nat} (s : State) (p j n : Nat) (hK : Kept qq s) : Kept qq (portTally s p j n) := ⟨hK.1, hK.2⟩
theorem discardFrame_kept {qq : List Instr × Nat} (s : State) (p : Nat) (f : Frame) (hK : Kept qq s) : Kept qq (discardFrame s p f) := by
  unfold discardFrame; try dsimp only
  repeat' (first | with_reducible exact hK | with_reducible assumption | with_reducible apply dropFrame_kept | with_reducible apply portTally_kept | intro _ _ _ | intro _ _ | fail_if_no_progress (with_reducible apply kept_upd; on_goal 2 => exact ⟨rfl, rfl⟩) | split | rfl)
theorem discardAll_kept {qq : List Instr × Nat} (s : State) (p : Nat) (hK : Kept qq s) : Kept qq (discardAll s p) := by
  unfold discardAll; try dsimp only
  repeat' (first | with_reducible exact hK | with_reducible assumption | with_reducible apply State_modPort_kept | with_reducible apply discardFrame_kept | with_reducible apply foldl_kept | intro _ _ _ | intro _ _ | fail_if_no_progress (with_reducible apply kept_upd; on_goal 2 => exact ⟨rfl, rfl⟩) | split | rfl)
theorem portKick_kept {qq : List Instr × Nat} (s : State) (p : Nat) (hK : Kept qq s) : Kept qq (portKick s p) := by
  unfold portKick; try dsimp only
  repeat' (first | with_reducible exact hK | with_reducible assumption | with_reducible apply portGo_kept | with_reducible apply discardAll_kept | intro _ _ _ | intro _ _ | fail_if_no_progress (with_reducible apply kept_upd; on_goal 2 => exact ⟨rfl, rfl⟩) | split | rfl)
theorem sendBuilt_kept {qq : List Instr × Nat} (s : State) (p : Nat) (f : Frame) (hK : Kept qq s) : Kept qq (sendBuilt s p f) := by
  unfold sendBuilt; try dsimp only
  repeat' (first | with_reducible exact hK | with_reducible assumption | with_reducible apply State_modPort_kept | with_reducible apply portKick_kept | intro _ _ _ | intro _ _ | fail_if_no_progress (with_reducible apply kept_upd; on_goal 2 => exact ⟨rfl, rfl⟩) | split | rfl)
theorem putClass0_kept {qq : List Instr × Nat} (s : State) (p : Nat) (f : Frame) (hK : Kept qq s) : Kept qq (putClass0 s p f) := by
  unfold putClass0; try dsimp only
  repeat' (first | with_reducible exact hK | with_reducible assumption | with_reducible apply State_modPort_kept | with_reducible apply portKick_kept | intro _ _ _ | intro _ _ | fail_if_no_progress (with_reducible apply kept_upd; on_goal 2 => exact ⟨rfl, rfl⟩) | split | rfl)
theorem putQueue_kept {qq : List Instr × Nat} (s : State) (p : Nat) (f : Frame) (hK : Kept qq s) : Kept qq (putQueue s p f) := by
  unfold putQueue; try dsimp only
  repeat' (first | with_reducible exact hK | with_reducible assumption | with_reducible apply State_modPort_kept | with_reducible apply portKick_kept | intro _ _ _ | intro _ _ | fail_if_no_progress (with_reducible apply kept_upd; on_goal 2 => exact ⟨rfl, rfl⟩) | split | rfl)
theorem policedDrop_kept {qq : List Instr × Nat} (s : State) (p : Nat) (f : Frame) (bit_ : Nat) (hK : Kept qq s) : Kept qq (policedDrop s p f bit_) := by
  unfold policedDrop; try dsimp only
  repeat' (first | with_reducible exact hK | with_reducible assumption | with_reducible apply setStatus_kept | with_reducible apply dropFrame_kept | with_reducible apply portTally_kept | intro _ _ _ | intro _ _ | fail_if_no_progress (with_reducible apply kept_upd; on_goal 2 => exact ⟨rfl, rfl⟩) | split | rfl)
theorem enqueueMsg_kept {qq : List Instr × Nat} (s : State) (p : Nat) (f : Frame) (hK : Kept qq s) : Kept qq (enqueueMsg s p f) := by
  unfold enqueueMsg; try dsimp only
  repeat' (first | with_reducible exact hK | with_reducible assumption | with_reducible apply State_modPort_kept | with_reducible apply putClass0_kept | with_reducible apply putQueue_kept | with_reducible apply policedDrop_kept | intro _ _ _ | intro _ _ | fail_if_no_progress (with_reducible apply kept_upd; on_goal 2 => exact ⟨rfl, rfl⟩) | split | rfl)
theorem enqueueAll_kept {qq : List Instr × Nat} (s : State) (m : HeldMsg) (pool h dst : Nat) (ports : List Nat) (hK : Kept qq s) : Kept qq (enqueueAll s m pool h dst ports) := by
  unfold enqueueAll; try dsimp only
  repeat' (first | with_reducible exact hK | with_reducible assumption | with_reducible apply State_modEg_kept | with_reducible apply drawFree_kept | with_reducible apply State_modPool_kept | with_reducible apply enqueueMsg_kept | with_reducible apply foldl_kept | intro _ _ _ | intro _ _ | fail_if_no_progress (with_reducible apply kept_upd; on_goal 2 => exact ⟨rfl, rfl⟩) | split | rfl)
theorem sendMessage_kept {qq : List Instr × Nat} (s : State) (m : HeldMsg) (pool h : Nat) (hK : Kept qq s) : Kept qq (sendMessage s m pool h) := by
  unfold sendMessage; try dsimp only
  repeat' (first | with_reducible exact hK | with_reducible assumption | with_reducible apply tallyAdd_kept | with_reducible apply complete_kept | with_reducible apply completeWith_kept | with_reducible apply freeBuf_kept | with_reducible apply enqueueAll_kept | intro _ _ _ | intro _ _ | fail_if_no_progress (with_reducible apply kept_upd; on_goal 2 => exact ⟨rfl, rfl⟩) | split | rfl)
theorem grantMessage_kept {qq : List Instr × Nat} (s : State) (m : HeldMsg) (data : HostData) (hK : Kept qq s) : Kept qq (grantMessage s m data) := by
  unfold grantMessage; try dsimp only
  repeat' (first | with_reducible exact hK | with_reducible assumption | with_reducible apply State_modEg_kept | with_reducible apply completeWith_kept | with_reducible apply allocBuf_kept | with_reducible apply freeBuf_kept | with_reducible apply sendMessage_kept | intro _ _ _ | intro _ _ | fail_if_no_progress (with_reducible apply kept_upd; on_goal 2 => exact ⟨rfl, rfl⟩) | split | rfl)
theorem offerMessage_kept {qq : List Instr × Nat} (s : State) (m0 : HeldMsg) (data : HostData) (hK : Kept qq s) : Kept qq (offerMessage s m0 data) := by
  unfold offerMessage; try dsimp only
  repeat' (first | with_reducible exact hK | with_reducible assumption | with_reducible apply State_modEg_kept | with_reducible apply setStatus_kept | with_reducible apply tallyAdd_kept | with_reducible apply completeWith_kept | with_reducible apply grantMessage_kept | intro _ _ _ | intro _ _ | fail_if_no_progress (with_reducible apply kept_upd; on_goal 2 => exact ⟨rfl, rfl⟩) | split | rfl)
theorem msgRun_kept {qq : List Instr × Nat} (ref : CmdRef) (d : Desc) (region : Bool) (t o f : Nat) (h : HostData) (s : State) (hK : Kept qq s) : Kept qq (msgRun ref d region t o f h s) := by
  unfold msgRun; try dsimp only
  repeat' (first | with_reducible exact hK | with_reducible assumption | with_reducible apply drawFree_kept | with_reducible apply check_kept | with_reducible apply offerMessage_kept | intro _ _ _ | intro _ _ | fail_if_no_progress (with_reducible apply kept_upd; on_goal 2 => exact ⟨rfl, rfl⟩) | split | rfl)
theorem unhold_kept {qq : List Instr × Nat} (s : State) (m : HeldMsg) (hK : Kept qq s) : Kept qq (unhold s m) := ⟨hK.1, hK.2⟩
theorem releaseMessage_kept {qq : List Instr × Nat} (s : State) (arg : Nat) (hK : Kept qq s) : Kept qq (releaseMessage s arg) := by
  unfold releaseMessage; try dsimp only
  repeat' (first | with_reducible exact hK | with_reducible assumption | with_reducible apply tallyAdd_kept | with_reducible apply sendMessage_kept | with_reducible apply unhold_kept | intro _ _ _ | intro _ _ | fail_if_no_progress (with_reducible apply kept_upd; on_goal 2 => exact ⟨rfl, rfl⟩) | split | rfl)
theorem heldTimeout_kept {qq : List Instr × Nat} (s : State) (sq cid : Nat) (hK : Kept qq s) : Kept qq (heldTimeout s sq cid) := by
  unfold heldTimeout; try dsimp only
  repeat' (first | with_reducible exact hK | with_reducible assumption | with_reducible apply completeWith_kept | with_reducible apply freeBuf_kept | with_reducible apply unhold_kept | intro _ _ _ | intro _ _ | fail_if_no_progress (with_reducible apply kept_upd; on_goal 2 => exact ⟨rfl, rfl⟩) | split | rfl)
theorem allocGrant_kept {qq : List Instr × Nat} (s : State) (data : HostData) (hK : Kept qq s) : Kept qq (allocGrant s data) := by
  unfold allocGrant; try dsimp only
  repeat' (first | with_reducible exact hK | with_reducible assumption | with_reducible apply State_modEg_kept | with_reducible apply grantMessage_kept | intro _ _ _ | intro _ _ | fail_if_no_progress (with_reducible apply kept_upd; on_goal 2 => exact ⟨rfl, rfl⟩) | split | rfl)
theorem countSent_kept {qq : List Instr × Nat} (s : State) (p : Nat) (f : Frame) (hK : Kept qq s) : Kept qq (countSent s p f) := ⟨hK.1, hK.2⟩
theorem traceSent_kept {qq : List Instr × Nat} (s : State) (f : Frame) (hK : Kept qq s) : Kept qq (traceSent s f) := by
  unfold traceSent; try dsimp only
  repeat' (first | with_reducible exact hK | with_reducible assumption | with_reducible apply traceMark_kept | intro _ _ _ | intro _ _ | fail_if_no_progress (with_reducible apply kept_upd; on_goal 2 => exact ⟨rfl, rfl⟩) | split | rfl)
theorem asmParity_kept {qq : List Instr × Nat} (s : State) (p : Nat) (f : Frame) (parity : Bool) (hK : Kept qq s) : Kept qq (asmParity s p f parity) := by
  unfold asmParity; try dsimp only
  repeat' (first | with_reducible exact hK | with_reducible assumption | with_reducible apply setStatus_kept | intro _ _ _ | intro _ _ | fail_if_no_progress (with_reducible apply kept_upd; on_goal 2 => exact ⟨rfl, rfl⟩) | split | rfl)
theorem txEnd_kept {qq : List Instr × Nat} (s0 : State) (p : Nat) (parity : Bool) (hK : Kept qq s0) : Kept qq (txEnd s0 p parity) := by
  unfold txEnd; try dsimp only
  repeat' (first | with_reducible exact hK | with_reducible assumption | with_reducible apply State_modPort_kept | with_reducible apply portGo_kept | with_reducible apply copyFate_kept | with_reducible apply releaseFrame_kept | with_reducible apply countSent_kept | with_reducible apply traceSent_kept | with_reducible apply asmParity_kept | intro _ _ _ | intro _ _ | fail_if_no_progress (with_reducible apply kept_upd; on_goal 2 => exact ⟨rfl, rfl⟩) | split | rfl)
theorem dropAged_kept {qq : List Instr × Nat} (s : State) (p q : Nat) (hK : Kept qq s) : Kept qq (dropAged s p q) := by
  unfold dropAged; try dsimp only
  repeat' (first | with_reducible exact hK | with_reducible assumption | with_reducible apply State_modPort_kept | with_reducible apply setStatus_kept | with_reducible apply raiseFault_kept | with_reducible apply dropFrame_kept | with_reducible apply portTally_kept | with_reducible apply portKick_kept | intro _ _ _ | intro _ _ | fail_if_no_progress (with_reducible apply kept_upd; on_goal 2 => exact ⟨rfl, rfl⟩) | split | rfl)
theorem linkRise_kept {qq : List Instr × Nat} (s : State) (p : Nat) (hK : Kept qq s) : Kept qq (linkRise s p) := by
  unfold linkRise; try dsimp only
  repeat' (first | with_reducible exact hK | with_reducible assumption | with_reducible apply State_modPort_kept | with_reducible apply portGo_kept | intro _ _ _ | intro _ _ | fail_if_no_progress (with_reducible apply kept_upd; on_goal 2 => exact ⟨rfl, rfl⟩) | split | rfl)
theorem linkLost_kept {qq : List Instr × Nat} (s : State) (p : Nat) (lock align : Bool) (hK : Kept qq s) : Kept qq (linkLost s p lock align) := by
  unfold linkLost; try dsimp only
  repeat' (first | with_reducible exact hK | with_reducible assumption | with_reducible apply State_modPort_kept | with_reducible apply setStatus_kept | with_reducible apply discardAll_kept | intro _ _ _ | intro _ _ | fail_if_no_progress (with_reducible apply kept_upd; on_goal 2 => exact ⟨rfl, rfl⟩) | split | rfl)
theorem linkFall_kept {qq : List Instr × Nat} (s : State) (p : Nat) (hK : Kept qq s) : Kept qq (linkFall s p) := by
  unfold linkFall; try dsimp only
  repeat' (first | with_reducible exact hK | with_reducible assumption | with_reducible apply linkLost_kept | intro _ _ _ | intro _ _ | fail_if_no_progress (with_reducible apply kept_upd; on_goal 2 => exact ⟨rfl, rfl⟩) | split | rfl)
theorem fecBad_kept {qq : List Instr × Nat} (s : State) (p : Nat) (bad : Bool) (hK : Kept qq s) : Kept qq (fecBad s p bad) := by
  unfold fecBad; try dsimp only
  repeat' (first | with_reducible exact hK | with_reducible assumption | with_reducible apply setStatus_kept | intro _ _ _ | intro _ _ | fail_if_no_progress (with_reducible apply kept_upd; on_goal 2 => exact ⟨rfl, rfl⟩) | split | rfl)
theorem rxDiscard_kept {qq : List Instr × Nat} (s : State) (p : Nat) (bs : List Byte) (fcsOk : Bool) (hK : Kept qq s) : Kept qq (rxDiscard s p bs fcsOk) := by
  unfold rxDiscard; try dsimp only
  repeat' (first | with_reducible exact hK | with_reducible assumption | with_reducible apply setStatus_kept | with_reducible apply tallyAdd_kept | intro _ _ _ | intro _ _ | fail_if_no_progress (with_reducible apply kept_upd; on_goal 2 => exact ⟨rfl, rfl⟩) | split | rfl)
theorem dreqWindow_kept {qq : List Instr × Nat} (s : State) (p : Nat) (hK : Kept qq s) : Kept qq (dreqWindow s p) := by
  unfold dreqWindow; try dsimp only
  repeat' (first | with_reducible exact hK | with_reducible assumption | with_reducible apply State_modPort_kept | intro _ _ _ | intro _ _ | fail_if_no_progress (with_reducible apply kept_upd; on_goal 2 => exact ⟨rfl, rfl⟩) | split | rfl)
theorem delayReq_kept {qq : List Instr × Nat} (s : State) (p : Nat) (bs : List Byte) (age : Word) (hK : Kept qq s) : Kept qq (delayReq s p bs age) := by
  unfold delayReq; try dsimp only
  repeat' (first | with_reducible exact hK | with_reducible assumption | with_reducible apply State_modPort_kept | with_reducible apply setStatus_kept | with_reducible apply tallyAdd_kept | with_reducible apply sendBuilt_kept | with_reducible apply rxDiscard_kept | with_reducible apply dreqWindow_kept | intro _ _ _ | intro _ _ | fail_if_no_progress (with_reducible apply kept_upd; on_goal 2 => exact ⟨rfl, rfl⟩) | split | rfl)
theorem noteTemp_kept {qq : List Instr × Nat} (s : State) (slot : Nat) (bs : List Byte) (hK : Kept qq s) : Kept qq (noteTemp s slot bs) := by
  unfold noteTemp; try dsimp only
  repeat' (first | with_reducible exact hK | with_reducible assumption | intro _ _ _ | intro _ _ | fail_if_no_progress (with_reducible apply kept_upd; on_goal 2 => exact ⟨rfl, rfl⟩) | split | rfl)
theorem tlmLearn_kept {qq : List Instr × Nat} (s : State) (p slot : Nat) (bs : List Byte) (hK : Kept qq s) : Kept qq (tlmLearn s p slot bs) := by
  unfold tlmLearn; try dsimp only
  repeat' (first | with_reducible exact hK | with_reducible assumption | with_reducible apply offerEvent_kept | intro _ _ _ | intro _ _ | fail_if_no_progress (with_reducible apply kept_upd; on_goal 2 => exact ⟨rfl, rfl⟩) | split | rfl)
theorem tlmDeliver_kept {qq : List Instr × Nat} (s : State) (p slot : Nat) (bs : List Byte) (hK : Kept qq s) : Kept qq (tlmDeliver s p slot bs) := by
  unfold tlmDeliver; try dsimp only
  repeat' (first | with_reducible exact hK | with_reducible assumption | with_reducible apply State_modRings_kept | with_reducible apply setStatus_kept | with_reducible apply tallyAdd_kept | with_reducible apply hostWrite_kept | with_reducible apply offerOrDrop_kept | intro _ _ _ | intro _ _ | fail_if_no_progress (with_reducible apply kept_upd; on_goal 2 => exact ⟨rfl, rfl⟩) | split | rfl)
theorem tlmHost_kept {qq : List Instr × Nat} (s : State) (p slot : Nat) (bs : List Byte) (hK : Kept qq s) : Kept qq (tlmHost s p slot bs) := by
  unfold tlmHost; try dsimp only
  repeat' (first | with_reducible exact hK | with_reducible assumption | with_reducible apply tallyAdd_kept | with_reducible apply allocBuf_kept | with_reducible apply freeBuf_kept | with_reducible apply tlmDeliver_kept | intro _ _ _ | intro _ _ | fail_if_no_progress (with_reducible apply kept_upd; on_goal 2 => exact ⟨rfl, rfl⟩) | split | rfl)
theorem telemetry_kept {qq : List Instr × Nat} (s : State) (p : Nat) (bs : List Byte) (hK : Kept qq s) : Kept qq (telemetry s p bs) := by
  unfold telemetry; try dsimp only
  repeat' (first | with_reducible exact hK | with_reducible assumption | with_reducible apply rxDiscard_kept | with_reducible apply noteTemp_kept | with_reducible apply tlmLearn_kept | with_reducible apply tlmHost_kept | intro _ _ _ | intro _ _ | fail_if_no_progress (with_reducible apply kept_upd; on_goal 2 => exact ⟨rfl, rfl⟩) | split | rfl)
theorem driftStale_kept {qq : List Instr × Nat} (s : State) (slot : Nat) (hK : Kept qq s) : Kept qq (driftStale s slot) := by
  unfold driftStale; try dsimp only
  repeat' (first | with_reducible exact hK | with_reducible assumption | with_reducible apply setStatus_kept | intro _ _ _ | intro _ _ | fail_if_no_progress (with_reducible apply kept_upd; on_goal 2 => exact ⟨rfl, rfl⟩) | split | rfl)
theorem State_modPrx_kept {qq : List Instr × Nat} (s : State) (f : Proxy → Proxy) (hK : Kept qq s) : Kept qq (State.modPrx s f) := ⟨hK.1, hK.2⟩
theorem prxStop_kept {qq : List Instr × Nat} (s : State) (ref : CmdRef) (hK : Kept qq s) : Kept qq (prxStop s ref) := by
  unfold prxStop; try dsimp only
  repeat' (first | with_reducible exact hK | with_reducible assumption | with_reducible apply completeWith_kept | with_reducible apply State_modPrx_kept | intro _ _ _ | intro _ _ | fail_if_no_progress (with_reducible apply kept_upd; on_goal 2 => exact ⟨rfl, rfl⟩) | split | rfl)
theorem prxRowWritten_kept {qq : List Instr × Nat} (s : State) (c n row : Nat) (hK : Kept qq s) : Kept qq (prxRowWritten s c n row) := by
  unfold prxRowWritten; try dsimp only
  repeat' (first | with_reducible exact hK | with_reducible assumption | with_reducible apply State_modPrx_kept | intro _ _ _ | intro _ _ | fail_if_no_progress (with_reducible apply kept_upd; on_goal 2 => exact ⟨rfl, rfl⟩) | split | rfl)
theorem prxAbandon_kept {qq : List Instr × Nat} (s : State) (c n : Nat) (hK : Kept qq s) : Kept qq (prxAbandon s c n) := by
  unfold prxAbandon; try dsimp only
  repeat' (first | with_reducible exact hK | with_reducible assumption | with_reducible apply setStatus_kept | intro _ _ _ | intro _ _ | fail_if_no_progress (with_reducible apply kept_upd; on_goal 2 => exact ⟨rfl, rfl⟩) | split | rfl)
theorem prxCapture_kept {qq : List Instr × Nat} (s : State) (hK : Kept qq s) : Kept qq (prxCapture s) := by
  unfold prxCapture; try dsimp only
  repeat' (first | with_reducible exact hK | with_reducible assumption | with_reducible apply setStatus_kept | with_reducible apply State_modPrx_kept | intro _ _ _ | intro _ _ | fail_if_no_progress (with_reducible apply kept_upd; on_goal 2 => exact ⟨rfl, rfl⟩) | split | rfl)
theorem prxDeliver_kept {qq : List Instr × Nat} (s : State) (x : Capture) (last : Bool) (status : Nat) (hK : Kept qq s) : Kept qq (prxDeliver s x last status).2 := by
  unfold prxDeliver
  dsimp only
  repeat' (first | with_reducible exact hK | with_reducible apply State_modPrx_kept | with_reducible apply setStatus_kept | with_reducible apply offerOrDrop_kept | with_reducible apply hostWrite_kept | fail_if_no_progress (with_reducible apply kept_upd; on_goal 2 => exact ⟨rfl, rfl⟩) | split)
theorem prxAuDone_kept {qq : List Instr × Nat} (s : State) (hK : Kept qq s) : Kept qq (prxAuDone s) := by
  unfold prxAuDone; try dsimp only
  repeat' (first | with_reducible exact hK | with_reducible assumption | with_reducible apply prxDeliver_kept | intro _ _ _ | intro _ _ | fail_if_no_progress (with_reducible apply kept_upd; on_goal 2 => exact ⟨rfl, rfl⟩) | split | rfl)
theorem prxStopped_kept {qq : List Instr × Nat} (s : State) (hK : Kept qq s) : Kept qq (prxStopped s) := by
  unfold prxStopped; try dsimp only
  repeat' (first | with_reducible exact hK | with_reducible assumption | with_reducible apply completeWith_kept | with_reducible apply State_modPrx_kept | with_reducible apply foldl_kept | intro _ _ _ | intro _ _ | fail_if_no_progress (with_reducible apply kept_upd; on_goal 2 => exact ⟨rfl, rfl⟩) | split | rfl)
theorem prxEnd_kept {qq : List Instr × Nat} (s : State) (hK : Kept qq s) : Kept qq (prxEnd s) := by
  unfold prxEnd; try dsimp only
  repeat' (first | with_reducible exact hK | with_reducible assumption | with_reducible apply setStatus_kept | with_reducible apply offerOrDrop_kept | intro _ _ _ | intro _ _ | fail_if_no_progress (with_reducible apply kept_upd; on_goal 2 => exact ⟨rfl, rfl⟩) | split | rfl)
theorem prxStopDone_kept {qq : List Instr × Nat} (s : State) (hK : Kept qq s) : Kept qq (prxStopDone s) := by
  unfold prxStopDone; try dsimp only
  repeat' (first | with_reducible exact hK | with_reducible assumption | with_reducible apply prxDeliver_kept | with_reducible apply prxStopped_kept | with_reducible apply prxEnd_kept | intro _ _ _ | intro _ _ | fail_if_no_progress (with_reducible apply kept_upd; on_goal 2 => exact ⟨rfl, rfl⟩) | split | rfl)
theorem lutWrite_kept {qq : List Instr × Nat} (s : State) (a : Agent) (v : Word) (hK : Kept qq s) : Kept qq (lutWrite s a v) := by
  unfold lutWrite; try dsimp only
  repeat' (first | with_reducible exact hK | with_reducible assumption | with_reducible apply State_setSel_kept | with_reducible apply State_modPrx_kept | intro _ _ _ | intro _ _ | fail_if_no_progress (with_reducible apply kept_upd; on_goal 2 => exact ⟨rfl, rfl⟩) | split | rfl)
theorem selectStream_kept {qq : List Instr × Nat} (k f : Nat) (s : State) (n : Nat) (hK : Kept qq s) : Kept qq (selectStream k f s n) := by
  unfold selectStream; try dsimp only
  repeat' (first | with_reducible exact hK | with_reducible assumption | with_reducible apply State_modContract_kept | with_reducible apply setStatus_kept | with_reducible apply lateInput_kept | intro _ _ _ | intro _ _ | fail_if_no_progress (with_reducible apply kept_upd; on_goal 2 => exact ⟨rfl, rfl⟩) | split | rfl)
theorem reportDefaults_kept {qq : List Instr × Nat} (s : State) (c : Contract) (f : Nat) (hK : Kept qq s) : Kept qq (reportDefaults s c f) := by
  unfold reportDefaults; try dsimp only
  repeat' (first | with_reducible exact hK | with_reducible assumption | with_reducible apply setStatus_kept | with_reducible apply tallyAdd_kept | intro _ _ _ | intro _ _ | fail_if_no_progress (with_reducible apply kept_upd; on_goal 2 => exact ⟨rfl, rfl⟩) | split | rfl)
theorem traceConsume_kept {qq : List Instr × Nat} (s : State) (k f n : Nat) (hK : Kept qq s) : Kept qq (traceConsume s k f n) := by
  unfold traceConsume; try dsimp only
  repeat' (first | with_reducible exact hK | with_reducible assumption | with_reducible apply State_modTly_kept | with_reducible apply traceWrite_kept | with_reducible apply foldl_kept | intro _ _ _ | intro _ _ | fail_if_no_progress (with_reducible apply kept_upd; on_goal 2 => exact ⟨rfl, rfl⟩) | split | rfl)
theorem selectFrame_kept {qq : List Instr × Nat} (s : State) (k f : Nat) (hK : Kept qq s) : Kept qq (selectFrame s k f) := by
  unfold selectFrame; try dsimp only
  repeat' (first | with_reducible exact hK | with_reducible assumption | with_reducible apply State_modContract_kept | with_reducible apply selectStream_kept | with_reducible apply reportDefaults_kept | with_reducible apply traceConsume_kept | with_reducible apply foldl_kept | intro _ _ _ | intro _ _ | fail_if_no_progress (with_reducible apply kept_upd; on_goal 2 => exact ⟨rfl, rfl⟩) | split | rfl)
theorem laterRow_kept {qq : List Instr × Nat} (k f row : Nat) (s : State) (n : Nat) (hK : Kept qq s) : Kept qq (laterRow k f row s n) := by
  unfold laterRow; try dsimp only
  repeat' (first | with_reducible exact hK | with_reducible assumption | with_reducible apply State_modContract_kept | with_reducible apply lateInput_kept | intro _ _ _ | intro _ _ | fail_if_no_progress (with_reducible apply kept_upd; on_goal 2 => exact ⟨rfl, rfl⟩) | split | rfl)
theorem seamSide_kept {qq : List Instr × Nat} (k f row : Nat) (s : State) (p : Nat × Nat × Layer) (hK : Kept qq s) : Kept qq (seamSide k f row s p) := by
  unfold seamSide; try dsimp only
  repeat' (first | with_reducible exact hK | with_reducible assumption | with_reducible apply State_modContract_kept | with_reducible apply setStatus_kept | with_reducible apply tallyAdd_kept | intro _ _ _ | intro _ _ | fail_if_no_progress (with_reducible apply kept_upd; on_goal 2 => exact ⟨rfl, rfl⟩) | split | rfl)
theorem sendStrip_kept {qq : List Instr × Nat} (k f row port : Nat) (s : State) (p : Layer × Nat) (hK : Kept qq s) : Kept qq (sendStrip k f row port s p) := by
  unfold sendStrip; try dsimp only
  repeat' (first | with_reducible exact hK | with_reducible assumption | with_reducible apply peerSend_kept | with_reducible apply foldl_kept | intro _ _ _ | intro _ _ | fail_if_no_progress (with_reducible apply kept_upd; on_goal 2 => exact ⟨rfl, rfl⟩) | split | rfl)
theorem seamReceive_kept {qq : List Instr × Nat} (s : State) (e : Nat) (bs : List Byte) (hK : Kept qq s) : Kept qq (seamReceive s e bs) := by
  unfold seamReceive; try dsimp only
  repeat' (first | with_reducible exact hK | with_reducible assumption | with_reducible apply tallyAdd_kept | with_reducible apply foldDiscard_kept | intro _ _ _ | intro _ _ | fail_if_no_progress (with_reducible apply kept_upd; on_goal 2 => exact ⟨rfl, rfl⟩) | split | rfl)
theorem queuePads_kept {qq : List Instr × Nat} (deal : List Nat) (s : State) (i : Nat) (hK : Kept qq s) : Kept qq (queuePads deal s i) := by
  unfold queuePads; try dsimp only
  repeat' (first | with_reducible exact hK | with_reducible assumption | with_reducible apply State_modSlice_kept | intro _ _ _ | intro _ _ | fail_if_no_progress (with_reducible apply kept_upd; on_goal 2 => exact ⟨rfl, rfl⟩) | split | rfl)
theorem startRow_kept {qq : List Instr × Nat} (s : State) (k f row : Nat) (hK : Kept qq s) : Kept qq (startRow s k f row) := by
  unfold startRow; try dsimp only
  repeat' (first | with_reducible exact hK | with_reducible assumption | with_reducible apply State_modContract_kept | with_reducible apply prxAbandon_kept | with_reducible apply laterRow_kept | with_reducible apply seamSide_kept | with_reducible apply queuePads_kept | with_reducible apply foldl_kept | intro _ _ _ | intro _ _ | fail_if_no_progress (with_reducible apply kept_upd; on_goal 2 => exact ⟨rfl, rfl⟩) | split | rfl)
theorem compBody_kept {qq : List Instr × Nat} (s : State) (l : LSlot) (hK : Kept qq s) : Kept qq (compBody s l) := by
  unfold compBody; try dsimp only
  repeat' (first | with_reducible exact hK | with_reducible assumption | with_reducible apply selectFrame_kept | with_reducible apply startRow_kept | intro _ _ _ | intro _ _ | fail_if_no_progress (with_reducible apply kept_upd; on_goal 2 => exact ⟨rfl, rfl⟩) | split | rfl)
theorem overrun_kept {qq : List Instr × Nat} (s : State) (k : Nat) (l : LSlot) (fault tally : Nat) (hK : Kept qq s) : Kept qq (overrun s k l fault tally) := by
  unfold overrun; try dsimp only
  repeat' (first | with_reducible exact hK | with_reducible assumption | with_reducible apply tallyAdd_kept | with_reducible apply raiseFault_kept | intro _ _ _ | intro _ _ | fail_if_no_progress (with_reducible apply kept_upd; on_goal 2 => exact ⟨rfl, rfl⟩) | split | rfl)
theorem writePad_kept {qq : List Instr × Nat} (k : Nat) (c : Contract) (f : FrameSet) (row : Nat) (poisoned : List (Nat × Nat)) (s : State) (col : Nat) (hK : Kept qq s) : Kept qq (writePad k c f row poisoned s col) := by
  unfold writePad; try dsimp only
  repeat' (first | with_reducible exact hK | with_reducible assumption | with_reducible apply setStatus_kept | with_reducible apply tallyAdd_kept | with_reducible apply memWrite_kept | with_reducible apply foldl_kept | intro _ _ _ | intro _ _ | fail_if_no_progress (with_reducible apply kept_upd; on_goal 2 => exact ⟨rfl, rfl⟩) | split | rfl)
theorem unqueuePads_kept {qq : List Instr × Nat} (deal : List Nat) (s : State) (i : Nat) (hK : Kept qq s) : Kept qq (unqueuePads deal s i) := by
  unfold unqueuePads; try dsimp only
  repeat' (first | with_reducible exact hK | with_reducible assumption | with_reducible apply State_modSlice_kept | intro _ _ _ | intro _ _ | fail_if_no_progress (with_reducible apply kept_upd; on_goal 2 => exact ⟨rfl, rfl⟩) | split | rfl)
theorem dropSets_kept {qq : List Instr × Nat} (s : State) (k : Nat) (hK : Kept qq s) : Kept qq (dropSets s k) := by
  unfold dropSets; try dsimp only
  repeat' (first | with_reducible exact hK | with_reducible assumption | with_reducible apply State_modContract_kept | with_reducible apply unplace_kept | with_reducible apply foldl_kept | intro _ _ _ | intro _ _ | fail_if_no_progress (with_reducible apply kept_upd; on_goal 2 => exact ⟨rfl, rfl⟩) | split | rfl)
theorem rowWritten_kept {qq : List Instr × Nat} (s : State) (k : Nat) (j : RowJob) (poisoned : List (Nat × Nat)) (hK : Kept qq s) : Kept qq (rowWritten s k j poisoned) := by
  unfold rowWritten; try dsimp only
  repeat' (first | with_reducible exact hK | with_reducible assumption | with_reducible apply State_modContract_kept | with_reducible apply setStatus_kept | with_reducible apply tallyAdd_kept | with_reducible apply prxRowWritten_kept | with_reducible apply writePad_kept | with_reducible apply unqueuePads_kept | with_reducible apply dropSets_kept | with_reducible apply foldl_kept | intro _ _ _ | intro _ _ | fail_if_no_progress (with_reducible apply kept_upd; on_goal 2 => exact ⟨rfl, rfl⟩) | split | rfl)
theorem atOnceOr_kept {qq : List Instr × Nat} (s : State) (n : Nat) (ref : CmdRef) (ch : Change) (now later : State → State) (h1 : ∀ t, Kept qq t → Kept qq (now t)) (h2 : ∀ t, Kept qq t → Kept qq (later t)) (hK : Kept qq s) : Kept qq (atOnceOr s n ref ch now later) := by
  unfold atOnceOr
  split
  · exact complete_kept _ _ _ _ _ _ (h1 _ hK)
  · exact completeDeferred_kept _ _ _ (deferStep_kept _ _ _ (h2 _ hK))
theorem modCoef_kept {qq : List Instr × Nat} (s : State) (n slot : Nat) (f : CoefStore → CoefStore) (hK : Kept qq s) : Kept qq (modCoef s n slot f) := ⟨hK.1, hK.2⟩
theorem allocCoef_kept {qq : List Instr × Nat} (s : State) (n : Nat) (e : Endpoint) (hK : Kept qq s) : Kept qq (allocCoef s n e) := by
  unfold allocCoef; try dsimp only
  repeat' (first | with_reducible exact hK | with_reducible assumption | with_reducible apply place_kept | with_reducible apply modCoef_kept | intro _ _ _ | intro _ _ | fail_if_no_progress (with_reducible apply kept_upd; on_goal 2 => exact ⟨rfl, rfl⟩) | split | rfl)
theorem coefStoreRec_kept {qq : List Instr × Nat} (ref : CmdRef) (n : Nat) (e : Endpoint) (r : CorrRec) (planes : List Byte) (s : State) (hK : Kept qq s) : Kept qq (coefStoreRec ref n e r planes s) := by
  unfold coefStoreRec
  refine check_kept _ _ _ _ _ (fun t ht => ?_) hK
  exact atOnceOr_kept _ _ _ _ _ _ (fun t ht => modCoef_kept _ _ _ _ ht) (fun t ht => ht)
    (modCoef_kept _ _ _ _ (memWrite_kept _ _ _ (allocCoef_kept _ _ _ ht)))
theorem modDrift_kept {qq : List Instr × Nat} (s : State) (k : Nat) (f : Slot2 → Slot2) (hK : Kept qq s) : Kept qq (modDrift s k f) := ⟨hK.1, hK.2⟩
theorem modCurve_kept {qq : List Instr × Nat} (s : State) (k : Nat) (f : Slot2 → Slot2) (hK : Kept qq s) : Kept qq (modCurve s k f) := ⟨hK.1, hK.2⟩
theorem swapImage_kept {qq : List Instr × Nat} (s : State) (n : Nat) (img : MapImage) (hK : Kept qq s) : Kept qq (swapImage s n img) := by
  unfold swapImage; try dsimp only
  repeat' (first | with_reducible exact hK | with_reducible assumption | with_reducible apply State_modContract_kept | with_reducible apply unplace_kept | intro _ _ _ | intro _ _ | fail_if_no_progress (with_reducible apply kept_upd; on_goal 2 => exact ⟨rfl, rfl⟩) | split | rfl)
theorem mapAdmit_kept {qq : List Instr × Nat} (ref : CmdRef) (d : Desc) (n : Nat) (img : MapImage) (len : Nat) (s : State) (hK : Kept qq s) : Kept qq (mapAdmit ref d n img len s) := by
  unfold mapAdmit
  dsimp only
  split
  · exact atOnceOr_kept _ _ _ _ _ _ (fun t ht => swapImage_kept _ _ _ ht) (fun t ht => ht) (place_kept _ _ (writeReport_kept _ _ _ hK))
  · exact complete_kept _ _ _ _ _ _ (writeReport_kept _ _ _ hK)
theorem loadDrover_kept {qq : List Instr × Nat} (bs : List Byte) (mismatch : BitVec 32) (s : State) (p : Nat) (hK : Kept qq s) : Kept qq (loadDrover bs mismatch s p) := ⟨hK.1, hK.2⟩
theorem ucodeRun_kept {qq : List Instr × Nat} (ref : CmdRef) (mask : Nat) (bs : List Byte) (mismatch : BitVec 32) (badWord : BitVec 14) (s : State) (hK : Kept qq s) : Kept qq (ucodeRun ref mask bs mismatch badWord s) := by
  unfold ucodeRun; try dsimp only
  repeat' (first | with_reducible exact hK | with_reducible assumption | with_reducible apply complete_kept | with_reducible apply loadDrover_kept | with_reducible apply foldl_kept | intro _ _ _ | intro _ _ | fail_if_no_progress (with_reducible apply kept_upd; on_goal 2 => exact ⟨rfl, rfl⟩) | split | rfl)
theorem writeEntry_kept {qq : List Instr × Nat} (s : State) (c p n : Nat) (e : Endpoint) (k : Nat) (x : Entry) (hK : Kept qq s) : Kept qq (writeEntry s c p n e k x) := by
  unfold writeEntry; try dsimp only
  repeat' (first | with_reducible exact hK | with_reducible assumption | with_reducible apply State_modRing_kept | intro _ _ _ | intro _ _ | fail_if_no_progress (with_reducible apply kept_upd; on_goal 2 => exact ⟨rfl, rfl⟩) | split | rfl)
theorem ringReset_kept {qq : List Instr × Nat} (s : State) (c p : Nat) (hK : Kept qq s) : Kept qq (ringReset s c p) := by
  unfold ringReset; try dsimp only
  repeat' (first | with_reducible exact hK | with_reducible assumption | with_reducible apply State_modContract_kept | with_reducible apply setStatus_kept | with_reducible apply tallyAdd_kept | with_reducible apply raiseFault_kept | with_reducible apply State_modRing_kept | with_reducible apply foldl_kept | intro _ _ _ | intro _ _ | fail_if_no_progress (with_reducible apply kept_upd; on_goal 2 => exact ⟨rfl, rfl⟩) | split | rfl)
theorem drvTally_kept {qq : List Instr × Nat} (s : State) (d j n : Nat) (hK : Kept qq s) : Kept qq (drvTally s d j n) := ⟨hK.1, hK.2⟩
theorem drvStatus_kept {qq : List Instr × Nat} (s : State) (d i : Nat) (hK : Kept qq s) : Kept qq (drvStatus s d i) := by
  unfold drvStatus; try dsimp only
  repeat' (first | with_reducible exact hK | with_reducible assumption | with_reducible apply setStatus_kept | intro _ _ _ | intro _ _ | fail_if_no_progress (with_reducible apply kept_upd; on_goal 2 => exact ⟨rfl, rfl⟩) | split | rfl)
theorem loseRange_kept {qq : List Instr × Nat} (c n p slot : Nat) (s : State) (r : Nat × Nat) (hK : Kept qq s) : Kept qq (loseRange c n p slot s r) := by
  unfold loseRange; try dsimp only
  repeat' (first | with_reducible exact hK | with_reducible assumption | with_reducible apply State_modContract_kept | intro _ _ _ | intro _ _ | fail_if_no_progress (with_reducible apply kept_upd; on_goal 2 => exact ⟨rfl, rfl⟩) | split | rfl)
theorem loseCmd_kept {qq : List Instr × Nat} (d : Nat) (l : RowList) (prog : Nat) (s : State) (m : ListCmd) (hK : Kept qq s) : Kept qq (loseCmd d l prog s m) := by
  unfold loseCmd; try dsimp only
  repeat' (first | with_reducible exact hK | with_reducible assumption | with_reducible apply loseRange_kept | with_reducible apply foldl_kept | intro _ _ _ | intro _ _ | fail_if_no_progress (with_reducible apply kept_upd; on_goal 2 => exact ⟨rfl, rfl⟩) | split | rfl)
theorem skipRest_kept {qq : List Instr × Nat} (d : Nat) (s : State) (l : RowList) (hK : Kept qq s) : Kept qq (skipRest d s l) := by
  unfold skipRest; try dsimp only
  repeat' (first | with_reducible exact hK | with_reducible assumption | with_reducible apply drvTally_kept | with_reducible apply drvStatus_kept | with_reducible apply loseCmd_kept | with_reducible apply foldl_kept | intro _ _ _ | intro _ _ | fail_if_no_progress (with_reducible apply kept_upd; on_goal 2 => exact ⟨rfl, rfl⟩) | split | rfl)
theorem skipLists_kept {qq : List Instr × Nat} (s : State) (d : Nat) (p : RowList → Bool) (hK : Kept qq s) : Kept qq (skipLists s d p) := by
  unfold skipLists; try dsimp only
  repeat' (first | with_reducible exact hK | with_reducible assumption | with_reducible apply State_modDrover_kept | with_reducible apply skipRest_kept | with_reducible apply foldl_kept | intro _ _ _ | intro _ _ | fail_if_no_progress (with_reducible apply kept_upd; on_goal 2 => exact ⟨rfl, rfl⟩) | split | rfl)
theorem rewindFifo_kept {qq : List Instr × Nat} (s : State) (d : Nat) (hK : Kept qq s) : Kept qq (rewindFifo s d) := ⟨hK.1, hK.2⟩
theorem stopRun_kept {qq : List Instr × Nat} (s : State) (d : Nat) (hK : Kept qq s) : Kept qq (stopRun s d) := ⟨hK.1, hK.2⟩
theorem advanceList_kept {qq : List Instr × Nat} (s : State) (d : Nat) (l : RowList) (hK : Kept qq s) : Kept qq (advanceList s d l) := by
  unfold advanceList; try dsimp only
  repeat' (first | with_reducible exact hK | with_reducible assumption | with_reducible apply State_modDrover_kept | intro _ _ _ | intro _ _ | fail_if_no_progress (with_reducible apply kept_upd; on_goal 2 => exact ⟨rfl, rfl⟩) | split | rfl)
theorem endCommand_kept {qq : List Instr × Nat} (s : State) (d : Nat) (normal : Bool) (hK : Kept qq s) : Kept qq (endCommand s d normal) := by
  unfold endCommand; try dsimp only
  repeat' (first | with_reducible exact hK | with_reducible assumption | with_reducible apply State_modDrover_kept | with_reducible apply loseCmd_kept | with_reducible apply stopRun_kept | with_reducible apply advanceList_kept | intro _ _ _ | intro _ _ | fail_if_no_progress (with_reducible apply kept_upd; on_goal 2 => exact ⟨rfl, rfl⟩) | split | rfl)
theorem abandonRestart_kept {qq : List Instr × Nat} (s : State) (d : Nat) (hK : Kept qq s) : Kept qq (abandonRestart s d) := by
  unfold abandonRestart; try dsimp only
  repeat' (first | with_reducible exact hK | with_reducible assumption | with_reducible apply State_modDrover_kept | with_reducible apply raiseFault_kept | with_reducible apply drvTally_kept | with_reducible apply drvStatus_kept | with_reducible apply stopRun_kept | with_reducible apply endCommand_kept | intro _ _ _ | intro _ _ | fail_if_no_progress (with_reducible apply kept_upd; on_goal 2 => exact ⟨rfl, rfl⟩) | split | rfl)
theorem seqError_kept {qq : List Instr × Nat} (s : State) (d : Nat) (hK : Kept qq s) : Kept qq (seqError s d) := by
  unfold seqError; try dsimp only
  repeat' (first | with_reducible exact hK | with_reducible assumption | with_reducible apply drvStatus_kept | with_reducible apply endCommand_kept | intro _ _ _ | intro _ _ | fail_if_no_progress (with_reducible apply kept_upd; on_goal 2 => exact ⟨rfl, rfl⟩) | split | rfl)
theorem stepLimit_kept {qq : List Instr × Nat} (s : State) (d : Nat) (hK : Kept qq s) : Kept qq (stepLimit s d) := by
  unfold stepLimit; try dsimp only
  repeat' (first | with_reducible exact hK | with_reducible assumption | with_reducible apply raiseFault_kept | with_reducible apply drvStatus_kept | with_reducible apply endCommand_kept | intro _ _ _ | intro _ _ | fail_if_no_progress (with_reducible apply kept_upd; on_goal 2 => exact ⟨rfl, rfl⟩) | split | rfl)
theorem overDeclared_kept {qq : List Instr × Nat} (s : State) (d : Nat) (hK : Kept qq s) : Kept qq (overDeclared s d) := by
  unfold overDeclared; try dsimp only
  repeat' (first | with_reducible exact hK | with_reducible assumption | with_reducible apply drvStatus_kept | with_reducible apply endCommand_kept | intro _ _ _ | intro _ _ | fail_if_no_progress (with_reducible apply kept_upd; on_goal 2 => exact ⟨rfl, rfl⟩) | split | rfl)
theorem poisoned_kept {qq : List Instr × Nat} (s : State) (d : Nat) (stripe : Option (Nat × Nat)) (hK : Kept qq s) : Kept qq (poisoned s d stripe) := by
  unfold poisoned; try dsimp only
  repeat' (first | with_reducible exact hK | with_reducible assumption | with_reducible apply State_modContract_kept | with_reducible apply State_modRing_kept | with_reducible apply drvTally_kept | with_reducible apply drvStatus_kept | with_reducible apply loseRange_kept | with_reducible apply endCommand_kept | intro _ _ _ | intro _ _ | fail_if_no_progress (with_reducible apply kept_upd; on_goal 2 => exact ⟨rfl, rfl⟩) | split | rfl)
theorem appendFrame_kept {qq : List Instr × Nat} (s : State) (d : Nat) (bs : List Byte) (hK : Kept qq s) : Kept qq (appendFrame s d bs) := ⟨hK.1, hK.2⟩
theorem openFrame_kept {qq : List Instr × Nat} (s : State) (d : Nat) (hK : Kept qq s) : Kept qq (openFrame s d) := ⟨hK.1, hK.2⟩
theorem releaseMoved_kept {qq : List Instr × Nat} (l : RowList) (m : ListCmd) (d : Nat) (s : State) (k : Nat × Nat) (hK : Kept qq s) : Kept qq (releaseMoved l m d s k) := by
  unfold releaseMoved; try dsimp only
  repeat' (first | with_reducible exact hK | with_reducible assumption | with_reducible apply State_modRing_kept | intro _ _ _ | intro _ _ | fail_if_no_progress (with_reducible apply kept_upd; on_goal 2 => exact ⟨rfl, rfl⟩) | split | rfl)
theorem commitFrame_kept {qq : List Instr × Nat} (s : State) (d : Nat) (l : RowList) (m : ListCmd) (hK : Kept qq s) : Kept qq (commitFrame s d l m) := by
  unfold commitFrame; try dsimp only
  repeat' (first | with_reducible exact hK | with_reducible assumption | with_reducible apply State_modDrover_kept | with_reducible apply State_modPort_kept | with_reducible apply putClass0_kept | with_reducible apply drvTally_kept | with_reducible apply releaseMoved_kept | with_reducible apply foldl_kept | intro _ _ _ | intro _ _ | fail_if_no_progress (with_reducible apply kept_upd; on_goal 2 => exact ⟨rfl, rfl⟩) | split | rfl)
theorem startRoutine_kept {qq : List Instr × Nat} (s : State) (d : Nat) (l : RowList) (m : ListCmd) (hK : Kept qq s) : Kept qq (startRoutine s d l m) := ⟨hK.1, hK.2⟩
theorem skipCommand_kept {qq : List Instr × Nat} (s : State) (d : Nat) (l : RowList) (m : ListCmd) (hK : Kept qq s) : Kept qq (skipCommand s d l m) := by
  unfold skipCommand; try dsimp only
  repeat' (first | with_reducible exact hK | with_reducible assumption | with_reducible apply State_modDrover_kept | with_reducible apply drvTally_kept | with_reducible apply drvStatus_kept | with_reducible apply loseCmd_kept | with_reducible apply advanceList_kept | intro _ _ _ | intro _ _ | fail_if_no_progress (with_reducible apply kept_upd; on_goal 2 => exact ⟨rfl, rfl⟩) | split | rfl)
theorem dispatch_kept {qq : List Instr × Nat} (s : State) (d : Nat) (hK : Kept qq s) : Kept qq (dispatch s d) := by
  unfold dispatch; try dsimp only
  repeat' (first | with_reducible exact hK | with_reducible assumption | with_reducible apply advanceList_kept | with_reducible apply startRoutine_kept | with_reducible apply skipCommand_kept | intro _ _ _ | intro _ _ | fail_if_no_progress (with_reducible apply kept_upd; on_goal 2 => exact ⟨rfl, rfl⟩) | split | rfl)
theorem stripeOverrun_kept {qq : List Instr × Nat} (s : State) (d : Nat) (l : RowList) (hK : Kept qq s) : Kept qq (stripeOverrun s d l) := by
  unfold stripeOverrun; try dsimp only
  repeat' (first | with_reducible exact hK | with_reducible assumption | with_reducible apply State_modDrover_kept | with_reducible apply tallyAdd_kept | with_reducible apply raiseFault_kept | with_reducible apply overrun_kept | with_reducible apply drvStatus_kept | intro _ _ _ | intro _ _ | fail_if_no_progress (with_reducible apply kept_upd; on_goal 2 => exact ⟨rfl, rfl⟩) | split | rfl)
theorem stall_kept {qq : List Instr × Nat} (s : State) (d : Nat) (hK : Kept qq s) : Kept qq (stall s d) := ⟨hK.1, hK.2⟩
theorem mapListStart_kept {qq : List Instr × Nat} (s : State) (d c n row : Nat) (hK : Kept qq s) : Kept qq (mapListStart s d c n row) := by
  unfold mapListStart; try dsimp only
  repeat' (first | with_reducible exact hK | with_reducible assumption | with_reducible apply State_modDrover_kept | with_reducible apply skipRest_kept | with_reducible apply abandonRestart_kept | intro _ _ _ | intro _ _ | fail_if_no_progress (with_reducible apply kept_upd; on_goal 2 => exact ⟨rfl, rfl⟩) | split | rfl)
theorem guardDrover_kept {qq : List Instr × Nat} (s : State) (d c n : Nat) (hK : Kept qq s) : Kept qq (guardDrover s d c n) := by
  unfold guardDrover; try dsimp only
  repeat' (first | with_reducible exact hK | with_reducible assumption | with_reducible apply State_modDrover_kept | with_reducible apply skipLists_kept | with_reducible apply stopRun_kept | intro _ _ _ | intro _ _ | fail_if_no_progress (with_reducible apply kept_upd; on_goal 2 => exact ⟨rfl, rfl⟩) | split | rfl)
theorem guardRing_kept {qq : List Instr × Nat} (s : State) (p c n : Nat) (hK : Kept qq s) : Kept qq (guardRing s p c n) := ⟨hK.1, hK.2⟩
theorem forgetFrame_kept {qq : List Instr × Nat} (s : State) (d n : Nat) (slots : List Nat) (hK : Kept qq s) : Kept qq (forgetFrame s d n slots) := ⟨hK.1, hK.2⟩
theorem skipAll_kept {qq : List Instr × Nat} (s : State) (d : Nat) (hK : Kept qq s) : Kept qq (skipAll s d) := by
  unfold skipAll; try dsimp only
  repeat' (first | with_reducible exact hK | with_reducible assumption | with_reducible apply skipLists_kept | with_reducible apply stopRun_kept | intro _ _ _ | intro _ _ | fail_if_no_progress (with_reducible apply kept_upd; on_goal 2 => exact ⟨rfl, rfl⟩) | split | rfl)
theorem haltDrover_kept {qq : List Instr × Nat} (s : State) (d : Nat) (hK : Kept qq s) : Kept qq (haltDrover s d) := by
  unfold haltDrover; try dsimp only
  repeat' (first | with_reducible exact hK | with_reducible assumption | with_reducible apply State_modDrover_kept | with_reducible apply pendSrc_kept | with_reducible apply raiseFault_kept | with_reducible apply drvStatus_kept | with_reducible apply skipAll_kept | intro _ _ _ | intro _ _ | fail_if_no_progress (with_reducible apply kept_upd; on_goal 2 => exact ⟨rfl, rfl⟩) | split | rfl)
theorem csCorrected_kept {qq : List Instr × Nat} (s : State) (d : Nat) (hK : Kept qq s) : Kept qq (csCorrected s d) := by
  unfold csCorrected; try dsimp only
  repeat' (first | with_reducible exact hK | with_reducible assumption | with_reducible apply State_modDrover_kept | with_reducible apply drvStatus_kept | with_reducible apply abandonRestart_kept | intro _ _ _ | intro _ _ | fail_if_no_progress (with_reducible apply kept_upd; on_goal 2 => exact ⟨rfl, rfl⟩) | split | rfl)
theorem emptyFifo_kept {qq : List Instr × Nat} (s : State) (p : Nat) (hK : Kept qq s) : Kept qq (emptyFifo s p) := by
  unfold emptyFifo; try dsimp only
  repeat' (first | with_reducible exact hK | with_reducible assumption | with_reducible apply State_modPort_kept | with_reducible apply markLost_kept | with_reducible apply foldl_kept | intro _ _ _ | intro _ _ | fail_if_no_progress (with_reducible apply kept_upd; on_goal 2 => exact ⟨rfl, rfl⟩) | split | rfl)
theorem asmReset_kept {qq : List Instr × Nat} (s : State) (p : Nat) (hK : Kept qq s) : Kept qq (asmReset s p) := by
  unfold asmReset; try dsimp only
  repeat' (first | with_reducible exact hK | with_reducible assumption | with_reducible apply State_modDrover_kept | with_reducible apply setStatus_kept | with_reducible apply tallyAdd_kept | with_reducible apply raiseFault_kept | with_reducible apply portKick_kept | with_reducible apply skipAll_kept | with_reducible apply emptyFifo_kept | intro _ _ _ | intro _ _ | fail_if_no_progress (with_reducible apply kept_upd; on_goal 2 => exact ⟨rfl, rfl⟩) | split | rfl)
theorem applySettings_kept {qq : List Instr × Nat} (s : State) (x : Settings) (hK : Kept qq s) : Kept qq (applySettings s x) := ⟨hK.1, hK.2⟩
theorem startStore_kept {qq : List Instr × Nat} (s : State) (ref : CmdRef) (hK : Kept qq s) : Kept qq (startStore s ref) := by
  unfold startStore; try dsimp only
  repeat' (first | with_reducible exact hK | with_reducible assumption | with_reducible apply State_modNvm_kept | with_reducible apply devEvent_kept | intro _ _ _ | intro _ _ | fail_if_no_progress (with_reducible apply kept_upd; on_goal 2 => exact ⟨rfl, rfl⟩) | split | rfl)
theorem startStage_kept {qq : List Instr × Nat} (s : State) (ref : CmdRef) (rel : Option Nat) (hK : Kept qq s) : Kept qq (startStage s ref rel) := by
  unfold startStage; try dsimp only
  repeat' (first | with_reducible exact hK | with_reducible assumption | with_reducible apply State_modNvm_kept | with_reducible apply completeWith_kept | intro _ _ _ | intro _ _ | fail_if_no_progress (with_reducible apply kept_upd; on_goal 2 => exact ⟨rfl, rfl⟩) | split | rfl)
theorem startNvm_kept {qq : List Instr × Nat} (s : State) (j : NvmJob) (hK : Kept qq s) : Kept qq (startNvm s j) := by
  unfold startNvm; try dsimp only
  repeat' (first | with_reducible exact hK | with_reducible assumption | with_reducible apply startStore_kept | with_reducible apply startStage_kept | intro _ _ _ | intro _ _ | fail_if_no_progress (with_reducible apply kept_upd; on_goal 2 => exact ⟨rfl, rfl⟩) | split | rfl)
theorem runNvm_kept {qq : List Instr × Nat} : ∀ (js : List NvmJob) (s : State), Kept qq s → Kept qq (runNvm js s)
  | [], s, hK => ⟨hK.1, hK.2⟩
  | j :: js, s, hK => by
    unfold runNvm
    split
    · exact ⟨hK.1, hK.2⟩
    · exact runNvm_kept js _ (startNvm_kept _ _ hK)
theorem offerNvm_kept {qq : List Instr × Nat} (s : State) (j : NvmJob) (hK : Kept qq s) : Kept qq (offerNvm s j) := by
  unfold offerNvm; try dsimp only
  repeat' (first | with_reducible exact hK | with_reducible assumption | with_reducible apply State_modNvm_kept | with_reducible apply startNvm_kept | intro _ _ _ | intro _ _ | fail_if_no_progress (with_reducible apply kept_upd; on_goal 2 => exact ⟨rfl, rfl⟩) | split | rfl)
theorem endNvm_kept {qq : List Instr × Nat} (s : State) (hK : Kept qq s) : Kept qq (endNvm s) := by
  unfold endNvm; try dsimp only
  repeat' (first | with_reducible exact hK | with_reducible assumption | with_reducible apply State_modNvm_kept | with_reducible apply devEvent_kept | with_reducible apply runNvm_kept | intro _ _ _ | intro _ _ | fail_if_no_progress (with_reducible apply kept_upd; on_goal 2 => exact ⟨rfl, rfl⟩) | split | rfl)
theorem storeEnd_kept {qq : List Instr × Nat} (s : State) (ref : CmdRef) (x : Settings) (ok : Bool) (hK : Kept qq s) : Kept qq (storeEnd s ref x ok) := by
  unfold storeEnd; try dsimp only
  repeat' (first | with_reducible exact hK | with_reducible assumption | with_reducible apply State_modNvm_kept | with_reducible apply pendSrc_kept | with_reducible apply setStatus_kept | with_reducible apply complete_kept | with_reducible apply completeWith_kept | with_reducible apply endNvm_kept | intro _ _ _ | intro _ _ | fail_if_no_progress (with_reducible apply kept_upd; on_goal 2 => exact ⟨rfl, rfl⟩) | split | rfl)
theorem storeDone_kept {qq : List Instr × Nat} (s : State) (ok : Bool) (hK : Kept qq s) : Kept qq (storeDone s ok) := by
  unfold storeDone; try dsimp only
  repeat' (first | with_reducible exact hK | with_reducible assumption | with_reducible apply storeEnd_kept | intro _ _ _ | intro _ _ | fail_if_no_progress (with_reducible apply kept_upd; on_goal 2 => exact ⟨rfl, rfl⟩) | split | rfl)
theorem stageEnd_kept {qq : List Instr × Nat} (s : State) (ref : CmdRef) (rel : Nat) (ok : Bool) (hK : Kept qq s) : Kept qq (stageEnd s ref rel ok) := by
  unfold stageEnd; try dsimp only
  repeat' (first | with_reducible exact hK | with_reducible assumption | with_reducible apply State_modNvm_kept | with_reducible apply setStatus_kept | with_reducible apply completeWith_kept | with_reducible apply endNvm_kept | intro _ _ _ | intro _ _ | fail_if_no_progress (with_reducible apply kept_upd; on_goal 2 => exact ⟨rfl, rfl⟩) | split | rfl)
theorem stageDone_kept {qq : List Instr × Nat} (s : State) (ok : Bool) (hK : Kept qq s) : Kept qq (stageDone s ok) := by
  unfold stageDone; try dsimp only
  repeat' (first | with_reducible exact hK | with_reducible assumption | with_reducible apply stageEnd_kept | intro _ _ _ | intro _ _ | fail_if_no_progress (with_reducible apply kept_upd; on_goal 2 => exact ⟨rfl, rfl⟩) | split | rfl)
theorem applyPixelTrims_kept {qq : List Instr × Nat} (s : State) (hK : Kept qq s) : Kept qq (applyPixelTrims s) := by
  unfold applyPixelTrims; try dsimp only
  repeat' (first | with_reducible exact hK | with_reducible assumption | with_reducible apply State_modNvm_kept | with_reducible apply foldl_kept | intro _ _ _ | intro _ _ | fail_if_no_progress (with_reducible apply kept_upd; on_goal 2 => exact ⟨rfl, rfl⟩) | split | rfl)
theorem stageTrims_kept {qq : List Instr × Nat} (s : State) (is : List Nat) (hK : Kept qq s) : Kept qq (stageTrims s is) := by
  unfold stageTrims; try dsimp only
  repeat' (first | with_reducible exact hK | with_reducible assumption | with_reducible apply State_modNvm_kept | with_reducible apply applyPixelTrims_kept | with_reducible apply foldl_kept | intro _ _ _ | intro _ _ | fail_if_no_progress (with_reducible apply kept_upd; on_goal 2 => exact ⟨rfl, rfl⟩) | split | rfl)
theorem trimStep_kept {qq : List Instr × Nat} (s : State) (i : Nat) (hK : Kept qq s) : Kept qq (trimStep s i) := by
  unfold trimStep; try dsimp only
  repeat' (first | with_reducible exact hK | with_reducible assumption | with_reducible apply State_modNvm_kept | intro _ _ _ | intro _ _ | fail_if_no_progress (with_reducible apply kept_upd; on_goal 2 => exact ⟨rfl, rfl⟩) | split | rfl)
theorem applyLayout_kept {qq : List Instr × Nat} (s : State) (n : Nat) (layers : List Layer) (sources : List Source) (background : List Nat) (hK : Kept qq s) : Kept qq (applyLayout s n layers sources background) := ⟨hK.1, hK.2⟩
theorem applyMap_kept {qq : List Instr × Nat} (s : State) (n : Nat) (img : MapImage) (hK : Kept qq s) : Kept qq (applyMap s n img) := by
  unfold applyMap; try dsimp only
  repeat' (first | with_reducible exact hK | with_reducible assumption | with_reducible apply State_modContract_kept | with_reducible apply unplace_kept | with_reducible apply abandonRestart_kept | with_reducible apply foldl_kept | intro _ _ _ | intro _ _ | fail_if_no_progress (with_reducible apply kept_upd; on_goal 2 => exact ⟨rfl, rfl⟩) | split | rfl)
theorem applyChange_kept {qq : List Instr × Nat} (n : Nat) (s : State) (d : Deferred) (hK : Kept qq s) : Kept qq (applyChange n s d) := by
  unfold applyChange; try dsimp only
  repeat' (first | with_reducible exact hK | with_reducible assumption | with_reducible apply modCoef_kept | with_reducible apply modDrift_kept | with_reducible apply modCurve_kept | with_reducible apply applyLayout_kept | with_reducible apply applyMap_kept | intro _ _ _ | intro _ _ | fail_if_no_progress (with_reducible apply kept_upd; on_goal 2 => exact ⟨rfl, rfl⟩) | split | rfl)
theorem applyDeferred_kept {qq : List Instr × Nat} (s : State) (n f : Nat) (hK : Kept qq s) : Kept qq (applyDeferred s n f) := by
  unfold applyDeferred; try dsimp only
  repeat' (first | with_reducible exact hK | with_reducible assumption | with_reducible apply State_modContract_kept | with_reducible apply applyChange_kept | with_reducible apply foldl_kept | intro _ _ _ | intro _ _ | fail_if_no_progress (with_reducible apply kept_upd; on_goal 2 => exact ⟨rfl, rfl⟩) | split | rfl)
theorem updateDrift_kept {qq : List Instr × Nat} (n : Nat) (s : State) (ep : Endpoint) (hK : Kept qq s) : Kept qq (updateDrift n s ep) := by
  unfold updateDrift; try dsimp only
  repeat' (first | with_reducible exact hK | with_reducible assumption | with_reducible apply setStatus_kept | intro _ _ _ | intro _ _ | fail_if_no_progress (with_reducible apply kept_upd; on_goal 2 => exact ⟨rfl, rfl⟩) | split | rfl)
theorem boundary_kept {qq : List Instr × Nat} (s : State) (n f : Nat) (hK : Kept qq s) : Kept qq (boundary s n f) := by
  unfold boundary; try dsimp only
  repeat' (first | with_reducible exact hK | with_reducible assumption | with_reducible apply State_modContract_kept | with_reducible apply applyPixelTrims_kept | with_reducible apply applyDeferred_kept | with_reducible apply updateDrift_kept | with_reducible apply foldl_kept | intro _ _ _ | intro _ _ | fail_if_no_progress (with_reducible apply kept_upd; on_goal 2 => exact ⟨rfl, rfl⟩) | split | rfl)
theorem cfgReject_kept {qq : List Instr × Nat} (s : State) (hK : Kept qq s) : Kept qq (cfgReject s) := by
  unfold cfgReject; try dsimp only
  repeat' (first | with_reducible exact hK | with_reducible assumption | with_reducible apply setStatus_kept | intro _ _ _ | intro _ _ | fail_if_no_progress (with_reducible apply kept_upd; on_goal 2 => exact ⟨rfl, rfl⟩) | split | rfl)
theorem forgetReads_kept {qq : List Instr × Nat} (s : State) (r : Nat) (hK : Kept qq s) : Kept qq (forgetReads s r) := ⟨hK.1, hK.2⟩
theorem sqCfgOp_kept {qq : List Instr × Nat} (s : State) (r : Nat) (v : Word) (hK : Kept qq s) : Kept qq (sqCfgOp s r v) := by
  unfold sqCfgOp; try dsimp only
  repeat' (first | with_reducible exact hK | with_reducible assumption | with_reducible apply cfgReject_kept | with_reducible apply forgetReads_kept | with_reducible apply modSq_kept | intro _ _ _ | intro _ _ | fail_if_no_progress (with_reducible apply kept_upd; on_goal 2 => exact ⟨rfl, rfl⟩) | split | rfl)
theorem cqCfgOp_kept {qq : List Instr × Nat} (s : State) (r : Nat) (v : Word) (hK : Kept qq s) : Kept qq (cqCfgOp s r v) := by
  unfold cqCfgOp; try dsimp only
  repeat' (first | with_reducible exact hK | with_reducible assumption | with_reducible apply State_modCq_kept | with_reducible apply levelSample_kept | with_reducible apply cfgReject_kept | intro _ _ _ | intro _ _ | fail_if_no_progress (with_reducible apply kept_upd; on_goal 2 => exact ⟨rfl, rfl⟩) | split | rfl)
theorem cqCoalOp_kept {qq : List Instr × Nat} (s : State) (r : Nat) (v : Word) (hK : Kept qq s) : Kept qq (cqCoalOp s r v) := by
  unfold cqCoalOp; try dsimp only
  repeat' (first | with_reducible exact hK | with_reducible assumption | with_reducible apply State_modCq_kept | with_reducible apply levelSample_kept | intro _ _ _ | intro _ _ | fail_if_no_progress (with_reducible apply kept_upd; on_goal 2 => exact ⟨rfl, rfl⟩) | split | rfl)
theorem dbDisabled_kept {qq : List Instr × Nat} (s : State) (hK : Kept qq s) : Kept qq (dbDisabled s) := by
  unfold dbDisabled; try dsimp only
  repeat' (first | with_reducible exact hK | with_reducible assumption | with_reducible apply setStatus_kept | intro _ _ _ | intro _ _ | fail_if_no_progress (with_reducible apply kept_upd; on_goal 2 => exact ⟨rfl, rfl⟩) | split | rfl)
theorem dbRegress_kept {qq : List Instr × Nat} (s : State) (hK : Kept qq s) : Kept qq (dbRegress s) := by
  unfold dbRegress; try dsimp only
  repeat' (first | with_reducible exact hK | with_reducible assumption | with_reducible apply setStatus_kept | intro _ _ _ | intro _ _ | fail_if_no_progress (with_reducible apply kept_upd; on_goal 2 => exact ⟨rfl, rfl⟩) | split | rfl)
theorem sqTailOp_kept {qq : List Instr × Nat} (s : State) (r : Nat) (v : Word) (hK : Kept qq s) : Kept qq (sqTailOp s r v) := by
  unfold sqTailOp; try dsimp only
  repeat' (first | with_reducible exact hK | with_reducible assumption | with_reducible apply dbDisabled_kept | with_reducible apply dbRegress_kept | with_reducible apply modSq_kept | intro _ _ _ | intro _ _ | fail_if_no_progress (with_reducible apply kept_upd; on_goal 2 => exact ⟨rfl, rfl⟩) | split | rfl)
theorem tlmFreed_kept {qq : List Instr × Nat} (s : State) (r h : Nat) (hK : Kept qq s) : Kept qq (tlmFreed s r h) := by
  unfold tlmFreed; try dsimp only
  repeat' (first | with_reducible exact hK | with_reducible assumption | with_reducible apply State_modRings_kept | intro _ _ _ | intro _ _ | fail_if_no_progress (with_reducible apply kept_upd; on_goal 2 => exact ⟨rfl, rfl⟩) | split | rfl)
theorem prxFreed_kept {qq : List Instr × Nat} (s : State) (r h : Nat) (hK : Kept qq s) : Kept qq (prxFreed s r h) := by
  unfold prxFreed; try dsimp only
  repeat' (first | with_reducible exact hK | with_reducible assumption | intro _ _ _ | intro _ _ | fail_if_no_progress (with_reducible apply kept_upd; on_goal 2 => exact ⟨rfl, rfl⟩) | split | rfl)
theorem cqHeadOp_kept {qq : List Instr × Nat} (s : State) (r : Nat) (v : Word) (hK : Kept qq s) : Kept qq (cqHeadOp s r v) := by
  unfold cqHeadOp; try dsimp only
  repeat' (first | with_reducible exact hK | with_reducible assumption | with_reducible apply State_modCq_kept | with_reducible apply dbDisabled_kept | with_reducible apply dbRegress_kept | with_reducible apply tlmFreed_kept | with_reducible apply prxFreed_kept | intro _ _ _ | intro _ _ | fail_if_no_progress (with_reducible apply kept_upd; on_goal 2 => exact ⟨rfl, rfl⟩) | split | rfl)
theorem issueRead_kept {qq : List Instr × Nat} (s : State) (tag : Nat) (who : ReadFor) (a n : Nat) (hK : Kept qq s) : Kept qq (issueRead s tag who a n) := by
  unfold issueRead; try dsimp only
  repeat' (first | with_reducible exact hK | with_reducible assumption | with_reducible apply State_modLink_kept | intro _ _ _ | intro _ _ | fail_if_no_progress (with_reducible apply kept_upd; on_goal 2 => exact ⟨rfl, rfl⟩) | split | rfl)
theorem issueTurn_kept {qq : List Instr × Nat} (s : State) (r cyc tag n : Nat) (hK : Kept qq s) : Kept qq (issueTurn s r cyc tag n) := ⟨hK.1, hK.2⟩
theorem fetchTurn_kept {qq : List Instr × Nat} (s : State) (hK : Kept qq s) : Kept qq (fetchTurn s) := by
  unfold fetchTurn; try dsimp only
  repeat' (first | with_reducible exact hK | with_reducible assumption | with_reducible apply setStatus_kept | with_reducible apply issueTurn_kept | intro _ _ _ | intro _ _ | fail_if_no_progress (with_reducible apply kept_upd; on_goal 2 => exact ⟨rfl, rfl⟩) | split | rfl)
theorem takeDescs_kept {qq : List Instr × Nat} : ∀ (n r : Nat) (bs : List Byte) (s : State), Kept qq s → Kept qq (takeDescs n r bs s)
  | 0, r, bs, s, hK => hK
  | n + 1, r, bs, s, hK => by
    unfold takeDescs
    dsimp only
    split
    · exact holdSubmit_kept _ _ _ (modSq_kept _ _ _ hK)
    · split
      · exact modSq_kept _ _ _ ⟨hK.1, hK.2⟩
      · exact takeDescs_kept n r _ _ ⟨hK.1, hK.2⟩
theorem fetchFailed_kept {qq : List Instr × Nat} (s : State) (r first status : Nat) (hK : Kept qq s) : Kept qq (fetchFailed s r first status) := by
  unfold fetchFailed; try dsimp only
  repeat' (first | with_reducible exact hK | with_reducible assumption | with_reducible apply setStatus_kept | with_reducible apply offerCpl_kept | with_reducible apply modSq_kept | intro _ _ _ | intro _ _ | fail_if_no_progress (with_reducible apply kept_upd; on_goal 2 => exact ⟨rfl, rfl⟩) | split | rfl)
theorem releaseHold_kept {qq : List Instr × Nat} (s : State) (r : Nat) (hK : Kept qq s) : Kept qq (releaseHold s r) := by
  unfold releaseHold; try dsimp only
  repeat' (first | with_reducible exact hK | with_reducible assumption | with_reducible apply State_modRings_kept | with_reducible apply modSq_kept | intro _ _ _ | intro _ _ | fail_if_no_progress (with_reducible apply kept_upd; on_goal 2 => exact ⟨rfl, rfl⟩) | split | rfl)
theorem releaseFence_kept {qq : List Instr × Nat} (s : State) (r : Nat) (hK : Kept qq s) : Kept qq (releaseFence s r) := by
  unfold releaseFence; try dsimp only
  repeat' (first | with_reducible exact hK | with_reducible assumption | with_reducible apply State_modRings_kept | with_reducible apply modSq_kept | intro _ _ _ | intro _ _ | fail_if_no_progress (with_reducible apply kept_upd; on_goal 2 => exact ⟨rfl, rfl⟩) | split | rfl)
theorem drainRing_kept {qq : List Instr × Nat} : ∀ (cs : List Completion) (r : Nat) (s : State), Kept qq s → Kept qq (drainRing cs r s)
  | [], r, s, hK => hK
  | c :: cs, r, s, hK => by
    unfold drainRing
    split
    · split
      · exact drainRing_kept cs r _ (writeCpl_kept _ _ ⟨hK.1, hK.2⟩)
      · exact hK
    · exact drainRing_kept cs r s hK
theorem waitEnd_kept {qq : List Instr × Nat} (s : State) (r : Nat) (hK : Kept qq s) : Kept qq (waitEnd s r) := by
  unfold waitEnd; try dsimp only
  repeat' (first | with_reducible exact hK | with_reducible assumption | with_reducible apply State_modCq_kept | with_reducible apply drainRing_kept | intro _ _ _ | intro _ _ | fail_if_no_progress (with_reducible apply kept_upd; on_goal 2 => exact ⟨rfl, rfl⟩) | split | rfl)
theorem dmaFail_kept {qq : List Instr × Nat} (s : State) (ref : CmdRef) (status : Nat) (hK : Kept qq s) : Kept qq (dmaFail s ref status) := by
  unfold dmaFail; try dsimp only
  repeat' (first | with_reducible exact hK | with_reducible assumption | with_reducible apply setStatus_kept | with_reducible apply completeWith_kept | intro _ _ _ | intro _ _ | fail_if_no_progress (with_reducible apply kept_upd; on_goal 2 => exact ⟨rfl, rfl⟩) | split | rfl)
theorem setChan_kept {qq : List Instr × Nat} (s : State) (n : Nat) (c : Option Chan) (hK : Kept qq s) : Kept qq (setChan s n c) := by
  unfold setChan; try dsimp only
  repeat' (first | with_reducible exact hK | with_reducible assumption | with_reducible apply State_modDma_kept | intro _ _ _ | intro _ _ | fail_if_no_progress (with_reducible apply kept_upd; on_goal 2 => exact ⟨rfl, rfl⟩) | split | rfl)
theorem setXfer_kept {qq : List Instr × Nat} (s : State) (k : Nat) (x : Option Xfer) (hK : Kept qq s) : Kept qq (setXfer s k x) := by
  unfold setXfer; try dsimp only
  repeat' (first | with_reducible exact hK | with_reducible assumption | with_reducible apply State_modDma_kept | intro _ _ _ | intro _ _ | fail_if_no_progress (with_reducible apply kept_upd; on_goal 2 => exact ⟨rfl, rfl⟩) | split | rfl)
theorem loadChannel_kept {qq : List Instr × Nat} (s : State) (n : Nat) (p : Piece) (hK : Kept qq s) : Kept qq (loadChannel s n p) := ⟨hK.1, hK.2⟩
theorem pumpNext_kept {qq : List Instr × Nat} (n : Nat) (s t : State) (h : pumpNext n s = some t) (hK : Kept qq s) : Kept qq t := by
  unfold pumpNext at h
  repeat' (first | contradiction | split at h)
  all_goals (cases h; exact issueRead_kept _ _ _ _ _ (setChan_kept _ _ _ hK))
theorem pumpChannel_kept {qq : List Instr × Nat} : ∀ (f n : Nat) (s : State), Kept qq s → Kept qq (pumpChannel f n s)
  | 0, n, s, hK => hK
  | f + 1, n, s, hK => by
    unfold pumpChannel
    split
    · exact hK
    · exact pumpChannel_kept f n _ (pumpNext_kept n s _ ‹_› hK)
theorem flushNext_kept {qq : List Instr × Nat} (n : Nat) (s t : State) (h : flushNext n s = some t) (hK : Kept qq s) : Kept qq t := by
  unfold flushNext at h
  repeat' (first | contradiction | split at h)
  all_goals (cases h; exact issueRead_kept _ _ _ _ _ (setXfer_kept _ _ _ hK))
theorem pumpFlush_kept {qq : List Instr × Nat} : ∀ (f n : Nat) (s : State), Kept qq s → Kept qq (pumpFlush f n s)
  | 0, n, s, hK => hK
  | f + 1, n, s, hK => by
    unfold pumpFlush
    split
    · exact hK
    · exact pumpFlush_kept f n _ (flushNext_kept n s _ ‹_› hK)
theorem pump_kept {qq : List Instr × Nat} (s : State) (hK : Kept qq s) : Kept qq (pump s) := by
  unfold pump; try dsimp only
  repeat' (first | with_reducible exact hK | with_reducible assumption | with_reducible apply pumpChannel_kept | with_reducible apply pumpFlush_kept | with_reducible apply foldl_kept | intro _ _ _ | intro _ _ | fail_if_no_progress (with_reducible apply kept_upd; on_goal 2 => exact ⟨rfl, rfl⟩) | split | rfl)
theorem pieceFailed_kept {qq : List Instr × Nat} (s : State) (k : Nat) (status : Nat) (hK : Kept qq s) : Kept qq (pieceFailed s k status) := by
  unfold pieceFailed; try dsimp only
  repeat' (first | with_reducible exact hK | with_reducible assumption | with_reducible apply State_modDma_kept | with_reducible apply dmaFail_kept | intro _ _ _ | intro _ _ | fail_if_no_progress (with_reducible apply kept_upd; on_goal 2 => exact ⟨rfl, rfl⟩) | split | rfl)
theorem failUnlinked_kept {qq : List Instr × Nat} (s : State) (hK : Kept qq s) : Kept qq (failUnlinked s) := by
  unfold failUnlinked; try dsimp only
  repeat' (first | with_reducible exact hK | with_reducible assumption | with_reducible apply pieceFailed_kept | with_reducible apply foldl_kept | intro _ _ _ | intro _ _ | fail_if_no_progress (with_reducible apply kept_upd; on_goal 2 => exact ⟨rfl, rfl⟩) | split | rfl)
theorem dealPieces_kept {qq : List Instr × Nat} (s : State) (hK : Kept qq s) : Kept qq (dealPieces s) := by
  unfold dealPieces; try dsimp only
  repeat' (first | with_reducible exact hK | with_reducible assumption | with_reducible apply loadChannel_kept | with_reducible apply pump_kept | with_reducible apply failUnlinked_kept | with_reducible apply foldl_kept | intro _ _ _ | intro _ _ | fail_if_no_progress (with_reducible apply kept_upd; on_goal 2 => exact ⟨rfl, rfl⟩) | split | rfl)
theorem startXfer_kept {qq : List Instr × Nat} (s : State) (ref : CmdRef) (d : Desc) (src dst : List (Nat × Nat)) (hK : Kept qq s) : Kept qq (startXfer s ref d src dst) := by
  unfold startXfer; try dsimp only
  repeat' (first | with_reducible exact hK | with_reducible assumption | with_reducible apply State_modDma_kept | with_reducible apply dealPieces_kept | intro _ _ _ | intro _ _ | fail_if_no_progress (with_reducible apply kept_upd; on_goal 2 => exact ⟨rfl, rfl⟩) | split | rfl)
theorem dmaRanges_kept {qq : List Instr × Nat} (ref : CmdRef) (d : Desc) (src dst : List (Nat × Nat)) (s : State) (hK : Kept qq s) : Kept qq (dmaRanges ref d src dst s) := by
  unfold dmaRanges; try dsimp only
  repeat' (first | with_reducible exact hK | with_reducible assumption | with_reducible apply setStatus_kept | with_reducible apply completeWith_kept | with_reducible apply check_kept | with_reducible apply startXfer_kept | intro _ _ _ | intro _ _ | fail_if_no_progress (with_reducible apply kept_upd; on_goal 2 => exact ⟨rfl, rfl⟩) | split | rfl)
theorem dmaRun_kept {qq : List Instr × Nat} (ref : CmdRef) (d : Desc) (srcList dstList : HostData) (s : State) (hK : Kept qq s) : Kept qq (dmaRun ref d srcList dstList s) := by
  unfold dmaRun; try dsimp only
  repeat' (first | with_reducible exact hK | with_reducible assumption | with_reducible apply dmaFail_kept | with_reducible apply dmaRanges_kept | intro _ _ _ | intro _ _ | fail_if_no_progress (with_reducible apply kept_upd; on_goal 2 => exact ⟨rfl, rfl⟩) | split | rfl)
theorem writeRanges_kept {qq : List Instr × Nat} (host : Bool) : ∀ (rs : List (Nat × Nat)) (bs : List Byte) (s : State), Kept qq s → Kept qq (writeRanges host rs bs s)
  | [], bs, s, hK => hK
  | r :: rs, bs, s, hK => by
    unfold writeRanges
    apply writeRanges_kept host rs
    split
    · exact hostWrite_kept _ _ _ hK
    · exact memWrite_kept _ _ _ hK
theorem xferEnd_kept {qq : List Instr × Nat} (s : State) (k : Nat) (x : Xfer) (hK : Kept qq s) : Kept qq (xferEnd s k x) := by
  unfold xferEnd; try dsimp only
  repeat' (first | with_reducible exact hK | with_reducible assumption | with_reducible apply completeWith_kept | with_reducible apply setXfer_kept | with_reducible apply pump_kept | intro _ _ _ | intro _ _ | fail_if_no_progress (with_reducible apply kept_upd; on_goal 2 => exact ⟨rfl, rfl⟩) | split | rfl)
theorem pieceDone_kept {qq : List Instr × Nat} (s : State) (n : Nat) (x : Xfer) (p : Piece) (hK : Kept qq s) : Kept qq (pieceDone s n x p) := by
  unfold pieceDone; try dsimp only
  repeat' (first | with_reducible exact hK | with_reducible assumption | with_reducible apply xferEnd_kept | intro _ _ _ | intro _ _ | fail_if_no_progress (with_reducible apply kept_upd; on_goal 2 => exact ⟨rfl, rfl⟩) | split | rfl)
theorem endPiece_kept {qq : List Instr × Nat} (s : State) (n : Nat) (c : Chan) (hK : Kept qq s) : Kept qq (endPiece s n c) := by
  unfold endPiece; try dsimp only
  repeat' (first | with_reducible exact hK | with_reducible assumption | with_reducible apply pieceFailed_kept | with_reducible apply writeRanges_kept | with_reducible apply pieceDone_kept | intro _ _ _ | intro _ _ | fail_if_no_progress (with_reducible apply kept_upd; on_goal 2 => exact ⟨rfl, rfl⟩) | split | rfl)
theorem channelFree_kept {qq : List Instr × Nat} (s : State) (n : Nat) (hK : Kept qq s) : Kept qq (channelFree s n) := by
  unfold channelFree; try dsimp only
  repeat' (first | with_reducible exact hK | with_reducible assumption | with_reducible apply setChan_kept | with_reducible apply dealPieces_kept | with_reducible apply endPiece_kept | intro _ _ _ | intro _ _ | fail_if_no_progress (with_reducible apply kept_upd; on_goal 2 => exact ⟨rfl, rfl⟩) | split | rfl)
theorem pieceRead_kept {qq : List Instr × Nat} (s : State) (n idx skip take : Nat) (h : HostData) (hK : Kept qq s) : Kept qq (pieceRead s n idx skip take h) := by
  unfold pieceRead; try dsimp only
  repeat' (first | with_reducible exact hK | with_reducible assumption | with_reducible apply poisoned_kept | with_reducible apply setChan_kept | with_reducible apply pump_kept | with_reducible apply pieceFailed_kept | intro _ _ _ | intro _ _ | fail_if_no_progress (with_reducible apply kept_upd; on_goal 2 => exact ⟨rfl, rfl⟩) | split | rfl)
theorem barrierRead_kept {qq : List Instr × Nat} (s : State) (k : Nat) (h : HostData) (hK : Kept qq s) : Kept qq (barrierRead s k h) := by
  unfold barrierRead; try dsimp only
  repeat' (first | with_reducible exact hK | with_reducible assumption | with_reducible apply poisoned_kept | with_reducible apply pieceFailed_kept | with_reducible apply xferEnd_kept | intro _ _ _ | intro _ _ | fail_if_no_progress (with_reducible apply kept_upd; on_goal 2 => exact ⟨rfl, rfl⟩) | split | rfl)
theorem doFetch_kept {qq : List Instr × Nat} (k : DCtx) (s : State) (hK : Kept qq s) : Kept qq (doFetch k s) := by
  unfold doFetch; try dsimp only
  repeat' (first | with_reducible exact hK | with_reducible assumption | with_reducible apply State_modDrover_kept | with_reducible apply drvStatus_kept | intro _ _ _ | intro _ _ | fail_if_no_progress (with_reducible apply kept_upd; on_goal 2 => exact ⟨rfl, rfl⟩) | split | rfl)
theorem parityRead_kept {qq : List Instr × Nat} (s : State) (k : DCtx) (hit : Bool) (st : Option (Nat × Nat)) (hK : Kept qq s) : Kept qq (parityRead s k hit st) := by
  unfold parityRead; try dsimp only
  repeat' (first | with_reducible exact hK | with_reducible assumption | with_reducible apply setStatus_kept | with_reducible apply writeEntry_kept | intro _ _ _ | intro _ _ | fail_if_no_progress (with_reducible apply kept_upd; on_goal 2 => exact ⟨rfl, rfl⟩) | split | rfl)
theorem doPw_kept {qq : List Instr × Nat} (k : DCtx) (s : State) (hK : Kept qq s) : Kept qq (doPw k s) := by
  unfold doPw; try dsimp only
  repeat' (first | with_reducible exact hK | with_reducible assumption | with_reducible apply State_modDrover_kept | with_reducible apply rewindFifo_kept | with_reducible apply appendFrame_kept | with_reducible apply openFrame_kept | intro _ _ _ | intro _ _ | fail_if_no_progress (with_reducible apply kept_upd; on_goal 2 => exact ⟨rfl, rfl⟩) | split | rfl)
theorem afterPack_kept {qq : List Instr × Nat} (k : DCtx) (s : State) (hK : Kept qq s) : Kept qq (afterPack k s) := by
  unfold afterPack; try dsimp only
  repeat' (first | with_reducible exact hK | with_reducible assumption | with_reducible apply State_modDrover_kept | with_reducible apply drvStatus_kept | intro _ _ _ | intro _ _ | fail_if_no_progress (with_reducible apply kept_upd; on_goal 2 => exact ⟨rfl, rfl⟩) | split | rfl)
theorem actWord_kept {qq : List Instr × Nat} (k : DCtx) (hK : Kept qq k.s) : Kept qq (actWord k) := by
  unfold actWord; try dsimp only
  repeat' (first | with_reducible exact hK | with_reducible assumption | with_reducible apply State_modDrover_kept | with_reducible apply endCommand_kept | with_reducible apply seqError_kept | with_reducible apply overDeclared_kept | with_reducible apply commitFrame_kept | with_reducible apply doFetch_kept | with_reducible apply doPw_kept | with_reducible apply afterPack_kept | intro _ _ _ | intro _ _ | fail_if_no_progress (with_reducible apply kept_upd; on_goal 2 => exact ⟨rfl, rfl⟩) | split | rfl)
theorem countStep_kept {qq : List Instr × Nat} (s : State) (d n : Nat) (hK : Kept qq s) : Kept qq (countStep s d n) := ⟨hK.1, hK.2⟩
theorem issueWord_kept {qq : List Instr × Nat} (k : DCtx) (hit : Bool) (hK : Kept qq k.s) : Kept qq (issueWord k hit) := by
  unfold issueWord; try dsimp only
  repeat' (first | with_reducible exact hK | with_reducible assumption | with_reducible apply State_modDrover_kept | with_reducible apply seqError_kept | with_reducible apply stepLimit_kept | with_reducible apply poisoned_kept | with_reducible apply parityRead_kept | with_reducible apply actWord_kept | with_reducible apply countStep_kept | intro _ _ _ | intro _ _ | fail_if_no_progress (with_reducible apply kept_upd; on_goal 2 => exact ⟨rfl, rfl⟩) | split | rfl)
theorem execWord_kept {qq : List Instr × Nat} (k : DCtx) (hit : Bool) (hK : Kept qq k.s) : Kept qq (execWord k hit) := by
  unfold execWord; try dsimp only
  repeat' (first | with_reducible exact hK | with_reducible assumption | with_reducible apply State_modDrover_kept | with_reducible apply seqError_kept | with_reducible apply stepLimit_kept | with_reducible apply stripeOverrun_kept | with_reducible apply stall_kept | with_reducible apply countStep_kept | with_reducible apply issueWord_kept | intro _ _ _ | intro _ _ | fail_if_no_progress (with_reducible apply kept_upd; on_goal 2 => exact ⟨rfl, rfl⟩) | split | rfl)
theorem execSub_kept {qq : List Instr × Nat} (k : DCtx) (hK : Kept qq k.s) : Kept qq (execSub k) := by
  unfold execSub; try dsimp only
  repeat' (first | with_reducible exact hK | with_reducible assumption | with_reducible apply State_modDrover_kept | with_reducible apply seqError_kept | with_reducible apply stepLimit_kept | with_reducible apply appendFrame_kept | with_reducible apply stall_kept | with_reducible apply countStep_kept | intro _ _ _ | intro _ _ | fail_if_no_progress (with_reducible apply kept_upd; on_goal 2 => exact ⟨rfl, rfl⟩) | split | rfl)
theorem buildVendor_kept {qq : List Instr × Nat} (k : DCtx) (bytes : List Byte) (fetches : List Nat) (ops : Nat) (stripe : Option (Nat × Nat)) (hK : Kept qq k.s) : Kept qq (buildVendor k bytes fetches ops stripe) := by
  unfold buildVendor; try dsimp only
  repeat' (first | with_reducible exact hK | with_reducible assumption | with_reducible apply State_modDrover_kept | with_reducible apply drvStatus_kept | with_reducible apply stepLimit_kept | with_reducible apply overDeclared_kept | with_reducible apply appendFrame_kept | with_reducible apply openFrame_kept | with_reducible apply commitFrame_kept | with_reducible apply countStep_kept | with_reducible apply foldl_kept | intro _ _ _ | intro _ _ | fail_if_no_progress (with_reducible apply kept_upd; on_goal 2 => exact ⟨rfl, rfl⟩) | split | rfl)
theorem execVendor_kept {qq : List Instr × Nat} (k : DCtx) (hit : Bool) (hK : Kept qq k.s) : Kept qq (execVendor k hit) := by
  unfold execVendor; try dsimp only
  repeat' (first | with_reducible exact hK | with_reducible assumption | with_reducible apply endCommand_kept | with_reducible apply poisoned_kept | with_reducible apply stripeOverrun_kept | with_reducible apply stall_kept | with_reducible apply parityRead_kept | with_reducible apply buildVendor_kept | intro _ _ _ | intro _ _ | fail_if_no_progress (with_reducible apply kept_upd; on_goal 2 => exact ⟨rfl, rfl⟩) | split | rfl)
theorem pbArrive_kept {qq : List Instr × Nat} (s : State) (d need : Nat) (hK : Kept qq s) : Kept qq (pbArrive s d need) := by
  unfold pbArrive; try dsimp only
  repeat' (first | with_reducible exact hK | with_reducible assumption | with_reducible apply State_modDrover_kept | intro _ _ _ | intro _ _ | fail_if_no_progress (with_reducible apply kept_upd; on_goal 2 => exact ⟨rfl, rfl⟩) | split | rfl)
theorem runNext_kept {qq : List Instr × Nat} (s : State) (d : Nat) (l : RowList) (m : ListCmd) (hit : Bool) (hK : Kept qq s) : Kept qq (runNext s d l m hit) := by
  unfold runNext; try dsimp only
  repeat' (first | with_reducible exact hK | with_reducible assumption | with_reducible apply execWord_kept | with_reducible apply execSub_kept | with_reducible apply execVendor_kept | intro _ _ _ | intro _ _ | fail_if_no_progress (with_reducible apply kept_upd; on_goal 2 => exact ⟨rfl, rfl⟩) | split | rfl)
theorem droverGo_kept {qq : List Instr × Nat} (s : State) (d need : Nat) (hit : Bool) (hK : Kept qq s) : Kept qq (droverGo s d need hit) := by
  unfold droverGo; try dsimp only
  repeat' (first | with_reducible exact hK | with_reducible assumption | with_reducible apply dispatch_kept | with_reducible apply pbArrive_kept | with_reducible apply runNext_kept | intro _ _ _ | intro _ _ | fail_if_no_progress (with_reducible apply kept_upd; on_goal 2 => exact ⟨rfl, rfl⟩) | split | rfl)
theorem microword_kept {qq : List Instr × Nat} (s : State) (d : Nat) (ev : DroverEvent) (hK : Kept qq s) : Kept qq (microword s d ev) := by
  unfold microword; try dsimp only
  repeat' (first | with_reducible exact hK | with_reducible assumption | with_reducible apply ringReset_kept | with_reducible apply stall_kept | with_reducible apply haltDrover_kept | with_reducible apply csCorrected_kept | with_reducible apply asmReset_kept | with_reducible apply droverGo_kept | intro _ _ _ | intro _ _ | fail_if_no_progress (with_reducible apply kept_upd; on_goal 2 => exact ⟨rfl, rfl⟩) | split | rfl)
theorem lookupReturn_kept {qq : List Instr × Nat} (s : State) (d : Nat) (hK : Kept qq s) : Kept qq (lookupReturn s d) := by
  unfold lookupReturn; try dsimp only
  repeat' (first | with_reducible exact hK | with_reducible assumption | with_reducible apply State_modDrover_kept | with_reducible apply drvTally_kept | with_reducible apply drvStatus_kept | intro _ _ _ | intro _ _ | fail_if_no_progress (with_reducible apply kept_upd; on_goal 2 => exact ⟨rfl, rfl⟩) | split | rfl)
theorem reloadDone_kept {qq : List Instr × Nat} (s : State) (d : Nat) (hK : Kept qq s) : Kept qq (reloadDone s d) := by
  unfold reloadDone; try dsimp only
  repeat' (first | with_reducible exact hK | with_reducible assumption | with_reducible apply State_modDrover_kept | intro _ _ _ | intro _ _ | fail_if_no_progress (with_reducible apply kept_upd; on_goal 2 => exact ⟨rfl, rfl⟩) | split | rfl)
theorem modCode_kept {qq : List Instr × Nat} (s : State) (slot : Nat) (f : EpCode → EpCode) (hK : Kept qq s) : Kept qq (modCode s slot f) := ⟨hK.1, hK.2⟩
theorem beginStripe_kept {qq : List Instr × Nat} (s : State) (e : Endpoint) (j : StripeJob) (hK : Kept qq s) : Kept qq (beginStripe s e j).1 := modCode_kept _ _ _ hK
theorem writeRecon_kept {qq : List Instr × Nat} (s : State) (e : Endpoint) (j : StripeJob) (x : EncSt) (hK : Kept qq s) : Kept qq (writeRecon s e j x) := by
  unfold writeRecon; try dsimp only
  repeat' (first | with_reducible exact hK | with_reducible assumption | with_reducible apply memWrite_kept | with_reducible apply foldl_kept | intro _ _ _ | intro _ _ | fail_if_no_progress (with_reducible apply kept_upd; on_goal 2 => exact ⟨rfl, rfl⟩) | split | rfl)
theorem encTally_kept {qq : List Instr × Nat} (s : State) (core j n : Nat) (hK : Kept qq s) : Kept qq (encTally s core j n) := by
  unfold encTally; try dsimp only
  repeat' (first | with_reducible exact hK | with_reducible assumption | with_reducible apply tallyAdd_kept | intro _ _ _ | intro _ _ | fail_if_no_progress (with_reducible apply kept_upd; on_goal 2 => exact ⟨rfl, rfl⟩) | split | rfl)
theorem encReport_kept {qq : List Instr × Nat} (s : State) (core : Nat) (intra repair refBad : Bool) (bytes : Nat) (x : EncSt) (hK : Kept qq s) : Kept qq (encReport s core intra repair refBad bytes x) := by
  unfold encReport; try dsimp only
  repeat' (first | with_reducible exact hK | with_reducible assumption | with_reducible apply setStatus_kept | with_reducible apply encTally_kept | intro _ _ _ | intro _ _ | fail_if_no_progress (with_reducible apply kept_upd; on_goal 2 => exact ⟨rfl, rfl⟩) | split | rfl)
theorem putEntryStep_kept {qq : List Instr × Nat} (j : StripeJob) (e : Endpoint) (bytes : List Byte) (absent : Bool) (s : State) (p : Nat) (hK : Kept qq s) : Kept qq (putEntry_ j e bytes absent s p) := by
  unfold putEntry_; try dsimp only
  repeat' (first | with_reducible exact hK | with_reducible assumption | with_reducible apply complete_kept | with_reducible apply State_modRing_kept | with_reducible apply writeEntry_kept | intro _ _ _ | intro _ _ | fail_if_no_progress (with_reducible apply kept_upd; on_goal 2 => exact ⟨rfl, rfl⟩) | split | rfl)
theorem claimPort_kept {qq : List Instr × Nat} (e : Endpoint) (a : State × StripeJob) (p : Nat) (hK : Kept qq a.1) : Kept qq (claimPort e a p).1 := by
  unfold claimPort
  dsimp only
  repeat' (first | exact hK | exact ⟨hK.1, hK.2⟩ | split)
theorem reportWait_kept {qq : List Instr × Nat} (s : State) (core : Nat) (j : StripeJob) (hK : Kept qq s) : Kept qq (reportWait s core j) := by
  unfold reportWait; try dsimp only
  repeat' (first | with_reducible exact hK | with_reducible assumption | with_reducible apply setStatus_kept | with_reducible apply tallyAdd_kept | with_reducible apply raiseFault_kept | with_reducible apply encTally_kept | intro _ _ _ | intro _ _ | fail_if_no_progress (with_reducible apply kept_upd; on_goal 2 => exact ⟨rfl, rfl⟩) | split | rfl)
theorem putHead_kept {qq : List Instr × Nat} (core : Nat) (s : State) (j : StripeJob) (act : Nat) (hK : Kept qq s) : Kept qq (putHead core s j act) := ⟨hK.1, hK.2⟩
theorem finishAbsent_kept {qq : List Instr × Nat} (s : State) (core : Nat) (e : Endpoint) (j : StripeJob) (hK : Kept qq s) : Kept qq (finishAbsent s core e j) := by
  unfold finishAbsent; try dsimp only
  repeat' (first | with_reducible exact hK | with_reducible assumption | with_reducible apply State_modEncCore_kept | with_reducible apply putEntryStep_kept | with_reducible apply foldl_kept | intro _ _ _ | intro _ _ | fail_if_no_progress (with_reducible apply kept_upd; on_goal 2 => exact ⟨rfl, rfl⟩) | split | rfl)
theorem claimPorts_kept {qq : List Instr × Nat} (e : Endpoint) : ∀ (ps : List Nat) (a : State × StripeJob), Kept qq a.1 → Kept qq (ps.foldl (claimPort e) a).1
  | [], a, hK => hK
  | p :: ps, a, hK => claimPorts_kept e ps _ (claimPort_kept e a p hK)
theorem encGo_kept {qq : List Instr × Nat} : ∀ (n : Nat) (s : State) (core : Nat), Kept qq s → Kept qq (encGo n s core)
  | 0, s, core, hK => hK
  | n + 1, s, core, hK => by
    unfold encGo
    repeat' (first | with_reducible exact hK | with_reducible exact claimPorts_kept _ _ _ hK | with_reducible apply beginStripe_kept | with_reducible apply encGo_kept | with_reducible apply State_modEncCore_kept | with_reducible apply finishAbsent_kept | with_reducible apply putHead_kept | with_reducible apply reportWait_kept | split | dsimp only)
theorem encKick_kept {qq : List Instr × Nat} (s : State) (core : Nat) (hK : Kept qq s) : Kept qq (encKick s core) := by
  unfold encKick; try dsimp only
  repeat' (first | with_reducible exact hK | with_reducible assumption | with_reducible apply encGo_kept | intro _ _ _ | intro _ _ | fail_if_no_progress (with_reducible apply kept_upd; on_goal 2 => exact ⟨rfl, rfl⟩) | split | rfl)
theorem leaveUncoded_kept {qq : List Instr × Nat} (core : Nat) (s : State) (j : StripeJob) (hK : Kept qq s) : Kept qq (leaveUncoded core s j) := by
  unfold leaveUncoded; try dsimp only
  repeat' (first | with_reducible exact hK | with_reducible assumption | with_reducible apply tallyAdd_kept | with_reducible apply memWrite_kept | with_reducible apply modCode_kept | intro _ _ _ | intro _ _ | fail_if_no_progress (with_reducible apply kept_upd; on_goal 2 => exact ⟨rfl, rfl⟩) | split | rfl)
theorem abandonJobs_kept {qq : List Instr × Nat} (s : State) (core : Nat) (js : List StripeJob) (hK : Kept qq s) : Kept qq (abandonJobs s core js) := by
  unfold abandonJobs; try dsimp only
  repeat' (first | with_reducible exact hK | with_reducible assumption | with_reducible apply State_modEncCore_kept | with_reducible apply encKick_kept | with_reducible apply leaveUncoded_kept | with_reducible apply foldl_kept | intro _ _ _ | intro _ _ | fail_if_no_progress (with_reducible apply kept_upd; on_goal 2 => exact ⟨rfl, rfl⟩) | split | rfl)
theorem encStart_kept {qq : List Instr × Nat} (s : State) (k : Nat) (l : LSlot) (hK : Kept qq s) : Kept qq (encStart s k l) := by
  unfold encStart; try dsimp only
  repeat' (first | with_reducible exact hK | with_reducible assumption | with_reducible apply State_modEncCore_kept | with_reducible apply traceMark_kept | with_reducible apply encKick_kept | with_reducible apply abandonJobs_kept | intro _ _ _ | intro _ _ | fail_if_no_progress (with_reducible apply kept_upd; on_goal 2 => exact ⟨rfl, rfl⟩) | split | rfl)
theorem ringMismatch_kept {qq : List Instr × Nat} (s : State) (c : Nat) (mm : Option (Fin 32)) (hK : Kept qq s) : Kept qq (ringMismatch s c mm) := by
  unfold ringMismatch; try dsimp only
  repeat' (first | with_reducible exact hK | with_reducible assumption | with_reducible apply ringReset_kept | intro _ _ _ | intro _ _ | fail_if_no_progress (with_reducible apply kept_upd; on_goal 2 => exact ⟨rfl, rfl⟩) | split | rfl)
theorem finishStripe_kept {qq : List Instr × Nat} (s : State) (core : Nat) (e : Endpoint) (j : StripeJob) (poisonCols : List Nat) (hK : Kept qq s) : Kept qq (finishStripe s core e j poisonCols) := by
  unfold finishStripe; try dsimp only
  repeat' (first | with_reducible exact hK | with_reducible assumption | with_reducible apply State_modEncCore_kept | with_reducible apply memWrite_kept | with_reducible apply modCode_kept | with_reducible apply writeRecon_kept | with_reducible apply encReport_kept | with_reducible apply putEntryStep_kept | with_reducible apply foldl_kept | intro _ _ _ | intro _ _ | fail_if_no_progress (with_reducible apply kept_upd; on_goal 2 => exact ⟨rfl, rfl⟩) | split | rfl)
theorem stripeDone_kept {qq : List Instr × Nat} (s : State) (core : Nat) (poisonCols : List Nat) (mismatch : Option (Fin 32)) (hK : Kept qq s) : Kept qq (stripeDone s core poisonCols mismatch) := by
  unfold stripeDone; try dsimp only
  repeat' (first | with_reducible exact hK | with_reducible assumption | with_reducible apply State_modEncCore_kept | with_reducible apply ringReset_kept | with_reducible apply encKick_kept | with_reducible apply finishStripe_kept | intro _ _ _ | intro _ _ | fail_if_no_progress (with_reducible apply kept_upd; on_goal 2 => exact ⟨rfl, rfl⟩) | split | rfl)
theorem copyRows_kept {qq : List Instr × Nat} (s : State) (j : StripeJob) (hK : Kept qq s) : Kept qq (copyRows s j) := by
  unfold copyRows; try dsimp only
  repeat' (first | with_reducible exact hK | with_reducible assumption | with_reducible apply memWrite_kept | with_reducible apply modCode_kept | intro _ _ _ | intro _ _ | fail_if_no_progress (with_reducible apply kept_upd; on_goal 2 => exact ⟨rfl, rfl⟩) | split | rfl)
theorem copyDone_kept {qq : List Instr × Nat} (s : State) (core : Nat) (hK : Kept qq s) : Kept qq (copyDone s core) := by
  unfold copyDone; try dsimp only
  repeat' (first | with_reducible exact hK | with_reducible assumption | with_reducible apply State_modEncCore_kept | with_reducible apply pendSrc_kept | with_reducible apply encKick_kept | with_reducible apply copyRows_kept | with_reducible apply foldl_kept | intro _ _ _ | intro _ _ | fail_if_no_progress (with_reducible apply kept_upd; on_goal 2 => exact ⟨rfl, rfl⟩) | split | rfl)
theorem takeoverSlots_kept {qq : List Instr × Nat} (s : State) (action unit new : Nat) (hK : Kept qq s) : Kept qq (takeoverSlots s action unit new) := ⟨hK.1, hK.2⟩
theorem retireEnc_kept {qq : List Instr × Nat} (s : State) (core : Nat) (hK : Kept qq s) : Kept qq (retireEnc s core) := by
  unfold retireEnc; try dsimp only
  repeat' (first | with_reducible exact hK | with_reducible assumption | with_reducible apply State_modEncCore_kept | with_reducible apply pendSrc_kept | with_reducible apply abandonJobs_kept | with_reducible apply takeoverSlots_kept | intro _ _ _ | intro _ _ | fail_if_no_progress (with_reducible apply kept_upd; on_goal 2 => exact ⟨rfl, rfl⟩) | split | rfl)
theorem cancelSlots_kept {qq : List Instr × Nat} (s : State) (hK : Kept qq s) : Kept qq (cancelSlots s) := by
  unfold cancelSlots; try dsimp only
  repeat' (first | with_reducible exact hK | with_reducible assumption | with_reducible apply completeWith_kept | with_reducible apply modWt_kept | with_reducible apply foldl_kept | intro _ _ _ | intro _ _ | fail_if_no_progress (with_reducible apply kept_upd; on_goal 2 => exact ⟨rfl, rfl⟩) | split | rfl)
theorem newSeconds_kept {qq : List Instr × Nat} (s : State) (v : Dword) (hK : Kept qq s) : Kept qq (newSeconds s v) := ⟨hK.1, hK.2⟩
theorem stepWall_kept {qq : List Instr × Nat} (s : State) (v : Dword) (frac : BitVec 16) (hK : Kept qq s) : Kept qq (stepWall s v frac) := by
  unfold stepWall; try dsimp only
  repeat' (first | with_reducible exact hK | with_reducible assumption | with_reducible apply setStatus_kept | with_reducible apply cancelSlots_kept | with_reducible apply newSeconds_kept | with_reducible apply modWt_kept | intro _ _ _ | intro _ _ | fail_if_no_progress (with_reducible apply kept_upd; on_goal 2 => exact ⟨rfl, rfl⟩) | split | rfl)
theorem timeSetApply_kept {qq : List Instr × Nat} (ref : CmdRef) (d : Desc) (s : State) (hK : Kept qq s) : Kept qq (timeSetApply ref d s) := by
  unfold timeSetApply; try dsimp only
  repeat' (first | with_reducible exact hK | with_reducible assumption | with_reducible apply complete_kept | with_reducible apply stepWall_kept | with_reducible apply modWt_kept | intro _ _ _ | intro _ _ | fail_if_no_progress (with_reducible apply kept_upd; on_goal 2 => exact ⟨rfl, rfl⟩) | split | rfl)
theorem sendBoth_kept {qq : List Instr × Nat} (s : State) (bs : List Byte) (hK : Kept qq s) : Kept qq (sendBoth s bs) := by
  unfold sendBoth; try dsimp only
  repeat' (first | with_reducible exact hK | with_reducible assumption | with_reducible apply peerSend_kept | intro _ _ _ | intro _ _ | fail_if_no_progress (with_reducible apply kept_upd; on_goal 2 => exact ⟨rfl, rfl⟩) | split | rfl)
theorem modPeerTime_kept {qq : List Instr × Nat} (s : State) (e : Nat) (f : PeerTime → PeerTime) (hK : Kept qq s) : Kept qq (modPeerTime s e f) := by
  unfold modPeerTime; try dsimp only
  repeat' (first | with_reducible exact hK | with_reducible assumption | with_reducible apply modWt_kept | intro _ _ _ | intro _ _ | fail_if_no_progress (with_reducible apply kept_upd; on_goal 2 => exact ⟨rfl, rfl⟩) | split | rfl)
theorem announceNow_kept {qq : List Instr × Nat} (s : State) (hK : Kept qq s) : Kept qq (announceNow s) := by
  unfold announceNow; try dsimp only
  repeat' (first | with_reducible exact hK | with_reducible assumption | with_reducible apply sendBoth_kept | with_reducible apply modWt_kept | intro _ _ _ | intro _ _ | fail_if_no_progress (with_reducible apply kept_upd; on_goal 2 => exact ⟨rfl, rfl⟩) | split | rfl)
theorem syncNow_kept {qq : List Instr × Nat} (s : State) (hK : Kept qq s) : Kept qq (syncNow s) := by
  unfold syncNow; try dsimp only
  repeat' (first | with_reducible exact hK | with_reducible assumption | with_reducible apply sendBoth_kept | with_reducible apply modWt_kept | intro _ _ _ | intro _ _ | fail_if_no_progress (with_reducible apply kept_upd; on_goal 2 => exact ⟨rfl, rfl⟩) | split | rfl)
theorem delayReqNow_kept {qq : List Instr × Nat} (s : State) (e : Nat) (hK : Kept qq s) : Kept qq (delayReqNow s e) := by
  unfold delayReqNow; try dsimp only
  repeat' (first | with_reducible exact hK | with_reducible assumption | with_reducible apply peerSend_kept | with_reducible apply modPeerTime_kept | with_reducible apply modWt_kept | intro _ _ _ | intro _ _ | fail_if_no_progress (with_reducible apply kept_upd; on_goal 2 => exact ⟨rfl, rfl⟩) | split | rfl)
theorem enterTime_kept {qq : List Instr × Nat} (s : State) (st : TState) (hK : Kept qq s) : Kept qq (enterTime s st) := by
  unfold enterTime; try dsimp only
  repeat' (first | with_reducible exact hK | with_reducible assumption | with_reducible apply setStatus_kept | with_reducible apply raiseFault_kept | with_reducible apply startSpread_kept | with_reducible apply modWt_kept | intro _ _ _ | intro _ _ | fail_if_no_progress (with_reducible apply kept_upd; on_goal 2 => exact ⟨rfl, rfl⟩) | split | rfl)
theorem takeRole_kept {qq : List Instr × Nat} (s : State) (own : Bool) (hK : Kept qq s) : Kept qq (takeRole s own) := by
  unfold takeRole; try dsimp only
  repeat' (first | with_reducible exact hK | with_reducible assumption | with_reducible apply enterTime_kept | with_reducible apply modWt_kept | intro _ _ _ | intro _ _ | fail_if_no_progress (with_reducible apply kept_upd; on_goal 2 => exact ⟨rfl, rfl⟩) | split | rfl)
theorem elect_kept {qq : List Instr × Nat} (s : State) (hK : Kept qq s) : Kept qq (elect s) := by
  unfold elect; try dsimp only
  repeat' (first | with_reducible exact hK | with_reducible assumption | with_reducible apply setStatus_kept | with_reducible apply takeRole_kept | with_reducible apply modWt_kept | intro _ _ _ | intro _ _ | fail_if_no_progress (with_reducible apply kept_upd; on_goal 2 => exact ⟨rfl, rfl⟩) | split | rfl)
theorem duplicate_kept {qq : List Instr × Nat} (s : State) (hK : Kept qq s) : Kept qq (duplicate s) := by
  unfold duplicate; try dsimp only
  repeat' (first | with_reducible exact hK | with_reducible assumption | with_reducible apply setStatus_kept | with_reducible apply raiseFault_kept | with_reducible apply enterTime_kept | with_reducible apply elect_kept | with_reducible apply modWt_kept | intro _ _ _ | intro _ _ | fail_if_no_progress (with_reducible apply kept_upd; on_goal 2 => exact ⟨rfl, rfl⟩) | split | rfl)
theorem timeRx_kept {qq : List Instr × Nat} (s : State) (e : Nat) (bs : List Byte) (type : Nat) (body : State → State) (hb : ∀ t, Kept qq t → Kept qq (body t)) (hK : Kept qq s) : Kept qq (timeRx s e bs type body) := by
  unfold timeRx
  repeat' (first | exact hK | with_reducible apply foldDiscard_kept | with_reducible apply tallyAdd_kept | with_reducible apply modPeerTime_kept | with_reducible apply hb | split)
theorem noteHeard_kept {qq : List Instr × Nat} (s : State) (bs : List Byte) (hK : Kept qq s) : Kept qq (noteHeard s bs) := ⟨hK.1, hK.2⟩
theorem announceTake_kept {qq : List Instr × Nat} (e : Nat) (bs : List Byte) (s : State) (hK : Kept qq s) : Kept qq (announceTake e bs s) := by
  unfold announceTake; try dsimp only
  repeat' (first | with_reducible exact hK | with_reducible assumption | with_reducible apply forwardFold_kept | with_reducible apply startSpread_kept | with_reducible apply elect_kept | with_reducible apply duplicate_kept | with_reducible apply noteHeard_kept | intro _ _ _ | intro _ _ | fail_if_no_progress (with_reducible apply kept_upd; on_goal 2 => exact ⟨rfl, rfl⟩) | split | rfl)
theorem ageOut_kept {qq : List Instr × Nat} (s : State) (m : Nat) (hK : Kept qq s) : Kept qq (ageOut s m) := by
  unfold ageOut; try dsimp only
  repeat' (first | with_reducible exact hK | with_reducible assumption | with_reducible apply dropModule_kept | with_reducible apply elect_kept | with_reducible apply modWt_kept | intro _ _ _ | intro _ _ | fail_if_no_progress (with_reducible apply kept_upd; on_goal 2 => exact ⟨rfl, rfl⟩) | split | rfl)
theorem delayReqTake_kept {qq : List Instr × Nat} (e : Nat) (turn : Nat) (s : State) (hK : Kept qq s) : Kept qq (delayReqTake e turn s) := by
  unfold delayReqTake; try dsimp only
  repeat' (first | with_reducible exact hK | with_reducible assumption | with_reducible apply peerSend_kept | with_reducible apply modWt_kept | intro _ _ _ | intro _ _ | fail_if_no_progress (with_reducible apply kept_upd; on_goal 2 => exact ⟨rfl, rfl⟩) | split | rfl)
theorem delayRespTake_kept {qq : List Instr × Nat} (e : Nat) (bs : List Byte) (s : State) (hK : Kept qq s) : Kept qq (delayRespTake e bs s) := by
  unfold delayRespTake; try dsimp only
  repeat' (first | with_reducible exact hK | with_reducible assumption | with_reducible apply modPeerTime_kept | intro _ _ _ | intro _ _ | fail_if_no_progress (with_reducible apply kept_upd; on_goal 2 => exact ⟨rfl, rfl⟩) | split | rfl)
theorem clkCheck_kept {qq : List Instr × Nat} (s : State) (hK : Kept qq s) : Kept qq (clkCheck s) := by
  unfold clkCheck; try dsimp only
  repeat' (first | with_reducible exact hK | with_reducible assumption | with_reducible apply setStatus_kept | with_reducible apply raiseFault_kept | with_reducible apply enterTime_kept | with_reducible apply modWt_kept | intro _ _ _ | intro _ _ | fail_if_no_progress (with_reducible apply kept_upd; on_goal 2 => exact ⟨rfl, rfl⟩) | split | rfl)
theorem servoStep_kept {qq : List Instr × Nat} (s : State) (e : Int) (hK : Kept qq s) : Kept qq (servoStep s e) := by
  unfold servoStep; try dsimp only
  repeat' (first | with_reducible exact hK | with_reducible assumption | with_reducible apply stepWall_kept | intro _ _ _ | intro _ _ | fail_if_no_progress (with_reducible apply kept_upd; on_goal 2 => exact ⟨rfl, rfl⟩) | split | rfl)
theorem servoAct_kept {qq : List Instr × Nat} (s : State) (e : Int) (step : Bool) (hK : Kept qq s) : Kept qq (servoAct s e step) := by
  unfold servoAct; try dsimp only
  repeat' (first | with_reducible exact hK | with_reducible assumption | with_reducible apply enterTime_kept | with_reducible apply servoStep_kept | with_reducible apply modWt_kept | intro _ _ _ | intro _ _ | fail_if_no_progress (with_reducible apply kept_upd; on_goal 2 => exact ⟨rfl, rfl⟩) | split | rfl)
theorem judge_kept {qq : List Instr × Nat} (s : State) (e : Int) (hK : Kept qq s) : Kept qq (judge s e) := by
  unfold judge; try dsimp only
  repeat' (first | with_reducible exact hK | with_reducible assumption | with_reducible apply enterTime_kept | with_reducible apply modWt_kept | intro _ _ _ | intro _ _ | fail_if_no_progress (with_reducible apply kept_upd; on_goal 2 => exact ⟨rfl, rfl⟩) | split | rfl)
theorem servo_kept {qq : List Instr × Nat} (s : State) (e : Int) (step : Bool) (hK : Kept qq s) : Kept qq (servo s e step) := by
  unfold servo; try dsimp only
  repeat' (first | with_reducible exact hK | with_reducible assumption | with_reducible apply clkCheck_kept | with_reducible apply servoAct_kept | with_reducible apply judge_kept | with_reducible apply modWt_kept | intro _ _ _ | intro _ _ | fail_if_no_progress (with_reducible apply kept_upd; on_goal 2 => exact ⟨rfl, rfl⟩) | split | rfl)
theorem syncTake_kept {qq : List Instr × Nat} (e : Nat) (bs : List Byte) (residence : Nat) (s : State) (hK : Kept qq s) : Kept qq (syncTake e bs residence s) := by
  unfold syncTake; try dsimp only
  repeat' (first | with_reducible exact hK | with_reducible assumption | with_reducible apply forwardFold_kept | with_reducible apply servo_kept | with_reducible apply modWt_kept | intro _ _ _ | intro _ _ | fail_if_no_progress (with_reducible apply kept_upd; on_goal 2 => exact ⟨rfl, rfl⟩) | split | rfl)
theorem syncLoss_kept {qq : List Instr × Nat} (s : State) (hK : Kept qq s) : Kept qq (syncLoss s) := by
  unfold syncLoss; try dsimp only
  repeat' (first | with_reducible exact hK | with_reducible assumption | with_reducible apply enterTime_kept | intro _ _ _ | intro _ _ | fail_if_no_progress (with_reducible apply kept_upd; on_goal 2 => exact ⟨rfl, rfl⟩) | split | rfl)
theorem holdoverEnd_kept {qq : List Instr × Nat} (s : State) (hK : Kept qq s) : Kept qq (holdoverEnd s) := by
  unfold holdoverEnd; try dsimp only
  repeat' (first | with_reducible exact hK | with_reducible assumption | with_reducible apply enterTime_kept | intro _ _ _ | intro _ _ | fail_if_no_progress (with_reducible apply kept_upd; on_goal 2 => exact ⟨rfl, rfl⟩) | split | rfl)
theorem silence_kept {qq : List Instr × Nat} (s : State) (e : Nat) (hK : Kept qq s) : Kept qq (silence s e) := by
  unfold silence; try dsimp only
  repeat' (first | with_reducible exact hK | with_reducible assumption | with_reducible apply setStatus_kept | with_reducible apply modPeerTime_kept | with_reducible apply modWt_kept | intro _ _ _ | intro _ _ | fail_if_no_progress (with_reducible apply kept_upd; on_goal 2 => exact ⟨rfl, rfl⟩) | split | rfl)
theorem peerRise_kept {qq : List Instr × Nat} (s : State) (e : Nat) (hK : Kept qq s) : Kept qq (peerRise s e) := by
  unfold peerRise; try dsimp only
  repeat' (first | with_reducible exact hK | with_reducible assumption | with_reducible apply State_modPeer_kept | intro _ _ _ | intro _ _ | fail_if_no_progress (with_reducible apply kept_upd; on_goal 2 => exact ⟨rfl, rfl⟩) | split | rfl)
theorem peerFallTo_kept {qq : List Instr × Nat} (s : State) (e : Nat) (lanes : BitVec 4) (fec : Bool) (hK : Kept qq s) : Kept qq (peerFallTo s e lanes fec) := by
  unfold peerFallTo; try dsimp only
  repeat' (first | with_reducible exact hK | with_reducible assumption | with_reducible apply State_modPeer_kept | with_reducible apply setStatus_kept | intro _ _ _ | intro _ _ | fail_if_no_progress (with_reducible apply kept_upd; on_goal 2 => exact ⟨rfl, rfl⟩) | split | rfl)
theorem peerFall_kept {qq : List Instr × Nat} (s : State) (e : Nat) (hK : Kept qq s) : Kept qq (peerFall s e) := by
  unfold peerFall; try dsimp only
  repeat' (first | with_reducible exact hK | with_reducible assumption | with_reducible apply peerFallTo_kept | intro _ _ _ | intro _ _ | fail_if_no_progress (with_reducible apply kept_upd; on_goal 2 => exact ⟨rfl, rfl⟩) | split | rfl)
theorem joinFold_kept {qq : List Instr × Nat} (s : State) (hK : Kept qq s) : Kept qq (joinFold s) := by
  unfold joinFold; try dsimp only
  repeat' (first | with_reducible exact hK | with_reducible assumption | with_reducible apply enterTime_kept | with_reducible apply elect_kept | with_reducible apply modWt_kept | intro _ _ _ | intro _ _ | fail_if_no_progress (with_reducible apply kept_upd; on_goal 2 => exact ⟨rfl, rfl⟩) | split | rfl)
theorem leaveFold_kept {qq : List Instr × Nat} (s : State) (hK : Kept qq s) : Kept qq (leaveFold s) := by
  unfold leaveFold; try dsimp only
  repeat' (first | with_reducible exact hK | with_reducible assumption | with_reducible apply enterTime_kept | with_reducible apply modWt_kept | intro _ _ _ | intro _ _ | fail_if_no_progress (with_reducible apply kept_upd; on_goal 2 => exact ⟨rfl, rfl⟩) | split | rfl)
theorem foldCfgOp_kept {qq : List Instr × Nat} (s : State) (v : Word) (hK : Kept qq s) : Kept qq (foldCfgOp s v) := by
  unfold foldCfgOp; try dsimp only
  repeat' (first | with_reducible exact hK | with_reducible assumption | with_reducible apply State_setReg_kept | with_reducible apply elect_kept | with_reducible apply joinFold_kept | with_reducible apply leaveFold_kept | intro _ _ _ | intro _ _ | fail_if_no_progress (with_reducible apply kept_upd; on_goal 2 => exact ⟨rfl, rfl⟩) | split | rfl)
theorem emitBeacon_kept {qq : List Instr × Nat} (s : State) (p : Nat) (hK : Kept qq s) : Kept qq (emitBeacon s p) := by
  unfold emitBeacon; try dsimp only
  repeat' (first | with_reducible exact hK | with_reducible assumption | with_reducible apply sendBuilt_kept | intro _ _ _ | intro _ _ | fail_if_no_progress (with_reducible apply kept_upd; on_goal 2 => exact ⟨rfl, rfl⟩) | split | rfl)
theorem periodic_kept {qq : List Instr × Nat} (s : State) (p : Nat) (hK : Kept qq s) : Kept qq (periodic s p) := by
  unfold periodic; try dsimp only
  repeat' (first | with_reducible exact hK | with_reducible assumption | with_reducible apply State_modPort_kept | with_reducible apply emitBeacon_kept | intro _ _ _ | intro _ _ | fail_if_no_progress (with_reducible apply kept_upd; on_goal 2 => exact ⟨rfl, rfl⟩) | split | rfl)
theorem emitBlank_kept {qq : List Instr × Nat} (s : State) (p slot effect c : Nat) (hK : Kept qq s) : Kept qq (emitBlank s p slot effect c) := by
  unfold emitBlank; try dsimp only
  repeat' (first | with_reducible exact hK | with_reducible assumption | with_reducible apply sendBuilt_kept | intro _ _ _ | intro _ _ | fail_if_no_progress (with_reducible apply kept_upd; on_goal 2 => exact ⟨rfl, rfl⟩) | split | rfl)
theorem emitBlanks_kept {qq : List Instr × Nat} (s : State) (p slot effect c : Nat) (hK : Kept qq s) : Kept qq (emitBlanks s p slot effect c) := by
  unfold emitBlanks; try dsimp only
  repeat' (first | with_reducible exact hK | with_reducible assumption | with_reducible apply emitBlank_kept | intro _ _ _ | intro _ _ | fail_if_no_progress (with_reducible apply kept_upd; on_goal 2 => exact ⟨rfl, rfl⟩) | split | rfl)
theorem releaseBlank_kept {qq : List Instr × Nat} (s : State) (n : Nat) (hK : Kept qq s) : Kept qq (releaseBlank s n) := by
  unfold releaseBlank; try dsimp only
  repeat' (first | with_reducible exact hK | with_reducible assumption | with_reducible apply State_modContract_kept | with_reducible apply emitBlank_kept | with_reducible apply foldl_kept | intro _ _ _ | intro _ _ | fail_if_no_progress (with_reducible apply kept_upd; on_goal 2 => exact ⟨rfl, rfl⟩) | split | rfl)
theorem breach_kept {qq : List Instr × Nat} (s : State) (c n fault : Nat) (external : Bool) (hK : Kept qq s) : Kept qq (breach s c n fault external) := by
  unfold breach; try dsimp only
  repeat' (first | with_reducible exact hK | with_reducible assumption | with_reducible apply State_modContract_kept | with_reducible apply tallyAdd_kept | with_reducible apply raiseFault_kept | with_reducible apply State_modAvail_kept | intro _ _ _ | intro _ _ | fail_if_no_progress (with_reducible apply kept_upd; on_goal 2 => exact ⟨rfl, rfl⟩) | split | rfl)
theorem guardLose_kept {qq : List Instr × Nat} (p c n : Nat) (s : State) (f : Frame) (hK : Kept qq s) : Kept qq (guardLose p c n s f) := by
  unfold guardLose; try dsimp only
  repeat' (first | with_reducible exact hK | with_reducible assumption | with_reducible apply discardFrame_kept | with_reducible apply breach_kept | intro _ _ _ | intro _ _ | fail_if_no_progress (with_reducible apply kept_upd; on_goal 2 => exact ⟨rfl, rfl⟩) | split | rfl)
theorem leavingLate_kept {qq : List Instr × Nat} (p c n : Nat) (s : State) (hK : Kept qq s) : Kept qq (leavingLate p c n s) := by
  unfold leavingLate; try dsimp only
  repeat' (first | with_reducible exact hK | with_reducible assumption | with_reducible apply State_modContract_kept | intro _ _ _ | intro _ _ | fail_if_no_progress (with_reducible apply kept_upd; on_goal 2 => exact ⟨rfl, rfl⟩) | split | rfl)
theorem guardDiscard_kept {qq : List Instr × Nat} (s : State) (p c n : Nat) (hK : Kept qq s) : Kept qq (guardDiscard s p c n) := by
  unfold guardDiscard; try dsimp only
  repeat' (first | with_reducible exact hK | with_reducible assumption | with_reducible apply State_modPort_kept | with_reducible apply guardLose_kept | with_reducible apply leavingLate_kept | with_reducible apply foldl_kept | intro _ _ _ | intro _ _ | fail_if_no_progress (with_reducible apply kept_upd; on_goal 2 => exact ⟨rfl, rfl⟩) | split | rfl)
theorem markStripe_kept {qq : List Instr × Nat} (s : State) (k : Nat × Nat) (hK : Kept qq s) : Kept qq (markStripe s k) := ⟨hK.1, hK.2⟩
theorem settleFrame_kept {qq : List Instr × Nat} (s : State) (c n : Nat) (hK : Kept qq s) : Kept qq (settleFrame s c n) := by
  unfold settleFrame; try dsimp only
  repeat' (first | with_reducible exact hK | with_reducible assumption | with_reducible apply breach_kept | with_reducible apply markStripe_kept | with_reducible apply foldl_kept | intro _ _ _ | intro _ _ | fail_if_no_progress (with_reducible apply kept_upd; on_goal 2 => exact ⟨rfl, rfl⟩) | split | rfl)
theorem present_kept {qq : List Instr × Nat} (s : State) (p c n : Nat) (hK : Kept qq s) : Kept qq (present s p c n) := by
  unfold present; try dsimp only
  repeat' (first | with_reducible exact hK | with_reducible assumption | with_reducible apply State_modContract_kept | with_reducible apply sendBuilt_kept | with_reducible apply dropSets_kept | with_reducible apply guardDrover_kept | with_reducible apply guardRing_kept | with_reducible apply forgetFrame_kept | with_reducible apply settleFrame_kept | intro _ _ _ | intro _ _ | fail_if_no_progress (with_reducible apply kept_upd; on_goal 2 => exact ⟨rfl, rfl⟩) | split | rfl)
theorem launchBreach_kept {qq : List Instr × Nat} (s : State) (c n : Nat) (hK : Kept qq s) : Kept qq (launchBreach s c n) := by
  unfold launchBreach; try dsimp only
  repeat' (first | with_reducible exact hK | with_reducible assumption | with_reducible apply breach_kept | intro _ _ _ | intro _ _ | fail_if_no_progress (with_reducible apply kept_upd; on_goal 2 => exact ⟨rfl, rfl⟩) | split | rfl)
theorem traceFrame_kept {qq : List Instr × Nat} (s : State) (c n : Nat) (hK : Kept qq s) : Kept qq (traceFrame s c n) := by
  unfold traceFrame; try dsimp only
  repeat' (first | with_reducible exact hK | with_reducible assumption | with_reducible apply State_modTly_kept | with_reducible apply traceWrite_kept | with_reducible apply foldl_kept | intro _ _ _ | intro _ _ | fail_if_no_progress (with_reducible apply kept_upd; on_goal 2 => exact ⟨rfl, rfl⟩) | split | rfl)
theorem launchFrame_kept {qq : List Instr × Nat} (s : State) (c n : Nat) (hK : Kept qq s) : Kept qq (launchFrame s c n) := by
  unfold launchFrame; try dsimp only
  repeat' (first | with_reducible exact hK | with_reducible assumption | with_reducible apply State_modContract_kept | with_reducible apply State_modAvail_kept | with_reducible apply launchBreach_kept | with_reducible apply traceFrame_kept | intro _ _ _ | intro _ _ | fail_if_no_progress (with_reducible apply kept_upd; on_goal 2 => exact ⟨rfl, rfl⟩) | split | rfl)
theorem launchReached_kept {qq : List Instr × Nat} (s : State) (c : Nat) (hK : Kept qq s) : Kept qq (launchReached s c) := by
  unfold launchReached; try dsimp only
  repeat' (first | with_reducible exact hK | with_reducible assumption | with_reducible apply drainEnd_kept | with_reducible apply launchFrame_kept | intro _ _ _ | intro _ _ | fail_if_no_progress (with_reducible apply kept_upd; on_goal 2 => exact ⟨rfl, rfl⟩) | split | rfl)
theorem waitBody_kept {qq : List Instr × Nat} (s : State) (k : Nat) (l : LSlot) (hK : Kept qq s) : Kept qq (waitBody s k l) := by
  unfold waitBody; try dsimp only
  repeat' (first | with_reducible exact hK | with_reducible assumption | with_reducible apply compBody_kept | with_reducible apply mapListStart_kept | with_reducible apply encStart_kept | intro _ _ _ | intro _ _ | fail_if_no_progress (with_reducible apply kept_upd; on_goal 2 => exact ⟨rfl, rfl⟩) | split | rfl)
theorem overrunBegin_kept {qq : List Instr × Nat} (s : State) (k : Nat) (hK : Kept qq s) : Kept qq (overrunBegin s k) := by
  unfold overrunBegin; try dsimp only
  repeat' (first | with_reducible exact hK | with_reducible assumption | with_reducible apply waitBody_kept | intro _ _ _ | intro _ _ | fail_if_no_progress (with_reducible apply kept_upd; on_goal 2 => exact ⟨rfl, rfl⟩) | split | rfl)
theorem setLState_kept {qq : List Instr × Nat} (s : State) (st : LState) (hK : Kept qq s) : Kept qq (setLState s st) := by
  unfold setLState; try dsimp only
  repeat' (first | with_reducible exact hK | with_reducible assumption | with_reducible apply State_modLink_kept | with_reducible apply pendSrc_kept | intro _ _ _ | intro _ _ | fail_if_no_progress (with_reducible apply kept_upd; on_goal 2 => exact ⟨rfl, rfl⟩) | split | rfl)
theorem failRead_kept {qq : List Instr × Nat} (s : State) (m : MRead) (hK : Kept qq s) : Kept qq (failRead s m) := by
  unfold failRead; try dsimp only
  repeat' (first | with_reducible exact hK | with_reducible assumption | with_reducible apply fetchFailed_kept | with_reducible apply pieceRead_kept | with_reducible apply barrierRead_kept | intro _ _ _ | intro _ _ | fail_if_no_progress (with_reducible apply kept_upd; on_goal 2 => exact ⟨rfl, rfl⟩) | split | rfl)
theorem failFetches_kept {qq : List Instr × Nat} (s : State) (n : Nat) (hK : Kept qq s) : Kept qq (failFetches s n) := by
  unfold failFetches; try dsimp only
  repeat' (first | with_reducible exact hK | with_reducible assumption | with_reducible apply State_modStream_kept | with_reducible apply settle_kept | with_reducible apply rawDone_kept | intro _ _ _ | intro _ _ | fail_if_no_progress (with_reducible apply kept_upd; on_goal 2 => exact ⟨rfl, rfl⟩) | split | rfl)
theorem failReads_kept {qq : List Instr × Nat} (s : State) (failing : List MRead) (hK : Kept qq s) : Kept qq (failReads s failing) := by
  unfold failReads; try dsimp only
  repeat' (first | with_reducible exact hK | with_reducible assumption | with_reducible apply failUnlinked_kept | with_reducible apply failRead_kept | with_reducible apply failFetches_kept | with_reducible apply foldl_kept | intro _ _ _ | intro _ _ | fail_if_no_progress (with_reducible apply kept_upd; on_goal 2 => exact ⟨rfl, rfl⟩) | split | rfl)
theorem enterDown_kept {qq : List Instr × Nat} (s : State) (hK : Kept qq s) : Kept qq (enterDown s) := by
  unfold enterDown; try dsimp only
  repeat' (first | with_reducible exact hK | with_reducible assumption | with_reducible apply State_modLink_kept | with_reducible apply setStatus_kept | with_reducible apply setLState_kept | with_reducible apply failReads_kept | intro _ _ _ | intro _ _ | fail_if_no_progress (with_reducible apply kept_upd; on_goal 2 => exact ⟨rfl, rfl⟩) | split | rfl)
theorem enterRecovery_kept {qq : List Instr × Nat} (s : State) (hK : Kept qq s) : Kept qq (enterRecovery s) := by
  unfold enterRecovery; try dsimp only
  repeat' (first | with_reducible exact hK | with_reducible assumption | with_reducible apply setStatus_kept | with_reducible apply setLState_kept | intro _ _ _ | intro _ _ | fail_if_no_progress (with_reducible apply kept_upd; on_goal 2 => exact ⟨rfl, rfl⟩) | split | rfl)
theorem enterDegraded_kept {qq : List Instr × Nat} (s : State) (hK : Kept qq s) : Kept qq (enterDegraded s) := by
  unfold enterDegraded; try dsimp only
  repeat' (first | with_reducible exact hK | with_reducible assumption | with_reducible apply setStatus_kept | with_reducible apply raiseFault_kept | with_reducible apply setLState_kept | intro _ _ _ | intro _ _ | fail_if_no_progress (with_reducible apply kept_upd; on_goal 2 => exact ⟨rfl, rfl⟩) | split | rfl)
theorem fatalProto_kept {qq : List Instr × Nat} (s : State) (hK : Kept qq s) : Kept qq (fatalProto s) := by
  unfold fatalProto; try dsimp only
  repeat' (first | with_reducible exact hK | with_reducible assumption | with_reducible apply setStatus_kept | with_reducible apply raiseFault_kept | with_reducible apply enterDown_kept | intro _ _ _ | intro _ _ | fail_if_no_progress (with_reducible apply kept_upd; on_goal 2 => exact ⟨rfl, rfl⟩) | split | rfl)
theorem protoError_kept {qq : List Instr × Nat} (s : State) (hK : Kept qq s) : Kept qq (protoError s) := by
  unfold protoError; try dsimp only
  repeat' (first | with_reducible exact hK | with_reducible assumption | with_reducible apply setStatus_kept | intro _ _ _ | intro _ _ | fail_if_no_progress (with_reducible apply kept_upd; on_goal 2 => exact ⟨rfl, rfl⟩) | split | rfl)
theorem flitStep_kept {qq : List Instr × Nat} (s : State) (hK : Kept qq s) : Kept qq (flitStep s) := by
  unfold flitStep; try dsimp only
  repeat' (first | with_reducible exact hK | with_reducible assumption | with_reducible apply State_modLink_kept | intro _ _ _ | intro _ _ | fail_if_no_progress (with_reducible apply kept_upd; on_goal 2 => exact ⟨rfl, rfl⟩) | split | rfl)
theorem startReplay_kept {qq : List Instr × Nat} (s : State) (hK : Kept qq s) : Kept qq (startReplay s) := by
  unfold startReplay; try dsimp only
  repeat' (first | with_reducible exact hK | with_reducible assumption | with_reducible apply State_modLink_kept | with_reducible apply setStatus_kept | with_reducible apply tallyAdd_kept | intro _ _ _ | intro _ _ | fail_if_no_progress (with_reducible apply kept_upd; on_goal 2 => exact ⟨rfl, rfl⟩) | split | rfl)
theorem replayNow_kept {qq : List Instr × Nat} (s : State) (hK : Kept qq s) : Kept qq (replayNow s) := by
  unfold replayNow; try dsimp only
  repeat' (first | with_reducible exact hK | with_reducible assumption | with_reducible apply enterRecovery_kept | with_reducible apply startReplay_kept | intro _ _ _ | intro _ _ | fail_if_no_progress (with_reducible apply kept_upd; on_goal 2 => exact ⟨rfl, rfl⟩) | split | rfl)
theorem takeData_kept {qq : List Instr × Nat} (s : State) (seq : Nat) (payload : List Byte) (hK : Kept qq s) : Kept qq (takeData s seq payload) := by
  unfold takeData; try dsimp only
  repeat' (first | with_reducible exact hK | with_reducible assumption | with_reducible apply State_modLink_kept | with_reducible apply fatalProto_kept | intro _ _ _ | intro _ _ | fail_if_no_progress (with_reducible apply kept_upd; on_goal 2 => exact ⟨rfl, rfl⟩) | split | rfl)
theorem takeMgmt_kept {qq : List Instr × Nat} (s : State) (payload : List Byte) (hK : Kept qq s) : Kept qq (takeMgmt s payload) := by
  unfold takeMgmt; try dsimp only
  repeat' (first | with_reducible exact hK | with_reducible assumption | with_reducible apply State_modLink_kept | with_reducible apply protoError_kept | intro _ _ _ | intro _ _ | fail_if_no_progress (with_reducible apply kept_upd; on_goal 2 => exact ⟨rfl, rfl⟩) | split | rfl)
theorem flitTake_kept {qq : List Instr × Nat} (s : State) (f : List Byte) (hK : Kept qq s) : Kept qq (flitTake s f) := by
  unfold flitTake; try dsimp only
  repeat' (first | with_reducible exact hK | with_reducible assumption | with_reducible apply State_modLink_kept | with_reducible apply fatalProto_kept | with_reducible apply replayNow_kept | with_reducible apply takeData_kept | with_reducible apply takeMgmt_kept | intro _ _ _ | intro _ _ | fail_if_no_progress (with_reducible apply kept_upd; on_goal 2 => exact ⟨rfl, rfl⟩) | split | rfl)
theorem trainMgmt_kept {qq : List Instr × Nat} (s : State) (payload : List Byte) (hK : Kept qq s) : Kept qq (trainMgmt s payload) := by
  unfold trainMgmt; try dsimp only
  repeat' (first | with_reducible exact hK | with_reducible assumption | with_reducible apply State_modLink_kept | with_reducible apply enterDown_kept | with_reducible apply protoError_kept | intro _ _ _ | intro _ _ | fail_if_no_progress (with_reducible apply kept_upd; on_goal 2 => exact ⟨rfl, rfl⟩) | split | rfl)
theorem trainTake_kept {qq : List Instr × Nat} (s : State) (f : List Byte) (hK : Kept qq s) : Kept qq (trainTake s f) := by
  unfold trainTake; try dsimp only
  repeat' (first | with_reducible exact hK | with_reducible assumption | with_reducible apply State_modLink_kept | with_reducible apply fatalProto_kept | with_reducible apply trainMgmt_kept | intro _ _ _ | intro _ _ | fail_if_no_progress (with_reducible apply kept_upd; on_goal 2 => exact ⟨rfl, rfl⟩) | split | rfl)
theorem deliverRead_kept {qq : List Instr × Nat} (s : State) (m : MRead) (hK : Kept qq s) : Kept qq (deliverRead s m) := by
  unfold deliverRead; try dsimp only
  repeat' (first | with_reducible exact hK | with_reducible assumption | with_reducible apply poisoned_kept | with_reducible apply takeDescs_kept | with_reducible apply fetchFailed_kept | with_reducible apply pieceRead_kept | with_reducible apply barrierRead_kept | intro _ _ _ | intro _ _ | fail_if_no_progress (with_reducible apply kept_upd; on_goal 2 => exact ⟨rfl, rfl⟩) | split | rfl)
theorem cplTake_kept {qq : List Instr × Nat} (s : State) (tag status : Nat) (last : Bool) (off : Nat) (bs : List Byte) (hK : Kept qq s) : Kept qq (cplTake s tag status last off bs) := by
  unfold cplTake; try dsimp only
  repeat' (first | with_reducible exact hK | with_reducible assumption | with_reducible apply State_modLink_kept | with_reducible apply setStatus_kept | with_reducible apply tallyAdd_kept | with_reducible apply protoError_kept | with_reducible apply deliverRead_kept | intro _ _ _ | intro _ _ | fail_if_no_progress (with_reducible apply kept_upd; on_goal 2 => exact ⟨rfl, rfl⟩) | split | rfl)
theorem tagTimeout_kept {qq : List Instr × Nat} (s : State) (tag : Nat) (hK : Kept qq s) : Kept qq (tagTimeout s tag) := by
  unfold tagTimeout; try dsimp only
  repeat' (first | with_reducible exact hK | with_reducible assumption | with_reducible apply State_modLink_kept | with_reducible apply pump_kept | with_reducible apply failRead_kept | intro _ _ _ | intro _ _ | fail_if_no_progress (with_reducible apply kept_upd; on_goal 2 => exact ⟨rfl, rfl⟩) | split | rfl)
theorem tagFree_kept {qq : List Instr × Nat} (s : State) (tag : Nat) (hK : Kept qq s) : Kept qq (tagFree s tag) := by
  unfold tagFree; try dsimp only
  repeat' (first | with_reducible exact hK | with_reducible assumption | with_reducible apply State_modLink_kept | with_reducible apply pump_kept | intro _ _ _ | intro _ _ | fail_if_no_progress (with_reducible apply kept_upd; on_goal 2 => exact ⟨rfl, rfl⟩) | split | rfl)
theorem signalStep_kept {qq : List Instr × Nat} (s : State) (signal locked : BitVec 4) (hK : Kept qq s) : Kept qq (signalStep s signal locked) := by
  unfold signalStep; try dsimp only
  repeat' (first | with_reducible exact hK | with_reducible assumption | with_reducible apply State_modLink_kept | with_reducible apply setLState_kept | intro _ _ _ | intro _ _ | fail_if_no_progress (with_reducible apply kept_upd; on_goal 2 => exact ⟨rfl, rfl⟩) | split | rfl)
theorem endStreams_kept {qq : List Instr × Nat} (s : State) (hK : Kept qq s) : Kept qq (endStreams s) := by
  unfold endStreams; try dsimp only
  repeat' (first | with_reducible exact hK | with_reducible assumption | with_reducible apply tryClose_kept | with_reducible apply foldl_kept | intro _ _ _ | intro _ _ | fail_if_no_progress (with_reducible apply kept_upd; on_goal 2 => exact ⟨rfl, rfl⟩) | split | rfl)
theorem endMessages_kept {qq : List Instr × Nat} (s : State) (hK : Kept qq s) : Kept qq (endMessages s) := by
  unfold endMessages; try dsimp only
  repeat' (first | with_reducible exact hK | with_reducible assumption | with_reducible apply State_modEg_kept | with_reducible apply freeBuf_kept | with_reducible apply foldl_kept | intro _ _ _ | intro _ _ | fail_if_no_progress (with_reducible apply kept_upd; on_goal 2 => exact ⟨rfl, rfl⟩) | split | rfl)
theorem epochChange_kept {qq : List Instr × Nat} (s : State) (hK : Kept qq s) : Kept qq (epochChange s) := by
  unfold epochChange; try dsimp only
  repeat' (first | with_reducible exact hK | with_reducible assumption | with_reducible apply State_modLink_kept | with_reducible apply State_modRings_kept | with_reducible apply setStatus_kept | with_reducible apply drainHeld_kept | with_reducible apply endStreams_kept | with_reducible apply endMessages_kept | with_reducible apply modWt_kept | intro _ _ _ | intro _ _ | fail_if_no_progress (with_reducible apply kept_upd; on_goal 2 => exact ⟨rfl, rfl⟩) | split | rfl)
theorem trainStep_kept {qq : List Instr × Nat} (s : State) (hK : Kept qq s) : Kept qq (trainStep s) := by
  unfold trainStep; try dsimp only
  repeat' (first | with_reducible exact hK | with_reducible assumption | with_reducible apply State_modLink_kept | with_reducible apply drainCpl_kept | with_reducible apply pump_kept | with_reducible apply setLState_kept | with_reducible apply enterDown_kept | with_reducible apply enterDegraded_kept | with_reducible apply epochChange_kept | intro _ _ _ | intro _ _ | fail_if_no_progress (with_reducible apply kept_upd; on_goal 2 => exact ⟨rfl, rfl⟩) | split | rfl)
theorem trainTimeoutStep_kept {qq : List Instr × Nat} (s : State) (hK : Kept qq s) : Kept qq (trainTimeoutStep s) := by
  unfold trainTimeoutStep; try dsimp only
  repeat' (first | with_reducible exact hK | with_reducible assumption | with_reducible apply enterDown_kept | intro _ _ _ | intro _ _ | fail_if_no_progress (with_reducible apply kept_upd; on_goal 2 => exact ⟨rfl, rfl⟩) | split | rfl)
theorem recoveryStep_kept {qq : List Instr × Nat} (s : State) (lanes : BitVec 4) (hK : Kept qq s) : Kept qq (recoveryStep s lanes) := by
  unfold recoveryStep; try dsimp only
  repeat' (first | with_reducible exact hK | with_reducible assumption | with_reducible apply State_modLink_kept | with_reducible apply setLState_kept | with_reducible apply enterDown_kept | with_reducible apply enterDegraded_kept | with_reducible apply startReplay_kept | intro _ _ _ | intro _ _ | fail_if_no_progress (with_reducible apply kept_upd; on_goal 2 => exact ⟨rfl, rfl⟩) | split | rfl)
theorem recoveryTimeoutStep_kept {qq : List Instr × Nat} (s : State) (hK : Kept qq s) : Kept qq (recoveryTimeoutStep s) := by
  unfold recoveryTimeoutStep; try dsimp only
  repeat' (first | with_reducible exact hK | with_reducible assumption | with_reducible apply enterDown_kept | intro _ _ _ | intro _ _ | fail_if_no_progress (with_reducible apply kept_upd; on_goal 2 => exact ⟨rfl, rfl⟩) | split | rfl)
theorem linkCfgOp_kept {qq : List Instr × Nat} (s : State) (v : Word) (hK : Kept qq s) : Kept qq (linkCfgOp s v) := by
  unfold linkCfgOp; try dsimp only
  repeat' (first | with_reducible exact hK | with_reducible assumption | with_reducible apply State_setReg_kept | with_reducible apply enterDown_kept | intro _ _ _ | intro _ _ | fail_if_no_progress (with_reducible apply kept_upd; on_goal 2 => exact ⟨rfl, rfl⟩) | split | rfl)
theorem linkCtrlOp_kept {qq : List Instr × Nat} (s : State) (v : Word) (hK : Kept qq s) : Kept qq (linkCtrlOp s v) := by
  unfold linkCtrlOp; try dsimp only
  repeat' (first | with_reducible exact hK | with_reducible assumption | with_reducible apply enterDown_kept | intro _ _ _ | intro _ _ | fail_if_no_progress (with_reducible apply kept_upd; on_goal 2 => exact ⟨rfl, rfl⟩) | split | rfl)
theorem readyFollow_kept {qq : List Instr × Nat} (s : State) (hK : Kept qq s) : Kept qq (readyFollow s) := by
  unfold readyFollow; try dsimp only
  repeat' (first | with_reducible exact hK | with_reducible assumption | with_reducible apply State_modLink_kept | intro _ _ _ | intro _ _ | fail_if_no_progress (with_reducible apply kept_upd; on_goal 2 => exact ⟨rfl, rfl⟩) | split | rfl)
theorem flitUncorr_kept {qq : List Instr × Nat} (s : State) (hK : Kept qq s) : Kept qq (flitUncorr s) := by
  unfold flitUncorr; try dsimp only
  repeat' (first | with_reducible exact hK | with_reducible assumption | with_reducible apply setStatus_kept | intro _ _ _ | intro _ _ | fail_if_no_progress (with_reducible apply kept_upd; on_goal 2 => exact ⟨rfl, rfl⟩) | split | rfl)
theorem flitByState_kept {qq : List Instr × Nat} (s : State) (flit : List Byte) (hK : Kept qq s) : Kept qq (flitByState s flit) := by
  unfold flitByState; try dsimp only
  repeat' (first | with_reducible exact hK | with_reducible assumption | with_reducible apply flitTake_kept | with_reducible apply trainTake_kept | intro _ _ _ | intro _ _ | fail_if_no_progress (with_reducible apply kept_upd; on_goal 2 => exact ⟨rfl, rfl⟩) | split | rfl)
theorem stopModule_kept {qq : List Instr × Nat} (s : State) (hK : Kept qq s) : Kept qq (stopModule s) := by
  unfold stopModule; try dsimp only
  repeat' (first | with_reducible exact hK | with_reducible assumption | with_reducible apply devEvent_kept | intro _ _ _ | intro _ _ | fail_if_no_progress (with_reducible apply kept_upd; on_goal 2 => exact ⟨rfl, rfl⟩) | split | rfl)
theorem trainAll_kept {qq : List Instr × Nat} : ∀ (xs : List (Sweep × Sweep)) (ch : Nat) (s : State), Kept qq s → Kept qq (trainAll xs ch s)
  | [], ch, s, hK => hK
  | x :: xs, ch, s, hK => trainAll_kept xs (ch + 1) _ (State_modChannel_kept _ _ _ hK)
theorem modMem_kept {qq : List Instr × Nat} (s : State) (f : Mem → Mem) (hK : Kept qq s) (hf : (f s.mem).dram = s.mem.dram) : Kept qq (s.modMem f) := ⟨hK.1, by show mwf 0 (f s.mem).dram = true; rw [hf]; exact hK.2⟩
theorem trainingDone_kept {qq : List Instr × Nat} (s : State) (sweeps : List (Sweep × Sweep)) (hK : Kept qq s) : Kept qq (trainingDone s sweeps) := by
  unfold trainingDone; try dsimp only
  repeat' (first | with_reducible exact hK | with_reducible assumption | with_reducible apply State_modPwr_kept | with_reducible apply raiseFault_kept | with_reducible apply stopModule_kept | with_reducible apply trainAll_kept | with_reducible apply modMem_kept | intro _ _ _ | intro _ _ | fail_if_no_progress (with_reducible apply kept_upd; on_goal 2 => exact ⟨rfl, rfl⟩) | split | rfl)
theorem refreshStep_kept {qq : List Instr × Nat} (s : State) (ch : Nat) (drift0 drift1 : Int) (hK : Kept qq s) : Kept qq (refreshStep s ch drift0 drift1) := by
  unfold refreshStep; try dsimp only
  repeat' (first | with_reducible exact hK | with_reducible assumption | with_reducible apply State_modChannel_kept | with_reducible apply setStatus_kept | with_reducible apply raiseFault_kept | intro _ _ _ | intro _ _ | fail_if_no_progress (with_reducible apply kept_upd; on_goal 2 => exact ⟨rfl, rfl⟩) | split | rfl)
theorem corrected_kept {qq : List Instr × Nat} (s : State) (ch : Nat) (errs : List (Fin 72)) (hK : Kept qq s) : Kept qq (corrected s ch errs) := by
  unfold corrected; try dsimp only
  repeat' (first | with_reducible exact hK | with_reducible assumption | with_reducible apply State_modChannel_kept | with_reducible apply setStatus_kept | with_reducible apply raiseFault_kept | intro _ _ _ | intro _ _ | fail_if_no_progress (with_reducible apply kept_upd; on_goal 2 => exact ⟨rfl, rfl⟩) | split | rfl)
theorem uncorrectable_kept {qq : List Instr × Nat} (s : State) (ch a : Nat) (hK : Kept qq s) : Kept qq (uncorrectable s ch a) := by
  unfold uncorrectable; try dsimp only
  repeat' (first | with_reducible exact hK | with_reducible assumption | with_reducible apply State_modChannel_kept | with_reducible apply setStatus_kept | with_reducible apply raiseFault_kept | with_reducible apply modMem_kept | intro _ _ _ | intro _ _ | fail_if_no_progress (with_reducible apply kept_upd; on_goal 2 => exact ⟨rfl, rfl⟩) | split | rfl)
theorem outerDecode_kept {qq : List Instr × Nat} (s : State) (ch a : Nat) (errs : List (Fin 72)) (hK : Kept qq s) : Kept qq (outerDecode s ch a errs) := by
  unfold outerDecode; try dsimp only
  repeat' (first | with_reducible exact hK | with_reducible assumption | with_reducible apply corrected_kept | with_reducible apply uncorrectable_kept | intro _ _ _ | intro _ _ | fail_if_no_progress (with_reducible apply kept_upd; on_goal 2 => exact ⟨rfl, rfl⟩) | split | rfl)
theorem burstOn_kept {qq : List Instr × Nat} (s : State) (ch o : Nat) (linkEcc : Bool) (hK : Kept qq s) : Kept qq (burstOn s ch o linkEcc) := by
  unfold burstOn; try dsimp only
  repeat' (first | with_reducible exact hK | with_reducible assumption | with_reducible apply State_modChannel_kept | intro _ _ _ | intro _ _ | fail_if_no_progress (with_reducible apply kept_upd; on_goal 2 => exact ⟨rfl, rfl⟩) | split | rfl)
theorem burstRead_kept {qq : List Instr × Nat} (s : State) (ch a : Nat) (linkEcc : Bool) (errs : List (Fin 72)) (hK : Kept qq s) : Kept qq (burstRead s ch a linkEcc errs) := by
  unfold burstRead; try dsimp only
  repeat' (first | with_reducible exact hK | with_reducible assumption | with_reducible apply State_modChannel_kept | with_reducible apply outerDecode_kept | with_reducible apply burstOn_kept | intro _ _ _ | intro _ _ | fail_if_no_progress (with_reducible apply kept_upd; on_goal 2 => exact ⟨rfl, rfl⟩) | split | rfl)
theorem burstWrite_kept {qq : List Instr × Nat} (s : State) (ch a : Nat) (linkEcc : Bool) (bs : List Byte) (poisoned : Bool) (hK : Kept qq s) : Kept qq (burstWrite s ch a linkEcc bs poisoned) := by
  unfold burstWrite; try dsimp only
  repeat' (first | with_reducible exact hK | with_reducible assumption | with_reducible apply State_modChannel_kept | with_reducible apply setStatus_kept | with_reducible apply memWrite_kept | with_reducible apply poisoned_kept | with_reducible apply burstOn_kept | intro _ _ _ | intro _ _ | fail_if_no_progress (with_reducible apply kept_upd; on_goal 2 => exact ⟨rfl, rfl⟩) | split | rfl)
theorem patrolStep_kept {qq : List Instr × Nat} (s : State) (linkEcc : Bool) (errs : List (Fin 72)) (hK : Kept qq s) : Kept qq (patrolStep s linkEcc errs) := by
  unfold patrolStep; try dsimp only
  repeat' (first | with_reducible exact hK | with_reducible assumption | with_reducible apply State_modChannel_kept | with_reducible apply outerDecode_kept | with_reducible apply burstOn_kept | with_reducible apply modMem_kept | intro _ _ _ | intro _ _ | fail_if_no_progress (with_reducible apply kept_upd; on_goal 2 => exact ⟨rfl, rfl⟩) | split | rfl)
theorem patrolInterval_kept {qq : List Instr × Nat} (s : State) (hK : Kept qq s) : Kept qq (patrolInterval s) := by
  unfold patrolInterval; try dsimp only
  repeat' (first | with_reducible exact hK | with_reducible assumption | with_reducible apply setStatus_kept | with_reducible apply modMem_kept | intro _ _ _ | intro _ _ | fail_if_no_progress (with_reducible apply kept_upd; on_goal 2 => exact ⟨rfl, rfl⟩) | split | rfl)
theorem arbDecision_kept {qq : List Instr × Nat} (s : State) (ch : Nat) (reqs : List MemReq) (hK : Kept qq s) : Kept qq (arbDecision s ch reqs) := by
  unfold arbDecision; try dsimp only
  repeat' (first | with_reducible exact hK | with_reducible assumption | with_reducible apply State_modChannel_kept | with_reducible apply tallyAdd_kept | with_reducible apply modMem_kept | intro _ _ _ | intro _ _ | fail_if_no_progress (with_reducible apply kept_upd; on_goal 2 => exact ⟨rfl, rfl⟩) | split | rfl)
theorem breakPoint_kept {qq : List Instr × Nat} (s : State) (ch : Nat) (reqs : List MemReq) (hK : Kept qq s) : Kept qq (breakPoint s ch reqs) := by
  unfold breakPoint; try dsimp only
  repeat' (first | with_reducible exact hK | with_reducible assumption | with_reducible apply State_modChannel_kept | intro _ _ _ | intro _ _ | fail_if_no_progress (with_reducible apply kept_upd; on_goal 2 => exact ⟨rfl, rfl⟩) | split | rfl)
theorem portRankOp_kept {qq : List Instr × Nat} (s : State) (p : Nat) (v : Word) (hK : Kept qq s) : Kept qq (portRankOp s p v) := by
  unfold portRankOp; try dsimp only
  repeat' (first | with_reducible exact hK | with_reducible assumption | with_reducible apply modMem_kept | intro _ _ _ | intro _ _ | fail_if_no_progress (with_reducible apply kept_upd; on_goal 2 => exact ⟨rfl, rfl⟩) | split | rfl)
theorem clearW1c_kept {qq : List Instr × Nat} (s : State) (d : Nat) (hK : Kept qq s) : Kept qq (clearW1c s d) := ⟨hK.1, hK.2⟩
theorem startEntry_kept {qq : List Instr × Nat} (s : State) (d : Nat) (t : DState) (hK : Kept qq s) : Kept qq (startEntry s d t) := by
  unfold startEntry; try dsimp only
  repeat' (first | with_reducible exact hK | with_reducible assumption | with_reducible apply State_modDomain_kept | with_reducible apply clearW1c_kept | intro _ _ _ | intro _ _ | fail_if_no_progress (with_reducible apply kept_upd; on_goal 2 => exact ⟨rfl, rfl⟩) | split | rfl)
theorem gapEntry_kept {qq : List Instr × Nat} (s : State) (d : Nat) (hK : Kept qq s) : Kept qq (gapEntry s d) := by
  unfold gapEntry; try dsimp only
  repeat' (first | with_reducible exact hK | with_reducible assumption | with_reducible apply startEntry_kept | intro _ _ _ | intro _ _ | fail_if_no_progress (with_reducible apply kept_upd; on_goal 2 => exact ⟨rfl, rfl⟩) | split | rfl)
theorem startWake_kept {qq : List Instr × Nat} (s : State) (d : Nat) (hK : Kept qq s) : Kept qq (startWake s d) := by
  unfold startWake; try dsimp only
  repeat' (first | with_reducible exact hK | with_reducible assumption | with_reducible apply State_modDomain_kept | intro _ _ _ | intro _ _ | fail_if_no_progress (with_reducible apply kept_upd; on_goal 2 => exact ⟨rfl, rfl⟩) | split | rfl)
theorem wakeStart_kept {qq : List Instr × Nat} (s : State) (d : Nat) (hK : Kept qq s) : Kept qq (wakeStart s d) := by
  unfold wakeStart; try dsimp only
  repeat' (first | with_reducible exact hK | with_reducible assumption | with_reducible apply startWake_kept | intro _ _ _ | intro _ _ | fail_if_no_progress (with_reducible apply kept_upd; on_goal 2 => exact ⟨rfl, rfl⟩) | split | rfl)
theorem entryDone_kept {qq : List Instr × Nat} (s : State) (d : Nat) (hK : Kept qq s) : Kept qq (entryDone s d) := by
  unfold entryDone; try dsimp only
  repeat' (first | with_reducible exact hK | with_reducible assumption | with_reducible apply State_modDomain_kept | with_reducible apply startWake_kept | intro _ _ _ | intro _ _ | fail_if_no_progress (with_reducible apply kept_upd; on_goal 2 => exact ⟨rfl, rfl⟩) | split | rfl)
theorem wakeDone_kept {qq : List Instr × Nat} (s : State) (d : Nat) (hK : Kept qq s) : Kept qq (wakeDone s d) := by
  unfold wakeDone; try dsimp only
  repeat' (first | with_reducible exact hK | with_reducible assumption | with_reducible apply State_modDomain_kept | with_reducible apply dealPieces_kept | intro _ _ _ | intro _ _ | fail_if_no_progress (with_reducible apply kept_upd; on_goal 2 => exact ⟨rfl, rfl⟩) | split | rfl)
theorem pdForceOp_kept {qq : List Instr × Nat} (s : State) (hi : Bool) (v : Word) (hK : Kept qq s) : Kept qq (pdForceOp s hi v) := by
  unfold pdForceOp; try dsimp only
  repeat' (first | with_reducible exact hK | with_reducible assumption | with_reducible apply State_setReg_kept | with_reducible apply startWake_kept | with_reducible apply foldl_kept | intro _ _ _ | intro _ _ | fail_if_no_progress (with_reducible apply kept_upd; on_goal 2 => exact ⟨rfl, rfl⟩) | split | rfl)
theorem resetBase_kept {qq : List Instr × Nat} (s : State) (ph : Phase) (m : Mem) (hK : Kept qq s) (hm : mwf 0 m.dram = true) : Kept qq (resetBase s ph m) := ⟨hK.1, hm⟩
theorem restart_kept {qq : List Instr × Nat} (s : State) (cause f : Nat) (hK : Kept qq s) : Kept qq (restart s cause f) := ⟨hK.1, hK.2⟩
theorem moduleRestart_kept {qq : List Instr × Nat} (s : State) (c : RestartCause) (hK : Kept qq s) : Kept qq (moduleRestart s c) := by
  unfold moduleRestart
  repeat' (first | exact hK | with_reducible apply restart_kept | split)
theorem resetnDown_kept {qq : List Instr × Nat} (s : State) (hK : Kept qq s) : Kept qq (resetnDown s) := by
  unfold resetnDown; try dsimp only
  repeat' (first | with_reducible exact hK | with_reducible assumption | with_reducible apply State_modPwr_kept | with_reducible apply restart_kept | intro _ _ _ | intro _ _ | fail_if_no_progress (with_reducible apply kept_upd; on_goal 2 => exact ⟨rfl, rfl⟩) | split | rfl)
theorem clkinDown_kept {qq : List Instr × Nat} (s : State) (hK : Kept qq s) : Kept qq (clkinDown s) := by
  unfold clkinDown; try dsimp only
  repeat' (first | with_reducible exact hK | with_reducible assumption | with_reducible apply State_modPwr_kept | with_reducible apply restart_kept | intro _ _ _ | intro _ _ | fail_if_no_progress (with_reducible apply kept_upd; on_goal 2 => exact ⟨rfl, rfl⟩) | split | rfl)
theorem clkinUp_kept {qq : List Instr × Nat} (s : State) (hK : Kept qq s) : Kept qq (clkinUp s) := by
  unfold clkinUp; try dsimp only
  repeat' (first | with_reducible exact hK | with_reducible assumption | with_reducible apply State_modPwr_kept | intro _ _ _ | intro _ _ | fail_if_no_progress (with_reducible apply kept_upd; on_goal 2 => exact ⟨rfl, rfl⟩) | split | rfl)
theorem powerUp_kept {qq : List Instr × Nat} (s : State) (hK : Kept qq s) : Kept qq (powerUp s) := by
  unfold powerUp; try dsimp only
  repeat' (first | with_reducible exact hK | with_reducible assumption | with_reducible apply State_modPwr_kept | with_reducible apply resetBase_kept | intro _ _ _ | intro _ _ | fail_if_no_progress (with_reducible apply kept_upd; on_goal 2 => exact ⟨rfl, rfl⟩) | split | rfl)
theorem powerDown_kept {qq : List Instr × Nat} (s : State) (hK : Kept qq s) : Kept qq (powerDown s) := by
  unfold powerDown; try dsimp only
  repeat' (first | with_reducible exact hK | with_reducible assumption | with_reducible apply resetBase_kept | intro _ _ _ | intro _ _ | fail_if_no_progress (with_reducible apply kept_upd; on_goal 2 => exact ⟨rfl, rfl⟩) | split | rfl)
theorem countEnd_kept {qq : List Instr × Nat} (s : State) (ftmLow : Bool) (hK : Kept qq s) : Kept qq (countEnd s ftmLow) := by
  unfold countEnd; try dsimp only
  repeat' (first | with_reducible exact hK | with_reducible assumption | with_reducible apply State_modPwr_kept | with_reducible apply State_modFlt_kept | intro _ _ _ | intro _ _ | fail_if_no_progress (with_reducible apply kept_upd; on_goal 2 => exact ⟨rfl, rfl⟩) | split | rfl)
theorem bootSettings_kept {qq : List Instr × Nat} (s : State) (hK : Kept qq s) : Kept qq (bootSettings s) := by
  unfold bootSettings; try dsimp only
  repeat' (first | with_reducible exact hK | with_reducible assumption | with_reducible apply setStatus_kept | with_reducible apply applySettings_kept | intro _ _ _ | intro _ _ | fail_if_no_progress (with_reducible apply kept_upd; on_goal 2 => exact ⟨rfl, rfl⟩) | split | rfl)
theorem bootDraws_kept {qq : List Instr × Nat} (s : State) (hK : Kept qq s) : Kept qq (bootDraws s) := ⟨hK.1, hK.2⟩
theorem pllLock_kept {qq : List Instr × Nat} (s : State) (imageOk : Bool) (hK : Kept qq s) : Kept qq (pllLock s imageOk) := by
  unfold pllLock; try dsimp only
  repeat' (first | with_reducible exact hK | with_reducible assumption | with_reducible apply devEvent_kept | with_reducible apply stageTrims_kept | with_reducible apply joinFold_kept | with_reducible apply bootSettings_kept | with_reducible apply bootDraws_kept | intro _ _ _ | intro _ _ | fail_if_no_progress (with_reducible apply kept_upd; on_goal 2 => exact ⟨rfl, rfl⟩) | split | rfl)
theorem retireAtBoot_kept {qq : List Instr × Nat} (s : State) (c : SelfTest) (hK : Kept qq s) : Kept qq (retireAtBoot s c) := by
  unfold retireAtBoot
  dsimp only
  repeat' (first | exact hK | exact ⟨hK.1, hK.2⟩ | split)
theorem placeBoot_kept {qq : List Instr × Nat} (s : State) (hK : Kept qq s) : Kept qq (placeBoot s) := by
  unfold placeBoot; dsimp only
  exact kept_upd _ (foldl_kept _ _ _ (fun t p h => place_kept t _ h) (place_kept _ _ (place_kept _ _ (place_kept _ _ hK)))) ⟨rfl, rfl⟩
theorem startupDone_kept {qq : List Instr × Nat} (s : State) (failed : List SelfTest) (hK : Kept qq s) : Kept qq (startupDone s failed) := by
  unfold startupDone; try dsimp only
  repeat' (first | with_reducible exact hK | with_reducible assumption | with_reducible apply State_modPwr_kept | with_reducible apply devEvent_kept | with_reducible apply checkPairs_kept | with_reducible apply stopModule_kept | with_reducible apply retireAtBoot_kept | with_reducible apply placeBoot_kept | with_reducible apply foldl_kept | intro _ _ _ | intro _ _ | fail_if_no_progress (with_reducible apply kept_upd; on_goal 2 => exact ⟨rfl, rfl⟩) | split | rfl)
theorem setFans_kept {qq : List Instr × Nat} (s : State) (hK : Kept qq s) : Kept qq (setFans s) := by
  unfold setFans; try dsimp only
  repeat' (first | with_reducible exact hK | with_reducible assumption | with_reducible apply State_modPwr_kept | intro _ _ _ | intro _ _ | fail_if_no_progress (with_reducible apply kept_upd; on_goal 2 => exact ⟨rfl, rfl⟩) | split | rfl)
theorem tempStopBegin_kept {qq : List Instr × Nat} (s : State) (hK : Kept qq s) : Kept qq (tempStopBegin s) := by
  unfold tempStopBegin; try dsimp only
  repeat' (first | with_reducible exact hK | with_reducible assumption | with_reducible apply State_modPwr_kept | with_reducible apply raiseFault_kept | with_reducible apply sendBuilt_kept | with_reducible apply foldl_kept | intro _ _ _ | intro _ _ | fail_if_no_progress (with_reducible apply kept_upd; on_goal 2 => exact ⟨rfl, rfl⟩) | split | rfl)
theorem warnStep_kept {qq : List Instr × Nat} (s : State) (w t : Bool) (hK : Kept qq s) : Kept qq (warnStep s w t) := by
  unfold warnStep; try dsimp only
  repeat' (first | with_reducible exact hK | with_reducible assumption | with_reducible apply State_modPwr_kept | with_reducible apply pendSrc_kept | with_reducible apply raiseFault_kept | with_reducible apply dealPieces_kept | intro _ _ _ | intro _ _ | fail_if_no_progress (with_reducible apply kept_upd; on_goal 2 => exact ⟨rfl, rfl⟩) | split | rfl)
theorem dieSample_kept {qq : List Instr × Nat} (s : State) (temps : List (BitVec 16)) (hK : Kept qq s) : Kept qq (dieSample s temps) := by
  unfold dieSample; try dsimp only
  repeat' (first | with_reducible exact hK | with_reducible assumption | with_reducible apply State_modPwr_kept | with_reducible apply pendSrc_kept | with_reducible apply setFans_kept | with_reducible apply tempStopBegin_kept | with_reducible apply warnStep_kept | intro _ _ _ | intro _ _ | fail_if_no_progress (with_reducible apply kept_upd; on_goal 2 => exact ⟨rfl, rfl⟩) | split | rfl)
theorem stopBreach_kept {qq : List Instr × Nat} (s : State) (c : Nat) (hK : Kept qq s) : Kept qq (stopBreach s c) := by
  unfold stopBreach; try dsimp only
  repeat' (first | with_reducible exact hK | with_reducible assumption | with_reducible apply breach_kept | intro _ _ _ | intro _ _ | fail_if_no_progress (with_reducible apply kept_upd; on_goal 2 => exact ⟨rfl, rfl⟩) | split | rfl)
theorem tempHalt_kept {qq : List Instr × Nat} (s : State) (hK : Kept qq s) : Kept qq (tempHalt s) := by
  unfold tempHalt; try dsimp only
  repeat' (first | with_reducible exact hK | with_reducible assumption | with_reducible apply stopModule_kept | with_reducible apply stopBreach_kept | with_reducible apply foldl_kept | intro _ _ _ | intro _ _ | fail_if_no_progress (with_reducible apply kept_upd; on_goal 2 => exact ⟨rfl, rfl⟩) | split | rfl)
theorem peakUpdate_kept {qq : List Instr × Nat} (s : State) (hK : Kept qq s) : Kept qq (peakUpdate s) := by
  unfold peakUpdate; try dsimp only
  repeat' (first | with_reducible exact hK | with_reducible assumption | with_reducible apply dealPieces_kept | intro _ _ _ | intro _ _ | fail_if_no_progress (with_reducible apply kept_upd; on_goal 2 => exact ⟨rfl, rfl⟩) | split | rfl)
theorem fanFail_kept {qq : List Instr × Nat} (s : State) (i : Nat) (hK : Kept qq s) : Kept qq (fanFail s i) := by
  unfold fanFail; try dsimp only
  repeat' (first | with_reducible exact hK | with_reducible assumption | with_reducible apply State_modPwr_kept | with_reducible apply raiseFault_kept | with_reducible apply setFans_kept | intro _ _ _ | intro _ _ | fail_if_no_progress (with_reducible apply kept_upd; on_goal 2 => exact ⟨rfl, rfl⟩) | split | rfl)
theorem unplug_kept {qq : List Instr × Nat} (s : State) (cage : Nat) (hK : Kept qq s) : Kept qq (unplug s cage) := by
  unfold unplug; try dsimp only
  repeat' (first | with_reducible exact hK | with_reducible assumption | with_reducible apply linkFall_kept | with_reducible apply peerFall_kept | with_reducible apply enterDown_kept | with_reducible apply foldl_kept | intro _ _ _ | intro _ _ | fail_if_no_progress (with_reducible apply kept_upd; on_goal 2 => exact ⟨rfl, rfl⟩) | split | rfl)
theorem retireDec_kept {qq : List Instr × Nat} (s : State) (core : Nat) (hK : Kept qq s) : Kept qq (retireDec s core) := by
  unfold retireDec; try dsimp only
  repeat' (first | with_reducible exact hK | with_reducible assumption | with_reducible apply State_modDec_kept | with_reducible apply pendSrc_kept | with_reducible apply startWake_kept | with_reducible apply modWt_kept | intro _ _ _ | intro _ _ | fail_if_no_progress (with_reducible apply kept_upd; on_goal 2 => exact ⟨rfl, rfl⟩) | split | rfl)
theorem retireEncoder_kept {qq : List Instr × Nat} (s : State) (core : Nat) (hK : Kept qq s) : Kept qq (retireEncoder s core) := by
  unfold retireEncoder; try dsimp only
  repeat' (first | with_reducible exact hK | with_reducible assumption | with_reducible apply retireEnc_kept | with_reducible apply startWake_kept | intro _ _ _ | intro _ _ | fail_if_no_progress (with_reducible apply kept_upd; on_goal 2 => exact ⟨rfl, rfl⟩) | split | rfl)
theorem retireSlice_kept {qq : List Instr × Nat} (s : State) (k : Nat) (hK : Kept qq s) : Kept qq (retireSlice s k) := by
  unfold retireSlice; try dsimp only
  repeat' (first | with_reducible exact hK | with_reducible assumption | with_reducible apply State_modSlice_kept | with_reducible apply pendSrc_kept | with_reducible apply setStatus_kept | intro _ _ _ | intro _ _ | fail_if_no_progress (with_reducible apply kept_upd; on_goal 2 => exact ⟨rfl, rfl⟩) | split | rfl)
theorem retireUnit_kept {qq : List Instr × Nat} (s : State) (f : Nat) (hK : Kept qq s) : Kept qq (retireUnit s f) := by
  unfold retireUnit; try dsimp only
  repeat' (first | with_reducible exact hK | with_reducible assumption | with_reducible apply retireDec_kept | with_reducible apply retireEncoder_kept | with_reducible apply retireSlice_kept | intro _ _ _ | intro _ _ | fail_if_no_progress (with_reducible apply kept_upd; on_goal 2 => exact ⟨rfl, rfl⟩) | split | rfl)
theorem cutDrover_kept {qq : List Instr × Nat} (s : State) (d : Nat) (hK : Kept qq s) : Kept qq (cutDrover s d) := by
  unfold cutDrover; try dsimp only
  repeat' (first | with_reducible exact hK | with_reducible assumption | with_reducible apply State_modDrover_kept | with_reducible apply skipAll_kept | intro _ _ _ | intro _ _ | fail_if_no_progress (with_reducible apply kept_upd; on_goal 2 => exact ⟨rfl, rfl⟩) | split | rfl)
theorem cutPort_kept {qq : List Instr × Nat} (s : State) (p : Nat) (hK : Kept qq s) : Kept qq (cutPort s p) := by
  unfold cutPort; try dsimp only
  repeat' (first | with_reducible exact hK | with_reducible assumption | with_reducible apply linkFall_kept | with_reducible apply skipAll_kept | with_reducible apply emptyFifo_kept | intro _ _ _ | intro _ _ | fail_if_no_progress (with_reducible apply kept_upd; on_goal 2 => exact ⟨rfl, rfl⟩) | split | rfl)
theorem cutEvent_kept {qq : List Instr × Nat} (s : State) (q : QLearn) (hK : Kept qq s) : Kept qq (cutEvent s q) := by
  unfold cutEvent; try dsimp only
  repeat' (first | with_reducible exact hK | with_reducible assumption | with_reducible apply State_modTbl_kept | with_reducible apply lostEvent_kept | with_reducible apply telemetry_kept | intro _ _ _ | intro _ _ | fail_if_no_progress (with_reducible apply kept_upd; on_goal 2 => exact ⟨rfl, rfl⟩) | split | rfl)
theorem cutTables_kept {qq : List Instr × Nat} (s : State) (hK : Kept qq s) : Kept qq (cutTables s) := by
  unfold cutTables; try dsimp only
  repeat' (first | with_reducible exact hK | with_reducible assumption | with_reducible apply State_modTbl_kept | with_reducible apply cutEvent_kept | with_reducible apply foldl_kept | intro _ _ _ | intro _ _ | fail_if_no_progress (with_reducible apply kept_upd; on_goal 2 => exact ⟨rfl, rfl⟩) | split | rfl)
theorem cutUnitFetch_kept {qq : List Instr × Nat} (n : Nat) (s : State) (u : Au) (hK : Kept qq s) : Kept qq (cutUnitFetch n s u) := by
  unfold cutUnitFetch; try dsimp only
  repeat' (first | with_reducible exact hK | with_reducible assumption | with_reducible apply State_modStream_kept | with_reducible apply completeWith_kept | intro _ _ _ | intro _ _ | fail_if_no_progress (with_reducible apply kept_upd; on_goal 2 => exact ⟨rfl, rfl⟩) | split | rfl)
theorem cutRawFetch_kept {qq : List Instr × Nat} (n : Nat) (s : State) (r : RawSubmit) (hK : Kept qq s) : Kept qq (cutRawFetch n s r) := by
  unfold cutRawFetch; try dsimp only
  repeat' (first | with_reducible exact hK | with_reducible assumption | with_reducible apply State_modStream_kept | with_reducible apply completeWith_kept | intro _ _ _ | intro _ _ | fail_if_no_progress (with_reducible apply kept_upd; on_goal 2 => exact ⟨rfl, rfl⟩) | split | rfl)
theorem cutStream_kept {qq : List Instr × Nat} (s : State) (n : Nat) (hK : Kept qq s) : Kept qq (cutStream s n) := by
  unfold cutStream; try dsimp only
  repeat' (first | with_reducible exact hK | with_reducible assumption | with_reducible apply tryClose_kept | with_reducible apply cutUnitFetch_kept | with_reducible apply cutRawFetch_kept | with_reducible apply foldl_kept | intro _ _ _ | intro _ _ | fail_if_no_progress (with_reducible apply kept_upd; on_goal 2 => exact ⟨rfl, rfl⟩) | split | rfl)
theorem cutDma_kept {qq : List Instr × Nat} (s : State) (hK : Kept qq s) : Kept qq (cutDma s) := by
  unfold cutDma; try dsimp only
  repeat' (first | with_reducible exact hK | with_reducible assumption | with_reducible apply State_modLink_kept | with_reducible apply State_modDma_kept | with_reducible apply completeWith_kept | with_reducible apply cutStream_kept | with_reducible apply foldl_kept | intro _ _ _ | intro _ _ | fail_if_no_progress (with_reducible apply kept_upd; on_goal 2 => exact ⟨rfl, rfl⟩) | split | rfl)
theorem domainEffects_kept {qq : List Instr × Nat} (s : State) (d : Nat) (hK : Kept qq s) : Kept qq (domainEffects s d) := by
  unfold domainEffects; try dsimp only
  repeat' (first | with_reducible exact hK | with_reducible assumption | with_reducible apply State_modPrx_kept | with_reducible apply peerFall_kept | with_reducible apply enterDown_kept | with_reducible apply cutDrover_kept | with_reducible apply cutPort_kept | with_reducible apply cutTables_kept | with_reducible apply cutDma_kept | with_reducible apply foldl_kept | intro _ _ _ | intro _ _ | fail_if_no_progress (with_reducible apply kept_upd; on_goal 2 => exact ⟨rfl, rfl⟩) | split | rfl)
theorem domainRestart_kept {qq : List Instr × Nat} (s : State) (d : Nat) (hK : Kept qq s) : Kept qq (domainRestart s d) := by
  unfold domainRestart; try dsimp only
  repeat' (first | with_reducible exact hK | with_reducible assumption | with_reducible apply State_modDomain_kept | with_reducible apply clearW1c_kept | with_reducible apply domainEffects_kept | intro _ _ _ | intro _ _ | fail_if_no_progress (with_reducible apply kept_upd; on_goal 2 => exact ⟨rfl, rfl⟩) | split | rfl)
theorem rebuildTables_kept {qq : List Instr × Nat} (s : State) (hK : Kept qq s) : Kept qq (rebuildTables s) := by
  unfold rebuildTables; try dsimp only
  repeat' (first | with_reducible exact hK | with_reducible assumption | with_reducible apply State_modTbl_kept | with_reducible apply learnStatic_kept | with_reducible apply drainHeld_kept | with_reducible apply foldl_kept | intro _ _ _ | intro _ _ | fail_if_no_progress (with_reducible apply kept_upd; on_goal 2 => exact ⟨rfl, rfl⟩) | split | rfl)
theorem restartDone_kept {qq : List Instr × Nat} (s : State) (d : Nat) (hK : Kept qq s) : Kept qq (restartDone s d) := by
  unfold restartDone; try dsimp only
  repeat' (first | with_reducible exact hK | with_reducible assumption | with_reducible apply State_modDomain_kept | with_reducible apply stageTrims_kept | with_reducible apply dealPieces_kept | with_reducible apply rebuildTables_kept | intro _ _ _ | intro _ _ | fail_if_no_progress (with_reducible apply kept_upd; on_goal 2 => exact ⟨rfl, rfl⟩) | split | rfl)
theorem dogAct_kept {qq : List Instr × Nat} (s : State) (f : Nat) (hK : Kept qq s) : Kept qq (dogAct s f) := by
  unfold dogAct; try dsimp only
  repeat' (first | with_reducible exact hK | with_reducible assumption | with_reducible apply State_modFlt_kept | with_reducible apply retireUnit_kept | with_reducible apply domainRestart_kept | intro _ _ _ | intro _ _ | fail_if_no_progress (with_reducible apply kept_upd; on_goal 2 => exact ⟨rfl, rfl⟩) | split | rfl)
theorem dogExpire_kept {qq : List Instr × Nat} (s : State) (g : Nat) (hK : Kept qq s) : Kept qq (dogExpire s g) := by
  unfold dogExpire; try dsimp only
  repeat' (first | with_reducible exact hK | with_reducible assumption | with_reducible apply State_modFlt_kept | with_reducible apply pendSrc_kept | with_reducible apply restart_kept | with_reducible apply dogAct_kept | with_reducible apply foldl_kept | intro _ _ _ | intro _ _ | fail_if_no_progress (with_reducible apply kept_upd; on_goal 2 => exact ⟨rfl, rfl⟩) | split | rfl)
theorem dogStep_kept {qq : List Instr × Nat} (s : State) (g : Nat) (hK : Kept qq s) : Kept qq (dogStep s g) := by
  unfold dogStep; try dsimp only
  repeat' (first | with_reducible exact hK | with_reducible assumption | with_reducible apply dogExpire_kept | intro _ _ _ | intro _ _ | fail_if_no_progress (with_reducible apply kept_upd; on_goal 2 => exact ⟨rfl, rfl⟩) | split | rfl)
theorem ackRepair_kept {qq : List Instr × Nat} (s : State) (f : Nat) (hK : Kept qq s) : Kept qq (ackRepair s f) := by
  unfold ackRepair; try dsimp only
  repeat' (first | with_reducible exact hK | with_reducible assumption | with_reducible apply State_modPrx_kept | with_reducible apply peerFall_kept | intro _ _ _ | intro _ _ | fail_if_no_progress (with_reducible apply kept_upd; on_goal 2 => exact ⟨rfl, rfl⟩) | split | rfl)
theorem fltAckOp_kept {qq : List Instr × Nat} (s : State) (g : Nat) (hK : Kept qq s) : Kept qq (fltAckOp s g) := by
  unfold fltAckOp; try dsimp only
  repeat' (first | with_reducible exact hK | with_reducible assumption | with_reducible apply State_modFlt_kept | with_reducible apply ackRepair_kept | with_reducible apply foldl_kept | intro _ _ _ | intro _ _ | fail_if_no_progress (with_reducible apply kept_upd; on_goal 2 => exact ⟨rfl, rfl⟩) | split | rfl)
theorem fltAckBy_kept {qq : List Instr × Nat} (s : State) (a : Agent) (v : Word) (hK : Kept qq s) : Kept qq (fltAckBy s a v) := by
  unfold fltAckBy; try dsimp only
  repeat' (first | with_reducible exact hK | with_reducible assumption | with_reducible apply fltAckOp_kept | intro _ _ _ | intro _ _ | fail_if_no_progress (with_reducible apply kept_upd; on_goal 2 => exact ⟨rfl, rfl⟩) | split | rfl)
theorem faultEdge_kept {qq : List Instr × Nat} (s : State) (f : Nat) (hK : Kept qq s) : Kept qq (faultEdge s f) := by
  unfold faultEdge; try dsimp only
  repeat' (first | with_reducible exact hK | with_reducible assumption | with_reducible apply pendSrc_kept | intro _ _ _ | intro _ _ | fail_if_no_progress (with_reducible apply kept_upd; on_goal 2 => exact ⟨rfl, rfl⟩) | split | rfl)
theorem unitDetect_kept {qq : List Instr × Nat} (s : State) (f : Nat) (hK : Kept qq s) : Kept qq (unitDetect s f) := by
  unfold unitDetect; try dsimp only
  repeat' (first | with_reducible exact hK | with_reducible assumption | with_reducible apply setStatus_kept | with_reducible apply raiseFault_kept | with_reducible apply faultEdge_kept | intro _ _ _ | intro _ _ | fail_if_no_progress (with_reducible apply kept_upd; on_goal 2 => exact ⟨rfl, rfl⟩) | split | rfl)
theorem injectDrover_kept {qq : List Instr × Nat} (s : State) (d i : Nat) (hK : Kept qq s) : Kept qq (injectDrover s d i) := by
  unfold injectDrover; try dsimp only
  repeat' (first | with_reducible exact hK | with_reducible assumption | with_reducible apply raiseFault_kept | with_reducible apply endCommand_kept | with_reducible apply stepLimit_kept | with_reducible apply haltDrover_kept | intro _ _ _ | intro _ _ | fail_if_no_progress (with_reducible apply kept_upd; on_goal 2 => exact ⟨rfl, rfl⟩) | split | rfl)
theorem injectAct_kept {qq : List Instr × Nat} (s : State) (f : Nat) (hK : Kept qq s) : Kept qq (injectAct s f) := by
  unfold injectAct; try dsimp only
  repeat' (first | with_reducible exact hK | with_reducible assumption | with_reducible apply setStatus_kept | with_reducible apply raiseFault_kept | with_reducible apply tblUe_kept | with_reducible apply enterTime_kept | with_reducible apply duplicate_kept | with_reducible apply fatalProto_kept | with_reducible apply stopModule_kept | with_reducible apply tempStopBegin_kept | with_reducible apply warnStep_kept | with_reducible apply faultEdge_kept | with_reducible apply injectDrover_kept | with_reducible apply modWt_kept | intro _ _ _ | intro _ _ | fail_if_no_progress (with_reducible apply kept_upd; on_goal 2 => exact ⟨rfl, rfl⟩) | split | rfl)
theorem injectOp_kept {qq : List Instr × Nat} (s : State) (v : Word) (hK : Kept qq s) : Kept qq (injectOp s v) := by
  unfold injectOp; try dsimp only
  repeat' (first | with_reducible exact hK | with_reducible assumption | with_reducible apply State_setReg_kept | with_reducible apply injectAct_kept | intro _ _ _ | intro _ _ | fail_if_no_progress (with_reducible apply kept_upd; on_goal 2 => exact ⟨rfl, rfl⟩) | split | rfl)
theorem claimOp_kept {qq : List Instr × Nat} (s : State) (t : Nat) (hK : Kept qq s) : Kept qq (claimOp s t) := by
  unfold claimOp; try dsimp only
  repeat' (first | with_reducible exact hK | with_reducible assumption | with_reducible apply devEvent_kept | intro _ _ _ | intro _ _ | fail_if_no_progress (with_reducible apply kept_upd; on_goal 2 => exact ⟨rfl, rfl⟩) | split | rfl)
theorem completeOp_kept {qq : List Instr × Nat} (s : State) (t : Nat) (v : Word) (hK : Kept qq s) : Kept qq (completeOp s t v) := by
  unfold completeOp; try dsimp only
  repeat' (first | with_reducible exact hK | with_reducible assumption | with_reducible apply devEvent_kept | with_reducible apply levelSample_kept | intro _ _ _ | intro _ _ | fail_if_no_progress (with_reducible apply kept_upd; on_goal 2 => exact ⟨rfl, rfl⟩) | split | rfl)
theorem sampleWord_kept {qq : List Instr × Nat} (s : State) (k : Nat) (hK : Kept qq s) : Kept qq (sampleWord s k) := by
  unfold sampleWord; try dsimp only
  repeat' (first | with_reducible exact hK | with_reducible assumption | with_reducible apply levelSample_kept | with_reducible apply foldl_kept | intro _ _ _ | intro _ _ | fail_if_no_progress (with_reducible apply kept_upd; on_goal 2 => exact ⟨rfl, rfl⟩) | split | rfl)
theorem intPendOp_kept {qq : List Instr × Nat} (s : State) (k : Nat) (v : Word) (hK : Kept qq s) : Kept qq (intPendOp s k v) := by
  unfold intPendOp; try dsimp only
  repeat' (first | with_reducible exact hK | with_reducible assumption | with_reducible apply devEvent_kept | with_reducible apply sampleWord_kept | intro _ _ _ | intro _ _ | fail_if_no_progress (with_reducible apply kept_upd; on_goal 2 => exact ⟨rfl, rfl⟩) | split | rfl)
theorem intMaskOp_kept {qq : List Instr × Nat} (s : State) (k : Nat) (v : Word) (hK : Kept qq s) : Kept qq (intMaskOp s k v) := by
  unfold intMaskOp; try dsimp only
  repeat' (first | with_reducible exact hK | with_reducible assumption | with_reducible apply devEvent_kept | intro _ _ _ | intro _ _ | fail_if_no_progress (with_reducible apply kept_upd; on_goal 2 => exact ⟨rfl, rfl⟩) | split | rfl)
theorem srcCfgOp_kept {qq : List Instr × Nat} (s : State) (n : Nat) (v : Word) (hK : Kept qq s) : Kept qq (srcCfgOp s n v) := by
  unfold srcCfgOp; try dsimp only
  repeat' (first | with_reducible exact hK | with_reducible assumption | with_reducible apply State_setReg_kept | with_reducible apply devEvent_kept | intro _ _ _ | intro _ _ | fail_if_no_progress (with_reducible apply kept_upd; on_goal 2 => exact ⟨rfl, rfl⟩) | split | rfl)
theorem threshOp_kept {qq : List Instr × Nat} (s : State) (t : Nat) (v : Word) (hK : Kept qq s) : Kept qq (threshOp s t v) := by
  unfold threshOp; try dsimp only
  repeat' (first | with_reducible exact hK | with_reducible assumption | with_reducible apply State_setReg_kept | with_reducible apply devEvent_kept | intro _ _ _ | intro _ _ | fail_if_no_progress (with_reducible apply kept_upd; on_goal 2 => exact ⟨rfl, rfl⟩) | split | rfl)
theorem latchHi_kept {qq : List Instr × Nat} (s : State) (a : Agent) (off : Nat) (hK : Kept qq s) : Kept qq (latchHi s a off) := by
  unfold latchHi; try dsimp only
  repeat' (first | with_reducible exact hK | with_reducible assumption | with_reducible apply State_setLatch_kept | intro _ _ _ | intro _ _ | fail_if_no_progress (with_reducible apply kept_upd; on_goal 2 => exact ⟨rfl, rfl⟩) | split | rfl)
theorem clearWait_kept {qq : List Instr × Nat} (s : State) (a : Agent) (hK : Kept qq s) : Kept qq (clearWait s a) := ⟨hK.1, hK.2⟩
theorem readEffect_kept {qq : List Instr × Nat} (s : State) (a : Agent) (off : Nat) (hK : Kept qq s) : Kept qq (readEffect s a off) := by
  unfold readEffect; try dsimp only
  repeat' (first | with_reducible exact hK | with_reducible assumption | with_reducible apply claimOp_kept | with_reducible apply latchHi_kept | with_reducible apply clearWait_kept | intro _ _ _ | intro _ _ | fail_if_no_progress (with_reducible apply kept_upd; on_goal 2 => exact ⟨rfl, rfl⟩) | split | rfl)
theorem readState_kept {qq : List Instr × Nat} (s : State) (a : Agent) (off : Nat) (hK : Kept qq s) : Kept qq (readState s a off) := by
  unfold readState; try dsimp only
  repeat' (first | with_reducible exact hK | with_reducible assumption | with_reducible apply readEffect_kept | intro _ _ _ | intro _ _ | fail_if_no_progress (with_reducible apply kept_upd; on_goal 2 => exact ⟨rfl, rfl⟩) | split | rfl)
theorem resample_kept {qq : List Instr × Nat} (s : State) (off : Nat) (hK : Kept qq s) : Kept qq (resample s off) := by
  unfold resample; try dsimp only
  repeat' (first | with_reducible exact hK | with_reducible assumption | with_reducible apply levelSample_kept | intro _ _ _ | intro _ _ | fail_if_no_progress (with_reducible apply kept_upd; on_goal 2 => exact ⟨rfl, rfl⟩) | split | rfl)
theorem storeReg_kept {qq : List Instr × Nat} (s : State) (off mask : Nat) (v : Word) (hK : Kept qq s) : Kept qq (storeReg s off mask v) := by
  unfold storeReg; try dsimp only
  repeat' (first | with_reducible exact hK | with_reducible assumption | with_reducible apply State_setReg_kept | with_reducible apply resample_kept | intro _ _ _ | intro _ _ | fail_if_no_progress (with_reducible apply kept_upd; on_goal 2 => exact ⟨rfl, rfl⟩) | split | rfl)
theorem clearBits_kept {qq : List Instr × Nat} (s : State) (off : Nat) (v : Word) (hK : Kept qq s) : Kept qq (clearBits s off v) := by
  unfold clearBits; try dsimp only
  repeat' (first | with_reducible exact hK | with_reducible assumption | with_reducible apply State_setReg_kept | with_reducible apply resample_kept | intro _ _ _ | intro _ _ | fail_if_no_progress (with_reducible apply kept_upd; on_goal 2 => exact ⟨rfl, rfl⟩) | split | rfl)
theorem writeIf_kept {qq : List Instr × Nat} (c : Bool) (s t : State) (hK : Kept qq s) (ht : Kept qq t) : Kept qq (writeIf c s t) := by
  unfold writeIf; split <;> assumption
theorem placeCanvas_kept {qq : List Instr × Nat} (s : State) (v : Word) (hK : Kept qq s) : Kept qq (placeCanvas s v) := ⟨hK.1, hK.2⟩
theorem canvasSizeOp_kept {qq : List Instr × Nat} (s : State) (v : Word) (hK : Kept qq s) : Kept qq (canvasSizeOp s v) := by
  unfold canvasSizeOp; try dsimp only
  repeat' (first | with_reducible exact hK | with_reducible assumption | with_reducible apply State_setReg_kept | with_reducible apply placeCanvas_kept | intro _ _ _ | intro _ _ | fail_if_no_progress (with_reducible apply kept_upd; on_goal 2 => exact ⟨rfl, rfl⟩) | split | rfl)
theorem canvasColourOp_kept {qq : List Instr × Nat} (s : State) (v : Word) (hK : Kept qq s) : Kept qq (canvasColourOp s v) := by
  unfold canvasColourOp; try dsimp only
  repeat' (first | with_reducible exact hK | with_reducible assumption | with_reducible apply State_setReg_kept | with_reducible apply writeIf_kept | intro _ _ _ | intro _ _ | fail_if_no_progress (with_reducible apply kept_upd; on_goal 2 => exact ⟨rfl, rfl⟩) | split | rfl)
theorem sclDataOp_kept {qq : List Instr × Nat} (s : State) (a : Agent) (i : Nat) (v : Word) (hK : Kept qq s) : Kept qq (sclDataOp s a i v) := by
  unfold sclDataOp; try dsimp only
  repeat' (first | with_reducible exact hK | with_reducible assumption | with_reducible apply State_setReg_kept | with_reducible apply setStatus_kept | intro _ _ _ | intro _ _ | fail_if_no_progress (with_reducible apply kept_upd; on_goal 2 => exact ⟨rfl, rfl⟩) | split | rfl)
theorem portCfgOp_kept {qq : List Instr × Nat} (s : State) (p : Nat) (v : Word) (hK : Kept qq s) : Kept qq (portCfgOp s p v) := by
  unfold portCfgOp; try dsimp only
  repeat' (first | with_reducible exact hK | with_reducible assumption | with_reducible apply State_setReg_kept | with_reducible apply checkPairs_kept | with_reducible apply linkFall_kept | intro _ _ _ | intro _ _ | fail_if_no_progress (with_reducible apply kept_upd; on_goal 2 => exact ⟨rfl, rfl⟩) | split | rfl)
theorem poolRsvOp_kept {qq : List Instr × Nat} (s : State) (o : Nat) (v : Word) (hK : Kept qq s) : Kept qq (poolRsvOp s o v) := by
  unfold poolRsvOp; try dsimp only
  repeat' (first | with_reducible exact hK | with_reducible assumption | with_reducible apply setStatus_kept | with_reducible apply relevel_kept | with_reducible apply foldl_kept | intro _ _ _ | intro _ _ | fail_if_no_progress (with_reducible apply kept_upd; on_goal 2 => exact ⟨rfl, rfl⟩) | split | rfl)
theorem schedAccOp_kept {qq : List Instr × Nat} (s : State) (v : Word) (hK : Kept qq s) : Kept qq (schedAccOp s v) := by
  unfold schedAccOp; try dsimp only
  repeat' (first | with_reducible exact hK | with_reducible assumption | with_reducible apply State_setReg_kept | intro _ _ _ | intro _ _ | fail_if_no_progress (with_reducible apply kept_upd; on_goal 2 => exact ⟨rfl, rfl⟩) | split | rfl)
theorem setSchedData_kept {qq : List Instr × Nat} (s : State) (d0 d1 d2 d3 : Nat) (hK : Kept qq s) : Kept qq (setSchedData s d0 d1 d2 d3) := by
  unfold setSchedData; try dsimp only
  repeat' (first | with_reducible exact hK | with_reducible assumption | with_reducible apply State_setReg_kept | intro _ _ _ | intro _ _ | fail_if_no_progress (with_reducible apply kept_upd; on_goal 2 => exact ⟨rfl, rfl⟩) | split | rfl)
theorem schedEnd_kept {qq : List Instr × Nat} (s : State) (err : Bool) (hK : Kept qq s) : Kept qq (schedEnd s err) := by
  unfold schedEnd; try dsimp only
  repeat' (first | with_reducible exact hK | with_reducible assumption | with_reducible apply State_setReg_kept | intro _ _ _ | intro _ _ | fail_if_no_progress (with_reducible apply kept_upd; on_goal 2 => exact ⟨rfl, rfl⟩) | split | rfl)
theorem schedFail_kept {qq : List Instr × Nat} (s : State) (hK : Kept qq s) : Kept qq (schedFail s) := by
  unfold schedFail; try dsimp only
  repeat' (first | with_reducible exact hK | with_reducible assumption | with_reducible apply setSchedData_kept | with_reducible apply schedEnd_kept | intro _ _ _ | intro _ _ | fail_if_no_progress (with_reducible apply kept_upd; on_goal 2 => exact ⟨rfl, rfl⟩) | split | rfl)
theorem schedReadCfg_kept {qq : List Instr × Nat} (s : State) (q : Nat) (hK : Kept qq s) : Kept qq (schedReadCfg s q) := by
  unfold schedReadCfg; try dsimp only
  repeat' (first | with_reducible exact hK | with_reducible assumption | with_reducible apply setSchedData_kept | with_reducible apply schedEnd_kept | intro _ _ _ | intro _ _ | fail_if_no_progress (with_reducible apply kept_upd; on_goal 2 => exact ⟨rfl, rfl⟩) | split | rfl)
theorem schedWriteCfg_kept {qq : List Instr × Nat} (s : State) (q : Nat) (hK : Kept qq s) : Kept qq (schedWriteCfg s q) := by
  unfold schedWriteCfg; try dsimp only
  repeat' (first | with_reducible exact hK | with_reducible assumption | with_reducible apply State_modPort_kept | with_reducible apply schedEnd_kept | with_reducible apply schedFail_kept | with_reducible apply foldl_kept | intro _ _ _ | intro _ _ | fail_if_no_progress (with_reducible apply kept_upd; on_goal 2 => exact ⟨rfl, rfl⟩) | split | rfl)
theorem schedReadState_kept {qq : List Instr × Nat} (s : State) (p q : Nat) (hK : Kept qq s) : Kept qq (schedReadState s p q) := by
  unfold schedReadState; try dsimp only
  repeat' (first | with_reducible exact hK | with_reducible assumption | with_reducible apply setSchedData_kept | with_reducible apply schedEnd_kept | with_reducible apply schedFail_kept | intro _ _ _ | intro _ _ | fail_if_no_progress (with_reducible apply kept_upd; on_goal 2 => exact ⟨rfl, rfl⟩) | split | rfl)
theorem schedRun_kept {qq : List Instr × Nat} (s : State) (hK : Kept qq s) : Kept qq (schedRun s) := by
  unfold schedRun; try dsimp only
  repeat' (first | with_reducible exact hK | with_reducible assumption | with_reducible apply schedFail_kept | with_reducible apply schedReadCfg_kept | with_reducible apply schedWriteCfg_kept | with_reducible apply schedReadState_kept | intro _ _ _ | intro _ _ | fail_if_no_progress (with_reducible apply kept_upd; on_goal 2 => exact ⟨rfl, rfl⟩) | split | rfl)
theorem urgOp_kept {qq : List Instr × Nat} (s : State) (p off : Nat) (v : Word) (hK : Kept qq s) : Kept qq (urgOp s p off v) := by
  unfold urgOp; try dsimp only
  repeat' (first | with_reducible exact hK | with_reducible assumption | with_reducible apply State_setReg_kept | with_reducible apply State_modPort_kept | intro _ _ _ | intro _ _ | fail_if_no_progress (with_reducible apply kept_upd; on_goal 2 => exact ⟨rfl, rfl⟩) | split | rfl)
theorem writeSched_kept {qq : List Instr × Nat} (s : State) (off : Nat) (v : Word) (hK : Kept qq s) : Kept qq (writeSched s off v) := by
  unfold writeSched; try dsimp only
  repeat' (first | with_reducible exact hK | with_reducible assumption | with_reducible apply State_setReg_kept | with_reducible apply writeIf_kept | with_reducible apply schedAccOp_kept | with_reducible apply urgOp_kept | intro _ _ _ | intro _ _ | fail_if_no_progress (with_reducible apply kept_upd; on_goal 2 => exact ⟨rfl, rfl⟩) | split | rfl)
theorem tblSelOp_kept {qq : List Instr × Nat} (s : State) (a : Agent) (v : Word) (hK : Kept qq s) : Kept qq (tblSelOp s a v) := by
  unfold tblSelOp; try dsimp only
  repeat' (first | with_reducible exact hK | with_reducible assumption | with_reducible apply State_setSel_kept | with_reducible apply State_setLatch_kept | with_reducible apply foldl_kept | intro _ _ _ | intro _ _ | fail_if_no_progress (with_reducible apply kept_upd; on_goal 2 => exact ⟨rfl, rfl⟩) | split | rfl)
theorem sqBaseOp_kept {qq : List Instr × Nat} (s : State) (r : Nat) (hi : Bool) (v : Word) (hK : Kept qq s) : Kept qq (sqBaseOp s r hi v) := by
  unfold sqBaseOp; try dsimp only
  repeat' (first | with_reducible exact hK | with_reducible assumption | with_reducible apply modSq_kept | intro _ _ _ | intro _ _ | fail_if_no_progress (with_reducible apply kept_upd; on_goal 2 => exact ⟨rfl, rfl⟩) | split | rfl)
theorem cqBaseOp_kept {qq : List Instr × Nat} (s : State) (r : Nat) (hi : Bool) (v : Word) (hK : Kept qq s) : Kept qq (cqBaseOp s r hi v) := by
  unfold cqBaseOp; try dsimp only
  repeat' (first | with_reducible exact hK | with_reducible assumption | with_reducible apply State_modCq_kept | intro _ _ _ | intro _ _ | fail_if_no_progress (with_reducible apply kept_upd; on_goal 2 => exact ⟨rfl, rfl⟩) | split | rfl)
theorem tlmCfgOp_kept {qq : List Instr × Nat} (s : State) (v : Word) (hK : Kept qq s) : Kept qq (tlmCfgOp s v) := by
  unfold tlmCfgOp; try dsimp only
  repeat' (first | with_reducible exact hK | with_reducible assumption | with_reducible apply State_setReg_kept | with_reducible apply State_modRings_kept | with_reducible apply cfgReject_kept | intro _ _ _ | intro _ _ | fail_if_no_progress (with_reducible apply kept_upd; on_goal 2 => exact ⟨rfl, rfl⟩) | split | rfl)
theorem writeRings_kept {qq : List Instr × Nat} (s : State) (a : Agent) (off : Nat) (v : Word) (hK : Kept qq s) : Kept qq (writeRings s a off v) := by
  unfold writeRings; try dsimp only
  repeat' (first | with_reducible exact hK | with_reducible assumption | with_reducible apply State_setReg_kept | with_reducible apply sqCfgOp_kept | with_reducible apply cqCfgOp_kept | with_reducible apply cqCoalOp_kept | with_reducible apply storeReg_kept | with_reducible apply writeIf_kept | with_reducible apply sqBaseOp_kept | with_reducible apply cqBaseOp_kept | with_reducible apply tlmCfgOp_kept | intro _ _ _ | intro _ _ | fail_if_no_progress (with_reducible apply kept_upd; on_goal 2 => exact ⟨rfl, rfl⟩) | split | rfl)
theorem writeIntc_kept {qq : List Instr × Nat} (s : State) (off : Nat) (v : Word) (hK : Kept qq s) : Kept qq (writeIntc s off v) := by
  unfold writeIntc; try dsimp only
  repeat' (first | with_reducible exact hK | with_reducible assumption | with_reducible apply completeOp_kept | with_reducible apply intPendOp_kept | with_reducible apply intMaskOp_kept | with_reducible apply srcCfgOp_kept | with_reducible apply threshOp_kept | intro _ _ _ | intro _ _ | fail_if_no_progress (with_reducible apply kept_upd; on_goal 2 => exact ⟨rfl, rfl⟩) | split | rfl)
theorem writeFault_kept {qq : List Instr × Nat} (s : State) (a : Agent) (off : Nat) (v : Word) (hK : Kept qq s) : Kept qq (writeFault s a off v) := by
  unfold writeFault; try dsimp only
  repeat' (first | with_reducible exact hK | with_reducible assumption | with_reducible apply State_setReg_kept | with_reducible apply State_modFlt_kept | with_reducible apply fltAckBy_kept | with_reducible apply injectOp_kept | with_reducible apply storeReg_kept | with_reducible apply writeIf_kept | intro _ _ _ | intro _ _ | fail_if_no_progress (with_reducible apply kept_upd; on_goal 2 => exact ⟨rfl, rfl⟩) | split | rfl)
theorem writeSlot_kept {qq : List Instr × Nat} (s : State) (a : Agent) (off : Nat) (v : Word) (hK : Kept qq s) : Kept qq (writeSlot s a off v) := by
  unfold writeSlot; try dsimp only
  repeat' (first | with_reducible exact hK | with_reducible assumption | with_reducible apply State_setReg_kept | with_reducible apply State_modSlot_kept | intro _ _ _ | intro _ _ | fail_if_no_progress (with_reducible apply kept_upd; on_goal 2 => exact ⟨rfl, rfl⟩) | split | rfl)
theorem writeTime_kept {qq : List Instr × Nat} (s : State) (a : Agent) (off : Nat) (v : Word) (hK : Kept qq s) : Kept qq (writeTime s a off v) := by
  unfold writeTime; try dsimp only
  repeat' (first | with_reducible exact hK | with_reducible assumption | with_reducible apply State_setReg_kept | with_reducible apply foldCfgOp_kept | with_reducible apply writeIf_kept | with_reducible apply writeSlot_kept | intro _ _ _ | intro _ _ | fail_if_no_progress (with_reducible apply kept_upd; on_goal 2 => exact ⟨rfl, rfl⟩) | split | rfl)
theorem writeSys_kept {qq : List Instr × Nat} (s : State) (off : Nat) (v : Word) (hK : Kept qq s) : Kept qq (writeSys s off v) := by
  unfold writeSys; try dsimp only
  repeat' (first | with_reducible exact hK | with_reducible assumption | with_reducible apply State_setReg_kept | with_reducible apply linkCfgOp_kept | with_reducible apply linkCtrlOp_kept | with_reducible apply pdForceOp_kept | with_reducible apply storeReg_kept | with_reducible apply writeIf_kept | intro _ _ _ | intro _ _ | fail_if_no_progress (with_reducible apply kept_upd; on_goal 2 => exact ⟨rfl, rfl⟩) | split | rfl)
theorem writeDoorbell_kept {qq : List Instr × Nat} (s : State) (off : Nat) (v : Word) (hK : Kept qq s) : Kept qq (writeDoorbell s off v) := by
  unfold writeDoorbell; try dsimp only
  repeat' (first | with_reducible exact hK | with_reducible assumption | with_reducible apply sqTailOp_kept | with_reducible apply cqHeadOp_kept | intro _ _ _ | intro _ _ | fail_if_no_progress (with_reducible apply kept_upd; on_goal 2 => exact ⟨rfl, rfl⟩) | split | rfl)
theorem writePixel_kept {qq : List Instr × Nat} (s : State) (a : Agent) (off mask : Nat) (v : Word) (hK : Kept qq s) : Kept qq (writePixel s a off mask v) := by
  unfold writePixel; try dsimp only
  repeat' (first | with_reducible exact hK | with_reducible assumption | with_reducible apply State_setReg_kept | with_reducible apply lutWrite_kept | with_reducible apply storeReg_kept | with_reducible apply writeIf_kept | with_reducible apply canvasSizeOp_kept | with_reducible apply canvasColourOp_kept | with_reducible apply sclDataOp_kept | intro _ _ _ | intro _ _ | fail_if_no_progress (with_reducible apply kept_upd; on_goal 2 => exact ⟨rfl, rfl⟩) | split | rfl)
theorem writeCstore_kept {qq : List Instr × Nat} (s : State) (a : Agent) (off : Nat) (v : Word) (hK : Kept qq s) : Kept qq (writeCstore s a off v) := by
  unfold writeCstore; try dsimp only
  repeat' (first | with_reducible exact hK | with_reducible assumption | with_reducible apply State_modDrover_kept | intro _ _ _ | intro _ _ | fail_if_no_progress (with_reducible apply kept_upd; on_goal 2 => exact ⟨rfl, rfl⟩) | split | rfl)
theorem writeDrover_kept {qq : List Instr × Nat} (s : State) (off mask : Nat) (v : Word) (hK : Kept qq s) : Kept qq (writeDrover s off mask v) := by
  unfold writeDrover; try dsimp only
  repeat' (first | with_reducible exact hK | with_reducible assumption | with_reducible apply State_setReg_kept | with_reducible apply storeReg_kept | with_reducible apply writeIf_kept | intro _ _ _ | intro _ _ | fail_if_no_progress (with_reducible apply kept_upd; on_goal 2 => exact ⟨rfl, rfl⟩) | split | rfl)
theorem writeEgress_kept {qq : List Instr × Nat} (s : State) (off mask : Nat) (v : Word) (hK : Kept qq s) : Kept qq (writeEgress s off mask v) := by
  unfold writeEgress; try dsimp only
  repeat' (first | with_reducible exact hK | with_reducible assumption | with_reducible apply State_setReg_kept | with_reducible apply storeReg_kept | with_reducible apply writeIf_kept | with_reducible apply portCfgOp_kept | intro _ _ _ | intro _ _ | fail_if_no_progress (with_reducible apply kept_upd; on_goal 2 => exact ⟨rfl, rfl⟩) | split | rfl)
theorem writeService_kept {qq : List Instr × Nat} (s : State) (a : Agent) (off mask : Nat) (v : Word) (hK : Kept qq s) : Kept qq (writeService s a off mask v) := by
  unfold writeService; try dsimp only
  repeat' (first | with_reducible exact hK | with_reducible assumption | with_reducible apply State_setReg_kept | with_reducible apply portRankOp_kept | with_reducible apply storeReg_kept | with_reducible apply writeIf_kept | with_reducible apply poolRsvOp_kept | intro _ _ _ | intro _ _ | fail_if_no_progress (with_reducible apply kept_upd; on_goal 2 => exact ⟨rfl, rfl⟩) | split | rfl)
theorem writeSel_kept {qq : List Instr × Nat} (s : State) (a : Agent) (off mask : Nat) (v : Word) (hK : Kept qq s) : Kept qq (writeSel s a off mask v) := by
  unfold writeSel; try dsimp only
  repeat' (first | with_reducible exact hK | with_reducible assumption | with_reducible apply State_setSel_kept | with_reducible apply writeIf_kept | with_reducible apply tblSelOp_kept | intro _ _ _ | intro _ _ | fail_if_no_progress (with_reducible apply kept_upd; on_goal 2 => exact ⟨rfl, rfl⟩) | split | rfl)
theorem writeBlock_kept {qq : List Instr × Nat} (s : State) (a : Agent) (off mask : Nat) (v : Word) (hK : Kept qq s) : Kept qq (writeBlock s a off mask v) := by
  unfold writeBlock; try dsimp only
  repeat' (first | with_reducible exact hK | with_reducible assumption | with_reducible apply storeReg_kept | with_reducible apply writeSched_kept | with_reducible apply writeRings_kept | with_reducible apply writeIntc_kept | with_reducible apply writeFault_kept | with_reducible apply writeTime_kept | with_reducible apply writeSys_kept | with_reducible apply writeDoorbell_kept | with_reducible apply writePixel_kept | with_reducible apply writeDrover_kept | with_reducible apply writeEgress_kept | with_reducible apply writeService_kept | intro _ _ _ | intro _ _ | fail_if_no_progress (with_reducible apply kept_upd; on_goal 2 => exact ⟨rfl, rfl⟩) | split | rfl)
theorem writeReg_kept {qq : List Instr × Nat} (s : State) (a : Agent) (off : Nat) (v : Word) (hK : Kept qq s) : Kept qq (writeReg s a off v) := by
  unfold writeReg; try dsimp only
  repeat' (first | with_reducible exact hK | with_reducible assumption | with_reducible apply clearBits_kept | with_reducible apply writeSlot_kept | with_reducible apply writeCstore_kept | with_reducible apply writeSel_kept | with_reducible apply writeBlock_kept | intro _ _ _ | intro _ _ | fail_if_no_progress (with_reducible apply kept_upd; on_goal 2 => exact ⟨rfl, rfl⟩) | split | rfl)
theorem readWords_kept {qq : List Instr × Nat} : ∀ (n off : Nat) (s : State), Kept qq s → Kept qq (readWords n off s).2
  | 0, off, s, hK => hK
  | n + 1, off, s, hK => readWords_kept n _ _ (readState_kept _ _ _ hK)
theorem writeWords_kept {qq : List Instr × Nat} : ∀ (n off : Nat) (bs : List Byte) (s : State), Kept qq s → Kept qq (writeWords n off bs s)
  | 0, off, bs, s, hK => hK
  | n + 1, off, bs, s, hK => writeWords_kept n _ _ _ (writeReg_kept _ _ _ _ hK)
theorem answer_kept {qq : List Instr × Nat} (s : State) (tag status : Nat) (bs : List Byte) (hK : Kept qq s) : Kept qq (answer s tag status bs) := ⟨hK.1, hK.2⟩
theorem unsupported_kept {qq : List Instr × Nat} (s : State) (hK : Kept qq s) : Kept qq (unsupported s) := by
  unfold unsupported; try dsimp only
  repeat' (first | with_reducible exact hK | with_reducible assumption | with_reducible apply setStatus_kept | intro _ _ _ | intro _ _ | fail_if_no_progress (with_reducible apply kept_upd; on_goal 2 => exact ⟨rfl, rfl⟩) | split | rfl)
theorem requestBad_kept {qq : List Instr × Nat} (s : State) (limit addr n : Nat) (hK : Kept qq s) : Kept qq (requestBad s limit addr n) := by
  unfold requestBad; try dsimp only
  repeat' (first | with_reducible exact hK | with_reducible assumption | with_reducible apply protoError_kept | with_reducible apply unsupported_kept | intro _ _ _ | intro _ _ | fail_if_no_progress (with_reducible apply kept_upd; on_goal 2 => exact ⟨rfl, rfl⟩) | split | rfl)
theorem mrdTake_kept {qq : List Instr × Nat} (s : State) (tag addr n : Nat) (hK : Kept qq s) : Kept qq (mrdTake s tag addr n) := by
  unfold mrdTake; try dsimp only
  repeat' (first | with_reducible exact hK | with_reducible assumption | with_reducible apply protoError_kept | with_reducible apply readWords_kept | with_reducible apply answer_kept | with_reducible apply requestBad_kept | intro _ _ _ | intro _ _ | fail_if_no_progress (with_reducible apply kept_upd; on_goal 2 => exact ⟨rfl, rfl⟩) | split | rfl)
theorem mwrTake_kept {qq : List Instr × Nat} (s : State) (addr : Nat) (bs : List Byte) (hK : Kept qq s) : Kept qq (mwrTake s addr bs) := by
  unfold mwrTake; try dsimp only
  repeat' (first | with_reducible exact hK | with_reducible assumption | with_reducible apply writeWords_kept | with_reducible apply requestBad_kept | intro _ _ _ | intro _ _ | fail_if_no_progress (with_reducible apply kept_upd; on_goal 2 => exact ⟨rfl, rfl⟩) | split | rfl)
theorem mrdFreed_kept {qq : List Instr × Nat} (s : State) (t : Txn) (hK : Kept qq s) : Kept qq (mrdFreed s t) := ⟨hK.1, hK.2⟩
theorem mwrFreed_kept {qq : List Instr × Nat} (s : State) (t : Txn) (n : Nat) (hK : Kept qq s) : Kept qq (mwrFreed s t n) := ⟨hK.1, hK.2⟩
theorem gated_kept {qq : List Instr × Nat} (c : Nat) (s t : State) (hK : Kept qq s) (ht : Kept qq t) : Kept qq (gated c s t) := by
  unfold gated; split <;> assumption
theorem levelTallies_kept {qq : List Instr × Nat} (s : State) (hK : Kept qq s) : Kept qq (levelTallies s) := by
  unfold levelTallies; try dsimp only
  repeat' (first | with_reducible exact hK | with_reducible assumption | with_reducible apply tallyAdd_kept | with_reducible apply stall_kept | with_reducible apply foldl_kept | intro _ _ _ | intro _ _ | fail_if_no_progress (with_reducible apply kept_upd; on_goal 2 => exact ⟨rfl, rfl⟩) | split | rfl)
end Sys2Proof.Machine
end

