-- ==== Sys2Proof/Laws/State.lean ====
section
/-! SUPPORT. One lemma per field per update of the state: an update leaves every field but its own as it was. -/

namespace Sys2Proof.Machine

@[simp] theorem State.setReg_wt (s : State) (off : Nat) (v : Word) : (s.setReg off v).wt = s.wt := rfl
@[simp] theorem State.setReg_contracts (s : State) (off : Nat) (v : Word) : (s.setReg off v).contracts = s.contracts := rfl
@[simp] theorem State.setReg_streams (s : State) (off : Nat) (v : Word) : (s.setReg off v).streams = s.streams := rfl
@[simp] theorem State.setReg_decs (s : State) (off : Nat) (v : Word) : (s.setReg off v).decs = s.decs := rfl
@[simp] theorem State.setReg_comp (s : State) (off : Nat) (v : Word) : (s.setReg off v).comp = s.comp := rfl
@[simp] theorem State.setReg_corr (s : State) (off : Nat) (v : Word) : (s.setReg off v).corr = s.corr := rfl
@[simp] theorem State.setReg_enc (s : State) (off : Nat) (v : Word) : (s.setReg off v).enc = s.enc := rfl
@[simp] theorem State.setReg_prx (s : State) (off : Nat) (v : Word) : (s.setReg off v).prx = s.prx := rfl
@[simp] theorem State.setReg_drovers (s : State) (off : Nat) (v : Word) : (s.setReg off v).drovers = s.drovers := rfl
@[simp] theorem State.setReg_eg (s : State) (off : Nat) (v : Word) : (s.setReg off v).eg = s.eg := rfl
@[simp] theorem State.setReg_buf (s : State) (off : Nat) (v : Word) : (s.setReg off v).buf = s.buf := rfl
@[simp] theorem State.setReg_qcfg (s : State) (off : Nat) (v : Word) : (s.setReg off v).qcfg = s.qcfg := rfl
@[simp] theorem State.setReg_tbl (s : State) (off : Nat) (v : Word) : (s.setReg off v).tbl = s.tbl := rfl
@[simp] theorem State.setReg_peerE (s : State) (off : Nat) (v : Word) : (s.setReg off v).peerE = s.peerE := rfl
@[simp] theorem State.setReg_peerW (s : State) (off : Nat) (v : Word) : (s.setReg off v).peerW = s.peerW := rfl
@[simp] theorem State.setReg_link (s : State) (off : Nat) (v : Word) : (s.setReg off v).link = s.link := rfl
@[simp] theorem State.setReg_rings (s : State) (off : Nat) (v : Word) : (s.setReg off v).rings = s.rings := rfl
@[simp] theorem State.setReg_mem (s : State) (off : Nat) (v : Word) : (s.setReg off v).mem = s.mem := rfl
@[simp] theorem State.setReg_dma (s : State) (off : Nat) (v : Word) : (s.setReg off v).dma = s.dma := rfl
@[simp] theorem State.setReg_intc (s : State) (off : Nat) (v : Word) : (s.setReg off v).intc = s.intc := rfl
@[simp] theorem State.setReg_flt (s : State) (off : Nat) (v : Word) : (s.setReg off v).flt = s.flt := rfl
@[simp] theorem State.setReg_pwr (s : State) (off : Nat) (v : Word) : (s.setReg off v).pwr = s.pwr := rfl
@[simp] theorem State.setReg_nvm (s : State) (off : Nat) (v : Word) : (s.setReg off v).nvm = s.nvm := rfl
@[simp] theorem State.setReg_tly (s : State) (off : Nat) (v : Word) : (s.setReg off v).tly = s.tly := rfl
@[simp] theorem State.setReg_cages (s : State) (off : Nat) (v : Word) : (s.setReg off v).cages = s.cages := rfl
@[simp] theorem State.setReg_sels (s : State) (off : Nat) (v : Word) : (s.setReg off v).sels = s.sels := rfl
@[simp] theorem State.setReg_latches (s : State) (off : Nat) (v : Word) : (s.setReg off v).latches = s.latches := rfl
@[simp] theorem State.setReg_free (s : State) (off : Nat) (v : Word) : (s.setReg off v).free = s.free := rfl
@[simp] theorem State.setReg_pending (s : State) (off : Nat) (v : Word) : (s.setReg off v).pending = s.pending := rfl

@[simp] theorem State.setSel_wt (s : State) (a : Agent) (off : Nat) (v : Word) : (s.setSel a off v).wt = s.wt := rfl
@[simp] theorem State.setSel_contracts (s : State) (a : Agent) (off : Nat) (v : Word) : (s.setSel a off v).contracts = s.contracts := rfl
@[simp] theorem State.setSel_streams (s : State) (a : Agent) (off : Nat) (v : Word) : (s.setSel a off v).streams = s.streams := rfl
@[simp] theorem State.setSel_decs (s : State) (a : Agent) (off : Nat) (v : Word) : (s.setSel a off v).decs = s.decs := rfl
@[simp] theorem State.setSel_comp (s : State) (a : Agent) (off : Nat) (v : Word) : (s.setSel a off v).comp = s.comp := rfl
@[simp] theorem State.setSel_corr (s : State) (a : Agent) (off : Nat) (v : Word) : (s.setSel a off v).corr = s.corr := rfl
@[simp] theorem State.setSel_enc (s : State) (a : Agent) (off : Nat) (v : Word) : (s.setSel a off v).enc = s.enc := rfl
@[simp] theorem State.setSel_prx (s : State) (a : Agent) (off : Nat) (v : Word) : (s.setSel a off v).prx = s.prx := rfl
@[simp] theorem State.setSel_drovers (s : State) (a : Agent) (off : Nat) (v : Word) : (s.setSel a off v).drovers = s.drovers := rfl
@[simp] theorem State.setSel_eg (s : State) (a : Agent) (off : Nat) (v : Word) : (s.setSel a off v).eg = s.eg := rfl
@[simp] theorem State.setSel_buf (s : State) (a : Agent) (off : Nat) (v : Word) : (s.setSel a off v).buf = s.buf := rfl
@[simp] theorem State.setSel_qcfg (s : State) (a : Agent) (off : Nat) (v : Word) : (s.setSel a off v).qcfg = s.qcfg := rfl
@[simp] theorem State.setSel_tbl (s : State) (a : Agent) (off : Nat) (v : Word) : (s.setSel a off v).tbl = s.tbl := rfl
@[simp] theorem State.setSel_peerE (s : State) (a : Agent) (off : Nat) (v : Word) : (s.setSel a off v).peerE = s.peerE := rfl
@[simp] theorem State.setSel_peerW (s : State) (a : Agent) (off : Nat) (v : Word) : (s.setSel a off v).peerW = s.peerW := rfl
@[simp] theorem State.setSel_link (s : State) (a : Agent) (off : Nat) (v : Word) : (s.setSel a off v).link = s.link := rfl
@[simp] theorem State.setSel_rings (s : State) (a : Agent) (off : Nat) (v : Word) : (s.setSel a off v).rings = s.rings := rfl
@[simp] theorem State.setSel_mem (s : State) (a : Agent) (off : Nat) (v : Word) : (s.setSel a off v).mem = s.mem := rfl
@[simp] theorem State.setSel_dma (s : State) (a : Agent) (off : Nat) (v : Word) : (s.setSel a off v).dma = s.dma := rfl
@[simp] theorem State.setSel_intc (s : State) (a : Agent) (off : Nat) (v : Word) : (s.setSel a off v).intc = s.intc := rfl
@[simp] theorem State.setSel_flt (s : State) (a : Agent) (off : Nat) (v : Word) : (s.setSel a off v).flt = s.flt := rfl
@[simp] theorem State.setSel_pwr (s : State) (a : Agent) (off : Nat) (v : Word) : (s.setSel a off v).pwr = s.pwr := rfl
@[simp] theorem State.setSel_nvm (s : State) (a : Agent) (off : Nat) (v : Word) : (s.setSel a off v).nvm = s.nvm := rfl
@[simp] theorem State.setSel_tly (s : State) (a : Agent) (off : Nat) (v : Word) : (s.setSel a off v).tly = s.tly := rfl
@[simp] theorem State.setSel_cages (s : State) (a : Agent) (off : Nat) (v : Word) : (s.setSel a off v).cages = s.cages := rfl
@[simp] theorem State.setSel_regs (s : State) (a : Agent) (off : Nat) (v : Word) : (s.setSel a off v).regs = s.regs := rfl
@[simp] theorem State.setSel_latches (s : State) (a : Agent) (off : Nat) (v : Word) : (s.setSel a off v).latches = s.latches := rfl
@[simp] theorem State.setSel_free (s : State) (a : Agent) (off : Nat) (v : Word) : (s.setSel a off v).free = s.free := rfl
@[simp] theorem State.setSel_pending (s : State) (a : Agent) (off : Nat) (v : Word) : (s.setSel a off v).pending = s.pending := rfl

@[simp] theorem State.setLatch_wt (s : State) (a : Agent) (off : Nat) (v : Word) : (s.setLatch a off v).wt = s.wt := rfl
@[simp] theorem State.setLatch_contracts (s : State) (a : Agent) (off : Nat) (v : Word) : (s.setLatch a off v).contracts = s.contracts := rfl
@[simp] theorem State.setLatch_streams (s : State) (a : Agent) (off : Nat) (v : Word) : (s.setLatch a off v).streams = s.streams := rfl
@[simp] theorem State.setLatch_decs (s : State) (a : Agent) (off : Nat) (v : Word) : (s.setLatch a off v).decs = s.decs := rfl
@[simp] theorem State.setLatch_comp (s : State) (a : Agent) (off : Nat) (v : Word) : (s.setLatch a off v).comp = s.comp := rfl
@[simp] theorem State.setLatch_corr (s : State) (a : Agent) (off : Nat) (v : Word) : (s.setLatch a off v).corr = s.corr := rfl
@[simp] theorem State.setLatch_enc (s : State) (a : Agent) (off : Nat) (v : Word) : (s.setLatch a off v).enc = s.enc := rfl
@[simp] theorem State.setLatch_prx (s : State) (a : Agent) (off : Nat) (v : Word) : (s.setLatch a off v).prx = s.prx := rfl
@[simp] theorem State.setLatch_drovers (s : State) (a : Agent) (off : Nat) (v : Word) : (s.setLatch a off v).drovers = s.drovers := rfl
@[simp] theorem State.setLatch_eg (s : State) (a : Agent) (off : Nat) (v : Word) : (s.setLatch a off v).eg = s.eg := rfl
@[simp] theorem State.setLatch_buf (s : State) (a : Agent) (off : Nat) (v : Word) : (s.setLatch a off v).buf = s.buf := rfl
@[simp] theorem State.setLatch_qcfg (s : State) (a : Agent) (off : Nat) (v : Word) : (s.setLatch a off v).qcfg = s.qcfg := rfl
@[simp] theorem State.setLatch_tbl (s : State) (a : Agent) (off : Nat) (v : Word) : (s.setLatch a off v).tbl = s.tbl := rfl
@[simp] theorem State.setLatch_peerE (s : State) (a : Agent) (off : Nat) (v : Word) : (s.setLatch a off v).peerE = s.peerE := rfl
@[simp] theorem State.setLatch_peerW (s : State) (a : Agent) (off : Nat) (v : Word) : (s.setLatch a off v).peerW = s.peerW := rfl
@[simp] theorem State.setLatch_link (s : State) (a : Agent) (off : Nat) (v : Word) : (s.setLatch a off v).link = s.link := rfl
@[simp] theorem State.setLatch_rings (s : State) (a : Agent) (off : Nat) (v : Word) : (s.setLatch a off v).rings = s.rings := rfl
@[simp] theorem State.setLatch_mem (s : State) (a : Agent) (off : Nat) (v : Word) : (s.setLatch a off v).mem = s.mem := rfl
@[simp] theorem State.setLatch_dma (s : State) (a : Agent) (off : Nat) (v : Word) : (s.setLatch a off v).dma = s.dma := rfl
@[simp] theorem State.setLatch_intc (s : State) (a : Agent) (off : Nat) (v : Word) : (s.setLatch a off v).intc = s.intc := rfl
@[simp] theorem State.setLatch_flt (s : State) (a : Agent) (off : Nat) (v : Word) : (s.setLatch a off v).flt = s.flt := rfl
@[simp] theorem State.setLatch_pwr (s : State) (a : Agent) (off : Nat) (v : Word) : (s.setLatch a off v).pwr = s.pwr := rfl
@[simp] theorem State.setLatch_nvm (s : State) (a : Agent) (off : Nat) (v : Word) : (s.setLatch a off v).nvm = s.nvm := rfl
@[simp] theorem State.setLatch_tly (s : State) (a : Agent) (off : Nat) (v : Word) : (s.setLatch a off v).tly = s.tly := rfl
@[simp] theorem State.setLatch_cages (s : State) (a : Agent) (off : Nat) (v : Word) : (s.setLatch a off v).cages = s.cages := rfl
@[simp] theorem State.setLatch_regs (s : State) (a : Agent) (off : Nat) (v : Word) : (s.setLatch a off v).regs = s.regs := rfl
@[simp] theorem State.setLatch_sels (s : State) (a : Agent) (off : Nat) (v : Word) : (s.setLatch a off v).sels = s.sels := rfl
@[simp] theorem State.setLatch_free (s : State) (a : Agent) (off : Nat) (v : Word) : (s.setLatch a off v).free = s.free := rfl
@[simp] theorem State.setLatch_pending (s : State) (a : Agent) (off : Nat) (v : Word) : (s.setLatch a off v).pending = s.pending := rfl

@[simp] theorem State.modWt_contracts (s : State) (f : WallTime → WallTime) : (s.modWt f).contracts = s.contracts := rfl
@[simp] theorem State.modWt_streams (s : State) (f : WallTime → WallTime) : (s.modWt f).streams = s.streams := rfl
@[simp] theorem State.modWt_decs (s : State) (f : WallTime → WallTime) : (s.modWt f).decs = s.decs := rfl
@[simp] theorem State.modWt_comp (s : State) (f : WallTime → WallTime) : (s.modWt f).comp = s.comp := rfl
@[simp] theorem State.modWt_corr (s : State) (f : WallTime → WallTime) : (s.modWt f).corr = s.corr := rfl
@[simp] theorem State.modWt_enc (s : State) (f : WallTime → WallTime) : (s.modWt f).enc = s.enc := rfl
@[simp] theorem State.modWt_prx (s : State) (f : WallTime → WallTime) : (s.modWt f).prx = s.prx := rfl
@[simp] theorem State.modWt_drovers (s : State) (f : WallTime → WallTime) : (s.modWt f).drovers = s.drovers := rfl
@[simp] theorem State.modWt_eg (s : State) (f : WallTime → WallTime) : (s.modWt f).eg = s.eg := rfl
@[simp] theorem State.modWt_buf (s : State) (f : WallTime → WallTime) : (s.modWt f).buf = s.buf := rfl
@[simp] theorem State.modWt_qcfg (s : State) (f : WallTime → WallTime) : (s.modWt f).qcfg = s.qcfg := rfl
@[simp] theorem State.modWt_tbl (s : State) (f : WallTime → WallTime) : (s.modWt f).tbl = s.tbl := rfl
@[simp] theorem State.modWt_peerE (s : State) (f : WallTime → WallTime) : (s.modWt f).peerE = s.peerE := rfl
@[simp] theorem State.modWt_peerW (s : State) (f : WallTime → WallTime) : (s.modWt f).peerW = s.peerW := rfl
@[simp] theorem State.modWt_link (s : State) (f : WallTime → WallTime) : (s.modWt f).link = s.link := rfl
@[simp] theorem State.modWt_rings (s : State) (f : WallTime → WallTime) : (s.modWt f).rings = s.rings := rfl
@[simp] theorem State.modWt_mem (s : State) (f : WallTime → WallTime) : (s.modWt f).mem = s.mem := rfl
@[simp] theorem State.modWt_dma (s : State) (f : WallTime → WallTime) : (s.modWt f).dma = s.dma := rfl
@[simp] theorem State.modWt_intc (s : State) (f : WallTime → WallTime) : (s.modWt f).intc = s.intc := rfl
@[simp] theorem State.modWt_flt (s : State) (f : WallTime → WallTime) : (s.modWt f).flt = s.flt := rfl
@[simp] theorem State.modWt_pwr (s : State) (f : WallTime → WallTime) : (s.modWt f).pwr = s.pwr := rfl
@[simp] theorem State.modWt_nvm (s : State) (f : WallTime → WallTime) : (s.modWt f).nvm = s.nvm := rfl
@[simp] theorem State.modWt_tly (s : State) (f : WallTime → WallTime) : (s.modWt f).tly = s.tly := rfl
@[simp] theorem State.modWt_cages (s : State) (f : WallTime → WallTime) : (s.modWt f).cages = s.cages := rfl
@[simp] theorem State.modWt_regs (s : State) (f : WallTime → WallTime) : (s.modWt f).regs = s.regs := rfl
@[simp] theorem State.modWt_sels (s : State) (f : WallTime → WallTime) : (s.modWt f).sels = s.sels := rfl
@[simp] theorem State.modWt_latches (s : State) (f : WallTime → WallTime) : (s.modWt f).latches = s.latches := rfl
@[simp] theorem State.modWt_free (s : State) (f : WallTime → WallTime) : (s.modWt f).free = s.free := rfl
@[simp] theorem State.modWt_pending (s : State) (f : WallTime → WallTime) : (s.modWt f).pending = s.pending := rfl

@[simp] theorem State.modLink_wt (s : State) (f : Link → Link) : (s.modLink f).wt = s.wt := rfl
@[simp] theorem State.modLink_contracts (s : State) (f : Link → Link) : (s.modLink f).contracts = s.contracts := rfl
@[simp] theorem State.modLink_streams (s : State) (f : Link → Link) : (s.modLink f).streams = s.streams := rfl
@[simp] theorem State.modLink_decs (s : State) (f : Link → Link) : (s.modLink f).decs = s.decs := rfl
@[simp] theorem State.modLink_comp (s : State) (f : Link → Link) : (s.modLink f).comp = s.comp := rfl
@[simp] theorem State.modLink_corr (s : State) (f : Link → Link) : (s.modLink f).corr = s.corr := rfl
@[simp] theorem State.modLink_enc (s : State) (f : Link → Link) : (s.modLink f).enc = s.enc := rfl
@[simp] theorem State.modLink_prx (s : State) (f : Link → Link) : (s.modLink f).prx = s.prx := rfl
@[simp] theorem State.modLink_drovers (s : State) (f : Link → Link) : (s.modLink f).drovers = s.drovers := rfl
@[simp] theorem State.modLink_eg (s : State) (f : Link → Link) : (s.modLink f).eg = s.eg := rfl
@[simp] theorem State.modLink_buf (s : State) (f : Link → Link) : (s.modLink f).buf = s.buf := rfl
@[simp] theorem State.modLink_qcfg (s : State) (f : Link → Link) : (s.modLink f).qcfg = s.qcfg := rfl
@[simp] theorem State.modLink_tbl (s : State) (f : Link → Link) : (s.modLink f).tbl = s.tbl := rfl
@[simp] theorem State.modLink_peerE (s : State) (f : Link → Link) : (s.modLink f).peerE = s.peerE := rfl
@[simp] theorem State.modLink_peerW (s : State) (f : Link → Link) : (s.modLink f).peerW = s.peerW := rfl
@[simp] theorem State.modLink_rings (s : State) (f : Link → Link) : (s.modLink f).rings = s.rings := rfl
@[simp] theorem State.modLink_mem (s : State) (f : Link → Link) : (s.modLink f).mem = s.mem := rfl
@[simp] theorem State.modLink_dma (s : State) (f : Link → Link) : (s.modLink f).dma = s.dma := rfl
@[simp] theorem State.modLink_intc (s : State) (f : Link → Link) : (s.modLink f).intc = s.intc := rfl
@[simp] theorem State.modLink_flt (s : State) (f : Link → Link) : (s.modLink f).flt = s.flt := rfl
@[simp] theorem State.modLink_pwr (s : State) (f : Link → Link) : (s.modLink f).pwr = s.pwr := rfl
@[simp] theorem State.modLink_nvm (s : State) (f : Link → Link) : (s.modLink f).nvm = s.nvm := rfl
@[simp] theorem State.modLink_tly (s : State) (f : Link → Link) : (s.modLink f).tly = s.tly := rfl
@[simp] theorem State.modLink_cages (s : State) (f : Link → Link) : (s.modLink f).cages = s.cages := rfl
@[simp] theorem State.modLink_regs (s : State) (f : Link → Link) : (s.modLink f).regs = s.regs := rfl
@[simp] theorem State.modLink_sels (s : State) (f : Link → Link) : (s.modLink f).sels = s.sels := rfl
@[simp] theorem State.modLink_latches (s : State) (f : Link → Link) : (s.modLink f).latches = s.latches := rfl
@[simp] theorem State.modLink_free (s : State) (f : Link → Link) : (s.modLink f).free = s.free := rfl
@[simp] theorem State.modLink_pending (s : State) (f : Link → Link) : (s.modLink f).pending = s.pending := rfl

@[simp] theorem State.modRings_wt (s : State) (f : Rings → Rings) : (s.modRings f).wt = s.wt := rfl
@[simp] theorem State.modRings_contracts (s : State) (f : Rings → Rings) : (s.modRings f).contracts = s.contracts := rfl
@[simp] theorem State.modRings_streams (s : State) (f : Rings → Rings) : (s.modRings f).streams = s.streams := rfl
@[simp] theorem State.modRings_decs (s : State) (f : Rings → Rings) : (s.modRings f).decs = s.decs := rfl
@[simp] theorem State.modRings_comp (s : State) (f : Rings → Rings) : (s.modRings f).comp = s.comp := rfl
@[simp] theorem State.modRings_corr (s : State) (f : Rings → Rings) : (s.modRings f).corr = s.corr := rfl
@[simp] theorem State.modRings_enc (s : State) (f : Rings → Rings) : (s.modRings f).enc = s.enc := rfl
@[simp] theorem State.modRings_prx (s : State) (f : Rings → Rings) : (s.modRings f).prx = s.prx := rfl
@[simp] theorem State.modRings_drovers (s : State) (f : Rings → Rings) : (s.modRings f).drovers = s.drovers := rfl
@[simp] theorem State.modRings_eg (s : State) (f : Rings → Rings) : (s.modRings f).eg = s.eg := rfl
@[simp] theorem State.modRings_buf (s : State) (f : Rings → Rings) : (s.modRings f).buf = s.buf := rfl
@[simp] theorem State.modRings_qcfg (s : State) (f : Rings → Rings) : (s.modRings f).qcfg = s.qcfg := rfl
@[simp] theorem State.modRings_tbl (s : State) (f : Rings → Rings) : (s.modRings f).tbl = s.tbl := rfl
@[simp] theorem State.modRings_peerE (s : State) (f : Rings → Rings) : (s.modRings f).peerE = s.peerE := rfl
@[simp] theorem State.modRings_peerW (s : State) (f : Rings → Rings) : (s.modRings f).peerW = s.peerW := rfl
@[simp] theorem State.modRings_link (s : State) (f : Rings → Rings) : (s.modRings f).link = s.link := rfl
@[simp] theorem State.modRings_mem (s : State) (f : Rings → Rings) : (s.modRings f).mem = s.mem := rfl
@[simp] theorem State.modRings_dma (s : State) (f : Rings → Rings) : (s.modRings f).dma = s.dma := rfl
@[simp] theorem State.modRings_intc (s : State) (f : Rings → Rings) : (s.modRings f).intc = s.intc := rfl
@[simp] theorem State.modRings_flt (s : State) (f : Rings → Rings) : (s.modRings f).flt = s.flt := rfl
@[simp] theorem State.modRings_pwr (s : State) (f : Rings → Rings) : (s.modRings f).pwr = s.pwr := rfl
@[simp] theorem State.modRings_nvm (s : State) (f : Rings → Rings) : (s.modRings f).nvm = s.nvm := rfl
@[simp] theorem State.modRings_tly (s : State) (f : Rings → Rings) : (s.modRings f).tly = s.tly := rfl
@[simp] theorem State.modRings_cages (s : State) (f : Rings → Rings) : (s.modRings f).cages = s.cages := rfl
@[simp] theorem State.modRings_regs (s : State) (f : Rings → Rings) : (s.modRings f).regs = s.regs := rfl
@[simp] theorem State.modRings_sels (s : State) (f : Rings → Rings) : (s.modRings f).sels = s.sels := rfl
@[simp] theorem State.modRings_latches (s : State) (f : Rings → Rings) : (s.modRings f).latches = s.latches := rfl
@[simp] theorem State.modRings_free (s : State) (f : Rings → Rings) : (s.modRings f).free = s.free := rfl
@[simp] theorem State.modRings_pending (s : State) (f : Rings → Rings) : (s.modRings f).pending = s.pending := rfl

@[simp] theorem State.modMem_wt (s : State) (f : Mem → Mem) : (s.modMem f).wt = s.wt := rfl
@[simp] theorem State.modMem_contracts (s : State) (f : Mem → Mem) : (s.modMem f).contracts = s.contracts := rfl
@[simp] theorem State.modMem_streams (s : State) (f : Mem → Mem) : (s.modMem f).streams = s.streams := rfl
@[simp] theorem State.modMem_decs (s : State) (f : Mem → Mem) : (s.modMem f).decs = s.decs := rfl
@[simp] theorem State.modMem_comp (s : State) (f : Mem → Mem) : (s.modMem f).comp = s.comp := rfl
@[simp] theorem State.modMem_corr (s : State) (f : Mem → Mem) : (s.modMem f).corr = s.corr := rfl
@[simp] theorem State.modMem_enc (s : State) (f : Mem → Mem) : (s.modMem f).enc = s.enc := rfl
@[simp] theorem State.modMem_prx (s : State) (f : Mem → Mem) : (s.modMem f).prx = s.prx := rfl
@[simp] theorem State.modMem_drovers (s : State) (f : Mem → Mem) : (s.modMem f).drovers = s.drovers := rfl
@[simp] theorem State.modMem_eg (s : State) (f : Mem → Mem) : (s.modMem f).eg = s.eg := rfl
@[simp] theorem State.modMem_buf (s : State) (f : Mem → Mem) : (s.modMem f).buf = s.buf := rfl
@[simp] theorem State.modMem_qcfg (s : State) (f : Mem → Mem) : (s.modMem f).qcfg = s.qcfg := rfl
@[simp] theorem State.modMem_tbl (s : State) (f : Mem → Mem) : (s.modMem f).tbl = s.tbl := rfl
@[simp] theorem State.modMem_peerE (s : State) (f : Mem → Mem) : (s.modMem f).peerE = s.peerE := rfl
@[simp] theorem State.modMem_peerW (s : State) (f : Mem → Mem) : (s.modMem f).peerW = s.peerW := rfl
@[simp] theorem State.modMem_link (s : State) (f : Mem → Mem) : (s.modMem f).link = s.link := rfl
@[simp] theorem State.modMem_rings (s : State) (f : Mem → Mem) : (s.modMem f).rings = s.rings := rfl
@[simp] theorem State.modMem_dma (s : State) (f : Mem → Mem) : (s.modMem f).dma = s.dma := rfl
@[simp] theorem State.modMem_intc (s : State) (f : Mem → Mem) : (s.modMem f).intc = s.intc := rfl
@[simp] theorem State.modMem_flt (s : State) (f : Mem → Mem) : (s.modMem f).flt = s.flt := rfl
@[simp] theorem State.modMem_pwr (s : State) (f : Mem → Mem) : (s.modMem f).pwr = s.pwr := rfl
@[simp] theorem State.modMem_nvm (s : State) (f : Mem → Mem) : (s.modMem f).nvm = s.nvm := rfl
@[simp] theorem State.modMem_tly (s : State) (f : Mem → Mem) : (s.modMem f).tly = s.tly := rfl
@[simp] theorem State.modMem_cages (s : State) (f : Mem → Mem) : (s.modMem f).cages = s.cages := rfl
@[simp] theorem State.modMem_regs (s : State) (f : Mem → Mem) : (s.modMem f).regs = s.regs := rfl
@[simp] theorem State.modMem_sels (s : State) (f : Mem → Mem) : (s.modMem f).sels = s.sels := rfl
@[simp] theorem State.modMem_latches (s : State) (f : Mem → Mem) : (s.modMem f).latches = s.latches := rfl
@[simp] theorem State.modMem_free (s : State) (f : Mem → Mem) : (s.modMem f).free = s.free := rfl
@[simp] theorem State.modMem_pending (s : State) (f : Mem → Mem) : (s.modMem f).pending = s.pending := rfl

@[simp] theorem State.modDma_wt (s : State) (f : Dma → Dma) : (s.modDma f).wt = s.wt := rfl
@[simp] theorem State.modDma_contracts (s : State) (f : Dma → Dma) : (s.modDma f).contracts = s.contracts := rfl
@[simp] theorem State.modDma_streams (s : State) (f : Dma → Dma) : (s.modDma f).streams = s.streams := rfl
@[simp] theorem State.modDma_decs (s : State) (f : Dma → Dma) : (s.modDma f).decs = s.decs := rfl
@[simp] theorem State.modDma_comp (s : State) (f : Dma → Dma) : (s.modDma f).comp = s.comp := rfl
@[simp] theorem State.modDma_corr (s : State) (f : Dma → Dma) : (s.modDma f).corr = s.corr := rfl
@[simp] theorem State.modDma_enc (s : State) (f : Dma → Dma) : (s.modDma f).enc = s.enc := rfl
@[simp] theorem State.modDma_prx (s : State) (f : Dma → Dma) : (s.modDma f).prx = s.prx := rfl
@[simp] theorem State.modDma_drovers (s : State) (f : Dma → Dma) : (s.modDma f).drovers = s.drovers := rfl
@[simp] theorem State.modDma_eg (s : State) (f : Dma → Dma) : (s.modDma f).eg = s.eg := rfl
@[simp] theorem State.modDma_buf (s : State) (f : Dma → Dma) : (s.modDma f).buf = s.buf := rfl
@[simp] theorem State.modDma_qcfg (s : State) (f : Dma → Dma) : (s.modDma f).qcfg = s.qcfg := rfl
@[simp] theorem State.modDma_tbl (s : State) (f : Dma → Dma) : (s.modDma f).tbl = s.tbl := rfl
@[simp] theorem State.modDma_peerE (s : State) (f : Dma → Dma) : (s.modDma f).peerE = s.peerE := rfl
@[simp] theorem State.modDma_peerW (s : State) (f : Dma → Dma) : (s.modDma f).peerW = s.peerW := rfl
@[simp] theorem State.modDma_link (s : State) (f : Dma → Dma) : (s.modDma f).link = s.link := rfl
@[simp] theorem State.modDma_rings (s : State) (f : Dma → Dma) : (s.modDma f).rings = s.rings := rfl
@[simp] theorem State.modDma_mem (s : State) (f : Dma → Dma) : (s.modDma f).mem = s.mem := rfl
@[simp] theorem State.modDma_intc (s : State) (f : Dma → Dma) : (s.modDma f).intc = s.intc := rfl
@[simp] theorem State.modDma_flt (s : State) (f : Dma → Dma) : (s.modDma f).flt = s.flt := rfl
@[simp] theorem State.modDma_pwr (s : State) (f : Dma → Dma) : (s.modDma f).pwr = s.pwr := rfl
@[simp] theorem State.modDma_nvm (s : State) (f : Dma → Dma) : (s.modDma f).nvm = s.nvm := rfl
@[simp] theorem State.modDma_tly (s : State) (f : Dma → Dma) : (s.modDma f).tly = s.tly := rfl
@[simp] theorem State.modDma_cages (s : State) (f : Dma → Dma) : (s.modDma f).cages = s.cages := rfl
@[simp] theorem State.modDma_regs (s : State) (f : Dma → Dma) : (s.modDma f).regs = s.regs := rfl
@[simp] theorem State.modDma_sels (s : State) (f : Dma → Dma) : (s.modDma f).sels = s.sels := rfl
@[simp] theorem State.modDma_latches (s : State) (f : Dma → Dma) : (s.modDma f).latches = s.latches := rfl
@[simp] theorem State.modDma_free (s : State) (f : Dma → Dma) : (s.modDma f).free = s.free := rfl
@[simp] theorem State.modDma_pending (s : State) (f : Dma → Dma) : (s.modDma f).pending = s.pending := rfl

@[simp] theorem State.modPwr_wt (s : State) (f : Power → Power) : (s.modPwr f).wt = s.wt := rfl
@[simp] theorem State.modPwr_contracts (s : State) (f : Power → Power) : (s.modPwr f).contracts = s.contracts := rfl
@[simp] theorem State.modPwr_streams (s : State) (f : Power → Power) : (s.modPwr f).streams = s.streams := rfl
@[simp] theorem State.modPwr_decs (s : State) (f : Power → Power) : (s.modPwr f).decs = s.decs := rfl
@[simp] theorem State.modPwr_comp (s : State) (f : Power → Power) : (s.modPwr f).comp = s.comp := rfl
@[simp] theorem State.modPwr_corr (s : State) (f : Power → Power) : (s.modPwr f).corr = s.corr := rfl
@[simp] theorem State.modPwr_enc (s : State) (f : Power → Power) : (s.modPwr f).enc = s.enc := rfl
@[simp] theorem State.modPwr_prx (s : State) (f : Power → Power) : (s.modPwr f).prx = s.prx := rfl
@[simp] theorem State.modPwr_drovers (s : State) (f : Power → Power) : (s.modPwr f).drovers = s.drovers := rfl
@[simp] theorem State.modPwr_eg (s : State) (f : Power → Power) : (s.modPwr f).eg = s.eg := rfl
@[simp] theorem State.modPwr_buf (s : State) (f : Power → Power) : (s.modPwr f).buf = s.buf := rfl
@[simp] theorem State.modPwr_qcfg (s : State) (f : Power → Power) : (s.modPwr f).qcfg = s.qcfg := rfl
@[simp] theorem State.modPwr_tbl (s : State) (f : Power → Power) : (s.modPwr f).tbl = s.tbl := rfl
@[simp] theorem State.modPwr_peerE (s : State) (f : Power → Power) : (s.modPwr f).peerE = s.peerE := rfl
@[simp] theorem State.modPwr_peerW (s : State) (f : Power → Power) : (s.modPwr f).peerW = s.peerW := rfl
@[simp] theorem State.modPwr_link (s : State) (f : Power → Power) : (s.modPwr f).link = s.link := rfl
@[simp] theorem State.modPwr_rings (s : State) (f : Power → Power) : (s.modPwr f).rings = s.rings := rfl
@[simp] theorem State.modPwr_mem (s : State) (f : Power → Power) : (s.modPwr f).mem = s.mem := rfl
@[simp] theorem State.modPwr_dma (s : State) (f : Power → Power) : (s.modPwr f).dma = s.dma := rfl
@[simp] theorem State.modPwr_intc (s : State) (f : Power → Power) : (s.modPwr f).intc = s.intc := rfl
@[simp] theorem State.modPwr_flt (s : State) (f : Power → Power) : (s.modPwr f).flt = s.flt := rfl
@[simp] theorem State.modPwr_nvm (s : State) (f : Power → Power) : (s.modPwr f).nvm = s.nvm := rfl
@[simp] theorem State.modPwr_tly (s : State) (f : Power → Power) : (s.modPwr f).tly = s.tly := rfl
@[simp] theorem State.modPwr_cages (s : State) (f : Power → Power) : (s.modPwr f).cages = s.cages := rfl
@[simp] theorem State.modPwr_regs (s : State) (f : Power → Power) : (s.modPwr f).regs = s.regs := rfl
@[simp] theorem State.modPwr_sels (s : State) (f : Power → Power) : (s.modPwr f).sels = s.sels := rfl
@[simp] theorem State.modPwr_latches (s : State) (f : Power → Power) : (s.modPwr f).latches = s.latches := rfl
@[simp] theorem State.modPwr_free (s : State) (f : Power → Power) : (s.modPwr f).free = s.free := rfl
@[simp] theorem State.modPwr_pending (s : State) (f : Power → Power) : (s.modPwr f).pending = s.pending := rfl

@[simp] theorem State.modNvm_wt (s : State) (f : Nvm → Nvm) : (s.modNvm f).wt = s.wt := rfl
@[simp] theorem State.modNvm_contracts (s : State) (f : Nvm → Nvm) : (s.modNvm f).contracts = s.contracts := rfl
@[simp] theorem State.modNvm_streams (s : State) (f : Nvm → Nvm) : (s.modNvm f).streams = s.streams := rfl
@[simp] theorem State.modNvm_decs (s : State) (f : Nvm → Nvm) : (s.modNvm f).decs = s.decs := rfl
@[simp] theorem State.modNvm_comp (s : State) (f : Nvm → Nvm) : (s.modNvm f).comp = s.comp := rfl
@[simp] theorem State.modNvm_corr (s : State) (f : Nvm → Nvm) : (s.modNvm f).corr = s.corr := rfl
@[simp] theorem State.modNvm_enc (s : State) (f : Nvm → Nvm) : (s.modNvm f).enc = s.enc := rfl
@[simp] theorem State.modNvm_prx (s : State) (f : Nvm → Nvm) : (s.modNvm f).prx = s.prx := rfl
@[simp] theorem State.modNvm_drovers (s : State) (f : Nvm → Nvm) : (s.modNvm f).drovers = s.drovers := rfl
@[simp] theorem State.modNvm_eg (s : State) (f : Nvm → Nvm) : (s.modNvm f).eg = s.eg := rfl
@[simp] theorem State.modNvm_buf (s : State) (f : Nvm → Nvm) : (s.modNvm f).buf = s.buf := rfl
@[simp] theorem State.modNvm_qcfg (s : State) (f : Nvm → Nvm) : (s.modNvm f).qcfg = s.qcfg := rfl
@[simp] theorem State.modNvm_tbl (s : State) (f : Nvm → Nvm) : (s.modNvm f).tbl = s.tbl := rfl
@[simp] theorem State.modNvm_peerE (s : State) (f : Nvm → Nvm) : (s.modNvm f).peerE = s.peerE := rfl
@[simp] theorem State.modNvm_peerW (s : State) (f : Nvm → Nvm) : (s.modNvm f).peerW = s.peerW := rfl
@[simp] theorem State.modNvm_link (s : State) (f : Nvm → Nvm) : (s.modNvm f).link = s.link := rfl
@[simp] theorem State.modNvm_rings (s : State) (f : Nvm → Nvm) : (s.modNvm f).rings = s.rings := rfl
@[simp] theorem State.modNvm_mem (s : State) (f : Nvm → Nvm) : (s.modNvm f).mem = s.mem := rfl
@[simp] theorem State.modNvm_dma (s : State) (f : Nvm → Nvm) : (s.modNvm f).dma = s.dma := rfl
@[simp] theorem State.modNvm_intc (s : State) (f : Nvm → Nvm) : (s.modNvm f).intc = s.intc := rfl
@[simp] theorem State.modNvm_flt (s : State) (f : Nvm → Nvm) : (s.modNvm f).flt = s.flt := rfl
@[simp] theorem State.modNvm_pwr (s : State) (f : Nvm → Nvm) : (s.modNvm f).pwr = s.pwr := rfl
@[simp] theorem State.modNvm_tly (s : State) (f : Nvm → Nvm) : (s.modNvm f).tly = s.tly := rfl
@[simp] theorem State.modNvm_cages (s : State) (f : Nvm → Nvm) : (s.modNvm f).cages = s.cages := rfl
@[simp] theorem State.modNvm_regs (s : State) (f : Nvm → Nvm) : (s.modNvm f).regs = s.regs := rfl
@[simp] theorem State.modNvm_sels (s : State) (f : Nvm → Nvm) : (s.modNvm f).sels = s.sels := rfl
@[simp] theorem State.modNvm_latches (s : State) (f : Nvm → Nvm) : (s.modNvm f).latches = s.latches := rfl
@[simp] theorem State.modNvm_free (s : State) (f : Nvm → Nvm) : (s.modNvm f).free = s.free := rfl
@[simp] theorem State.modNvm_pending (s : State) (f : Nvm → Nvm) : (s.modNvm f).pending = s.pending := rfl

@[simp] theorem State.modTbl_wt (s : State) (f : Tables → Tables) : (s.modTbl f).wt = s.wt := rfl
@[simp] theorem State.modTbl_contracts (s : State) (f : Tables → Tables) : (s.modTbl f).contracts = s.contracts := rfl
@[simp] theorem State.modTbl_streams (s : State) (f : Tables → Tables) : (s.modTbl f).streams = s.streams := rfl
@[simp] theorem State.modTbl_decs (s : State) (f : Tables → Tables) : (s.modTbl f).decs = s.decs := rfl
@[simp] theorem State.modTbl_comp (s : State) (f : Tables → Tables) : (s.modTbl f).comp = s.comp := rfl
@[simp] theorem State.modTbl_corr (s : State) (f : Tables → Tables) : (s.modTbl f).corr = s.corr := rfl
@[simp] theorem State.modTbl_enc (s : State) (f : Tables → Tables) : (s.modTbl f).enc = s.enc := rfl
@[simp] theorem State.modTbl_prx (s : State) (f : Tables → Tables) : (s.modTbl f).prx = s.prx := rfl
@[simp] theorem State.modTbl_drovers (s : State) (f : Tables → Tables) : (s.modTbl f).drovers = s.drovers := rfl
@[simp] theorem State.modTbl_eg (s : State) (f : Tables → Tables) : (s.modTbl f).eg = s.eg := rfl
@[simp] theorem State.modTbl_buf (s : State) (f : Tables → Tables) : (s.modTbl f).buf = s.buf := rfl
@[simp] theorem State.modTbl_qcfg (s : State) (f : Tables → Tables) : (s.modTbl f).qcfg = s.qcfg := rfl
@[simp] theorem State.modTbl_peerE (s : State) (f : Tables → Tables) : (s.modTbl f).peerE = s.peerE := rfl
@[simp] theorem State.modTbl_peerW (s : State) (f : Tables → Tables) : (s.modTbl f).peerW = s.peerW := rfl
@[simp] theorem State.modTbl_link (s : State) (f : Tables → Tables) : (s.modTbl f).link = s.link := rfl
@[simp] theorem State.modTbl_rings (s : State) (f : Tables → Tables) : (s.modTbl f).rings = s.rings := rfl
@[simp] theorem State.modTbl_mem (s : State) (f : Tables → Tables) : (s.modTbl f).mem = s.mem := rfl
@[simp] theorem State.modTbl_dma (s : State) (f : Tables → Tables) : (s.modTbl f).dma = s.dma := rfl
@[simp] theorem State.modTbl_intc (s : State) (f : Tables → Tables) : (s.modTbl f).intc = s.intc := rfl
@[simp] theorem State.modTbl_flt (s : State) (f : Tables → Tables) : (s.modTbl f).flt = s.flt := rfl
@[simp] theorem State.modTbl_pwr (s : State) (f : Tables → Tables) : (s.modTbl f).pwr = s.pwr := rfl
@[simp] theorem State.modTbl_nvm (s : State) (f : Tables → Tables) : (s.modTbl f).nvm = s.nvm := rfl
@[simp] theorem State.modTbl_tly (s : State) (f : Tables → Tables) : (s.modTbl f).tly = s.tly := rfl
@[simp] theorem State.modTbl_cages (s : State) (f : Tables → Tables) : (s.modTbl f).cages = s.cages := rfl
@[simp] theorem State.modTbl_regs (s : State) (f : Tables → Tables) : (s.modTbl f).regs = s.regs := rfl
@[simp] theorem State.modTbl_sels (s : State) (f : Tables → Tables) : (s.modTbl f).sels = s.sels := rfl
@[simp] theorem State.modTbl_latches (s : State) (f : Tables → Tables) : (s.modTbl f).latches = s.latches := rfl
@[simp] theorem State.modTbl_free (s : State) (f : Tables → Tables) : (s.modTbl f).free = s.free := rfl
@[simp] theorem State.modTbl_pending (s : State) (f : Tables → Tables) : (s.modTbl f).pending = s.pending := rfl

@[simp] theorem State.modEg_wt (s : State) (f : Egress → Egress) : (s.modEg f).wt = s.wt := rfl
@[simp] theorem State.modEg_contracts (s : State) (f : Egress → Egress) : (s.modEg f).contracts = s.contracts := rfl
@[simp] theorem State.modEg_streams (s : State) (f : Egress → Egress) : (s.modEg f).streams = s.streams := rfl
@[simp] theorem State.modEg_decs (s : State) (f : Egress → Egress) : (s.modEg f).decs = s.decs := rfl
@[simp] theorem State.modEg_comp (s : State) (f : Egress → Egress) : (s.modEg f).comp = s.comp := rfl
@[simp] theorem State.modEg_corr (s : State) (f : Egress → Egress) : (s.modEg f).corr = s.corr := rfl
@[simp] theorem State.modEg_enc (s : State) (f : Egress → Egress) : (s.modEg f).enc = s.enc := rfl
@[simp] theorem State.modEg_prx (s : State) (f : Egress → Egress) : (s.modEg f).prx = s.prx := rfl
@[simp] theorem State.modEg_drovers (s : State) (f : Egress → Egress) : (s.modEg f).drovers = s.drovers := rfl
@[simp] theorem State.modEg_buf (s : State) (f : Egress → Egress) : (s.modEg f).buf = s.buf := rfl
@[simp] theorem State.modEg_qcfg (s : State) (f : Egress → Egress) : (s.modEg f).qcfg = s.qcfg := rfl
@[simp] theorem State.modEg_tbl (s : State) (f : Egress → Egress) : (s.modEg f).tbl = s.tbl := rfl
@[simp] theorem State.modEg_peerE (s : State) (f : Egress → Egress) : (s.modEg f).peerE = s.peerE := rfl
@[simp] theorem State.modEg_peerW (s : State) (f : Egress → Egress) : (s.modEg f).peerW = s.peerW := rfl
@[simp] theorem State.modEg_link (s : State) (f : Egress → Egress) : (s.modEg f).link = s.link := rfl
@[simp] theorem State.modEg_rings (s : State) (f : Egress → Egress) : (s.modEg f).rings = s.rings := rfl
@[simp] theorem State.modEg_mem (s : State) (f : Egress → Egress) : (s.modEg f).mem = s.mem := rfl
@[simp] theorem State.modEg_dma (s : State) (f : Egress → Egress) : (s.modEg f).dma = s.dma := rfl
@[simp] theorem State.modEg_intc (s : State) (f : Egress → Egress) : (s.modEg f).intc = s.intc := rfl
@[simp] theorem State.modEg_flt (s : State) (f : Egress → Egress) : (s.modEg f).flt = s.flt := rfl
@[simp] theorem State.modEg_pwr (s : State) (f : Egress → Egress) : (s.modEg f).pwr = s.pwr := rfl
@[simp] theorem State.modEg_nvm (s : State) (f : Egress → Egress) : (s.modEg f).nvm = s.nvm := rfl
@[simp] theorem State.modEg_tly (s : State) (f : Egress → Egress) : (s.modEg f).tly = s.tly := rfl
@[simp] theorem State.modEg_cages (s : State) (f : Egress → Egress) : (s.modEg f).cages = s.cages := rfl
@[simp] theorem State.modEg_regs (s : State) (f : Egress → Egress) : (s.modEg f).regs = s.regs := rfl
@[simp] theorem State.modEg_sels (s : State) (f : Egress → Egress) : (s.modEg f).sels = s.sels := rfl
@[simp] theorem State.modEg_latches (s : State) (f : Egress → Egress) : (s.modEg f).latches = s.latches := rfl
@[simp] theorem State.modEg_free (s : State) (f : Egress → Egress) : (s.modEg f).free = s.free := rfl
@[simp] theorem State.modEg_pending (s : State) (f : Egress → Egress) : (s.modEg f).pending = s.pending := rfl

@[simp] theorem State.modBuf_wt (s : State) (f : Buffers → Buffers) : (s.modBuf f).wt = s.wt := rfl
@[simp] theorem State.modBuf_contracts (s : State) (f : Buffers → Buffers) : (s.modBuf f).contracts = s.contracts := rfl
@[simp] theorem State.modBuf_streams (s : State) (f : Buffers → Buffers) : (s.modBuf f).streams = s.streams := rfl
@[simp] theorem State.modBuf_decs (s : State) (f : Buffers → Buffers) : (s.modBuf f).decs = s.decs := rfl
@[simp] theorem State.modBuf_comp (s : State) (f : Buffers → Buffers) : (s.modBuf f).comp = s.comp := rfl
@[simp] theorem State.modBuf_corr (s : State) (f : Buffers → Buffers) : (s.modBuf f).corr = s.corr := rfl
@[simp] theorem State.modBuf_enc (s : State) (f : Buffers → Buffers) : (s.modBuf f).enc = s.enc := rfl
@[simp] theorem State.modBuf_prx (s : State) (f : Buffers → Buffers) : (s.modBuf f).prx = s.prx := rfl
@[simp] theorem State.modBuf_drovers (s : State) (f : Buffers → Buffers) : (s.modBuf f).drovers = s.drovers := rfl
@[simp] theorem State.modBuf_eg (s : State) (f : Buffers → Buffers) : (s.modBuf f).eg = s.eg := rfl
@[simp] theorem State.modBuf_qcfg (s : State) (f : Buffers → Buffers) : (s.modBuf f).qcfg = s.qcfg := rfl
@[simp] theorem State.modBuf_tbl (s : State) (f : Buffers → Buffers) : (s.modBuf f).tbl = s.tbl := rfl
@[simp] theorem State.modBuf_peerE (s : State) (f : Buffers → Buffers) : (s.modBuf f).peerE = s.peerE := rfl
@[simp] theorem State.modBuf_peerW (s : State) (f : Buffers → Buffers) : (s.modBuf f).peerW = s.peerW := rfl
@[simp] theorem State.modBuf_link (s : State) (f : Buffers → Buffers) : (s.modBuf f).link = s.link := rfl
@[simp] theorem State.modBuf_rings (s : State) (f : Buffers → Buffers) : (s.modBuf f).rings = s.rings := rfl
@[simp] theorem State.modBuf_mem (s : State) (f : Buffers → Buffers) : (s.modBuf f).mem = s.mem := rfl
@[simp] theorem State.modBuf_dma (s : State) (f : Buffers → Buffers) : (s.modBuf f).dma = s.dma := rfl
@[simp] theorem State.modBuf_intc (s : State) (f : Buffers → Buffers) : (s.modBuf f).intc = s.intc := rfl
@[simp] theorem State.modBuf_flt (s : State) (f : Buffers → Buffers) : (s.modBuf f).flt = s.flt := rfl
@[simp] theorem State.modBuf_pwr (s : State) (f : Buffers → Buffers) : (s.modBuf f).pwr = s.pwr := rfl
@[simp] theorem State.modBuf_nvm (s : State) (f : Buffers → Buffers) : (s.modBuf f).nvm = s.nvm := rfl
@[simp] theorem State.modBuf_tly (s : State) (f : Buffers → Buffers) : (s.modBuf f).tly = s.tly := rfl
@[simp] theorem State.modBuf_cages (s : State) (f : Buffers → Buffers) : (s.modBuf f).cages = s.cages := rfl
@[simp] theorem State.modBuf_regs (s : State) (f : Buffers → Buffers) : (s.modBuf f).regs = s.regs := rfl
@[simp] theorem State.modBuf_sels (s : State) (f : Buffers → Buffers) : (s.modBuf f).sels = s.sels := rfl
@[simp] theorem State.modBuf_latches (s : State) (f : Buffers → Buffers) : (s.modBuf f).latches = s.latches := rfl
@[simp] theorem State.modBuf_free (s : State) (f : Buffers → Buffers) : (s.modBuf f).free = s.free := rfl
@[simp] theorem State.modBuf_pending (s : State) (f : Buffers → Buffers) : (s.modBuf f).pending = s.pending := rfl

@[simp] theorem State.modTly_wt (s : State) (f : Tally → Tally) : (s.modTly f).wt = s.wt := rfl
@[simp] theorem State.modTly_contracts (s : State) (f : Tally → Tally) : (s.modTly f).contracts = s.contracts := rfl
@[simp] theorem State.modTly_streams (s : State) (f : Tally → Tally) : (s.modTly f).streams = s.streams := rfl
@[simp] theorem State.modTly_decs (s : State) (f : Tally → Tally) : (s.modTly f).decs = s.decs := rfl
@[simp] theorem State.modTly_comp (s : State) (f : Tally → Tally) : (s.modTly f).comp = s.comp := rfl
@[simp] theorem State.modTly_corr (s : State) (f : Tally → Tally) : (s.modTly f).corr = s.corr := rfl
@[simp] theorem State.modTly_enc (s : State) (f : Tally → Tally) : (s.modTly f).enc = s.enc := rfl
@[simp] theorem State.modTly_prx (s : State) (f : Tally → Tally) : (s.modTly f).prx = s.prx := rfl
@[simp] theorem State.modTly_drovers (s : State) (f : Tally → Tally) : (s.modTly f).drovers = s.drovers := rfl
@[simp] theorem State.modTly_eg (s : State) (f : Tally → Tally) : (s.modTly f).eg = s.eg := rfl
@[simp] theorem State.modTly_buf (s : State) (f : Tally → Tally) : (s.modTly f).buf = s.buf := rfl
@[simp] theorem State.modTly_qcfg (s : State) (f : Tally → Tally) : (s.modTly f).qcfg = s.qcfg := rfl
@[simp] theorem State.modTly_tbl (s : State) (f : Tally → Tally) : (s.modTly f).tbl = s.tbl := rfl
@[simp] theorem State.modTly_peerE (s : State) (f : Tally → Tally) : (s.modTly f).peerE = s.peerE := rfl
@[simp] theorem State.modTly_peerW (s : State) (f : Tally → Tally) : (s.modTly f).peerW = s.peerW := rfl
@[simp] theorem State.modTly_link (s : State) (f : Tally → Tally) : (s.modTly f).link = s.link := rfl
@[simp] theorem State.modTly_rings (s : State) (f : Tally → Tally) : (s.modTly f).rings = s.rings := rfl
@[simp] theorem State.modTly_mem (s : State) (f : Tally → Tally) : (s.modTly f).mem = s.mem := rfl
@[simp] theorem State.modTly_dma (s : State) (f : Tally → Tally) : (s.modTly f).dma = s.dma := rfl
@[simp] theorem State.modTly_intc (s : State) (f : Tally → Tally) : (s.modTly f).intc = s.intc := rfl
@[simp] theorem State.modTly_flt (s : State) (f : Tally → Tally) : (s.modTly f).flt = s.flt := rfl
@[simp] theorem State.modTly_pwr (s : State) (f : Tally → Tally) : (s.modTly f).pwr = s.pwr := rfl
@[simp] theorem State.modTly_nvm (s : State) (f : Tally → Tally) : (s.modTly f).nvm = s.nvm := rfl
@[simp] theorem State.modTly_cages (s : State) (f : Tally → Tally) : (s.modTly f).cages = s.cages := rfl
@[simp] theorem State.modTly_regs (s : State) (f : Tally → Tally) : (s.modTly f).regs = s.regs := rfl
@[simp] theorem State.modTly_sels (s : State) (f : Tally → Tally) : (s.modTly f).sels = s.sels := rfl
@[simp] theorem State.modTly_latches (s : State) (f : Tally → Tally) : (s.modTly f).latches = s.latches := rfl
@[simp] theorem State.modTly_free (s : State) (f : Tally → Tally) : (s.modTly f).free = s.free := rfl
@[simp] theorem State.modTly_pending (s : State) (f : Tally → Tally) : (s.modTly f).pending = s.pending := rfl

@[simp] theorem State.modFlt_wt (s : State) (f : Faults → Faults) : (s.modFlt f).wt = s.wt := rfl
@[simp] theorem State.modFlt_contracts (s : State) (f : Faults → Faults) : (s.modFlt f).contracts = s.contracts := rfl
@[simp] theorem State.modFlt_streams (s : State) (f : Faults → Faults) : (s.modFlt f).streams = s.streams := rfl
@[simp] theorem State.modFlt_decs (s : State) (f : Faults → Faults) : (s.modFlt f).decs = s.decs := rfl
@[simp] theorem State.modFlt_comp (s : State) (f : Faults → Faults) : (s.modFlt f).comp = s.comp := rfl
@[simp] theorem State.modFlt_corr (s : State) (f : Faults → Faults) : (s.modFlt f).corr = s.corr := rfl
@[simp] theorem State.modFlt_enc (s : State) (f : Faults → Faults) : (s.modFlt f).enc = s.enc := rfl
@[simp] theorem State.modFlt_prx (s : State) (f : Faults → Faults) : (s.modFlt f).prx = s.prx := rfl
@[simp] theorem State.modFlt_drovers (s : State) (f : Faults → Faults) : (s.modFlt f).drovers = s.drovers := rfl
@[simp] theorem State.modFlt_eg (s : State) (f : Faults → Faults) : (s.modFlt f).eg = s.eg := rfl
@[simp] theorem State.modFlt_buf (s : State) (f : Faults → Faults) : (s.modFlt f).buf = s.buf := rfl
@[simp] theorem State.modFlt_qcfg (s : State) (f : Faults → Faults) : (s.modFlt f).qcfg = s.qcfg := rfl
@[simp] theorem State.modFlt_tbl (s : State) (f : Faults → Faults) : (s.modFlt f).tbl = s.tbl := rfl
@[simp] theorem State.modFlt_peerE (s : State) (f : Faults → Faults) : (s.modFlt f).peerE = s.peerE := rfl
@[simp] theorem State.modFlt_peerW (s : State) (f : Faults → Faults) : (s.modFlt f).peerW = s.peerW := rfl
@[simp] theorem State.modFlt_link (s : State) (f : Faults → Faults) : (s.modFlt f).link = s.link := rfl
@[simp] theorem State.modFlt_rings (s : State) (f : Faults → Faults) : (s.modFlt f).rings = s.rings := rfl
@[simp] theorem State.modFlt_mem (s : State) (f : Faults → Faults) : (s.modFlt f).mem = s.mem := rfl
@[simp] theorem State.modFlt_dma (s : State) (f : Faults → Faults) : (s.modFlt f).dma = s.dma := rfl
@[simp] theorem State.modFlt_intc (s : State) (f : Faults → Faults) : (s.modFlt f).intc = s.intc := rfl
@[simp] theorem State.modFlt_pwr (s : State) (f : Faults → Faults) : (s.modFlt f).pwr = s.pwr := rfl
@[simp] theorem State.modFlt_nvm (s : State) (f : Faults → Faults) : (s.modFlt f).nvm = s.nvm := rfl
@[simp] theorem State.modFlt_tly (s : State) (f : Faults → Faults) : (s.modFlt f).tly = s.tly := rfl
@[simp] theorem State.modFlt_cages (s : State) (f : Faults → Faults) : (s.modFlt f).cages = s.cages := rfl
@[simp] theorem State.modFlt_regs (s : State) (f : Faults → Faults) : (s.modFlt f).regs = s.regs := rfl
@[simp] theorem State.modFlt_sels (s : State) (f : Faults → Faults) : (s.modFlt f).sels = s.sels := rfl
@[simp] theorem State.modFlt_latches (s : State) (f : Faults → Faults) : (s.modFlt f).latches = s.latches := rfl
@[simp] theorem State.modFlt_free (s : State) (f : Faults → Faults) : (s.modFlt f).free = s.free := rfl
@[simp] theorem State.modFlt_pending (s : State) (f : Faults → Faults) : (s.modFlt f).pending = s.pending := rfl

@[simp] theorem State.modContract_wt (s : State) (k : Nat) (f : Contract → Contract) : (s.modContract k f).wt = s.wt := rfl
@[simp] theorem State.modContract_streams (s : State) (k : Nat) (f : Contract → Contract) : (s.modContract k f).streams = s.streams := rfl
@[simp] theorem State.modContract_decs (s : State) (k : Nat) (f : Contract → Contract) : (s.modContract k f).decs = s.decs := rfl
@[simp] theorem State.modContract_comp (s : State) (k : Nat) (f : Contract → Contract) : (s.modContract k f).comp = s.comp := rfl
@[simp] theorem State.modContract_corr (s : State) (k : Nat) (f : Contract → Contract) : (s.modContract k f).corr = s.corr := rfl
@[simp] theorem State.modContract_enc (s : State) (k : Nat) (f : Contract → Contract) : (s.modContract k f).enc = s.enc := rfl
@[simp] theorem State.modContract_prx (s : State) (k : Nat) (f : Contract → Contract) : (s.modContract k f).prx = s.prx := rfl
@[simp] theorem State.modContract_drovers (s : State) (k : Nat) (f : Contract → Contract) : (s.modContract k f).drovers = s.drovers := rfl
@[simp] theorem State.modContract_eg (s : State) (k : Nat) (f : Contract → Contract) : (s.modContract k f).eg = s.eg := rfl
@[simp] theorem State.modContract_buf (s : State) (k : Nat) (f : Contract → Contract) : (s.modContract k f).buf = s.buf := rfl
@[simp] theorem State.modContract_qcfg (s : State) (k : Nat) (f : Contract → Contract) : (s.modContract k f).qcfg = s.qcfg := rfl
@[simp] theorem State.modContract_tbl (s : State) (k : Nat) (f : Contract → Contract) : (s.modContract k f).tbl = s.tbl := rfl
@[simp] theorem State.modContract_peerE (s : State) (k : Nat) (f : Contract → Contract) : (s.modContract k f).peerE = s.peerE := rfl
@[simp] theorem State.modContract_peerW (s : State) (k : Nat) (f : Contract → Contract) : (s.modContract k f).peerW = s.peerW := rfl
@[simp] theorem State.modContract_link (s : State) (k : Nat) (f : Contract → Contract) : (s.modContract k f).link = s.link := rfl
@[simp] theorem State.modContract_rings (s : State) (k : Nat) (f : Contract → Contract) : (s.modContract k f).rings = s.rings := rfl
@[simp] theorem State.modContract_mem (s : State) (k : Nat) (f : Contract → Contract) : (s.modContract k f).mem = s.mem := rfl
@[simp] theorem State.modContract_dma (s : State) (k : Nat) (f : Contract → Contract) : (s.modContract k f).dma = s.dma := rfl
@[simp] theorem State.modContract_intc (s : State) (k : Nat) (f : Contract → Contract) : (s.modContract k f).intc = s.intc := rfl
@[simp] theorem State.modContract_flt (s : State) (k : Nat) (f : Contract → Contract) : (s.modContract k f).flt = s.flt := rfl
@[simp] theorem State.modContract_pwr (s : State) (k : Nat) (f : Contract → Contract) : (s.modContract k f).pwr = s.pwr := rfl
@[simp] theorem State.modContract_nvm (s : State) (k : Nat) (f : Contract → Contract) : (s.modContract k f).nvm = s.nvm := rfl
@[simp] theorem State.modContract_tly (s : State) (k : Nat) (f : Contract → Contract) : (s.modContract k f).tly = s.tly := rfl
@[simp] theorem State.modContract_cages (s : State) (k : Nat) (f : Contract → Contract) : (s.modContract k f).cages = s.cages := rfl
@[simp] theorem State.modContract_regs (s : State) (k : Nat) (f : Contract → Contract) : (s.modContract k f).regs = s.regs := rfl
@[simp] theorem State.modContract_sels (s : State) (k : Nat) (f : Contract → Contract) : (s.modContract k f).sels = s.sels := rfl
@[simp] theorem State.modContract_latches (s : State) (k : Nat) (f : Contract → Contract) : (s.modContract k f).latches = s.latches := rfl
@[simp] theorem State.modContract_free (s : State) (k : Nat) (f : Contract → Contract) : (s.modContract k f).free = s.free := rfl
@[simp] theorem State.modContract_pending (s : State) (k : Nat) (f : Contract → Contract) : (s.modContract k f).pending = s.pending := rfl

@[simp] theorem State.modStream_wt (s : State) (k : Nat) (f : Stream → Stream) : (s.modStream k f).wt = s.wt := rfl
@[simp] theorem State.modStream_contracts (s : State) (k : Nat) (f : Stream → Stream) : (s.modStream k f).contracts = s.contracts := rfl
@[simp] theorem State.modStream_decs (s : State) (k : Nat) (f : Stream → Stream) : (s.modStream k f).decs = s.decs := rfl
@[simp] theorem State.modStream_comp (s : State) (k : Nat) (f : Stream → Stream) : (s.modStream k f).comp = s.comp := rfl
@[simp] theorem State.modStream_corr (s : State) (k : Nat) (f : Stream → Stream) : (s.modStream k f).corr = s.corr := rfl
@[simp] theorem State.modStream_enc (s : State) (k : Nat) (f : Stream → Stream) : (s.modStream k f).enc = s.enc := rfl
@[simp] theorem State.modStream_prx (s : State) (k : Nat) (f : Stream → Stream) : (s.modStream k f).prx = s.prx := rfl
@[simp] theorem State.modStream_drovers (s : State) (k : Nat) (f : Stream → Stream) : (s.modStream k f).drovers = s.drovers := rfl
@[simp] theorem State.modStream_eg (s : State) (k : Nat) (f : Stream → Stream) : (s.modStream k f).eg = s.eg := rfl
@[simp] theorem State.modStream_buf (s : State) (k : Nat) (f : Stream → Stream) : (s.modStream k f).buf = s.buf := rfl
@[simp] theorem State.modStream_qcfg (s : State) (k : Nat) (f : Stream → Stream) : (s.modStream k f).qcfg = s.qcfg := rfl
@[simp] theorem State.modStream_tbl (s : State) (k : Nat) (f : Stream → Stream) : (s.modStream k f).tbl = s.tbl := rfl
@[simp] theorem State.modStream_peerE (s : State) (k : Nat) (f : Stream → Stream) : (s.modStream k f).peerE = s.peerE := rfl
@[simp] theorem State.modStream_peerW (s : State) (k : Nat) (f : Stream → Stream) : (s.modStream k f).peerW = s.peerW := rfl
@[simp] theorem State.modStream_link (s : State) (k : Nat) (f : Stream → Stream) : (s.modStream k f).link = s.link := rfl
@[simp] theorem State.modStream_rings (s : State) (k : Nat) (f : Stream → Stream) : (s.modStream k f).rings = s.rings := rfl
@[simp] theorem State.modStream_mem (s : State) (k : Nat) (f : Stream → Stream) : (s.modStream k f).mem = s.mem := rfl
@[simp] theorem State.modStream_dma (s : State) (k : Nat) (f : Stream → Stream) : (s.modStream k f).dma = s.dma := rfl
@[simp] theorem State.modStream_intc (s : State) (k : Nat) (f : Stream → Stream) : (s.modStream k f).intc = s.intc := rfl
@[simp] theorem State.modStream_flt (s : State) (k : Nat) (f : Stream → Stream) : (s.modStream k f).flt = s.flt := rfl
@[simp] theorem State.modStream_pwr (s : State) (k : Nat) (f : Stream → Stream) : (s.modStream k f).pwr = s.pwr := rfl
@[simp] theorem State.modStream_nvm (s : State) (k : Nat) (f : Stream → Stream) : (s.modStream k f).nvm = s.nvm := rfl
@[simp] theorem State.modStream_tly (s : State) (k : Nat) (f : Stream → Stream) : (s.modStream k f).tly = s.tly := rfl
@[simp] theorem State.modStream_cages (s : State) (k : Nat) (f : Stream → Stream) : (s.modStream k f).cages = s.cages := rfl
@[simp] theorem State.modStream_regs (s : State) (k : Nat) (f : Stream → Stream) : (s.modStream k f).regs = s.regs := rfl
@[simp] theorem State.modStream_sels (s : State) (k : Nat) (f : Stream → Stream) : (s.modStream k f).sels = s.sels := rfl
@[simp] theorem State.modStream_latches (s : State) (k : Nat) (f : Stream → Stream) : (s.modStream k f).latches = s.latches := rfl
@[simp] theorem State.modStream_free (s : State) (k : Nat) (f : Stream → Stream) : (s.modStream k f).free = s.free := rfl
@[simp] theorem State.modStream_pending (s : State) (k : Nat) (f : Stream → Stream) : (s.modStream k f).pending = s.pending := rfl

@[simp] theorem State.modDec_wt (s : State) (k : Nat) (f : DecCore → DecCore) : (s.modDec k f).wt = s.wt := rfl
@[simp] theorem State.modDec_contracts (s : State) (k : Nat) (f : DecCore → DecCore) : (s.modDec k f).contracts = s.contracts := rfl
@[simp] theorem State.modDec_streams (s : State) (k : Nat) (f : DecCore → DecCore) : (s.modDec k f).streams = s.streams := rfl
@[simp] theorem State.modDec_comp (s : State) (k : Nat) (f : DecCore → DecCore) : (s.modDec k f).comp = s.comp := rfl
@[simp] theorem State.modDec_corr (s : State) (k : Nat) (f : DecCore → DecCore) : (s.modDec k f).corr = s.corr := rfl
@[simp] theorem State.modDec_enc (s : State) (k : Nat) (f : DecCore → DecCore) : (s.modDec k f).enc = s.enc := rfl
@[simp] theorem State.modDec_prx (s : State) (k : Nat) (f : DecCore → DecCore) : (s.modDec k f).prx = s.prx := rfl
@[simp] theorem State.modDec_drovers (s : State) (k : Nat) (f : DecCore → DecCore) : (s.modDec k f).drovers = s.drovers := rfl
@[simp] theorem State.modDec_eg (s : State) (k : Nat) (f : DecCore → DecCore) : (s.modDec k f).eg = s.eg := rfl
@[simp] theorem State.modDec_buf (s : State) (k : Nat) (f : DecCore → DecCore) : (s.modDec k f).buf = s.buf := rfl
@[simp] theorem State.modDec_qcfg (s : State) (k : Nat) (f : DecCore → DecCore) : (s.modDec k f).qcfg = s.qcfg := rfl
@[simp] theorem State.modDec_tbl (s : State) (k : Nat) (f : DecCore → DecCore) : (s.modDec k f).tbl = s.tbl := rfl
@[simp] theorem State.modDec_peerE (s : State) (k : Nat) (f : DecCore → DecCore) : (s.modDec k f).peerE = s.peerE := rfl
@[simp] theorem State.modDec_peerW (s : State) (k : Nat) (f : DecCore → DecCore) : (s.modDec k f).peerW = s.peerW := rfl
@[simp] theorem State.modDec_link (s : State) (k : Nat) (f : DecCore → DecCore) : (s.modDec k f).link = s.link := rfl
@[simp] theorem State.modDec_rings (s : State) (k : Nat) (f : DecCore → DecCore) : (s.modDec k f).rings = s.rings := rfl
@[simp] theorem State.modDec_mem (s : State) (k : Nat) (f : DecCore → DecCore) : (s.modDec k f).mem = s.mem := rfl
@[simp] theorem State.modDec_dma (s : State) (k : Nat) (f : DecCore → DecCore) : (s.modDec k f).dma = s.dma := rfl
@[simp] theorem State.modDec_intc (s : State) (k : Nat) (f : DecCore → DecCore) : (s.modDec k f).intc = s.intc := rfl
@[simp] theorem State.modDec_flt (s : State) (k : Nat) (f : DecCore → DecCore) : (s.modDec k f).flt = s.flt := rfl
@[simp] theorem State.modDec_pwr (s : State) (k : Nat) (f : DecCore → DecCore) : (s.modDec k f).pwr = s.pwr := rfl
@[simp] theorem State.modDec_nvm (s : State) (k : Nat) (f : DecCore → DecCore) : (s.modDec k f).nvm = s.nvm := rfl
@[simp] theorem State.modDec_tly (s : State) (k : Nat) (f : DecCore → DecCore) : (s.modDec k f).tly = s.tly := rfl
@[simp] theorem State.modDec_cages (s : State) (k : Nat) (f : DecCore → DecCore) : (s.modDec k f).cages = s.cages := rfl
@[simp] theorem State.modDec_regs (s : State) (k : Nat) (f : DecCore → DecCore) : (s.modDec k f).regs = s.regs := rfl
@[simp] theorem State.modDec_sels (s : State) (k : Nat) (f : DecCore → DecCore) : (s.modDec k f).sels = s.sels := rfl
@[simp] theorem State.modDec_latches (s : State) (k : Nat) (f : DecCore → DecCore) : (s.modDec k f).latches = s.latches := rfl
@[simp] theorem State.modDec_free (s : State) (k : Nat) (f : DecCore → DecCore) : (s.modDec k f).free = s.free := rfl
@[simp] theorem State.modDec_pending (s : State) (k : Nat) (f : DecCore → DecCore) : (s.modDec k f).pending = s.pending := rfl

@[simp] theorem State.modEncCore_wt (s : State) (k : Nat) (f : EncCore → EncCore) : (s.modEncCore k f).wt = s.wt := rfl
@[simp] theorem State.modEncCore_contracts (s : State) (k : Nat) (f : EncCore → EncCore) : (s.modEncCore k f).contracts = s.contracts := rfl
@[simp] theorem State.modEncCore_streams (s : State) (k : Nat) (f : EncCore → EncCore) : (s.modEncCore k f).streams = s.streams := rfl
@[simp] theorem State.modEncCore_decs (s : State) (k : Nat) (f : EncCore → EncCore) : (s.modEncCore k f).decs = s.decs := rfl
@[simp] theorem State.modEncCore_comp (s : State) (k : Nat) (f : EncCore → EncCore) : (s.modEncCore k f).comp = s.comp := rfl
@[simp] theorem State.modEncCore_corr (s : State) (k : Nat) (f : EncCore → EncCore) : (s.modEncCore k f).corr = s.corr := rfl
@[simp] theorem State.modEncCore_prx (s : State) (k : Nat) (f : EncCore → EncCore) : (s.modEncCore k f).prx = s.prx := rfl
@[simp] theorem State.modEncCore_drovers (s : State) (k : Nat) (f : EncCore → EncCore) : (s.modEncCore k f).drovers = s.drovers := rfl
@[simp] theorem State.modEncCore_eg (s : State) (k : Nat) (f : EncCore → EncCore) : (s.modEncCore k f).eg = s.eg := rfl
@[simp] theorem State.modEncCore_buf (s : State) (k : Nat) (f : EncCore → EncCore) : (s.modEncCore k f).buf = s.buf := rfl
@[simp] theorem State.modEncCore_qcfg (s : State) (k : Nat) (f : EncCore → EncCore) : (s.modEncCore k f).qcfg = s.qcfg := rfl
@[simp] theorem State.modEncCore_tbl (s : State) (k : Nat) (f : EncCore → EncCore) : (s.modEncCore k f).tbl = s.tbl := rfl
@[simp] theorem State.modEncCore_peerE (s : State) (k : Nat) (f : EncCore → EncCore) : (s.modEncCore k f).peerE = s.peerE := rfl
@[simp] theorem State.modEncCore_peerW (s : State) (k : Nat) (f : EncCore → EncCore) : (s.modEncCore k f).peerW = s.peerW := rfl
@[simp] theorem State.modEncCore_link (s : State) (k : Nat) (f : EncCore → EncCore) : (s.modEncCore k f).link = s.link := rfl
@[simp] theorem State.modEncCore_rings (s : State) (k : Nat) (f : EncCore → EncCore) : (s.modEncCore k f).rings = s.rings := rfl
@[simp] theorem State.modEncCore_mem (s : State) (k : Nat) (f : EncCore → EncCore) : (s.modEncCore k f).mem = s.mem := rfl
@[simp] theorem State.modEncCore_dma (s : State) (k : Nat) (f : EncCore → EncCore) : (s.modEncCore k f).dma = s.dma := rfl
@[simp] theorem State.modEncCore_intc (s : State) (k : Nat) (f : EncCore → EncCore) : (s.modEncCore k f).intc = s.intc := rfl
@[simp] theorem State.modEncCore_flt (s : State) (k : Nat) (f : EncCore → EncCore) : (s.modEncCore k f).flt = s.flt := rfl
@[simp] theorem State.modEncCore_pwr (s : State) (k : Nat) (f : EncCore → EncCore) : (s.modEncCore k f).pwr = s.pwr := rfl
@[simp] theorem State.modEncCore_nvm (s : State) (k : Nat) (f : EncCore → EncCore) : (s.modEncCore k f).nvm = s.nvm := rfl
@[simp] theorem State.modEncCore_tly (s : State) (k : Nat) (f : EncCore → EncCore) : (s.modEncCore k f).tly = s.tly := rfl
@[simp] theorem State.modEncCore_cages (s : State) (k : Nat) (f : EncCore → EncCore) : (s.modEncCore k f).cages = s.cages := rfl
@[simp] theorem State.modEncCore_regs (s : State) (k : Nat) (f : EncCore → EncCore) : (s.modEncCore k f).regs = s.regs := rfl
@[simp] theorem State.modEncCore_sels (s : State) (k : Nat) (f : EncCore → EncCore) : (s.modEncCore k f).sels = s.sels := rfl
@[simp] theorem State.modEncCore_latches (s : State) (k : Nat) (f : EncCore → EncCore) : (s.modEncCore k f).latches = s.latches := rfl
@[simp] theorem State.modEncCore_free (s : State) (k : Nat) (f : EncCore → EncCore) : (s.modEncCore k f).free = s.free := rfl
@[simp] theorem State.modEncCore_pending (s : State) (k : Nat) (f : EncCore → EncCore) : (s.modEncCore k f).pending = s.pending := rfl

@[simp] theorem State.modDrover_wt (s : State) (k : Nat) (f : Drover → Drover) : (s.modDrover k f).wt = s.wt := rfl
@[simp] theorem State.modDrover_contracts (s : State) (k : Nat) (f : Drover → Drover) : (s.modDrover k f).contracts = s.contracts := rfl
@[simp] theorem State.modDrover_streams (s : State) (k : Nat) (f : Drover → Drover) : (s.modDrover k f).streams = s.streams := rfl
@[simp] theorem State.modDrover_decs (s : State) (k : Nat) (f : Drover → Drover) : (s.modDrover k f).decs = s.decs := rfl
@[simp] theorem State.modDrover_comp (s : State) (k : Nat) (f : Drover → Drover) : (s.modDrover k f).comp = s.comp := rfl
@[simp] theorem State.modDrover_corr (s : State) (k : Nat) (f : Drover → Drover) : (s.modDrover k f).corr = s.corr := rfl
@[simp] theorem State.modDrover_enc (s : State) (k : Nat) (f : Drover → Drover) : (s.modDrover k f).enc = s.enc := rfl
@[simp] theorem State.modDrover_prx (s : State) (k : Nat) (f : Drover → Drover) : (s.modDrover k f).prx = s.prx := rfl
@[simp] theorem State.modDrover_eg (s : State) (k : Nat) (f : Drover → Drover) : (s.modDrover k f).eg = s.eg := rfl
@[simp] theorem State.modDrover_buf (s : State) (k : Nat) (f : Drover → Drover) : (s.modDrover k f).buf = s.buf := rfl
@[simp] theorem State.modDrover_qcfg (s : State) (k : Nat) (f : Drover → Drover) : (s.modDrover k f).qcfg = s.qcfg := rfl
@[simp] theorem State.modDrover_tbl (s : State) (k : Nat) (f : Drover → Drover) : (s.modDrover k f).tbl = s.tbl := rfl
@[simp] theorem State.modDrover_peerE (s : State) (k : Nat) (f : Drover → Drover) : (s.modDrover k f).peerE = s.peerE := rfl
@[simp] theorem State.modDrover_peerW (s : State) (k : Nat) (f : Drover → Drover) : (s.modDrover k f).peerW = s.peerW := rfl
@[simp] theorem State.modDrover_link (s : State) (k : Nat) (f : Drover → Drover) : (s.modDrover k f).link = s.link := rfl
@[simp] theorem State.modDrover_rings (s : State) (k : Nat) (f : Drover → Drover) : (s.modDrover k f).rings = s.rings := rfl
@[simp] theorem State.modDrover_mem (s : State) (k : Nat) (f : Drover → Drover) : (s.modDrover k f).mem = s.mem := rfl
@[simp] theorem State.modDrover_dma (s : State) (k : Nat) (f : Drover → Drover) : (s.modDrover k f).dma = s.dma := rfl
@[simp] theorem State.modDrover_intc (s : State) (k : Nat) (f : Drover → Drover) : (s.modDrover k f).intc = s.intc := rfl
@[simp] theorem State.modDrover_flt (s : State) (k : Nat) (f : Drover → Drover) : (s.modDrover k f).flt = s.flt := rfl
@[simp] theorem State.modDrover_pwr (s : State) (k : Nat) (f : Drover → Drover) : (s.modDrover k f).pwr = s.pwr := rfl
@[simp] theorem State.modDrover_nvm (s : State) (k : Nat) (f : Drover → Drover) : (s.modDrover k f).nvm = s.nvm := rfl
@[simp] theorem State.modDrover_tly (s : State) (k : Nat) (f : Drover → Drover) : (s.modDrover k f).tly = s.tly := rfl
@[simp] theorem State.modDrover_cages (s : State) (k : Nat) (f : Drover → Drover) : (s.modDrover k f).cages = s.cages := rfl
@[simp] theorem State.modDrover_regs (s : State) (k : Nat) (f : Drover → Drover) : (s.modDrover k f).regs = s.regs := rfl
@[simp] theorem State.modDrover_sels (s : State) (k : Nat) (f : Drover → Drover) : (s.modDrover k f).sels = s.sels := rfl
@[simp] theorem State.modDrover_latches (s : State) (k : Nat) (f : Drover → Drover) : (s.modDrover k f).latches = s.latches := rfl
@[simp] theorem State.modDrover_free (s : State) (k : Nat) (f : Drover → Drover) : (s.modDrover k f).free = s.free := rfl
@[simp] theorem State.modDrover_pending (s : State) (k : Nat) (f : Drover → Drover) : (s.modDrover k f).pending = s.pending := rfl

@[simp] theorem State.modPort_wt (s : State) (k : Nat) (f : Port → Port) : (s.modPort k f).wt = s.wt := rfl
@[simp] theorem State.modPort_contracts (s : State) (k : Nat) (f : Port → Port) : (s.modPort k f).contracts = s.contracts := rfl
@[simp] theorem State.modPort_streams (s : State) (k : Nat) (f : Port → Port) : (s.modPort k f).streams = s.streams := rfl
@[simp] theorem State.modPort_decs (s : State) (k : Nat) (f : Port → Port) : (s.modPort k f).decs = s.decs := rfl
@[simp] theorem State.modPort_comp (s : State) (k : Nat) (f : Port → Port) : (s.modPort k f).comp = s.comp := rfl
@[simp] theorem State.modPort_corr (s : State) (k : Nat) (f : Port → Port) : (s.modPort k f).corr = s.corr := rfl
@[simp] theorem State.modPort_enc (s : State) (k : Nat) (f : Port → Port) : (s.modPort k f).enc = s.enc := rfl
@[simp] theorem State.modPort_prx (s : State) (k : Nat) (f : Port → Port) : (s.modPort k f).prx = s.prx := rfl
@[simp] theorem State.modPort_drovers (s : State) (k : Nat) (f : Port → Port) : (s.modPort k f).drovers = s.drovers := rfl
@[simp] theorem State.modPort_buf (s : State) (k : Nat) (f : Port → Port) : (s.modPort k f).buf = s.buf := rfl
@[simp] theorem State.modPort_qcfg (s : State) (k : Nat) (f : Port → Port) : (s.modPort k f).qcfg = s.qcfg := rfl
@[simp] theorem State.modPort_tbl (s : State) (k : Nat) (f : Port → Port) : (s.modPort k f).tbl = s.tbl := rfl
@[simp] theorem State.modPort_peerE (s : State) (k : Nat) (f : Port → Port) : (s.modPort k f).peerE = s.peerE := rfl
@[simp] theorem State.modPort_peerW (s : State) (k : Nat) (f : Port → Port) : (s.modPort k f).peerW = s.peerW := rfl
@[simp] theorem State.modPort_link (s : State) (k : Nat) (f : Port → Port) : (s.modPort k f).link = s.link := rfl
@[simp] theorem State.modPort_rings (s : State) (k : Nat) (f : Port → Port) : (s.modPort k f).rings = s.rings := rfl
@[simp] theorem State.modPort_mem (s : State) (k : Nat) (f : Port → Port) : (s.modPort k f).mem = s.mem := rfl
@[simp] theorem State.modPort_dma (s : State) (k : Nat) (f : Port → Port) : (s.modPort k f).dma = s.dma := rfl
@[simp] theorem State.modPort_intc (s : State) (k : Nat) (f : Port → Port) : (s.modPort k f).intc = s.intc := rfl
@[simp] theorem State.modPort_flt (s : State) (k : Nat) (f : Port → Port) : (s.modPort k f).flt = s.flt := rfl
@[simp] theorem State.modPort_pwr (s : State) (k : Nat) (f : Port → Port) : (s.modPort k f).pwr = s.pwr := rfl
@[simp] theorem State.modPort_nvm (s : State) (k : Nat) (f : Port → Port) : (s.modPort k f).nvm = s.nvm := rfl
@[simp] theorem State.modPort_tly (s : State) (k : Nat) (f : Port → Port) : (s.modPort k f).tly = s.tly := rfl
@[simp] theorem State.modPort_cages (s : State) (k : Nat) (f : Port → Port) : (s.modPort k f).cages = s.cages := rfl
@[simp] theorem State.modPort_regs (s : State) (k : Nat) (f : Port → Port) : (s.modPort k f).regs = s.regs := rfl
@[simp] theorem State.modPort_sels (s : State) (k : Nat) (f : Port → Port) : (s.modPort k f).sels = s.sels := rfl
@[simp] theorem State.modPort_latches (s : State) (k : Nat) (f : Port → Port) : (s.modPort k f).latches = s.latches := rfl
@[simp] theorem State.modPort_free (s : State) (k : Nat) (f : Port → Port) : (s.modPort k f).free = s.free := rfl
@[simp] theorem State.modPort_pending (s : State) (k : Nat) (f : Port → Port) : (s.modPort k f).pending = s.pending := rfl

@[simp] theorem State.modChannel_wt (s : State) (k : Nat) (f : Channel → Channel) : (s.modChannel k f).wt = s.wt := rfl
@[simp] theorem State.modChannel_contracts (s : State) (k : Nat) (f : Channel → Channel) : (s.modChannel k f).contracts = s.contracts := rfl
@[simp] theorem State.modChannel_streams (s : State) (k : Nat) (f : Channel → Channel) : (s.modChannel k f).streams = s.streams := rfl
@[simp] theorem State.modChannel_decs (s : State) (k : Nat) (f : Channel → Channel) : (s.modChannel k f).decs = s.decs := rfl
@[simp] theorem State.modChannel_comp (s : State) (k : Nat) (f : Channel → Channel) : (s.modChannel k f).comp = s.comp := rfl
@[simp] theorem State.modChannel_corr (s : State) (k : Nat) (f : Channel → Channel) : (s.modChannel k f).corr = s.corr := rfl
@[simp] theorem State.modChannel_enc (s : State) (k : Nat) (f : Channel → Channel) : (s.modChannel k f).enc = s.enc := rfl
@[simp] theorem State.modChannel_prx (s : State) (k : Nat) (f : Channel → Channel) : (s.modChannel k f).prx = s.prx := rfl
@[simp] theorem State.modChannel_drovers (s : State) (k : Nat) (f : Channel → Channel) : (s.modChannel k f).drovers = s.drovers := rfl
@[simp] theorem State.modChannel_eg (s : State) (k : Nat) (f : Channel → Channel) : (s.modChannel k f).eg = s.eg := rfl
@[simp] theorem State.modChannel_buf (s : State) (k : Nat) (f : Channel → Channel) : (s.modChannel k f).buf = s.buf := rfl
@[simp] theorem State.modChannel_qcfg (s : State) (k : Nat) (f : Channel → Channel) : (s.modChannel k f).qcfg = s.qcfg := rfl
@[simp] theorem State.modChannel_tbl (s : State) (k : Nat) (f : Channel → Channel) : (s.modChannel k f).tbl = s.tbl := rfl
@[simp] theorem State.modChannel_peerE (s : State) (k : Nat) (f : Channel → Channel) : (s.modChannel k f).peerE = s.peerE := rfl
@[simp] theorem State.modChannel_peerW (s : State) (k : Nat) (f : Channel → Channel) : (s.modChannel k f).peerW = s.peerW := rfl
@[simp] theorem State.modChannel_link (s : State) (k : Nat) (f : Channel → Channel) : (s.modChannel k f).link = s.link := rfl
@[simp] theorem State.modChannel_rings (s : State) (k : Nat) (f : Channel → Channel) : (s.modChannel k f).rings = s.rings := rfl
@[simp] theorem State.modChannel_dma (s : State) (k : Nat) (f : Channel → Channel) : (s.modChannel k f).dma = s.dma := rfl
@[simp] theorem State.modChannel_intc (s : State) (k : Nat) (f : Channel → Channel) : (s.modChannel k f).intc = s.intc := rfl
@[simp] theorem State.modChannel_flt (s : State) (k : Nat) (f : Channel → Channel) : (s.modChannel k f).flt = s.flt := rfl
@[simp] theorem State.modChannel_pwr (s : State) (k : Nat) (f : Channel → Channel) : (s.modChannel k f).pwr = s.pwr := rfl
@[simp] theorem State.modChannel_nvm (s : State) (k : Nat) (f : Channel → Channel) : (s.modChannel k f).nvm = s.nvm := rfl
@[simp] theorem State.modChannel_tly (s : State) (k : Nat) (f : Channel → Channel) : (s.modChannel k f).tly = s.tly := rfl
@[simp] theorem State.modChannel_cages (s : State) (k : Nat) (f : Channel → Channel) : (s.modChannel k f).cages = s.cages := rfl
@[simp] theorem State.modChannel_regs (s : State) (k : Nat) (f : Channel → Channel) : (s.modChannel k f).regs = s.regs := rfl
@[simp] theorem State.modChannel_sels (s : State) (k : Nat) (f : Channel → Channel) : (s.modChannel k f).sels = s.sels := rfl
@[simp] theorem State.modChannel_latches (s : State) (k : Nat) (f : Channel → Channel) : (s.modChannel k f).latches = s.latches := rfl
@[simp] theorem State.modChannel_free (s : State) (k : Nat) (f : Channel → Channel) : (s.modChannel k f).free = s.free := rfl
@[simp] theorem State.modChannel_pending (s : State) (k : Nat) (f : Channel → Channel) : (s.modChannel k f).pending = s.pending := rfl

@[simp] theorem State.modDomain_wt (s : State) (k : Nat) (f : Domain → Domain) : (s.modDomain k f).wt = s.wt := rfl
@[simp] theorem State.modDomain_contracts (s : State) (k : Nat) (f : Domain → Domain) : (s.modDomain k f).contracts = s.contracts := rfl
@[simp] theorem State.modDomain_streams (s : State) (k : Nat) (f : Domain → Domain) : (s.modDomain k f).streams = s.streams := rfl
@[simp] theorem State.modDomain_decs (s : State) (k : Nat) (f : Domain → Domain) : (s.modDomain k f).decs = s.decs := rfl
@[simp] theorem State.modDomain_comp (s : State) (k : Nat) (f : Domain → Domain) : (s.modDomain k f).comp = s.comp := rfl
@[simp] theorem State.modDomain_corr (s : State) (k : Nat) (f : Domain → Domain) : (s.modDomain k f).corr = s.corr := rfl
@[simp] theorem State.modDomain_enc (s : State) (k : Nat) (f : Domain → Domain) : (s.modDomain k f).enc = s.enc := rfl
@[simp] theorem State.modDomain_prx (s : State) (k : Nat) (f : Domain → Domain) : (s.modDomain k f).prx = s.prx := rfl
@[simp] theorem State.modDomain_drovers (s : State) (k : Nat) (f : Domain → Domain) : (s.modDomain k f).drovers = s.drovers := rfl
@[simp] theorem State.modDomain_eg (s : State) (k : Nat) (f : Domain → Domain) : (s.modDomain k f).eg = s.eg := rfl
@[simp] theorem State.modDomain_buf (s : State) (k : Nat) (f : Domain → Domain) : (s.modDomain k f).buf = s.buf := rfl
@[simp] theorem State.modDomain_qcfg (s : State) (k : Nat) (f : Domain → Domain) : (s.modDomain k f).qcfg = s.qcfg := rfl
@[simp] theorem State.modDomain_tbl (s : State) (k : Nat) (f : Domain → Domain) : (s.modDomain k f).tbl = s.tbl := rfl
@[simp] theorem State.modDomain_peerE (s : State) (k : Nat) (f : Domain → Domain) : (s.modDomain k f).peerE = s.peerE := rfl
@[simp] theorem State.modDomain_peerW (s : State) (k : Nat) (f : Domain → Domain) : (s.modDomain k f).peerW = s.peerW := rfl
@[simp] theorem State.modDomain_link (s : State) (k : Nat) (f : Domain → Domain) : (s.modDomain k f).link = s.link := rfl
@[simp] theorem State.modDomain_rings (s : State) (k : Nat) (f : Domain → Domain) : (s.modDomain k f).rings = s.rings := rfl
@[simp] theorem State.modDomain_mem (s : State) (k : Nat) (f : Domain → Domain) : (s.modDomain k f).mem = s.mem := rfl
@[simp] theorem State.modDomain_dma (s : State) (k : Nat) (f : Domain → Domain) : (s.modDomain k f).dma = s.dma := rfl
@[simp] theorem State.modDomain_intc (s : State) (k : Nat) (f : Domain → Domain) : (s.modDomain k f).intc = s.intc := rfl
@[simp] theorem State.modDomain_flt (s : State) (k : Nat) (f : Domain → Domain) : (s.modDomain k f).flt = s.flt := rfl
@[simp] theorem State.modDomain_nvm (s : State) (k : Nat) (f : Domain → Domain) : (s.modDomain k f).nvm = s.nvm := rfl
@[simp] theorem State.modDomain_tly (s : State) (k : Nat) (f : Domain → Domain) : (s.modDomain k f).tly = s.tly := rfl
@[simp] theorem State.modDomain_cages (s : State) (k : Nat) (f : Domain → Domain) : (s.modDomain k f).cages = s.cages := rfl
@[simp] theorem State.modDomain_regs (s : State) (k : Nat) (f : Domain → Domain) : (s.modDomain k f).regs = s.regs := rfl
@[simp] theorem State.modDomain_sels (s : State) (k : Nat) (f : Domain → Domain) : (s.modDomain k f).sels = s.sels := rfl
@[simp] theorem State.modDomain_latches (s : State) (k : Nat) (f : Domain → Domain) : (s.modDomain k f).latches = s.latches := rfl
@[simp] theorem State.modDomain_free (s : State) (k : Nat) (f : Domain → Domain) : (s.modDomain k f).free = s.free := rfl
@[simp] theorem State.modDomain_pending (s : State) (k : Nat) (f : Domain → Domain) : (s.modDomain k f).pending = s.pending := rfl

@[simp] theorem State.modSq_wt (s : State) (k : Nat) (f : Sq → Sq) : (s.modSq k f).wt = s.wt := rfl
@[simp] theorem State.modSq_contracts (s : State) (k : Nat) (f : Sq → Sq) : (s.modSq k f).contracts = s.contracts := rfl
@[simp] theorem State.modSq_streams (s : State) (k : Nat) (f : Sq → Sq) : (s.modSq k f).streams = s.streams := rfl
@[simp] theorem State.modSq_decs (s : State) (k : Nat) (f : Sq → Sq) : (s.modSq k f).decs = s.decs := rfl
@[simp] theorem State.modSq_comp (s : State) (k : Nat) (f : Sq → Sq) : (s.modSq k f).comp = s.comp := rfl
@[simp] theorem State.modSq_corr (s : State) (k : Nat) (f : Sq → Sq) : (s.modSq k f).corr = s.corr := rfl
@[simp] theorem State.modSq_enc (s : State) (k : Nat) (f : Sq → Sq) : (s.modSq k f).enc = s.enc := rfl
@[simp] theorem State.modSq_prx (s : State) (k : Nat) (f : Sq → Sq) : (s.modSq k f).prx = s.prx := rfl
@[simp] theorem State.modSq_drovers (s : State) (k : Nat) (f : Sq → Sq) : (s.modSq k f).drovers = s.drovers := rfl
@[simp] theorem State.modSq_eg (s : State) (k : Nat) (f : Sq → Sq) : (s.modSq k f).eg = s.eg := rfl
@[simp] theorem State.modSq_buf (s : State) (k : Nat) (f : Sq → Sq) : (s.modSq k f).buf = s.buf := rfl
@[simp] theorem State.modSq_qcfg (s : State) (k : Nat) (f : Sq → Sq) : (s.modSq k f).qcfg = s.qcfg := rfl
@[simp] theorem State.modSq_tbl (s : State) (k : Nat) (f : Sq → Sq) : (s.modSq k f).tbl = s.tbl := rfl
@[simp] theorem State.modSq_peerE (s : State) (k : Nat) (f : Sq → Sq) : (s.modSq k f).peerE = s.peerE := rfl
@[simp] theorem State.modSq_peerW (s : State) (k : Nat) (f : Sq → Sq) : (s.modSq k f).peerW = s.peerW := rfl
@[simp] theorem State.modSq_link (s : State) (k : Nat) (f : Sq → Sq) : (s.modSq k f).link = s.link := rfl
@[simp] theorem State.modSq_mem (s : State) (k : Nat) (f : Sq → Sq) : (s.modSq k f).mem = s.mem := rfl
@[simp] theorem State.modSq_dma (s : State) (k : Nat) (f : Sq → Sq) : (s.modSq k f).dma = s.dma := rfl
@[simp] theorem State.modSq_intc (s : State) (k : Nat) (f : Sq → Sq) : (s.modSq k f).intc = s.intc := rfl
@[simp] theorem State.modSq_flt (s : State) (k : Nat) (f : Sq → Sq) : (s.modSq k f).flt = s.flt := rfl
@[simp] theorem State.modSq_pwr (s : State) (k : Nat) (f : Sq → Sq) : (s.modSq k f).pwr = s.pwr := rfl
@[simp] theorem State.modSq_nvm (s : State) (k : Nat) (f : Sq → Sq) : (s.modSq k f).nvm = s.nvm := rfl
@[simp] theorem State.modSq_tly (s : State) (k : Nat) (f : Sq → Sq) : (s.modSq k f).tly = s.tly := rfl
@[simp] theorem State.modSq_cages (s : State) (k : Nat) (f : Sq → Sq) : (s.modSq k f).cages = s.cages := rfl
@[simp] theorem State.modSq_regs (s : State) (k : Nat) (f : Sq → Sq) : (s.modSq k f).regs = s.regs := rfl
@[simp] theorem State.modSq_sels (s : State) (k : Nat) (f : Sq → Sq) : (s.modSq k f).sels = s.sels := rfl
@[simp] theorem State.modSq_latches (s : State) (k : Nat) (f : Sq → Sq) : (s.modSq k f).latches = s.latches := rfl
@[simp] theorem State.modSq_free (s : State) (k : Nat) (f : Sq → Sq) : (s.modSq k f).free = s.free := rfl
@[simp] theorem State.modSq_pending (s : State) (k : Nat) (f : Sq → Sq) : (s.modSq k f).pending = s.pending := rfl

@[simp] theorem State.modCq_wt (s : State) (k : Nat) (f : Cq → Cq) : (s.modCq k f).wt = s.wt := rfl
@[simp] theorem State.modCq_contracts (s : State) (k : Nat) (f : Cq → Cq) : (s.modCq k f).contracts = s.contracts := rfl
@[simp] theorem State.modCq_streams (s : State) (k : Nat) (f : Cq → Cq) : (s.modCq k f).streams = s.streams := rfl
@[simp] theorem State.modCq_decs (s : State) (k : Nat) (f : Cq → Cq) : (s.modCq k f).decs = s.decs := rfl
@[simp] theorem State.modCq_comp (s : State) (k : Nat) (f : Cq → Cq) : (s.modCq k f).comp = s.comp := rfl
@[simp] theorem State.modCq_corr (s : State) (k : Nat) (f : Cq → Cq) : (s.modCq k f).corr = s.corr := rfl
@[simp] theorem State.modCq_enc (s : State) (k : Nat) (f : Cq → Cq) : (s.modCq k f).enc = s.enc := rfl
@[simp] theorem State.modCq_prx (s : State) (k : Nat) (f : Cq → Cq) : (s.modCq k f).prx = s.prx := rfl
@[simp] theorem State.modCq_drovers (s : State) (k : Nat) (f : Cq → Cq) : (s.modCq k f).drovers = s.drovers := rfl
@[simp] theorem State.modCq_eg (s : State) (k : Nat) (f : Cq → Cq) : (s.modCq k f).eg = s.eg := rfl
@[simp] theorem State.modCq_buf (s : State) (k : Nat) (f : Cq → Cq) : (s.modCq k f).buf = s.buf := rfl
@[simp] theorem State.modCq_qcfg (s : State) (k : Nat) (f : Cq → Cq) : (s.modCq k f).qcfg = s.qcfg := rfl
@[simp] theorem State.modCq_tbl (s : State) (k : Nat) (f : Cq → Cq) : (s.modCq k f).tbl = s.tbl := rfl
@[simp] theorem State.modCq_peerE (s : State) (k : Nat) (f : Cq → Cq) : (s.modCq k f).peerE = s.peerE := rfl
@[simp] theorem State.modCq_peerW (s : State) (k : Nat) (f : Cq → Cq) : (s.modCq k f).peerW = s.peerW := rfl
@[simp] theorem State.modCq_link (s : State) (k : Nat) (f : Cq → Cq) : (s.modCq k f).link = s.link := rfl
@[simp] theorem State.modCq_mem (s : State) (k : Nat) (f : Cq → Cq) : (s.modCq k f).mem = s.mem := rfl
@[simp] theorem State.modCq_dma (s : State) (k : Nat) (f : Cq → Cq) : (s.modCq k f).dma = s.dma := rfl
@[simp] theorem State.modCq_intc (s : State) (k : Nat) (f : Cq → Cq) : (s.modCq k f).intc = s.intc := rfl
@[simp] theorem State.modCq_flt (s : State) (k : Nat) (f : Cq → Cq) : (s.modCq k f).flt = s.flt := rfl
@[simp] theorem State.modCq_pwr (s : State) (k : Nat) (f : Cq → Cq) : (s.modCq k f).pwr = s.pwr := rfl
@[simp] theorem State.modCq_nvm (s : State) (k : Nat) (f : Cq → Cq) : (s.modCq k f).nvm = s.nvm := rfl
@[simp] theorem State.modCq_tly (s : State) (k : Nat) (f : Cq → Cq) : (s.modCq k f).tly = s.tly := rfl
@[simp] theorem State.modCq_cages (s : State) (k : Nat) (f : Cq → Cq) : (s.modCq k f).cages = s.cages := rfl
@[simp] theorem State.modCq_regs (s : State) (k : Nat) (f : Cq → Cq) : (s.modCq k f).regs = s.regs := rfl
@[simp] theorem State.modCq_sels (s : State) (k : Nat) (f : Cq → Cq) : (s.modCq k f).sels = s.sels := rfl
@[simp] theorem State.modCq_latches (s : State) (k : Nat) (f : Cq → Cq) : (s.modCq k f).latches = s.latches := rfl
@[simp] theorem State.modCq_free (s : State) (k : Nat) (f : Cq → Cq) : (s.modCq k f).free = s.free := rfl
@[simp] theorem State.modCq_pending (s : State) (k : Nat) (f : Cq → Cq) : (s.modCq k f).pending = s.pending := rfl

@[simp] theorem State.modSlot_contracts (s : State) (k : Nat) (f : LSlot → LSlot) : (s.modSlot k f).contracts = s.contracts := rfl
@[simp] theorem State.modSlot_streams (s : State) (k : Nat) (f : LSlot → LSlot) : (s.modSlot k f).streams = s.streams := rfl
@[simp] theorem State.modSlot_decs (s : State) (k : Nat) (f : LSlot → LSlot) : (s.modSlot k f).decs = s.decs := rfl
@[simp] theorem State.modSlot_comp (s : State) (k : Nat) (f : LSlot → LSlot) : (s.modSlot k f).comp = s.comp := rfl
@[simp] theorem State.modSlot_corr (s : State) (k : Nat) (f : LSlot → LSlot) : (s.modSlot k f).corr = s.corr := rfl
@[simp] theorem State.modSlot_enc (s : State) (k : Nat) (f : LSlot → LSlot) : (s.modSlot k f).enc = s.enc := rfl
@[simp] theorem State.modSlot_prx (s : State) (k : Nat) (f : LSlot → LSlot) : (s.modSlot k f).prx = s.prx := rfl
@[simp] theorem State.modSlot_drovers (s : State) (k : Nat) (f : LSlot → LSlot) : (s.modSlot k f).drovers = s.drovers := rfl
@[simp] theorem State.modSlot_eg (s : State) (k : Nat) (f : LSlot → LSlot) : (s.modSlot k f).eg = s.eg := rfl
@[simp] theorem State.modSlot_buf (s : State) (k : Nat) (f : LSlot → LSlot) : (s.modSlot k f).buf = s.buf := rfl
@[simp] theorem State.modSlot_qcfg (s : State) (k : Nat) (f : LSlot → LSlot) : (s.modSlot k f).qcfg = s.qcfg := rfl
@[simp] theorem State.modSlot_tbl (s : State) (k : Nat) (f : LSlot → LSlot) : (s.modSlot k f).tbl = s.tbl := rfl
@[simp] theorem State.modSlot_peerE (s : State) (k : Nat) (f : LSlot → LSlot) : (s.modSlot k f).peerE = s.peerE := rfl
@[simp] theorem State.modSlot_peerW (s : State) (k : Nat) (f : LSlot → LSlot) : (s.modSlot k f).peerW = s.peerW := rfl
@[simp] theorem State.modSlot_link (s : State) (k : Nat) (f : LSlot → LSlot) : (s.modSlot k f).link = s.link := rfl
@[simp] theorem State.modSlot_rings (s : State) (k : Nat) (f : LSlot → LSlot) : (s.modSlot k f).rings = s.rings := rfl
@[simp] theorem State.modSlot_mem (s : State) (k : Nat) (f : LSlot → LSlot) : (s.modSlot k f).mem = s.mem := rfl
@[simp] theorem State.modSlot_dma (s : State) (k : Nat) (f : LSlot → LSlot) : (s.modSlot k f).dma = s.dma := rfl
@[simp] theorem State.modSlot_intc (s : State) (k : Nat) (f : LSlot → LSlot) : (s.modSlot k f).intc = s.intc := rfl
@[simp] theorem State.modSlot_flt (s : State) (k : Nat) (f : LSlot → LSlot) : (s.modSlot k f).flt = s.flt := rfl
@[simp] theorem State.modSlot_pwr (s : State) (k : Nat) (f : LSlot → LSlot) : (s.modSlot k f).pwr = s.pwr := rfl
@[simp] theorem State.modSlot_nvm (s : State) (k : Nat) (f : LSlot → LSlot) : (s.modSlot k f).nvm = s.nvm := rfl
@[simp] theorem State.modSlot_tly (s : State) (k : Nat) (f : LSlot → LSlot) : (s.modSlot k f).tly = s.tly := rfl
@[simp] theorem State.modSlot_cages (s : State) (k : Nat) (f : LSlot → LSlot) : (s.modSlot k f).cages = s.cages := rfl
@[simp] theorem State.modSlot_regs (s : State) (k : Nat) (f : LSlot → LSlot) : (s.modSlot k f).regs = s.regs := rfl
@[simp] theorem State.modSlot_sels (s : State) (k : Nat) (f : LSlot → LSlot) : (s.modSlot k f).sels = s.sels := rfl
@[simp] theorem State.modSlot_latches (s : State) (k : Nat) (f : LSlot → LSlot) : (s.modSlot k f).latches = s.latches := rfl
@[simp] theorem State.modSlot_free (s : State) (k : Nat) (f : LSlot → LSlot) : (s.modSlot k f).free = s.free := rfl
@[simp] theorem State.modSlot_pending (s : State) (k : Nat) (f : LSlot → LSlot) : (s.modSlot k f).pending = s.pending := rfl

@[simp] theorem State.modSlice_wt (s : State) (k : Nat) (f : Slice → Slice) : (s.modSlice k f).wt = s.wt := rfl
@[simp] theorem State.modSlice_contracts (s : State) (k : Nat) (f : Slice → Slice) : (s.modSlice k f).contracts = s.contracts := rfl
@[simp] theorem State.modSlice_streams (s : State) (k : Nat) (f : Slice → Slice) : (s.modSlice k f).streams = s.streams := rfl
@[simp] theorem State.modSlice_decs (s : State) (k : Nat) (f : Slice → Slice) : (s.modSlice k f).decs = s.decs := rfl
@[simp] theorem State.modSlice_corr (s : State) (k : Nat) (f : Slice → Slice) : (s.modSlice k f).corr = s.corr := rfl
@[simp] theorem State.modSlice_enc (s : State) (k : Nat) (f : Slice → Slice) : (s.modSlice k f).enc = s.enc := rfl
@[simp] theorem State.modSlice_prx (s : State) (k : Nat) (f : Slice → Slice) : (s.modSlice k f).prx = s.prx := rfl
@[simp] theorem State.modSlice_drovers (s : State) (k : Nat) (f : Slice → Slice) : (s.modSlice k f).drovers = s.drovers := rfl
@[simp] theorem State.modSlice_eg (s : State) (k : Nat) (f : Slice → Slice) : (s.modSlice k f).eg = s.eg := rfl
@[simp] theorem State.modSlice_buf (s : State) (k : Nat) (f : Slice → Slice) : (s.modSlice k f).buf = s.buf := rfl
@[simp] theorem State.modSlice_qcfg (s : State) (k : Nat) (f : Slice → Slice) : (s.modSlice k f).qcfg = s.qcfg := rfl
@[simp] theorem State.modSlice_tbl (s : State) (k : Nat) (f : Slice → Slice) : (s.modSlice k f).tbl = s.tbl := rfl
@[simp] theorem State.modSlice_peerE (s : State) (k : Nat) (f : Slice → Slice) : (s.modSlice k f).peerE = s.peerE := rfl
@[simp] theorem State.modSlice_peerW (s : State) (k : Nat) (f : Slice → Slice) : (s.modSlice k f).peerW = s.peerW := rfl
@[simp] theorem State.modSlice_link (s : State) (k : Nat) (f : Slice → Slice) : (s.modSlice k f).link = s.link := rfl
@[simp] theorem State.modSlice_rings (s : State) (k : Nat) (f : Slice → Slice) : (s.modSlice k f).rings = s.rings := rfl
@[simp] theorem State.modSlice_mem (s : State) (k : Nat) (f : Slice → Slice) : (s.modSlice k f).mem = s.mem := rfl
@[simp] theorem State.modSlice_dma (s : State) (k : Nat) (f : Slice → Slice) : (s.modSlice k f).dma = s.dma := rfl
@[simp] theorem State.modSlice_intc (s : State) (k : Nat) (f : Slice → Slice) : (s.modSlice k f).intc = s.intc := rfl
@[simp] theorem State.modSlice_flt (s : State) (k : Nat) (f : Slice → Slice) : (s.modSlice k f).flt = s.flt := rfl
@[simp] theorem State.modSlice_pwr (s : State) (k : Nat) (f : Slice → Slice) : (s.modSlice k f).pwr = s.pwr := rfl
@[simp] theorem State.modSlice_nvm (s : State) (k : Nat) (f : Slice → Slice) : (s.modSlice k f).nvm = s.nvm := rfl
@[simp] theorem State.modSlice_tly (s : State) (k : Nat) (f : Slice → Slice) : (s.modSlice k f).tly = s.tly := rfl
@[simp] theorem State.modSlice_cages (s : State) (k : Nat) (f : Slice → Slice) : (s.modSlice k f).cages = s.cages := rfl
@[simp] theorem State.modSlice_regs (s : State) (k : Nat) (f : Slice → Slice) : (s.modSlice k f).regs = s.regs := rfl
@[simp] theorem State.modSlice_sels (s : State) (k : Nat) (f : Slice → Slice) : (s.modSlice k f).sels = s.sels := rfl
@[simp] theorem State.modSlice_latches (s : State) (k : Nat) (f : Slice → Slice) : (s.modSlice k f).latches = s.latches := rfl
@[simp] theorem State.modSlice_free (s : State) (k : Nat) (f : Slice → Slice) : (s.modSlice k f).free = s.free := rfl
@[simp] theorem State.modSlice_pending (s : State) (k : Nat) (f : Slice → Slice) : (s.modSlice k f).pending = s.pending := rfl

/-- The updated field of an update. -/
theorem State.setReg_regs (s : State) (off : Nat) (v : Word) : (s.setReg off v).regs = mset (regReset off) s.regs off v := rfl
@[simp] theorem State.modWt_wt (s : State) (f : WallTime → WallTime) : (s.modWt f).wt = f s.wt := rfl
@[simp] theorem State.modLink_link (s : State) (f : Link → Link) : (s.modLink f).link = f s.link := rfl
@[simp] theorem State.modRings_rings (s : State) (f : Rings → Rings) : (s.modRings f).rings = f s.rings := rfl
@[simp] theorem State.modMem_mem (s : State) (f : Mem → Mem) : (s.modMem f).mem = f s.mem := rfl
@[simp] theorem State.modDma_dma (s : State) (f : Dma → Dma) : (s.modDma f).dma = f s.dma := rfl
@[simp] theorem State.modPwr_pwr (s : State) (f : Power → Power) : (s.modPwr f).pwr = f s.pwr := rfl
@[simp] theorem State.modNvm_nvm (s : State) (f : Nvm → Nvm) : (s.modNvm f).nvm = f s.nvm := rfl
@[simp] theorem State.modTbl_tbl (s : State) (f : Tables → Tables) : (s.modTbl f).tbl = f s.tbl := rfl
@[simp] theorem State.modEg_eg (s : State) (f : Egress → Egress) : (s.modEg f).eg = f s.eg := rfl
@[simp] theorem State.modBuf_buf (s : State) (f : Buffers → Buffers) : (s.modBuf f).buf = f s.buf := rfl
@[simp] theorem State.modTly_tly (s : State) (f : Tally → Tally) : (s.modTly f).tly = f s.tly := rfl
@[simp] theorem State.modFlt_flt (s : State) (f : Faults → Faults) : (s.modFlt f).flt = f s.flt := rfl

/-- A peer port's update leaves the other port and the rest as they were. -/
theorem State.modPeer_peer (s : State) (e : Nat) (f : Peer → Peer) : (s.modPeer e f).peer e = f (s.peer e) := by
  unfold State.modPeer State.peer
  split <;> simp [*]

end Sys2Proof.Machine
end

