-- ==== Sys2Proof/Machine/Panel.lean ====
section
/-! DEFINITION. The status lamps (R511, Table 21-8) as functions of the state. No command reads or sets them; the 10 ms
within which they follow are timing. -/

namespace Sys2Proof.Machine

/-- Indications of a lamp; flashing at 2 Hz (green) and at 1 Hz (red). -/
inductive Lamp where
  | off | green | amber | red | greenFlash | redFlash
  deriving DecidableEq, Repr

/-- R511: every lamp is amber for 200 ms from power-good. -/
def lampTest (s : State) : Bool := match s.pwr.goodAt with
  | some t => decide (s.wt.now < t + msTicks 200)
  | none => false

/-- `PWR`. -/
def lampPwr (s : State) : Lamp := if lampTest s then .amber else if s.pwr.phase = .off then .off else if s.pwr.mainsLost.isSome then .amber else .green

/-- `STATE`: it follows `DEVSTATE`. -/
def lampState (s : State) : Lamp :=
  if lampTest s then .amber else if s.pwr.phase = .off then .off
  else match devState s with
    | 2 => .green
    | 4 => .green
    | 3 => .amber
    | 6 => if s.pwr.tempStop then .redFlash else .red
    | _ => .greenFlash

/-- `TIME`. -/
def lampTime (s : State) : Lamp :=
  if lampTest s then .amber else if s.pwr.phase = .off then .off
  else match s.wt.tstate with
    | .locked => .green
    | .acquire => .amber
    | .holdover => .amber
    | .unlocked => .red

/-- The lamp beside egress cage c. -/
def lampCage (s : State) (c : Nat) : Lamp :=
  let on := ((List.range 4).map fun j => 4 * c + j).filter fun p => bit (s.reg (Off.egPortCfg p)) 4
  if lampTest s then .amber else if on.isEmpty || !s.domainOn (46 + c) then .off
  else if on.all fun p => (s.port p).linkUp then .green else .amber

/-- The lamp beside the cage of peer port e. -/
def lampPeer (s : State) (e : Nat) : Lamp :=
  if lampTest s then .amber else if !bit (s.reg Off.foldCfg) 4 then .off
  else match (if e = 0 then s.wt.peerE else s.wt.peerW).lastHeard with
    | some t => if s.wt.now ≤ t + msTicks 3 then .green else .amber
    | none => .amber

/-- The lamp beside HOST. -/
def lampHost (s : State) : Lamp :=
  if lampTest s then .amber else match s.link.lstate with
  | .active => .green
  | .down => .off
  | _ => .amber

end Sys2Proof.Machine
end

