-- ==== Sys2Proof/Tests/Slice0.lean ====
section
/-! SUPPORT. Tests: ill-formed commands that the check refuses, worked examples of the spec, and for every statement with
hypotheses a state and operands that meet them, each clause at a boundary value. -/

namespace Sys2Proof.Machine.Tests

set_option Elab.async false

/-! ## Well-formedness -/

theorem test_wf_refuses_short_frame : Instr.wf (.telemetryReceive 0 (zeros 13)) = false := by decide
theorem test_wf_refuses_long_frame : frameOk (List.replicate 9213 0) = false := by decide +kernel
theorem test_wf_refuses_short_fold_frame : Instr.wf (.announceReceive 0 (zeros 11)) = false := by decide
theorem test_wf_refuses_flit_size : Instr.wf (.flitReceive (zeros 255) false) = false := by decide +kernel
theorem test_wf_refuses_empty_request : Instr.wf (.arbiterDecision 0 [⟨1, 0, 0⟩]) = false := by decide
theorem test_wf_refuses_break_request : Instr.wf (.burstBreakPoint 0 [⟨1, 0, 0⟩]) = false := by decide
theorem test_wf_refuses_address_past_top : Instr.wf (.burstComplete 0 (.read 0xE00000000 false [])) = false := by decide
theorem test_wf_refuses_write_across_codewords : Instr.wf (.burstComplete 0 (.write 63 false [1, 2] false)) = false := by decide
theorem test_wf_refuses_training_size : Instr.wf (.dramTrainingDone (List.replicate 31 (⟨0, 0⟩, ⟨0, 0⟩))) = false := by decide
theorem test_wf_refuses_repeated_test : Instr.wf (.startupComplete [.dma, .dma]) = false := by decide
theorem test_wf_refuses_sensor_count : Instr.wf (.dieSensorSample (List.replicate 23 0)) = false := by decide
theorem test_wf_refuses_node : Instr.wf (.trieNodeRebuild 0 1) = false := by decide
theorem test_wf_refuses_bad_node_error : Instr.wf (.tableEccError (.node 2 65536)) = false := by decide
theorem test_wf_refuses_record_without_size : Instr.wf (.streamOpen 0 0 (.ok []) (.ok { width := 0, height := 64 })) = false := by decide
theorem test_wf_refuses_record_without_layer :
    Instr.wf (.streamOpen 0 0 (.ok []) (.ok { width := 64, height := 64, layers := 0 })) = false := by decide
theorem test_wf_refuses_outcome_depth : Instr.wf (.pictureDecodeDone 0 { depth := 9 }) = false := by decide
theorem test_wf_refuses_encoder_rank : Instr.wf (.arbiterDecision 0 [⟨40, 1, 1⟩]) = false := by decide
theorem test_wf_refuses_audit_rank : Instr.wf (.arbiterDecision 0 [⟨47, 0, 1⟩]) = false := by decide
theorem test_wf_refuses_chroma_code : Instr.wf (.streamOpen 0 0 (.ok []) (.ok { width := 64, height := 64, chroma := 4 })) = false := by decide

/-! ## Worked examples of the spec -/

/-- 2.8: launch ticks of the stage at 120 Hz. -/
theorem test_launch_ticks :
    [999, 1000, 1001, 1002].map (launchTick { t0 := 1600000000000, pnum := 4000000, pden := 3 })
      = [1601332000000, 1601333333333, 1601334666666, 1601336000000] := by decide +kernel

/-- 2.8: the link delay that module 1 measures. -/
theorem test_link_delay : delaySample (100 * 65536) (166 * 65536 + 16384) (266 * 65536 + 16384) (332 * 65536) 0 = 66 * 65536 := by decide

/-- 6.7: one lamp, canvas value to drive code. -/
theorem test_lamp_matrix :
    matrixStage [14746, 1311, 327, 819, 15073, 492, -164, 819, 15729] [30000, 20000, 10000] = ([28801, 20200, 10300], 0) := by decide +kernel
theorem test_lamp_gain : [gainStage 35080 28801, gainStage 33120 20200, gainStage 32910 10300] = [30833, 20417, 10345] := by decide
theorem test_lamp_dither : (bayer16 5 14, ditherAdd 2 12 1000 13 6, bayer16 10 1, ditherAdd 2 12 1001 13 6) = (183, 11, 226, 14) := by
  decide +kernel

/-- 7.13: the stripe header and a tuft of 12-bit Sward. -/
theorem test_stripe_header : parseHdr [0x13, 0x44, 0x20, 0x3C, 0x00, 0x11, 0x00, 0x3C, 0x03, 0xCF, 0, 0, 0, 0, 0, 0]
    = { mode := 0, intra := true, xform := true, depth := 1, qi := 2, qiMax := 4, rfp := 60, idx := 17, tufts := 60, frame := 975,
        body := 0, image := 0 } := by decide +kernel
theorem test_context_start : (ctxStart 12 2, refreshGroup 17 60 64, 975 % 60) = (13, 15, 15) := by decide +kernel
def bitsOf (s : String) : List Bool := s.toList.filterMap fun c => if c = '0' then some false else if c = '1' then some true else none
theorem test_tuft_values :
    (readSamples 12 2 0 4095 (medAt false 2048 [1000, 1004, 1008, 1012]) 32 [] ⟨30, 20⟩
      (bitsOf "10 010 10 10 010 10 10 10  10 10 10 10 1 1 1 1  1 1 1 1 001 1 1 1  1 1 1 1 01 001 1 1")).map (fun r => (r.1, r.2.2))
    = some ([1000, 1005, 1005, 1005, 1010, 1010, 1010, 1010, 1004, 1005, 1005, 1005, 1010, 1010, 1010, 1010,
             1008, 1008, 1008, 1008, 1015, 1015, 1015, 1015, 1012, 1012, 1012, 1012, 1010, 1015, 1015, 1015], []) := by decide +kernel

/-- 8.6: the q change that R204 asks for after column 55. -/
theorem test_rate_change : rateChange 22912 60 55 22800 = 2 := by decide +kernel

/-- 13.4: the region that the /24 serves, and the one that only the /16 serves. -/
theorem test_longest_prefix :
    let t : Tables := { State.reset.tbl with prefixes := [⟨0x03120000, 16, 0x10#32⟩, ⟨0x03120700, 24, 0x40#32⟩] }
    ((lpmLookup t 0x03120740 26).map fun p => p.len, (lpmLookup t 0x03120000 20).map fun p => p.len) = (some 24, some 16) := by
  decide +kernel

/-- 5.10: paddocks 0 and 6 of the portrait column, and the deal of its row to four slices and to three. -/
theorem test_paddock_costs :
    let l : Layer := { en := true, rot := 1, cropW := 3840, cropH := 2160, dstW := 1620, dstH := 2880 }
    ([0, 5, 6, 7].map fun k => paddockCost [l] k 0) = [116509, 116509, 65536, 65536] := by decide +kernel
theorem test_deal :
    let costs := [116509, 116509, 116509, 116509, 116509, 116509, 65536, 65536]
    ((dealCosts costs [(0, 0), (1, 0), (2, 0), (3, 0)]).2.map fun p => p.2, (dealCosts costs [(0, 0), (1, 0), (2, 0)]).2.map fun p => p.2)
      = ([233018, 233018, 182045, 182045], [298554, 298554, 233018]) := by decide +kernel

/-! ## Helpers -/

/-- A descriptor of an opcode with fields (byte offset, value). -/
def mk (opc cid : Nat) (flds : List (Nat × Nat)) : Desc :=
  BitVec.ofNat 512 (opc + cid * 2 ^ 16 + (flds.map fun p => p.2 * 2 ^ (8 * p.1)).sum)

/-- A module that serves commands, every domain ON. -/
def sv : State := { State.reset with pwr := { phase := .running, pllLocked := true, domains := allOn } }

/-- A serving module with its host link up. -/
def up : State := { sv with link := { sv.link with lstate := .active } }

/-- The state in which a command that no fetch brought runs, and its tag. -/
def tag (s : State) (d : Desc) : CmdRef := cmdRef 0 (sqCqOf (s.sq 0)) s.wt.now d
def go (s : State) (d : Desc) : State := s.modRings fun x => { x with inflight := x.inflight ++ [tag s d] }

/-- A command that finds its place and needs no fence starts. -/
theorem starts_go (s : State) (d : Desc) (h1 : s.serving = true) (h2 : s.rings.fetched = []) (h3 : submitFits s d = true)
    (h4 : dFence d = false) : Starts s 0 d (tag s d) (go s d) := by
  refine ⟨h1, ?_⟩
  simp [startCmd, h2, h3, h4, go, tag]

/-- A contract of a state, and a stream open as RAW. -/
def withContract (s : State) (n : Nat) (c : Contract) : State := { s with contracts := mset {} s.contracts n c }
def withStream (s : State) (n : Nat) (x : Stream) : State := { s with streams := mset {} s.streams n x }

/-- A serving module whose launch slot 0 holds an action that is due. -/
def due (action : Nat) (l : LSlot) : State :=
  { sv with wt := { sv.wt with wall := 2, slots := [(0, { l with armed := true, action := action, time := 1 })] } }

/-- A slot that is due alone fires. -/
theorem fires_due (a : Nat) (l : LSlot) (h : firesNow (due a l) 0 = true) :
    Fires (due a l) 0 a { (due a l).slot 0 with unit := unitFor ((due a l).slot 0) ((due a l).slot 0).next } :=
  ⟨rfl, h, rfl, rfl⟩

/-! ## Witnesses: the queue, starting and completing a command -/

theorem wit_step_front : ({ sv with pending := [.announceSend, .syncSend] } : State).pending = .announceSend :: [.syncSend] := rfl
theorem wit_step_empty : sv.pending = [] ∧ sv.pwr.pllLocked = true ∧ State.reset.pwr.pllLocked = false ∧ -16 ≤ sv.wt.slew ∧ sv.wt.slew ≤ 16
    ∧ sv.wt.wall.toNat + 2 < 2 ^ 64 := by decide +kernel
theorem wit_step_slew_bounds : ∀ e ∈ [(-16 : Int), 16], -16 ≤ e ∧ e ≤ 16 := by decide
theorem wit_inv_step : State.reset.Inv ∧ step State.reset = .next (tick State.reset) := ⟨by unfold State.Inv; decide +kernel, rfl⟩

/-- A state with one fetched descriptor of ring 0. -/
def fetched (d : Desc) : State := sv.modRings fun x => { x with fetched := [{ sq := 0, d := d, cq := 0, at_ := 0 }] }
theorem wit_start_unfetched : (sv.rings.fetched.all fun f => !(f.sq == 0 && f.d == mk 1 7 [])) = true ∧ submitFits sv (mk 1 7 []) = true
    ∧ dFence (mk 1 7 []) = false := by decide +kernel
theorem wit_start_fetched : ∃ f, (fetched (mk 1 7 [])).rings.fetched = f :: [] ∧ f.sq = 0 ∧ f.d = mk 1 7 [] := ⟨_, rfl, rfl, rfl⟩
theorem wit_start_behind : ∃ f fs, (sv.modRings fun x => { x with fetched := [⟨1, 0, mk 1 7 [], 0⟩, ⟨0, 0, mk 1 7 [], 0⟩] }).rings.fetched = f :: fs
    ∧ f.sq ≠ 0 ∧ (fs.any fun g => g.sq == 0 && g.d == mk 1 7 []) = true := ⟨_, _, rfl, by decide, by decide +kernel⟩

/-- A descriptor command starts; its opcode, its flags and its tag are each out of range in turn. -/
theorem wit_starts : Starts sv 0 (mk 1 7 []) (tag sv (mk 1 7 [])) (go sv (mk 1 7 [])) := starts_go _ _ rfl rfl (by decide +kernel) (by decide +kernel)
theorem wit_bad_headers : dOpc (mk 2 7 []) ≠ 1 ∧ 4 ≤ descFld (mk 1 7 [(1, 4)]) 1 1 ∧ dCid (mk 1 0xFFFF []) = 0xFFFF
    ∧ Starts sv 0 (mk 1 7 [(1, 4)]) (tag sv (mk 1 7 [(1, 4)])) (go sv (mk 1 7 [(1, 4)])) :=
  ⟨by decide +kernel, by decide +kernel, by decide +kernel, starts_go _ _ rfl rfl (by decide +kernel) (by decide +kernel)⟩
theorem wit_unserved : State.reset.serving = false := rfl

/-- A ring of 16 entries with a command in flight; full where its head stands right after its tail. -/
def ringed (head tail : Nat) : State :=
  { up with rings := { up.rings with inflight := [{}], cqs := [(0, { cfg := 0x80000004, head := head, tail := tail })] } }
theorem wit_completion_written : (ringed 0 15).rings.inflight.contains {} = true ∧ cplOpen (ringed 1 15) = true ∧ cqRoom (ringed 1 15) 0 = true
    ∧ ((ringed 1 15).rings.waiting.any fun k => k.cq == 0) = false ∧ 2 ^ 64 - 1 < 2 ^ 64 := by decide +kernel
theorem wit_completion_waits : (ringed 0 15).rings.inflight.contains {} = true ∧ cplOpen (ringed 0 15) = true ∧ cqRoom (ringed 0 15) 0 = false
    ∧ bit ((ringed 0 15).cq 0).cfg 31 = true := by decide +kernel

/-! ## Witnesses: launch slots and wall time -/

theorem wit_launch_waits : State.reset.serving = false ∧ sv.serving = true ∧ firesNow sv 0 = false := by decide +kernel
theorem wit_fires : ∀ a ∈ [1, 2, 3, 4, 5, 6, 7, 8, 9, 10, 11, 12], firesNow (due a {}) 0 = true := by decide +kernel
theorem wit_fires_prop (h : firesNow (due 0xC { arg := 63 }) 0 = true) :
    Fires (due 0xC { arg := 63 }) 0 0xC { (due 0xC { arg := 63 }).slot 0 with unit := unitFor ((due 0xC { arg := 63 }).slot 0) ((due 0xC { arg := 63 }).slot 0).next } :=
  fires_due _ _ h
theorem wit_host_interrupt : firesNow (due 0xC { arg := 63 }) 0 = true ∧ 1 ≤ 63 ∧ (fireSlot (due 0xC { arg := 1 }) 0).intc.svc = 0 := by decide +kernel
theorem wit_relative_slot : ∃ s : State, firesNow s 5 = true ∧ (s.slot 5).rel = true ∧ (s.slot 5).ref = none ∧ (s.slot 5).late = none :=
  ⟨{ withContract sv 0 { state := .committed } with
      wt := { sv.wt with wall := 2, slots := [(5, { rel := true, armed := true, action := 1, time := 2 })] } }, by decide +kernel⟩
theorem wit_absolute_slot : ((due 1 { ref := some {} }).slot 0).rel = false ∧ ((due 1 { ref := some {} }).slot 0).ref = some {}
    ∧ ((due 1 { ref := some {} }).slot 0).late = none := by decide +kernel

def timeSetD : Desc := mk 0x40 7 [(16, 1000)]
theorem wit_time_set : Starts sv 0 timeSetD (tag sv timeSetD) (go sv timeSetD) ∧ hdrOk timeSetD 0x40 [(16, 8)] = true
    ∧ timeSetConflict (go sv timeSetD) = false := ⟨starts_go _ _ rfl rfl (by decide +kernel) (by decide +kernel), by decide +kernel, by decide +kernel⟩
theorem wit_time_set_conflict :
    (∃ p ∈ (go (withContract sv 63 { state := .draining }) timeSetD).contracts, p.2.state = .draining)
    ∧ (go ({ sv with wt := { sv.wt with role := .member } }) timeSetD).wt.role = .member
    ∧ (∃ p ∈ ({ sv with wt := { sv.wt with role := .bellwether, now := 480000, heard := [(1, some { lastActive := some 0 })] } } : State).wt.heard,
        ∃ h u, p.2 = some h ∧ h.lastActive = some u ∧ 480000 ≤ u + 480000) :=
  ⟨⟨(63, { state := .draining }), by decide +kernel, rfl⟩, rfl, ⟨_, List.mem_singleton.mpr rfl, _, _, rfl, rfl, by decide⟩⟩

def launchD (tick : Nat) : Desc := mk 0x41 7 [(9, 10), (16, tick)]
theorem wit_launch_at : Starts sv 0 (launchD 1600) (tag sv (launchD 1600)) (go sv (launchD 1600)) ∧ hdrOk (launchD 1600) 0x41 [(9, 3), (12, 4), (16, 8)] = true
    ∧ launchAtOperands (descFld (launchD 1600) 9 1) (descFld (launchD 1600) 10 2) (descFld (launchD 1600) 12 4) = true
    ∧ (go sv (launchD 1600)).wallNow + 1600 ≤ descFld (launchD 1600) 16 8 ∧ freeAbsSlot (go sv (launchD 1600)) = some 7936
    ∧ descFld (launchD 1599) 16 8 < (go sv (launchD 1599)).wallNow + 1600 :=
  ⟨starts_go _ _ rfl rfl (by decide +kernel) (by decide +kernel), by decide +kernel, by decide +kernel, by decide +kernel, by decide +kernel, by decide +kernel⟩
theorem wit_launch_full : ∃ s : State, s.serving = true ∧ ∀ k ∈ (List.range 256).map (· + 7936), (s.slot k).armed = true :=
  ⟨{ sv with wt := { sv.wt with slots := (List.range 256).map fun k => (k + 7936, { armed := true }) } }, by decide +kernel⟩

/-! ## Witnesses: the fold -/

/-- A module of a fold: enabled, member 3, with both peer links up. -/
def folded : State := { sv with regs := [(Off.foldCfg, 0x00010013)], peerE := { linkUp := true }, peerW := { linkUp := true } }
theorem wit_fold : foldEn folded = true ∧ folded.wt.dup = false := by decide +kernel
theorem wit_fold_intervals : (0 : Nat) + 160000 ≤ ({ folded with wt := { folded.wt with now := 160000 } } : State).wt.now
    ∧ ({ folded with wt := { folded.wt with now := 159999 } } : State).wt.now < folded.wt.lastAnnounce + 160000
    ∧ ({ folded with wt := { folded.wt with role := .bellwether, now := 20000 } } : State).wt.lastSyncSent + 20000 ≤ 20000
    ∧ folded.wt.role ≠ .bellwether := by decide +kernel

/-- A time message of a type from module m in this fold. -/
def timeFrame (type m : Nat) : List Byte := timeMsg (({ folded with regs := [(Off.foldCfg, 0x00010010 + BitVec.ofNat 32 m)] } : State)) type 0 false 0 0 0 0
theorem wit_time_frames : ∀ t ∈ [1, 2, 3, 4], foldFrameOk folded 64 (timeFrame t 5) = true ∧ u8 (timeFrame t 5) 0 = t ∧ u8 (timeFrame t 5) 2 < 16 := by decide +kernel
theorem wit_time_ok : TimeMsgOk folded 0 (timeFrame 2 15) 2 := by unfold TimeMsgOk; decide +kernel
theorem wit_bad_frame : foldFrameOk folded 64 (zeros 64) = false := by decide +kernel
theorem wit_announce_kinds : (u8 (timeFrame 1 5) 2 ≠ moduleNo (heardNow folded 0)) ∧ (mget none (heardNow folded 0).wt.heard 5).isNone = true
    ∧ (mget none ({ folded with wt := { folded.wt with heard := [(5, some {})] } } : State).wt.heard 5).isNone = false
    ∧ u8 (timeFrame 1 3) 2 = moduleNo (heardNow folded 0) ∧ leAt (timeFrame 1 3) 42 6 = (heardNow folded 0).wt.nonce
    ∧ leAt (timeFrame 1 3) 42 6 ≠ ({ folded with wt := { folded.wt with nonce := 1 } } : State).wt.nonce := by decide +kernel
theorem wit_delay_resp : (peerTime ({ folded with wt := { folded.wt with peerE := { t1 := some 0 } } } : State) 0).t1 = some 0 := by decide +kernel
theorem wit_sync_roles :
    let m : State := { folded with wt := { folded.wt with role := .member, bellwether := some 5 } }
    let s2 := forwardFold (heardNow m 0) 0 (syncForward (heardNow m 0) 0 (timeFrame 2 5) 0) false
    s2.wt.role = .member ∧ s2.wt.bellwether = some (u8 (timeFrame 2 5) 2) ∧ bestPort s2 0 (u8 (timeFrame 2 5) 3) = true
      ∧ bestPort ({ s2 with wt := { s2.wt with lastHops := [(1, some (0, 0))] } }) 0 1 = false
      ∧ u8 (timeFrame 2 3) 2 = moduleNo (heardNow folded 0)
      ∧ (heardNow ({ folded with wt := { folded.wt with role := .bellwether } }) 0).wt.role = .bellwether := by decide +kernel

theorem wit_election : winner ({ folded with wt := { folded.wt with heard := [(5, some { priority := 9, clkOk := true })] } }) = some 5 := by decide +kernel
theorem wit_servo_bounds : 1600 * 65536 < (104857601 : Int).natAbs ∧ (-104857600 : Int).natAbs ≤ 1600 * 65536 ∧ anyActive folded = false
    ∧ anyActive (withContract folded 0 { state := .committed }) = true := by decide +kernel
theorem wit_unlock : folded.wt.tstate ≠ .unlocked := by decide
theorem wit_time_loss : ∃ s : State, s.wt.role = .member ∧ s.wt.tstate = .locked ∧ s.wt.lastSync.getD 0 + 60000 ≤ s.wt.now :=
  ⟨{ folded with wt := { folded.wt with role := .member, now := 60000 } }, rfl, rfl, by decide⟩
theorem wit_time_no_loss : ∃ s : State, s.wt.now < s.wt.lastSync.getD 0 + 60000 := ⟨{ folded with wt := { folded.wt with now := 59999 } }, by decide⟩
theorem wit_holdover : ∃ s : State, s.wt.tstate = .holdover ∧ s.wt.holdSince + 1600000000 ≤ s.wt.now :=
  ⟨{ folded with wt := { folded.wt with tstate := .holdover, now := 1600000000 } }, rfl, by decide⟩
theorem wit_silence : ∃ s : State, foldEn s = true ∧ (peerTime s 1).lastHeard = some 5 ∧ 5 + 480000 ≤ s.wt.now :=
  ⟨{ folded with wt := { folded.wt with now := 480005, peerW := { lastHeard := some 5 } } }, by decide +kernel, rfl, by decide⟩
theorem wit_ageout : ∃ (s : State) (h : Heard), mget none s.wt.heard 15 = some h ∧ h.at_ + 480000 < s.wt.now :=
  ⟨{ folded with wt := { folded.wt with now := 480001, heard := [(15, some {})] } }, {}, by decide +kernel, by decide⟩

theorem wit_peer_rise : ∃ s : State, peerMayRise s 1 = true := ⟨{ sv with cages := [(9, { present := true })] }, by decide +kernel⟩
theorem wit_peer_no_rise : peerMayRise State.reset 0 = false ∧ folded.peerE.linkUp = true ∧ State.reset.peerE.linkUp = false := by decide +kernel
theorem wit_fold_cfg : foldEn sv = false ∧ foldEn folded = true ∧ bit (0x10#32) 4 = true ∧ bit (0x0F#32) 4 = false ∧ anyActive sv = false
    ∧ anyActive (withContract sv 63 { state := .running }) = true := by decide +kernel

/-! ## Witnesses: contracts -/

/-- A proposal of one raw endpoint on a canvas of one paddock, with a launch offset and a latency. -/
def block (t0 lat : Nat) : List Byte :=
  leBytes 8 t0 ++ leBytes 8 1600000 ++ leBytes 2 1 ++ zeros 2 ++ leBytes 4 0 ++ leBytes 4 lat ++ leBytes 2 0 ++ leBytes 2 0 ++ leBytes 2 1 ++ leBytes 2 1
    ++ [0, 0] ++ leBytes 2 1 ++ zeros 24 ++ (leBytes 2 16383 ++ [31, 0] ++ leBytes 2 0 ++ leBytes 2 0 ++ leBytes 2 8 ++ leBytes 2 4 ++ [8, 0, 0, 0] ++ zeros 16)
def proposeD : Desc := mk 0x10 7 [(8, 63), (16, 0x1000), (24, 96), (32, 64)]
def cv : State := { up with regs := [(Off.canvasSize, 0x00010001)] }
theorem wit_propose : Starts cv 0 proposeD (tag cv proposeD) (go cv proposeD) ∧ proposeFields proposeD = true
    ∧ ((go cv proposeD).contract 63).state = .free ∧ (block 0 4000000).length = descFld proposeD 24 4
    ∧ proposalOk (go cv proposeD) 63 (block 0 4000000) = true ∧ proposalStates (go cv proposeD) 63 (parseProposal (block 0 4000000)) = true
    ∧ linkUp (go cv proposeD) = true ∧ fits (go cv proposeD) (proposalBytes (parseProposal (block 0 4000000))) = true
    ∧ (evaluate (go cv proposeD) 63 (parseProposal (block 0 4000000))).reason = 0 :=
  ⟨starts_go _ _ rfl rfl (by decide +kernel) (by decide +kernel), by decide +kernel⟩
theorem wit_propose_refused : proposalOk (go cv proposeD) 63 (block 0 1) = true
    ∧ (evaluate (go cv proposeD) 63 (parseProposal (block 0 1))).reason ≠ 0 := by decide +kernel
theorem wit_propose_conflict : ((withContract sv 63 { state := .draining }).contract (descFld proposeD 8 1)).state ≠ .free := by decide +kernel

def commitD (at_ f : Nat) : Desc := mk 0x11 7 [(8, 63), (9, at_), (16, f)]
/-- A proposed contract of one endpoint with its map list and plane. -/
def readyContract : Contract :=
  { state := .proposed, pnum := 1600000, regW := 1, regH := 1, endpoints := [{ slot := 5 }], maps := [(5, some {})] }
def proposed : State :=
  let s := withContract up 63 readyContract
  { s with corr := { s.corr with coefs := [(coefKey 63 5, { inForce := some {} })] } }
theorem wit_commit_unlocked :
    let s : State := { proposed with wt := { proposed.wt with tstate := .holdover } }
    Starts s 0 (commitD 0 0) (tag s (commitD 0 0)) (go s (commitD 0 0)) ∧ commitFields (go s (commitD 0 0)) (commitD 0 0) = true
      ∧ (go s (commitD 0 0)).wt.tstate ≠ .locked := ⟨starts_go _ _ rfl rfl (by decide +kernel) (by decide +kernel), by decide +kernel, by decide +kernel⟩
theorem wit_commit : Starts proposed 0 (commitD 1 1) (tag proposed (commitD 1 1)) (go proposed (commitD 1 1))
    ∧ commitFields (go proposed (commitD 1 1)) (commitD 1 1) = true ∧ commitStates (go proposed (commitD 1 1)) 63 = true
    ∧ ringsBuildable (go proposed (commitD 1 1)) 63 = true ∧ firstOk (go proposed (commitD 1 1)) 63 1 = true
    ∧ firstOk (go proposed (commitD 1 0)) 63 0 = false :=
  ⟨starts_go _ _ rfl rfl (by decide +kernel) (by decide +kernel), by decide +kernel⟩
theorem wit_commit_waits : ∃ s : State, s.serving = true ∧ commitStates s 63 = true ∧ ringsBuildable s 63 = false :=
  ⟨{ proposed with buf := { proposed.buf with rings := [(32 * 63, { z := 1000000, bufs := [0, 0, 1000000, 0] })] } }, by decide +kernel⟩
theorem wit_commit_conflicts :
    (((withContract sv 63 { readyContract with maps := [] }).contract 63).endpoints.any fun e =>
        (mget none ((withContract sv 63 { readyContract with maps := [] }).contract 63).maps e.slot).isNone) = true
    ∧ (((withContract sv 63 readyContract).contract 63).endpoints.any fun e =>
        (mget {} (withContract sv 63 readyContract).corr.coefs (16384 * 63 + e.slot)).inForce.isNone) = true := by decide +kernel
theorem wit_auto_first : 0 < readyContract.pnum ∧ 0 < readyContract.pden ∧ (0 : Int) + 160000 ≤ launchTick readyContract 1 + 0 := by decide +kernel
theorem wit_commit_accept : ∃ s : State, (s.contract 63).commit = some ({}, true, 3) ∧ s.serving = true ∧ ringsBuildable s 63 = true :=
  ⟨withContract sv 63 { readyContract with commit := some ({}, true, 3) }, by decide +kernel⟩

def releaseD (b : Nat) : Desc := mk 0x12 7 [(8, 63), (9, b)]
theorem wit_release : hdrOk (releaseD 1) 0x12 [(8, 2)] = true ∧ descFld (releaseD 1) 8 1 < 64 ∧ descFld (releaseD 1) 9 1 < 2
    ∧ Starts sv 0 (releaseD 1) (tag sv (releaseD 1)) (go sv (releaseD 1)) :=
  ⟨by decide +kernel, by decide +kernel, by decide +kernel, starts_go _ _ rfl rfl (by decide +kernel) (by decide +kernel)⟩
theorem wit_release_states : ∀ x ∈ [CState.free, .proposed, .committed, .running, .draining],
    ((go (withContract sv 63 { readyContract with state := x, frame := some 1 }) (releaseD 0)).contract 63).state = x
      ∧ ((go (withContract sv 63 { readyContract with state := x, frame := some 1 }) (releaseD 0)).contract 63).commit = none
      ∧ (go (withContract sv 63 { readyContract with state := x, frame := some 1 }) (releaseD 0)).wallNow
        < launchTick ((go (withContract sv 63 { readyContract with state := x, frame := some 1 }) (releaseD 0)).contract 63) 1 := by decide +kernel

def layoutD : Desc := mk 0x13 7 [(8, 63), (32, 64)]
def running : State := withContract cv 63 { parseProposal (block 0 4000000) with state := .running, stage := 1000000 }
theorem wit_layout : Starts running 0 layoutD (tag running layoutD) (go running layoutD) ∧ layoutFields layoutD = true
    ∧ ((go running layoutD).contract 63).state = .running ∧ linkUp (go running layoutD) = true ∧ layoutState ((go running layoutD).contract 63) = true ∧ layoutOk (go running layoutD) ((go running layoutD).contract 63) layoutD [] = true
    ∧ sourcesOpen (go running layoutD) (layoutSources ((go running layoutD).contract 63) layoutD []) = true :=
  ⟨starts_go _ _ rfl rfl (by decide +kernel) (by decide +kernel), by decide +kernel⟩
theorem wit_layout_verdicts :
    (readmit running 63 (running.contract 63)).reason = 0 ∧ (readmit running 63 { running.contract 63 with latencyMax := 1 }).reason ≠ 0 := by decide +kernel
theorem wit_drain_blank : ∃ s : State, blankDue s (s.contract 63) = true ∧ s.serving = true ∧ blankDue sv (sv.contract 63) = false :=
  ⟨withContract { sv with wt := { sv.wt with wall := 3200000 } } 63
    { readyContract with state := .draining, nLast := some 1, blankOut := true }, by decide +kernel⟩
theorem wit_tolerance : hdrOk (mk 0x50 7 [(12, 10000000)]) 0x50 [(12, 4)] = true ∧ descFld (mk 0x50 7 [(12, 10000000)]) 12 4 ≤ 10000000
    ∧ 10000000 < descFld (mk 0x50 7 [(12, 10000001)]) 12 4 := by decide +kernel

/-! ## Witnesses: streams -/

def openRawD (h : Nat) : Desc := mk 0x02 7 [(8, 255), (28, 64), (30, h), (32, 320)]
def openHevcD (ib : Nat) : Desc := mk 0x02 7 [(8, 255), (9, 1), (12, ib), (16, 0x1000), (24, 100)]
def rec64 : StreamRec := { width := 64, height := 64, dpb := 2 }
/-- A configuration record of HEVC: a VPS, an SPS and a PPS NAL unit with start codes. -/
def recordBs : List Byte := [0, 0, 1, 0x40, 1, 0x0C, 0, 0, 1, 0x42, 1, 1, 0, 0, 1, 0x44, 1, 0xC1]
theorem wit_open_raw : Starts sv 0 (openRawD 64) (tag sv (openRawD 64)) (go sv (openRawD 64)) ∧ openFields (openRawD 64) = true
    ∧ ((go sv (openRawD 64)).stream 255).state = .closed ∧ codecOf (descFld (openRawD 64) 9 1) = some .raw
    ∧ fits (go sv (openRawD 64)) (3 * (descFld (openRawD 64) 32 4 * descFld (openRawD 64) 30 2)) = true :=
  ⟨starts_go _ _ rfl rfl (by decide +kernel) (by decide +kernel), by decide +kernel⟩
theorem wit_open_no_room : ∃ s : State, s.serving = true ∧ fits s (3 * (320 * 64)) = false :=
  ⟨{ sv with mem := { sv.mem with placed := [(0, 56 * 2 ^ 30)] } }, by decide +kernel⟩
theorem wit_open_coded : Starts up 0 (openHevcD 1048576) (tag up (openHevcD 1048576)) (go up (openHevcD 1048576))
    ∧ openFields (openHevcD 1048576) = true ∧ linkUp (go up (openHevcD 1048576)) = true ∧ codecOf (descFld (openHevcD 1048576) 9 1) = some .hevc ∧ recordFormat .hevc recordBs = true ∧ seqSupported .hevc rec64 = true
    ∧ fits (go up (openHevcD 1048576)) (storeBytes rec64 + descFld (openHevcD 1048576) 12 4) = true ∧ seqSupported .hevc { rec64 with width := 63 } = false
    ∧ recordFormat .hevc (recordBs.take 12) = false ∧ seqSupported .hevc { rec64 with level := 999 } = false :=
  ⟨starts_go _ _ rfl rfl (by decide +kernel) (by decide +kernel), by decide +kernel⟩
theorem wit_open_conflict : ((withStream sv 255 { state := .open_ }).stream 255).state ≠ .closed := by decide +kernel

def closeD : Desc := mk 0x03 7 [(8, 255)]
theorem wit_close : Starts sv 0 closeD (tag sv closeD) (go sv closeD) ∧ hdrOk closeD 0x03 [(8, 1)] = true ∧ streamNamed (go sv closeD) 255 = false
    ∧ streamNamed (withContract sv 63 { state := .proposed, sources := [{ stream := 255 }] }) 255 = true
    ∧ ∀ x ∈ [SState.closed, .open_, .flushing], ((withStream sv 255 { state := x }).stream 255).state = x :=
  ⟨starts_go _ _ rfl rfl (by decide +kernel) (by decide +kernel), by decide +kernel⟩
theorem wit_close_decoding : (((withStream sv 255 { state := .open_, units := [{ phase := .decoding }] }).stream 255).units.any fun v => v.phase == .decoding) = true := by
  decide +kernel

def auD (n : Nat) : Desc := mk 0x04 7 [(8, 255), (16, 0x1000), (24, n)]
def coded : State := withStream sv 255 { state := .open_, codec := .hevc, ibufBytes := 1048576 }
theorem wit_au : Starts coded 0 (auD 524288) (tag coded (auD 524288)) (go coded (auD 524288)) ∧ hdrOk (auD 524288) 0x04 [(8, 2), (16, 12)] = true
    ∧ descFld (auD 524288) 9 1 < 4 ∧ ((go coded (auD 524288)).stream 255).state = .open_ ∧ ((go coded (auD 524288)).stream 255).codec ≠ .raw
    ∧ descFld (auD 524288) 24 4 ≤ ((go coded (auD 524288)).stream 255).ibufBytes / 2 ∧ (coded.stream 255).ibufBytes / 2 < descFld (auD 524289) 24 4 :=
  ⟨starts_go _ _ rfl rfl (by decide +kernel) (by decide +kernel), by decide +kernel⟩
theorem wit_au_closed : (sv.stream 255).state ≠ .open_ := by decide +kernel
theorem wit_au_fetch : ∃ u : Au, ((withStream coded 255 { coded.stream 255 with units := [{ phase := .decoding }, { phase := .fetching }] }).stream 255).units
    = [{ phase := .decoding }] ++ u :: [] ∧ u.phase = .fetching ∧ (∀ v ∈ [({ phase := .decoding } : Au)], v.phase = .decoding) ∧ (coded.stream 255).codec ≠ .av1 :=
  ⟨{ phase := .fetching }, by decide +kernel, rfl, by decide, by decide +kernel⟩

theorem wit_decode_start : firesNow (due 3 { unit := 15 }) 0 = true ∧ (15 : Nat) < 16 := by decide +kernel
theorem wit_repair : (({ sv with decs := [(15, { repair := some 255 })] } : State).dec 15).repair = some 255 ∧ (sv.dec 15).repair = none := by decide +kernel
theorem wit_picture_done :
    (((withStream coded 255 { coded.stream 255 with units := [{ phase := .decoding }] }).stream 255).units.find? (fun u => u.phase == .decoding)).isSome = true
    ∧ ((coded.stream 255).units.find? (fun u => u.phase == .decoding)) = none := by decide +kernel
/-- A stream of HEVC at its first unit, an IDR picture of one CTU. -/
def atIdr : Stream := { coded.stream 255 with record := rec64, seq := rec64 }
def idrUnit : Au := { data := [0, 0, 1, 0x26, 1, 0x80], rap := true }
theorem wit_unit_status : skippedUnit atIdr idrUnit = false ∧ marked atIdr idrUnit { width := 64, height := 64 } = false
    ∧ unsupportedUnit atIdr idrUnit = false ∧ unitFormat .hevc idrUnit.data = true := by decide +kernel
theorem wit_unit_poisoned : ({ bad := St.poisonedData } : Au).bad = St.poisonedData ∧ ({} : Au).bad ≠ St.poisonedData
    ∧ unsupportedUnit atIdr { idrUnit with info := { seq := some { rec64 with width := 128 } } } = true := by decide +kernel
/-- A RASL unit after the CRA picture at which decoding started, and a unit before the recovery point of a GDR picture. -/
theorem wit_unit_skipped : skippedUnit { atIdr with skipRasl := true } { data := [0, 0, 1, 0x12, 1, 0x80] } = true
    ∧ recovering { atIdr with recovery := some 3 } { data := [0, 0, 1, 2, 1, 0x80], info := { order := 2 } } = true
    ∧ ({} : DecOutcome).poisonedRef = false := by decide +kernel

def rawFrameD (n : Nat) : Desc := mk 0x05 7 [(8, 255), (12, 9), (16, 0x1000), (24, n)]
def rawSliceD (j : Nat) : Desc := mk 0x06 7 [(8, 255), (10, j), (12, 9), (16, 0x1000), (24, 128)]
def rawOpen : State := withStream sv 255 { state := .open_, codec := .raw, width := 16, height := 66, stride := 64 }
theorem wit_raw_frame : Starts rawOpen 0 (rawFrameD 4224) (tag rawOpen (rawFrameD 4224)) (go rawOpen (rawFrameD 4224))
    ∧ hdrOk (rawFrameD 4224) 0x05 [(8, 2), (12, 16)] = true ∧ descFld (rawFrameD 4224) 9 1 = 0
    ∧ ((go rawOpen (rawFrameD 4224)).stream 255).state = .open_ ∧ ((go rawOpen (rawFrameD 4224)).stream 255).codec = .raw
    ∧ descFld (rawFrameD 4224) 24 4 = ((go rawOpen (rawFrameD 4224)).stream 255).stride * ((go rawOpen (rawFrameD 4224)).stream 255).height
    ∧ ((go rawOpen (rawFrameD 4224)).stream 255).rawQueue = [] ∧ chooseBuf (go rawOpen (rawFrameD 4224)) 255 = some 0
    ∧ descFld (rawFrameD 4223) 24 4 ≠ (rawOpen.stream 255).stride * (rawOpen.stream 255).height :=
  ⟨starts_go _ _ rfl rfl (by decide +kernel) (by decide +kernel), by decide +kernel⟩
def rawTagged : State := withStream rawOpen 255 { rawOpen.stream 255 with bufs := [(2, { held := true, tag := 9, sliced := true })] }
theorem wit_raw_slice : Starts rawTagged 0 (rawSliceD 1) (tag rawTagged (rawSliceD 1)) (go rawTagged (rawSliceD 1)) ∧ hdrOk (rawSliceD 1) 0x06 [(8, 20)] = true
    ∧ descFld (rawSliceD 1) 10 2 < sliceCount ((go rawTagged (rawSliceD 1)).stream 255)
    ∧ descFld (rawSliceD 1) 24 4 = ((go rawTagged (rawSliceD 1)).stream 255).stride * sliceRows ((go rawTagged (rawSliceD 1)).stream 255) (descFld (rawSliceD 1) 10 2)
    ∧ bufOfTag ((go rawTagged (rawSliceD 1)).stream 255) (descFld (rawSliceD 1) 12 4) = some 2 :=
  ⟨starts_go _ _ rfl rfl (by decide +kernel) (by decide +kernel), by decide +kernel⟩
theorem wit_raw_fetch : ∃ (s : State) (r : RawSubmit), (s.stream 255).rawQueue = r :: [] ∧ r.buf = some 2 ∧ (s.stream 255).state = .open_ ∧ r.bytes = 1
    ∧ r.slice = none ∧ (rawBuf (s.stream 255) 2).complete = false :=
  ⟨withStream rawTagged 255 { rawTagged.stream 255 with rawQueue := [{ buf := some 2, bytes := 1 }] }, { buf := some 2, bytes := 1 }, by decide +kernel⟩
theorem wit_raw_resume : ∃ (s : State) (r : RawSubmit), (s.stream 255).rawQueue = r :: [] ∧ r.buf = none ∧ r.slice = none ∧ chooseBuf s 255 = some 0
    ∧ (s.stream 255).state = .open_ := ⟨withStream rawOpen 255 { rawOpen.stream 255 with rawQueue := [{}] }, {}, by decide +kernel⟩
theorem wit_raw_choice : chooseBuf rawTagged 255 = some 0 := by decide +kernel

/-! ## Witnesses: composition, correction, coding, the proxy -/

theorem wit_steps_ready : ∃ s : State, compReady s { action := 4, unit := 0, contract := 63, arg := 0 } = true
    ∧ encReady s { action := 5, unit := 16, contract := 63, arg := 31, next := 7 } = true :=
  ⟨withContract sv 63 { state := .running, rowsWritten := [(7, 31)] }, by decide +kernel⟩
theorem wit_steps_wait : compReady sv { contract := 63, arg := 1, next := 7 } = false ∧ encReady sv { contract := 63 } = false := by decide +kernel
theorem wit_overrun : ({ sv with comp := { sv.comp with waits := [(8191, { action := 6, unit := 31 })] } } : State).comp.waits.find? (fun w => w.1 == 8191)
    = some (8191, { action := 6, unit := 31 }) ∧ waitReady sv { action := 6, unit := 31 } = true ∧ waitReady sv { action := 4, arg := 1 } = false := by decide +kernel

theorem wit_paddock_row : ∃ s : State, (s.contract 63).rowsComposing.find? (fun j => j.row == 31) = some { frame := 7, row := 31 }
    ∧ rowWaits s 63 7 31 = false ∧ s.serving = true := ⟨withContract sv 63 { rowsComposing := [{ frame := 7, row := 31 }] }, by decide +kernel⟩
theorem wit_paddock_waits : rowWaits { sv with comp := { sv.comp with waits := [(0, { action := 4, contract := 63, next := 7, arg := 31 })] } } 63 7 31 = true := by
  decide +kernel
theorem wit_covers : covers { en := true, dstW := 1, dstH := 1 } 0 0 = true ∧ covers { en := true, dstW := 1, dstH := 1 } 1 0 = false := by decide +kernel
theorem wit_seam_send : firesNow (due 7 { unit := 1 }) 0 = true := by decide +kernel
/-- A seam frame of n rows of one sample group. -/
def seamFrame (n : Nat) : List Byte :=
  withCrc ([0x10, 1, 5, 0] ++ leBytes 4 (folded.reg Off.foldId).toNat ++ zeros 4 ++ leBytes 2 n ++ zeros 14 ++ zeros (128 * n))
set_option maxRecDepth 100000 in
theorem wit_seam_frame : foldFrameOk folded (32 + 128 * leAt (seamFrame 1) 12 2) (seamFrame 1) = true ∧ u8 (seamFrame 1) 0 = 0x10
    ∧ 1 ≤ leAt (seamFrame 1) 12 2 ∧ leAt ([0x10, 1, 5, 0] ++ zeros 8 ++ leBytes 2 64) 12 2 ≤ 64 := by decide +kernel
theorem wit_seam_bad : foldFrameOk folded (32 + 128 * leAt (zeros 64) 12 2) (zeros 64) = false ∧ foldEn sv = false := by decide +kernel

theorem wit_canvas_size : sv.domainOn 36 = true ∧ anyContract sv = false ∧ anyContract (withContract sv 63 { state := .proposed }) = true
    ∧ (1 ≤ fld (0x00010001#32) 21 16 ∧ 1 ≤ fld (0x00010001#32) 6 0) ∧ (fld (0x00200040#32) 21 16 ≤ 32 ∧ fld (0x00200040#32) 6 0 ≤ 64)
    ∧ 32 < fld (0x00210040#32) 21 16 ∧ 64 < fld (0x00200041#32) 6 0 ∧ State.reset.domainOn 36 = false := by decide +kernel
theorem wit_taps : tapsOk 0 [1024, 0, 0, 0, 0, 0, 0, 0] = true ∧ tapsOk 1 [1024, 0, 0, 0, 0, 0, 0, 0] = true ∧ tapsOk 0 [1023, 0, 0, 0, 0, 0, 0, 0] = false
    ∧ coefBusy sv 4 0 = false ∧ coefBusy (withContract sv 63 { state := .proposed, layers := [{ hset := 4 }] }) 4 0 = true := by decide +kernel

def driftBytes : List Byte := [1, 0, 0, 0] ++ zeros 388
def driftD (i : Nat) : Desc := mk 0x19 7 [(8, 63), (9, i), (16, 0x1000)]
theorem wit_drift : Starts proposed 0 (driftD 7) (tag proposed (driftD 7)) (go proposed (driftD 7)) ∧ hdrOk (driftD 7) 0x19 [(8, 2), (16, 8)] = true
    ∧ descFld (driftD 7) 9 1 < 8 ∧ linkUp (go proposed (driftD 7)) = true ∧ driftOk driftBytes = true ∧ placeFree (go proposed (driftD 7)).corr.drifts (8 * 63 + 7) 1024 true = true
    ∧ ((go proposed (driftD 7)).contract 63).state = .proposed :=
  ⟨starts_go _ _ rfl rfl (by decide +kernel) (by decide +kernel), by decide +kernel⟩
def curveD (i : Nat) : Desc := mk 0x1A 7 [(8, 63), (9, i), (16, 0x1000)]
theorem wit_curve : hdrOk (curveD 3) 0x1A [(8, 2), (16, 8)] = true ∧ descFld (curveD 3) 9 1 < 4 ∧ (zeros 24576).length = 24576
    ∧ placeFree (go running (curveD 3)).corr.curves (4 * 63 + 3) 128 false = true ∧ ((go running (curveD 3)).contract 63).state = .running := by decide +kernel
def coefD : Desc := mk 0x18 7 [(8, 63), (16, 0x1000), (24, 64)]
/-- A uniform plane of one endpoint. -/
def coefBytes : List Byte := leBytes 2 5 ++ [255, 255, 1, 0, 0, 0] ++ zeros 24 ++ leBytes 4 (crc32 []).toNat ++ zeros 28
theorem wit_coef : hdrOk coefD 0x18 [(8, 1), (16, 12)] = true ∧ coefBytes.length = descFld coefD 24 4 ∧ 64 ≤ coefBytes.length
    ∧ endpointAt readyContract (leAt coefBytes 0 2) = some { slot := 5 } ∧ (parseCoef { slot := 5 } coefBytes).isSome = true
    ∧ coefAllocated (coefStore proposed 63 5) = true ∧ fits proposed (2 * coefStoreBytes { slot := 5 }) = true := by decide +kernel

theorem wit_correction : [65519, 0, 65519].length = 3 ∧ (∀ v ∈ [65519, 0, 65519], v < 65520) ∧ 0 < 1 ∧ ((5 : Int) - 4).natAbs ≤ 1 := by decide
theorem wit_transform_bounds : ∀ v ∈ [(0 : Int), 2 ^ 16 - 1], 0 ≤ v ∧ v ≤ 2 ^ 16 - 1 := by decide
theorem wit_codes : foldM (-2047) < 2 ^ (10 + 2) ∧ ((-255 : Int)).natAbs ≤ 255
    ∧ ((-64 : Int) ≤ -64 ∧ (63 : Int) ≤ 63 ∧ (-32 : Int) ≤ -32 ∧ (31 : Int) ≤ 31) ∧ (0 : Int) ≤ 0 ∧ (4095 : Int) ≤ 4095 := by decide +kernel
theorem wit_samples : (4095 : Int) - 0 < 2 ^ (12 + 1) ∧ (∀ v ∈ [(0 : Int), 4095], 0 ≤ v ∧ v ≤ 4095) ∧ (∀ (a : List Int) (j : Nat), (0 : Int) ≤ (fun _ _ => 2048) a j ∧ (fun _ _ => (2048 : Int)) a j ≤ 4095) :=
  ⟨by decide, by decide, fun _ _ => ⟨by show (0 : Int) ≤ 2048; decide, by show (2048 : Int) ≤ 4095; decide⟩⟩

def coding (act : Nat) : State :=
  { withContract sv 63 readyContract with enc := { sv.enc with cores := [(15, { act := act, jobs := [{ contract := 63, slot := 5 }] })] } }
theorem wit_stripe : ((coding 1).encCore 15).jobs = { contract := 63, slot := 5 } :: [] ∧ ((coding 1).encCore 15).act = 1 ∧ (coding 1).serving = true
    ∧ endpointAt ((coding 1).contract 63) 5 = some { slot := 5 } ∧ ((coding 2).encCore 15).act = 2 ∧ (sv.encCore 15).jobs = [] ∧ (sv.encCore 15).act ≠ 1 := by decide +kernel
theorem wit_copy : (({ sv with enc := { sv.enc with cores := [(15, { copying := [{}] })] } } : State).encCore 15).copying ≠ [] ∧ (sv.encCore 15).copying = [] := by
  decide +kernel

def prxD (w : Nat) : Desc := mk 0x48 7 [(8, 63), (9, 1), (10, 1), (11, 1), (13, 30), (20, w), (22, 256), (48, 2 ^ 20)]
def prxState (c : Contract) : State := { withContract sv 63 c with rings := { sv.rings with cqs := [(0, { cfg := 0x80000004 })] } }
theorem wit_proxy_stop : Starts sv 0 (mk 0x49 7 []) (tag sv (mk 0x49 7 [])) (go sv (mk 0x49 7 [])) ∧ hdrOk (mk 0x49 7 []) 0x49 [] = true
    ∧ (go sv (mk 0x49 7 [])).prx.state = .stopped := ⟨starts_go _ _ rfl rfl (by decide +kernel) (by decide +kernel), by decide +kernel, rfl⟩
theorem wit_proxy_stop_states : ∀ x ∈ [PState.running, .stopping], ∃ s : State, s.serving = true ∧ s.prx.state = x := fun x _ => ⟨{ sv with prx := { state := x } }, rfl, rfl⟩
theorem wit_proxy_capture : ∃ s : State, s.prx.due = 3 :: [] ∧ s.pwr.over105 = false ∧ s.pwr.throttled = false ∧ s.prx.captures.length < 2 ∧ s.prx.captures = { frame := 2 } :: []
    ∧ s.prx.state ≠ .stopped := ⟨{ sv with prx := { state := .running, due := [3], captures := [{ frame := 2 }] } }, by decide +kernel⟩
theorem wit_lut : sv.prx.state = .stopped ∧ sv.domainOn 37 = true ∧ State.reset.domainOn 37 = false ∧ (({ state := .running } : Proxy).state ≠ .stopped) := by decide +kernel
def prxRun : Contract := { state := .running, pnum := 1600000, regW := 1, regH := 1 }
theorem wit_proxy_start : Starts (prxState prxRun) 0 (prxD 256) (tag (prxState prxRun) (prxD 256)) (go (prxState prxRun) (prxD 256))
    ∧ prxFields (go (prxState prxRun) (prxD 256)) (prxD 256) = true ∧ prxStates (go (prxState prxRun) (prxD 256)) (prxD 256) = true
    ∧ prxFits ((go (prxState prxRun) (prxD 256)).contract (descFld (prxD 256) 8 1)) (prxD 256) = true
    ∧ prxFields (go (prxState prxRun) (prxD 258)) (prxD 258) = true ∧ prxFits ((go (prxState prxRun) (prxD 258)).contract (descFld (prxD 258) 8 1)) (prxD 258) = false
    ∧ prxStates (go (prxState {}) (prxD 256)) (prxD 256) = false :=
  ⟨starts_go _ _ rfl rfl (by decide +kernel) (by decide +kernel), by decide +kernel⟩
theorem wit_taps_transfers : (3 : Nat) < 4 ∧ (1 : Nat) < 2 ∧ (63 : Nat) < 64 ∧ (15 ∈ [1, 6, 14, 15]) ∧ (2 : Nat) < [0, 0, 65535].length
    ∧ eotfHlg 1000 [0, 0, 0] 2 = some 0 := by decide
/-- R117: on a sample the sinc of built-in set 0 is 1 and every other tap 0. -/
theorem test_lanczos_on_sample : lanczosTaps 0 0 1920 1920 0 = [0, 0, 0, 1024, 0, 0, 0, 0] := by decide

/-! ## Witnesses: drovers, egress, pools -/

/-- A map image of the endpoint of `block`, with one row and no command. -/
def imageTail : List Byte := zeros 16 ++ (leBytes 2 0 ++ leBytes 2 0 ++ zeros 12)
def imageBs : List Byte := [1, 0] ++ leBytes 2 16383 ++ [31, 1] ++ zeros 2 ++ leBytes 4 0 ++ leBytes 4 (crc32 imageTail).toNat ++ imageTail
def mapD : Desc := mk 0x20 7 [(8, 63), (16, 0x1000), (24, 48), (32, 64)]
def mapState (st : CState) (lat : Nat) : State := withContract cv 63 { parseProposal (block 0 lat) with state := st, stage := 1000000 }
theorem wit_map_load : Starts (mapState .proposed 4000000) 0 mapD (tag (mapState .proposed 4000000) mapD) (go (mapState .proposed 4000000) mapD)
    ∧ hdrOk mapD 0x20 [(8, 1), (16, 12), (32, 8)] = true ∧ descFld mapD 8 1 < 64 ∧ descFld mapD 32 8 % 64 = 0
    ∧ linkUp (go (mapState .proposed 4000000) mapD) = true ∧ loadState ((go (mapState .proposed 4000000) mapD).contract 63) = true ∧ imageBs.length = descFld mapD 24 4
    ∧ imageOk (go (mapState .proposed 4000000) mapD) ((go (mapState .proposed 4000000) mapD).contract 63) imageBs = true
    ∧ fits (go (mapState .proposed 4000000) mapD) imageBs.length = true ∧ ((go (mapState .proposed 4000000) mapD).contract 63).state = .proposed
    ∧ (readmit (go (mapState .proposed 4000000) mapD) 63 { (go (mapState .proposed 4000000) mapD).contract 63 with deferred := [{ change := .map (parseImage imageBs) }] }).reason = 0 :=
  ⟨starts_go _ _ rfl rfl (by decide +kernel) (by decide +kernel), by decide +kernel⟩
theorem wit_map_refused : imageOk (mapState .running 1) ((mapState .running 1).contract 63) imageBs = true
    ∧ (readmit (mapState .running 1) 63 { (mapState .running 1).contract 63 with deferred := [{ change := .map (parseImage imageBs) }] }).reason ≠ 0 := by decide +kernel

/-- An object image of one word at the first address of the common. -/
def objectTail (w : Nat) : List Byte := zeros 16 ++ leBytes 16 w
def objectBs (w : Nat) : List Byte := leBytes 2 0x4B59 ++ [1, 0] ++ leBytes 2 0x2000 ++ leBytes 2 1 ++ leBytes 2 0 ++ zeros 2 ++ leBytes 4 (crc32 (objectTail w)).toNat ++ objectTail w
def ucodeD (mask : Nat) : Desc := mk 0x21 7 [(12, mask), (16, 0x1000), (24, 48)]
theorem wit_ucode : Starts up 0 (ucodeD 0x80000001) (tag up (ucodeD 0x80000001)) (go up (ucodeD 0x80000001)) ∧ hdrOk (ucodeD 0x80000001) 0x21 [(12, 16)] = true ∧ linkUp up = true
    ∧ ucodeConflict (go up (ucodeD 0x80000001)) (descFld (ucodeD 0x80000001) 12 4) = false ∧ (objectBs doneWord.toNat).length = descFld (ucodeD 0x80000001) 24 4
    ∧ (verifyUcode (go up (ucodeD 0x80000001)) (objectBs doneWord.toNat)).1 = 0 ∧ (verifyUcode (go up (ucodeD 1)) (objectBs (2 ^ 64))).1 ≠ 0 :=
  ⟨starts_go _ _ rfl rfl (by decide +kernel) (by decide +kernel), by decide +kernel⟩
theorem wit_ucode_conflict : ucodeConflict (withContract sv 63 { state := .proposed, maps := [(5, some { port := 31, rows := [{ cmds := [128] }] })] }) (2 ^ 31) = true := by
  decide +kernel

/-- Drover 31 runs the first command of its list. -/
def droving (act : DAct) : State :=
  { withContract sv 63 { state := .running, maps := [(5, some { slot := 5, port := 31, rows := [{ cmds := [5 * 2 ^ 16 + 128] }] })], endpoints := [{ slot := 5, port := 31 }], sets := [{ frame := 0, maps := [(5, some { slot := 5, port := 31, rows := [{ cmds := [5 * 2 ^ 16 + 128] }] })] }] } with drovers := [(31, { act := act, running := some (listKey { contract := 63 }), ready := [{ contract := 63 }] })] }
theorem wit_drover_live : droverLive (droving .run) 31 = true ∧ droverLive State.reset 31 = false ∧ ((droving .stall).drover 31).act = .stall
    ∧ ((droving .halted).drover 31).act = .halted ∧ (droving .halted).domainOn (drvDomain 31) = true := by decide +kernel
theorem wit_drover_lookup : (runningCmd (droving .run) 31).isSome = true ∧ ((droving .run).drover 31).lkDone = false
    ∧ (lookupSlot { sv with tbl := { sv.tbl with entries := [(3, { valid := true, kind := 0, slot := some 5, lastPort := 31 })] } } 5).isSome = true := by decide +kernel
/-- The fields of a microword that the statement reads: an addition to r15 and each next-address mode. -/
def word (nam alu dst : Nat) : BitVec 128 := BitVec.ofNat 128 (nam <<< 125 + alu <<< 100 + dst <<< 95)
theorem wit_words : Mw.alu (word 0 2 15) = 2 ∧ Mw.dst (word 0 2 15) = 15 ∧ Mw.dst (word 0 2 1) = 1 ∧ Mw.alu (word 0 0 0) = 0
    ∧ ([0, 1, 2, 3].map fun n => Mw.nam (word n 0 0)) = [0, 1, 2, 3] := by decide +kernel

def sendD (hold len : Nat) : Desc := mk 0x28 7 [(8, 16383), (10, 7), (13, 2 * hold), (14, len), (16, 0x1000)]
def regionD (hold : Nat) : Desc := mk 0x29 7 [(12, 32), (13, 2 * hold), (14, 1), (16, 0x1000), (32, 16383), (34, 7)]
theorem wit_send : Starts sv 0 (sendD 0 9166) (tag sv (sendD 0 9166)) (go sv (sendD 0 9166)) ∧ (zeros 9166).length = descFld (sendD 0 9166) 14 2
    ∧ hdrOk (sendD 0 9166) 0x28 [(8, 24)] = true ∧ msgFields (sendD 0 9166) 10 11 12 = true ∧ descFld (sendD 0 9166) 8 2 < 16384
    ∧ (descFld (sendD 0 9166) 13 1).testBit 1 = false ∧ (descFld (sendD 1 1) 13 1).testBit 1 = true ∧ msgFields (sendD 1 1) 10 11 12 = true :=
  ⟨starts_go _ _ rfl rfl (by decide +kernel) (by decide +kernel), by simp only [zeros, List.length_replicate]; decide +kernel, by decide +kernel⟩
theorem wit_region : hdrOk (regionD 0) 0x29 [(8, 5), (13, 24)] = true ∧ msgFields (regionD 0) 34 35 36 = true ∧ descFld (regionD 0) 12 1 ≤ 32
    ∧ descFld (regionD 0) 32 2 < 16384 ∧ (descFld (regionD 1) 13 1).testBit 1 = true := by decide +kernel
def holding (since : Nat) : State :=
  { sv with eg := { sv.eg with held := [{ ref := { sq := 1023, cid := 0xFFFE }, since := since, hold := true, buf := some (2, 0) }] } }
theorem wit_held : tagHeld (holding 0) 1023 0xFFFE = true ∧ ∃ m p h, heldOf (holding 0) 1023 0xFFFE = some m ∧ m.buf = some (p, h) :=
  ⟨by decide +kernel, { ref := { sq := 1023, cid := 0xFFFE }, since := 0, hold := true, buf := some (2, 0) }, 2, 0, by decide +kernel⟩
theorem wit_release_message : firesNow (due 0xB { arg := 1023 * 65536 + 0xFFFE }) 0 = true ∧ heldOf (due 0xB {}) 0 0 = none := by decide +kernel
theorem wit_held_times : ∃ m, heldOf ({ holding 0 with wt := { sv.wt with now := 9600000000 } } : State) 1023 0xFFFE = some m ∧ m.since + 9600000000 ≤ 9600000000
    ∧ 9599999999 < m.since + 9600000000 := ⟨{ ref := { sq := 1023, cid := 0xFFFE }, hold := true, buf := some (2, 0) }, by decide +kernel⟩
theorem wit_no_route : route sv { slot := 16383 } = none := by decide +kernel
theorem wit_alloc : canAlloc sv.buf (poolFor (msgLen {})) 0 = true := by decide +kernel

def porting (p : Port) : State := { sv with eg := { sv.eg with ports := [(31, { p with linkUp := true })] } }
theorem wit_port_own : ((porting { portQ := [{}], builtRun := 1 }).port 31).linkUp = true ∧ ((porting { portQ := [{}], builtRun := 1 }).port 31).current = none
    ∧ ((porting { portQ := [{}], builtRun := 1 }).port 31).portQ = {} :: [] ∧ ((porting { portQ := [{}], builtRun := 1 }).port 31).builtRun < 2
    ∧ queuedReady sv ((porting { portQ := [{}], builtRun := 2 }).port 31) = false := by decide +kernel
theorem wit_port_class0 : ((porting { portQ := [{}], class0 := [{}], builtRun := 2 }).port 31).class0 = {} :: []
    ∧ 2 ≤ ((porting { portQ := [{}], class0 := [{}], builtRun := 2 }).port 31).builtRun ∧ ((porting { class0 := [{}] }).port 31).portQ = [] := by decide +kernel
theorem wit_tx_end : ((porting { current := some {} }).port 31).current = some {} ∧ ({} : Frame).src = .port ∧ ({} : Frame).msg = none := by decide +kernel
theorem wit_queue : ∃ s : State, (qstate (s.port 31) 65535).frames = {} :: [] ∧ eligible s (s.port 31) 65535 {} = true ∧ 65535 % 4 ≠ 0
    ∧ ({} : Frame).enq + ageLimit s 3 < s.wt.now :=
  ⟨{ porting { queues := [(65535, { frames := [{}] })] } with wt := { sv.wt with now := 320000001 } }, by decide +kernel⟩
theorem wit_queue_shaped : eligible { sv with qcfg := [(65535, { w := 1, shpRate := 1 })] } {} 65535 {} = false ∧ (sv.queueCfg 65535).shpRate = 0 := by
  decide +kernel
theorem wit_port_rises : ∃ s : State, linkMayRise s 31 = true ∧ (s.port 31).portQ = [] ∧ (s.port 31).class0 = [] ∧ (s.port 31).queues = [] ∧ (s.port 31).current = none :=
  ⟨{ sv with regs := [(Off.egPortCfg 31, 0x10)], cages := [(7, { present := true })] }, by decide +kernel⟩
theorem wit_port_stays : linkMayRise State.reset 31 = false ∧ ((porting {}).port 31).linkUp = true ∧ ((porting {}).port 31).queues = [] := by decide +kernel
theorem wit_port_cfg : portCfgOk 0x1F15#32 = true ∧ portCfgOk 0x2010#32 = false ∧ portUsed sv 31 = false ∧ sv.domainOn (46 + 31 / 4) = true
    ∧ portUsed (withContract sv 63 { state := .proposed, endpoints := [{ port := 31 }] }) 31 = true := by decide +kernel

/-- A frame that the module takes at port 31. -/
def rxFrame (type : Nat) : List Byte :=
  beBytes 6 (portMac sv 31) ++ zeros 6 ++ beBytes 2 (ethertype sv) ++ [BitVec.ofNat 8 type, 0x10] ++ zeros 46
theorem wit_rx : rxIs (porting {}) 31 5 (rxFrame 5) = true ∧ rxIs (porting {}) 31 9 (rxFrame 9) = true ∧ rxIs (porting {}) 31 5 (rxFrame 9) = false
    ∧ rxIs (porting {}) 31 9 (rxFrame 5) = false ∧ rxIs (porting {}) 31 9 (rxFrame 1) = false ∧ (sv.port 31).linkUp = false := by decide +kernel
theorem wit_rx_count : ((dreqWindow (porting { dreqCount := 4095 }) 31).port 31).dreqCount < 4096 ∧ 4096 ≤ ((dreqWindow (porting { dreqCount := 4096 }) 31).port 31).dreqCount
    ∧ ((porting { dreqSecond := 1 }).port 31).dreqSecond ≠ sv.wallNow / 160000000 ∧ ((porting {}).port 31).dreqSecond = (porting {}).wallNow / 160000000 := by
  decide +kernel
theorem wit_beacon : sv.serving = true ∧ (sv.port 31).lastBeacon + 160 * fld (sv.reg Off.beaconInterval) 13 0 ≤ ({ sv with wt := { sv.wt with now := 160000 } } : State).wt.now
    ∧ ({ sv with wt := { sv.wt with now := 159999 } } : State).wt.now < (sv.port 31).lastBeacon + 160 * fld (sv.reg Off.beaconInterval) 13 0 := by decide +kernel
theorem wit_stale : ∃ s : State, (slotEndpoint s 16383).isSome = true ∧ (mget {} s.corr.eps 16383).temp.isSome = true ∧ (mget {} s.corr.eps 16383).stale = false
    ∧ (mget {} s.corr.eps 16383).lastValid + staleAfter s ≤ s.wt.now :=
  ⟨{ withContract sv 63 { state := .running, endpoints := [{ slot := 16383 }] } with
      wt := { sv.wt with now := 10 ^ 12 }, corr := { sv.corr with eps := [(16383, { temp := some 400 })] } }, by decide +kernel⟩
theorem wit_not_stale : slotEndpoint sv 16383 = none := by decide +kernel

theorem wit_pools : ∀ p ∈ [0, 1, 2], (sv.pool p).cache > 768 ∧ 256 ≤ (sv.pool p).cache := by decide +kernel
theorem wit_pool_refill : ∃ s : State, (s.pool 2).cache < 256 ∧ (s.pool 2).cache + 256 ≤ freeBufs s.buf 2 :=
  ⟨{ sv with buf := { sv.buf with poolC := { cache := 255 } } }, by decide +kernel⟩
theorem wit_pool_dry : ∃ s : State, freeBufs s.buf 2 < (s.pool 2).cache + 256 ∧ (s.pool 2).cache ≤ 768 :=
  ⟨{ sv with buf := { sv.buf with poolC := { cache := 255, used := [(0, 2300)] } } }, by decide +kernel⟩
theorem wit_refs : 1 < (mget {} (({ sv with buf := { sv.buf with poolC := { bufs := [(0, { refs := 2 })] } } } : State).pool 2).bufs 0).refs := by decide +kernel
theorem wit_pool_sizes : 256 ≤ 256 ∧ 256 < 257 ∧ 2048 ≤ 2048 ∧ 2048 < 2049 := by decide
def accessing (acc sel : Word) : State := { sv with regs := [(Off.schedData 0, 1), (Off.schedData 1, 9236), (Off.schedData 3, 9236), (Off.schedQSel, sel), (Off.schedAcc, acc)] }
theorem wit_sched : schedGo sv = false ∧ schedGo (accessing 0x80000001 65535) = true ∧ fld ((accessing 0x80000001 65535).reg Off.schedAcc) 1 0 = 1
    ∧ fld ((accessing 0x80000001 65535).reg Off.schedQSel) 15 0 % 4 ≠ 0 ∧ fld ((accessing 0x80000001 65532).reg Off.schedQSel) 15 0 % 4 = 0
    ∧ qcfgOk (schedNewCfg (accessing 0x80000001 65535)) = true ∧ qcfgOk (schedNewCfg { accessing 0x80000001 65535 with regs := [(Off.schedAcc, 0x80000001)] }) = false
    ∧ fld ((accessing 0x80000000 65535).reg Off.schedAcc) 1 0 = 0 ∧ fld ((accessing 0x80000002 65535).reg Off.schedAcc) 1 0 = 2
    ∧ ({ accessing 0x80000002 65535 with pwr := State.reset.pwr } : State).domainOn (46 + 31 / 4) = false := by decide +kernel

/-! ## Witnesses: tables -/

def learnD (slot : Nat) : Desc := mk 0x30 7 [(8, 5), (14, slot), (16, 31)]
theorem wit_learn : Starts sv 0 (learnD 16383) (tag sv (learnD 16383)) (go sv (learnD 16383)) ∧ hdrOk (learnD 16383) 0x30 [(8, 9)] = true
    ∧ descFld (learnD 16383) 14 2 < 16384 ∧ descFld (learnD 16383) 16 1 < 32 ∧ hdrOk (mk 0x31 7 [(8, 5)]) 0x31 [(8, 6)] = true :=
  ⟨starts_go _ _ rfl rfl (by decide +kernel) (by decide +kernel), by decide +kernel⟩
def lpmD (op wca len : Nat) : Desc := mk op 7 [(8, wca), (12, len)]
theorem wit_lpm : hdrOk (lpmD 0x32 0x03120000 32) 0x32 [(8, 5), (16, 4)] = true ∧ prefixClean 0x03120000 32 = true ∧ prefixClean 0 0 = true
    ∧ hdrOk (lpmD 0x33 0x03120000 16) 0x33 [(8, 5)] = true ∧ prefixClean 0x03120000 16 = true
    ∧ heldReady sv (.ev (.remove {} 5)) = true ∧ heldReady sv (.lpm {} false ⟨0, 0, 0⟩) = true := by decide +kernel
theorem wit_trie : trieFits (insertPrefix [] ⟨0, 0, 1⟩) = true := by decide +kernel
/-- A trie whose third stage would need a node more than it has: the fit is refused on the number of prefixes. -/
theorem wit_trie_full : trieFits (List.replicate 65537 ⟨0, 0, 1⟩) = false := by
  unfold trieFits; simp only [List.length_replicate, Nat.reduceLeDiff, decide_false, Bool.false_and]
theorem wit_learn_event : ({ sv with tbl := { sv.tbl with queue := [⟨0, 34, .remove {} 5⟩], spread := [3] } } : State).tbl.queue = ⟨0, 34, .remove {} 5⟩ :: []
    ∧ sv.domainOn 61 = true ∧ State.reset.domainOn 61 = false ∧ sv.tbl.queue = [] ∧ sv.tbl.spread = [] := by decide +kernel
theorem wit_sweep : ∀ p ∈ [(true, false), (false, false), (false, true)], ∃ e : TEntry, e.valid = true ∧ e.kind = 0 ∧ e.hit = p.1 ∧ e.seenClear = p.2 :=
  fun p _ => ⟨{ valid := true, hit := p.1, seenClear := p.2 }, rfl, rfl, rfl, rfl⟩
def noticeFrame (m : Nat) : List Byte :=
  withCrc ([0x20, 1, BitVec.ofNat 8 m, 0] ++ leBytes 4 (folded.reg Off.foldId).toNat ++ zeros 2 ++ [1, 0] ++ zeros 48)
theorem wit_notice : foldFrameOk folded 64 (noticeFrame 15) = true ∧ noticeOk (noticeFrame 15) = true ∧ u8 (noticeFrame 15) 2 ≠ moduleNo folded
    ∧ u8 (noticeFrame 3) 2 = moduleNo folded ∧ foldFrameOk folded 64 (noticeFrame 3) = true := by decide +kernel
theorem wit_lookup : ∀ p : Prefix, p ∈ ({ State.reset.tbl with prefixes := [⟨0, 0, 1⟩] } : Tables).prefixes ∧ p.len ≤ 32 → p.len ≤ 32 := fun _ h => h.2

def auditD (n : Nat) : Desc := mk 0x34 7 [(9, 7), (16, 0x1000), (24, n), (40, 64)]
theorem wit_audit : Starts up 0 (auditD 1) (tag up (auditD 1)) (go up (auditD 1)) ∧ auditFields (auditD 1) = true ∧ linkUp (go up (auditD 1)) = true ∧ (go up (auditD 1)).tbl.audit = none
    ∧ (([1] ++ zeros 15 : List Byte)).length = 16 * descFld (auditD 1) 24 4 ∧ (auditOf {} (auditD 1) ([1] ++ zeros 15)).records.all shadowOk = true
    ∧ (auditOf {} (auditD 1) (zeros 16)).records.all shadowOk = false := ⟨starts_go _ _ rfl rfl (by decide +kernel) (by decide +kernel), by decide +kernel⟩
theorem wit_audit_end : ({ sv with tbl := { sv.tbl with audit := some {} } } : State).tbl.audit = some {} ∧ sv.pwr.over105 = false
    ∧ ({} : Audit).records = [] ∧ ({} : Audit).prefixes = false ∧ ({} : Audit).statics = false
    ∧ ({ sv with pwr := { sv.pwr with over105 := true } } : State).pwr.over105 = true := by decide +kernel

/-! ## Witnesses: the host link and the window -/

def linked (f : Link → Link) : State := up.modLink f
theorem wit_slot : carriesData up = true ∧ up.link.slot % 72 ≠ 71 ∧ (linked fun l => { l with slot := 71 }).link.slot % 72 = 71 ∧ sv.link.lstate = .down
    ∧ (linked fun l => { l with resend := [(0, [])] }).link.resend = (0, []) :: [] := by decide +kernel
theorem wit_slot_data : dataReady (linked fun l => { l with limMwr := 512, txq := [.mwr 0 [1, 2, 3, 4]] }).link = true ∧ dataReady up.link = false
    ∧ up.link.replay.length < 512 ∧ up.link.resend = [] := by decide +kernel
theorem wit_slot_full : 512 ≤ (linked fun l => { l with replay := List.replicate 512 (0, []) }).link.replay.length := by decide +kernel
theorem wit_flit_size : (zeros 244).length ≤ 244 := by decide +kernel
set_option maxRecDepth 1000000 in
theorem wit_flits : flitGood (flitBytes 1 0 0 false 0 0 []) = true ∧ flitGood (zeros 255 ++ [1]) = false
    ∧ fld (BitVec.ofNat 32 (leAt (flitBytes 0 0 0 false 0 0 []) 0 4)) 31 30 = 0 ∧ fld (BitVec.ofNat 32 (leAt (flitBytes 0 0 0 false 0 0 []) 0 4)) 29 18 = up.link.expect
    ∧ fld (BitVec.ofNat 32 (leAt (flitBytes 0 1 0 false 0 0 []) 0 4)) 29 18 ≠ up.link.expect ∧ bit (BitVec.ofNat 32 (leAt (flitBytes 1 0 0 false 0 0 []) 0 4)) 5 = false
    ∧ (unpackFlit 64 up.link.rxPart (zeros 244) []).isSome = true := by decide +kernel
theorem wit_replay : ∃ s : State, carriesData s = true ∧ s.link.ackSlot + 1024 ≤ s.link.slot ∧ s.link.replay ≠ [] ∧ s.link.resends < 8 ∧ s.link.lastMgmt + 288 ≤ s.link.slot :=
  ⟨linked fun l => { l with slot := 1024, replay := [(0, [])], resends := 7 }, by decide +kernel⟩
theorem wit_replay_last : ∃ s : State, carriesData s = true ∧ 8 ≤ s.link.resends ∧ up.link.slot < up.link.ackSlot + 1024 ∧ up.link.slot < up.link.lastMgmt + 288 :=
  ⟨linked fun l => { l with resends := 8 }, by decide +kernel⟩

theorem wit_signal : ∃ s : State, s.link.lstate = .down ∧ s.domainOn 56 = true ∧ hostCage s = true ∧ s.link.since + 1600000 ≤ s.wt.now :=
  ⟨{ sv with cages := [(10, { present := true })], wt := { sv.wt with now := 1600000 } }, by decide +kernel⟩
theorem wit_link_times : ∀ p ∈ [(LState.train, 16000000), (.recovery, 1600000)], ∃ s : State, s.link.lstate = p.1 ∧ s.link.since + p.2 ≤ s.wt.now :=
  fun p _ => ⟨{ sv with link := { sv.link with lstate := p.1 }, wt := { sv.wt with now := p.2 } }, rfl, by
    have h : sv.link.since = 0 := rfl
    show sv.link.since + p.2 ≤ p.2
    omega⟩
theorem wit_link_waits : sv.wt.now < sv.link.since + 1600000 ∧ up.link.lstate = .active ∧ sv.domainOn 56 = true ∧ State.reset.domainOn 56 = false := by decide +kernel
theorem wit_lanes : laneSet (0xF &&& 0xF) = 0xF ∧ laneSet (3 &&& 0xF) = 3 ∧ laneSet (0xC &&& 0xF) ≠ 0xF ∧ laneSet 0 = 0 ∧ limitsOk 64 512 = true ∧ limitsOk 63 512 = false := by decide +kernel
theorem wit_train : ∃ s : State, s.link.lstate = .train ∧ s.link.epochHeld = none ∧ s.rings.waiting = []
    ∧ laneSet (0xF &&& BitVec.ofNat 4 (fld (s.reg Off.linkCfg) 19 16)) = 0xF ∧ bit (s.reg Off.linkCfg) 24 = true
    ∧ bit (({ s with regs := [(Off.linkCfg, 0x000F0001)] } : State).reg Off.linkCfg) 24 = false :=
  ⟨{ sv with link := { sv.link with lstate := .train }, regs := [(Off.linkCfg, 0x010F0001)] }, by decide +kernel⟩
theorem wit_cpl : ∃ (s : State) (m : MRead), mget none s.link.quarantine 4095 = none ∧ mget none s.link.reads 4095 = some m ∧ cplFits m 0 true 0 [1, 2, 3, 4] = true
    ∧ cplFits m 0 false 0 [1, 2, 3, 4] = false ∧ cplFits { addr := 60, len := 8 } 0 false 0 [1, 2, 3, 4] = true
    ∧ linkUp s = true ∧ mayApply s.link (.cpl 4095 0 true 0 [1, 2, 3, 4]) = true
    ∧ s.wt.now < m.at_ + 160000 * fld (s.reg Off.linkCfg) 9 0 := ⟨linked fun l => { l with reads := [(4095, some { len := 4 })] }, { len := 4 }, by decide +kernel⟩
theorem wit_cpl_stray : mget none up.link.reads 4095 = none ∧ mget none up.link.quarantine 4095 = none
    ∧ (mget none (linked fun l => { l with quarantine := [(4095, some 5)] }).link.quarantine 4095) = some 5 ∧ up.wt.now < 5 := by decide +kernel
theorem wit_cpl_late : ∃ (s : State) (m : MRead), mget none s.link.reads 4095 = some m ∧ m.at_ + 160000 * fld (s.reg Off.linkCfg) 9 0 ≤ s.wt.now :=
  ⟨{ linked fun l => { l with reads := [(4095, some { len := 4 })] } with wt := { sv.wt with now := 10 ^ 9 } }, { len := 4 }, by decide +kernel⟩
theorem wit_link_cfg : (1 ≤ fld (0x000F0001#32) 9 0 ∧ fld (0x000F03E8#32) 9 0 ≤ 1000 ∧ fld (0x000F0001#32) 19 16 ≠ 0)
    ∧ fld (0x000F0001#32) 19 16 = fld (sv.reg Off.linkCfg) 19 16 ∧ fld (0x00030001#32) 19 16 ≠ fld (sv.reg Off.linkCfg) 19 16
    ∧ ¬ (fld (0x000F03E9#32) 9 0 ≤ 1000) := by decide +kernel

theorem wit_window : linkUp up = true ∧ linkUp sv = false ∧ up.link.hostTags.contains 4095 = false ∧ requestOk 4096 0x3FFFFFC 4 = true
    ∧ windowOk 0x3FFFFFC 4 = true ∧ windowOk 0x4000000 4 = false ∧ windowOk 0 68 = false ∧ requestOk 512 0 64 = true ∧ requestOk 512 0 516 = false
    ∧ requestOk 512 2 4 = false := by decide +kernel

/-! ## Witnesses: rings -/

def rung (q : Sq) (c : Cq) : State := { up with rings := { up.rings with sqs := [(1023, q)], cqs := [(1023, c)] } }
theorem wit_doorbells : bit ((rung { cfg := 0x80000004 } {}).sq 1023).cfg 31 = true ∧ bit (up.sq 1023).cfg 31 = false ∧ bit (up.cq 1023).cfg 31 = false
    ∧ ringDist 16 0 3 < ringDist 16 0 5 ∧ ringDist 16 0 5 ≤ ringDist 16 0 5 ∧ bit ((rung {} { cfg := 0x80000004 }).cq 1023).cfg 31 = true
    ∧ headRegress ((rung {} { cfg := 0x80000004, tail := 5 }).cq 1023) 6 = true ∧ headRegress ((rung {} { cfg := 0x80000004, tail := 5 }).cq 1023) 5 = false := by decide +kernel
theorem wit_ring_cfg : bit (0x80000004#32) 31 = true ∧ log2Ok (0x80000006#32 &&& sqCfgMask) = true ∧ log2Ok (0x80000010#32 &&& sqCfgMask) = true
    ∧ log2Ok (0x80000011#32 &&& sqCfgMask) = false ∧ log2Ok (0x80000005#32 &&& sqCfgMask) = false ∧ log2Ok (0x80000006#32 &&& cqCfgMask) = true ∧ log2Ok (0x80000010#32 &&& cqCfgMask) = true
    ∧ log2Ok (0x80000011#32 &&& cqCfgMask) = false
    ∧ bit (({ up with rings := { up.rings with cqs := [(0, { cfg := 0x80000006 })] } } : State).cq (fld (0x80000006#32 &&& sqCfgMask) 21 12)).cfg 31 = true := by decide +kernel
theorem wit_nop : hdrOk (mk 1 7 []) 0x01 [] = true := by decide +kernel
def fetching : State := rung { cfg := 0x80000004, tail := 9 } {}
theorem wit_fetch : fetching.serving = true ∧ linkUp fetching = true ∧ (turn fetching).isSome = true ∧ placesLeft fetching ≠ 0 ∧ (readsOut fetching).length < 32
    ∧ freeTag fetching = some 0 ∧ turn up = none := by decide +kernel
theorem wit_fetch_count : turnCount { cfg := 0x80000004, tail := 9 } 16384 = 8 ∧ turnCount { cfg := 0x80000004, tail := 9 } 3 = 3 ∧ (0 : Nat) < ringSize 0x80000004#32 := by
  decide +kernel
theorem wit_held_submit : ((rung { held := some (auD 1) } {}).sq 1023).held = some (auD 1) ∧ submitFits (rung { held := some (auD 1) } {}) (auD 1) = true
    ∧ submitFits ({ up with rings := { up.rings with inflight := List.replicate 256 { submit := some 255 } } }) (auD 1) = false := by decide +kernel
theorem wit_fenced : ∃ s : State, (s.sq 1023).fenced = some (mk 1 7 [(1, 1)]) ∧ s.serving = true ∧ fenceBlocked s 1023 (mk 1 7 [(1, 1)]) = false
    ∧ fencedRef s 1023 (mk 1 7 [(1, 1)]) = some { sq := 1023, cid := 7 } :=
  ⟨{ rung { fenced := some (mk 1 7 [(1, 1)]) } {} with rings := { (rung { fenced := some (mk 1 7 [(1, 1)]) } {}).rings with inflight := [{ sq := 1023, cid := 7 }] } }, by decide +kernel⟩
theorem wit_fence_blocked : fenceBlocked { up with rings := { up.rings with inflight := [{ sq := 1023, cid := 6 }, { sq := 1023, cid := 7 }] } } 1023 (mk 1 7 [(1, 1)]) = true := by
  decide +kernel
theorem wit_no_wait : ∀ c ∈ up.rings.waiting, c.cq ≠ 1023 := by decide

/-! ## Witnesses: device memory, the arbiter and the DMA engine -/

def chan (c : Channel) : State := { sv with mem := { sv.mem with channels := [(31, c)] } }
theorem wit_map_top : deviceTop - 1 < deviceTop ∧ 0 < deviceTop ∧ memChannel 0xDFFFFFFC0 = memChannel 0xDFFFFFFFF
    ∧ memOffset 0xDFFFFFFC0 ≠ memOffset 0xDFFFFFFFF := by decide +kernel
theorem wit_burst_write : (zeros 64).length = 64 ∧ (0xDFFFFFFC0 ≤ 0xDFFFFFFFF ∧ 0xDFFFFFFFF < 0xDFFFFFFC0 + (zeros 64).length) := by decide +kernel
/-- Four marked pins take all the code's strength but one error of two: with two pins and one error more it is exceeded. -/
theorem wit_ecc : fetchesCheck ((chan { pins := 0x3 }).channel 31) 0 false = true ∧ ([70] : List (Fin 72)) ≠ []
    ∧ correctable ((chan { pins := 0x3 }).channel 31) [70] = false ∧ correctable ((chan { pins := 0x3 }).channel 31) [0] = true
    ∧ correctable ((chan {}).channel 31) [60, 61, 70, 71] = true ∧ correctable ((chan {}).channel 31) [60, 61, 69, 70, 71] = false := by decide +kernel
def trained (n : Nat) : State := { State.reset with pwr := { State.reset.pwr with phase := .training }, mem := { State.reset.mem with attempts := n } }
/-- A sweep in which n neighbouring taps pass. -/
def sweep (n : Nat) : Sweep := ⟨BitVec.ofNat 128 ((2 ^ n - 1) * 2 ^ 40), BitVec.ofNat 128 ((2 ^ n - 1) * 2 ^ 50)⟩
theorem wit_training : (trained 2).pwr.phase = .training ∧ (trained 2).mem.trained = false ∧ allTrained (trainAll (List.replicate 32 (sweep 24, sweep 24)) 0 (trained 2)) = true
    ∧ allTrained (trainAll ((sweep 24, sweep 23) :: List.replicate 31 (sweep 24, sweep 24)) 0 (trained 2)) = false ∧ lanePass (sweep 24) = true ∧ eyeWidth (sweep 23) = 23 ∧ (trained 2).mem.attempts < 3 ∧ 3 ≤ (trained 3).mem.attempts := by decide +kernel
def patrolling (p : Nat) (run : Bool) : State :=
  { sv with regs := [(Off.memCfg, 0x101)], wt := { sv.wt with now := 576000000000 }, mem := { sv.mem with patrolRun := run, patrolPos := p } }
theorem wit_patrol : (patrolling (patrolWords - 2) true).serving = true ∧ bit ((patrolling 0 true).reg Off.memCfg) 0 = true
    ∧ (patrolling (patrolWords - 2) true).mem.patrolPos + 1 < patrolWords
    ∧ (patrolling 0 false).mem.patrolStart + patrolTicks (patrolling 0 false) ≤ (patrolling 0 false).wt.now
    ∧ (patrolling 0 false).mem.patrolRun = false
    ∧ bit (({ sv with regs := [(Off.memCfg, 0x100)] } : State).reg Off.memCfg) 0 = false ∧ State.reset.serving = false := by decide +kernel

def req (p r n : Nat) : MemReq := ⟨Fin.ofNat 48 p, Fin.ofNat 4 r, n⟩
theorem wit_arbiter : ((chan { holder := some (req 0 3 1) }).modChannel 31 (arrive 0 [])).channel 31 = { holder := some (req 0 3 1) }
    ∧ (((chan {}).modChannel 31 (arrive 0 [req 47 3 9])).channel 31).holder = none
    ∧ (((chan {}).modChannel 31 (arrive 0 [req 47 3 9])).channel 31).queue ≠ [] := by decide +kernel
theorem wit_break : ∀ l ∈ [1, 2], ∃ h, (((chan { holder := some (req 45 0 2), left := l }).modChannel 31 (arrive 0 [])).channel 31).holder = some h
    ∧ ((((chan { holder := some (req 45 0 2), left := l }).modChannel 31 (arrive 0 [])).channel 31).left ≤ 1 ∨ l = 2) := by decide +kernel
def held45 : State := chan { holder := some (req 45 0 2), left := 2 }
theorem wit_preempt : ∃ q ∈ ((held45.modChannel 31 (arrive 0 [req 0 1 1])).channel 31).queue, rankOf held45 q < rankOf held45 (req 45 0 2) := ⟨req 0 1 1, by decide +kernel⟩
theorem wit_no_preempt : ∀ q ∈ ((held45.modChannel 31 (arrive 0 [req 47 2 1])).channel 31).queue, rankOf held45 (req 45 0 2) ≤ rankOf held45 q := by decide +kernel
theorem wit_port_rank : ∀ p ∈ [45, 46, 44, 47], ∃ s : State, (s.sel .host Off.memPortSel).toNat = p :=
  fun p h => ⟨sv.setSel .host Off.memPortSel (BitVec.ofNat 32 p), by revert p; decide +kernel⟩
theorem wit_port_rank_values : fld (0#32) 1 0 = 0 ∧ fld (3#32) 1 0 ≠ 0 ∧ fld (1#32) 1 0 ≠ 0 := by decide

def copyD (fl src dst n : Nat) : Desc := mk 0x38 7 [(9, fl), (16, src), (24, dst), (32, n)]
theorem wit_dma_copy : Starts sv 0 (copyD 1 0x1000 0 4) (tag sv (copyD 1 0x1000 0 4)) (go sv (copyD 1 0x1000 0 4)) ∧ dmaFields (copyD 1 0x1000 0 4) = true
    ∧ dmaFields (copyD 1 0x1000 0 (2 ^ 30)) = true ∧ dmaFields (copyD 1 0x1000 0 (2 ^ 30 + 1)) = false ∧ dmaFields (copyD 1 0x1000 0 3) = false
    ∧ dmaSrcSgl (copyD 1 0x1000 0 4) = false ∧ dmaDstSgl (copyD 1 0x1000 0 4) = false ∧ dmaSrcHost (copyD 1 0x1000 0 4) = true
    ∧ dmaDstHost (copyD 1 0x1000 0 4) = false ∧ devDstOk (go sv (copyD 1 0x1000 0 4)) [(scratchBytes - 4, 4)] = true
    ∧ devDstOk (go sv (copyD 1 0x1000 0 4)) [(scratchBytes - 3, 4)] = false :=
  ⟨starts_go _ _ rfl rfl (by decide +kernel) (by decide +kernel), by decide +kernel⟩
theorem wit_dma_copy_out : dmaFields (copyD 2 0xDFFFFFFFC 0x1000 4) = true ∧ dmaSrcHost (copyD 2 0 0 4) = false ∧ dmaDstHost (copyD 2 0 0 4) = true
    ∧ devSrcOk [(0xDFFFFFFFC, 4)] = true ∧ devSrcOk [(0xDFFFFFFFD, 4)] = false ∧ hostDstOk [(0x1000, 4)] = true ∧ hostDstOk [(0x1002, 4)] = false := by
  decide +kernel
/-- A channel whose piece has come from the host. -/
def done : Chan := { piece := ⟨0, 0, 64⟩, data := [(0, zeros 64)] }
def piecing (x : Xfer) : State :=
  { sv with dma := { sv.dma with channels := [(16, some done)], xfers := [(0, some x)] } }
def lastIn : Xfer := { srcHost := true, dst := [(0, 64)], pieces := 1 }
theorem wit_piece : mget none (piecing lastIn).dma.channels 16 = some done ∧ mget none (piecing lastIn).dma.xfers done.piece.xfer = some lastIn
    ∧ done.todo = [] ∧ done.inflight = 0 ∧ pieceData (piecing lastIn) lastIn done = .ok (zeros 64)
    ∧ (zeros 64).length = done.piece.len ∧ lastIn.pieces = 1 ∧ lastIn.flush = [] ∧ lastIn.flushing = 0 ∧ lastIn.dstHost = false
    ∧ cutRanges lastIn.dst done.piece.off done.piece.len = [(0, done.piece.len)] ∧ memBad (piecing lastIn) 0 done.piece.len = false
    ∧ mget none sv.dma.channels 16 = none := by decide +kernel
theorem wit_piece_poisoned : ∃ (s : State) (x : Xfer) (c : Chan), x.srcHost = false ∧ pieceData s x c = .poisoned :=
  ⟨{ sv with mem := { sv.mem with bad := [0] } }, { src := [(0, 4)] }, { piece := ⟨0, 0, 4⟩ }, by decide +kernel⟩

/-! ## Witnesses: interrupts and faults -/

theorem wit_claim : ∃ s : State, claimWinner s 4 = 1087 ∧ claimableBy s 4 1087 = true ∧ (∀ m, claimableBy sv 4 m = true → m = 0) :=
  ⟨{ sv with regs := [(Off.srcCfg 1087, 0x4F)], intc := { sv.intc with pend := BitVec.ofNat 2048 (2 ^ 1087), mask := 0 } }, by decide +kernel, by decide +kernel,
    fun m h => by
      have h0 : srcBit sv.ripe m = false := by
        have : sv.ripe = 0 := by decide +kernel
        rw [this]; simp [srcBit]
      simp [claimableBy, h0] at h⟩
theorem wit_port_sel_shared : sv.seln (.cc 0) Off.memPortSel = sv.seln .host Off.memPortSel := by decide +kernel
def served (n t : Nat) : State := { sv with intc := { sv.intc with svc := BitVec.ofNat 2048 (2 ^ n), claimer := [(n, some t)] } }
theorem wit_complete : srcBit (served 1087 4).intc.svc (fld (0x43F#32) 10 0) = true ∧ mget none (served 1087 4).intc.claimer (fld (0x43F#32) 10 0) = some 4
    ∧ mget none (served 1087 3).intc.claimer 1087 ≠ some 4 ∧ srcBit sv.intc.svc 1087 = false ∧ srcEdge 1087 = false ∧ srcEdge 3 = true
    ∧ srcBit (served 3 4).intc.svc (fld (3#32) 10 0) = true := by decide +kernel
theorem wit_complete_level : levelCause { served 6 0 with regs := [(Off.wtStatus, 8)] } 6 = true ∧ levelCause (served 6 0) 6 = false := by decide +kernel
theorem wit_src_cfg : srcReal 1087 = true ∧ srcReal 1088 = false ∧ srcReal 0 = false ∧ fld (0x4F#32) 6 4 < 5 ∧ 5 ≤ fld (0x50#32) 6 4 := by decide +kernel
theorem wit_intpend : bit (0x80000000#32) 31 = true ∧ srcReal (32 * 33 + 31) = true ∧ bit (0#32) 31 = false ∧ 32 * 33 + 31 ≠ 1
    ∧ levelCause sv (32 * 33 + 31) = false := by decide +kernel

theorem wit_unit_fault : unitFault 0 = true ∧ unitFault 336 = true ∧ unitFault 511 = false ∧ sv.pwr.pllLocked = true ∧ sv.pwr.phase ≠ .stopped
    ∧ State.reset.pwr.pllLocked = false := by decide +kernel
theorem wit_raise : fltLevel 336 = some 2 ∧ (1 : Nat) ≤ 2 ∧ fltImmediate 336 = false ∧ (mget ({} : Dog) sv.flt.dogs (336 / 16)).deadline = none := by decide +kernel
def dogged (g dl : Nat) : State := { sv with flt := { sv.flt with dogs := [(g, { deadline := some dl })] }, wt := { sv.wt with now := 100 } }
theorem wit_dog : (mget ({} : Dog) (dogged 31 100).flt.dogs 31).deadline = some 100 ∧ (100 : Nat) ≤ (dogged 31 100).wt.now ∧ (dogged 31 101).wt.now < 101
    ∧ (dogged 31 100).pwr.phase ≠ .stopped ∧ (mget ({} : Dog) sv.flt.dogs 31).deadline = none ∧ armedOf (dogged 31 100) (fld (0x1F#32) 4 0) = [] := by
  decide +kernel
def domained (d : Nat) (x : Domain) : State := { sv with pwr := { sv.pwr with domains := mset {} sv.pwr.domains d x } }
theorem wit_restarting : ((domained 63 { restarting := true }).domain 63).restarting = true ∧ (domained 63 { restarting := true }).pwr.phase ≠ .stopped
    ∧ (63 : Nat) ≠ 61 ∧ (sv.domain 63).restarting = false := by decide +kernel
theorem wit_inject : ({ sv with flt := { sv.flt with factory := true } } : State).flt.factory = true ∧ sv.flt.factory = false ∧ bit (0x80000001#32) 31 = true
    ∧ fld (0x80000001#32) 8 0 = 1 ∧ bit (0x00000001#32) 31 = false := by decide +kernel

/-! ## Witnesses: power, temperature, non-volatile memory, the sensors and the registers -/

def mains (p : Phase) (m : Option Nat) (now : Nat) : State := { sv with pwr := { sv.pwr with phase := p, mainsLost := m }, wt := { sv.wt with now := now } }
theorem wit_power : (mains .off none 0).pwr.phase = .off ∧ (mains .off none 0).pwr.mainsLost = none ∧ sv.pwr.phase ≠ .off
    ∧ (mains .running (some 0) 3200000).pwr.mainsLost = some 0 ∧ (mains .running (some 0) 3200000).pwr.phase ≠ .off
    ∧ 0 + 3200000 ≤ (mains .running (some 0) 3200000).wt.now ∧ (mains .running (some 0) 3199999).wt.now < 0 + 3200000 := by decide +kernel
theorem wit_l4 : l4Due { sv with flt := { sv.flt with dogs := [(18, { armed := 8, deadline := some 0 })] } } 291 = true
    ∧ l4Due { sv with flt := { sv.flt with dogs := [(18, { armed := 8, deadline := some 1 })] } } 291 = false := by decide +kernel
theorem wit_activate : activateDue { sv with nvm := { sv.nvm with activated := some {} } } = true ∧ activateDue sv = false := by decide +kernel
def clock (on : Bool) (since now : Nat) : State := { sv with pwr := { sv.pwr with clkin := on, clkinSince := since }, wt := { sv.wt with now := now } }
theorem wit_clkin : (clock false 0 1600).pwr.clkin = false ∧ (clock false 0 1600).pwr.phase = .running
    ∧ (clock false 0 1600).pwr.clkinSince + 1600 ≤ (clock false 0 1600).wt.now ∧ sv.pwr.clkin = true ∧ sv.pwr.phase ≠ .off
    ∧ ({ sv with pwr := { sv.pwr with resetLow := some 0 } } : State).pwr.resetLow ≠ none := by decide +kernel
def booting (now : Nat) (counted : Bool) (n : Nvm) : State :=
  { State.reset with wt := { State.reset.wt with now := now }, pwr := { State.reset.pwr with clkCounted := counted }, nvm := n }
theorem wit_count : starting (booting 6710887 false {}) = true ∧ (booting 6710887 false {}).pwr.clkCounted = false
    ∧ (booting 6710887 false {}).pwr.clkinSince + 6710887 ≤ (booting 6710887 false {}).wt.now
    ∧ (booting 6710886 false {}).wt.now < (booting 6710886 false {}).pwr.clkinSince + 6710887 ∧ starting sv = false := by decide +kernel
theorem wit_lock : starting (booting 6710887 true {}) = true ∧ (booting 6710887 true {}).pwr.clkCounted = true
    ∧ forceB { bankB := { empty := false, valid := true, seq := 1 } } = true
    ∧ forceB { bankA := { empty := false, valid := true, seq := 1 } } = false := by decide +kernel
def tested : State := { trained 0 with mem := { State.reset.mem with trained := true } }
theorem wit_startup : tested.pwr.phase = .training ∧ tested.mem.trained = true ∧ (∀ f ∈ [SelfTest.decode 15, .slice 3], fatalTest f = none)
    ∧ fatalTest (.cage 7) = some 0x47 ∧ sv.pwr.phase ≠ .training ∧ (trained 0).mem.trained = false := by decide +kernel

def asleep (x : Domain) : State := domained 0 x
theorem wit_gap : sv.serving = true ∧ (sv.domain 0).state = .on ∧ (sv.domain 0).waking = none ∧ (sv.domain 0).restarting = false
    ∧ domainBusy sv 0 = false ∧ chosenState sv 0 ≠ .on ∧ chosenState sv 63 = .on
    ∧ domainBusy { sv with decs := [(0, { act := 1 })] } 0 = true := by decide +kernel
theorem wit_wake : (asleep { state := .off }).serving = true ∧ wakeDue ((asleep { state := .off }).setReg Off.pdForceLo 1) 0 = true
    ∧ ((asleep { state := .off }).domain 0).state ≠ .on ∧ ((asleep { state := .off }).domain 0).entering = none
    ∧ ((asleep { state := .off, entering := some (.off, 1) }).domain 0).entering ≠ none
    ∧ domainForced (sv.setReg Off.pdForceLo 1) 0 = true ∧ domainForced sv 0 = false := by decide +kernel
theorem wit_entry_done : ((asleep { state := .off, entering := some (.off, 0), wakeReq := true }).domain 0).entering = some (.off, 0)
    ∧ 0 ≤ (asleep {}).wt.now ∧ ((asleep { state := .off, entering := some (.off, 0), wakeReq := true }).domain 0).wakeReq = true
    ∧ ((asleep { waking := some 0 }).domain 0).waking = some 0 ∧ (asleep { waking := some 1 }).wt.now < 1 := by decide +kernel

def heat (v : Nat) : List (BitVec 16) := List.replicate 23 0 ++ [BitVec.ofNat 16 v]
theorem wit_heat : (heat 1920).length = 24 ∧ tempOf (hottest (heat 1920)).2 = 120 * 16 ∧ tempOf (hottest (heat 1919)).2 = 120 * 16 - 1
    ∧ (heat 0).tail.length ≠ 24 ∧ sv.pwr.tempStop = false ∧ sv.pwr.phase ≠ .stopped ∧ sv.pwr.pllLocked = true := by decide +kernel
def stopping (k now : Nat) : State := { sv with pwr := { sv.pwr with stopAt := some k }, wt := { sv.wt with now := now } }
theorem wit_stop : (stopping 1600 1600).pwr.stopAt = some 1600 ∧ 1600 ≤ (stopping 1600 1600).wt.now ∧ (stopping 1600 1599).wt.now < 1600
    ∧ sv.pwr.stopAt = none := by decide +kernel
theorem wit_peak : sv.pwr.peakLeft ≤ 120000000 ∧ tempOf 880 ≤ 55 * 16 ∧ ¬ tempOf 881 ≤ 55 * 16 := by decide +kernel

def storeD (op : Nat) (l : List (Nat × Nat)) : Desc := mk op 7 l
def nv (n : Nvm) : State := { up with nvm := n }
theorem wit_store : ∀ n ∈ [({} : Nvm), { writing := some (.store {} {}) }, { writing := some (.stage {} none) }],
    Starts (nv n) 0 (storeD 0x58 []) (tag (nv n) (storeD 0x58 [])) (go (nv n) (storeD 0x58 [])) ∧ hdrOk (storeD 0x58 []) 0x58 [] = true :=
  fun n _ => ⟨starts_go _ _ rfl rfl (by
    show submitFits _ _ = true
    have h : submitStream (storeD 0x58 []) = none := by decide +kernel
    simp [submitFits, h]) (by decide +kernel), by decide +kernel⟩
theorem wit_store_kinds : storing (nv { writing := some (.store {} {}) }) = true ∧ storing (nv {}) = false
    ∧ storeToB { bankA := { empty := false, valid := true, seq := 1 } } = true ∧ storeToB {} = false := by decide +kernel
theorem wit_store_done : ∃ ref x, (nv { writing := some (.store {} {}) }).nvm.writing = some (.store ref x) ∧ (nv { writing := some (.store {} {}) }).nvm.waiting = []
    ∧ (nv { writing := some (.store {} {}) }).serving = true := ⟨{}, {}, rfl, rfl, rfl⟩
def imageOf (bad : Bool) : List Byte :=
  [0x57, 0x46, if bad then 2 else 1, 0] ++ leBytes 4 65 ++ leBytes 4 (crc32 [7]).toNat ++ leBytes 4 9 ++ zeros 48 ++ [7]
theorem wit_image : hdrOk (storeD 0x59 [(16, 0x1000), (24, 65)]) 0x59 [(9, 1), (16, 12)] = true ∧ descFld (storeD 0x59 [(16, 0x1000), (24, 65)]) 9 1 = 0
    ∧ (imageOf false).length = descFld (storeD 0x59 [(16, 0x1000), (24, 65)]) 24 4 ∧ imageRelease (imageOf false) = some 9
    ∧ imageRelease (imageOf true) = none ∧ (imageOf false).tail.length ≠ descFld (storeD 0x59 [(16, 0x1000), (24, 65)]) 24 4
    ∧ linkUp (go (nv {}) (storeD 0x59 [(16, 0x1000), (24, 65)])) = true := by decide +kernel
theorem wit_stage : sv.nvm.writing = none ∧ sv.nvm.staged = false ∧ (nv { staged := true }).nvm.staged = true ∧ hdrOk (storeD 0x5A []) 0x5A [] = true
    ∧ (nv { writing := some (.stage {} (some 9)) }).nvm.writing = some (.stage {} (some 9)) := by decide +kernel
def trimmed (i : Nat) : State := nv { trims := [(i, { staged := some 5 })] }
theorem wit_trim : (trimOf (trimmed 4095) 4095).staged = some 5 ∧ (trimOf sv 4095).staged = none ∧ startTrim 4095 = false ∧ startTrim 23 = true
    ∧ startTrim 24 = false ∧ (trimOf (trimmed 23) 23).staged = some 5 ∧ (trimmed 23).pwr.phase ≠ .training ∧ (trained 0).pwr.phase = .training := by decide +kernel

theorem wit_cages : (if (10 : Nat) = 10 then 12000 else 3500) < 12001 ∧ ¬ ((if (9 : Nat) = 10 then 12000 else 3500) < 3500) ∧ (31 / 4 = 7 ∧ 7 < 8)
    ∧ 31 / 4 ≠ 0 ∧ sv.pwr.mainsLost = none ∧ (mains .running (some 0) 0).pwr.mainsLost ≠ none := by decide +kernel

def snapD (b held n : Nat) : Desc := mk 0x60 7 [(8, b), (9, held), (12, n), (16, 0x1000)]
theorem wit_snapshot : Starts sv 0 (snapD 3 0 1024) (tag sv (snapD 3 0 1024)) (go sv (snapD 3 0 1024)) ∧ snapFields (snapD 3 0 1024) = true
    ∧ snapFields (snapD 3 0 1025) = false ∧ snapFields (snapD 4 0 1) = false ∧ descFld (snapD 3 1 1) 9 1 = 1 ∧ descFld (snapD 3 0 1) 9 1 = 0
    ∧ snapFields (snapD 3 1 1) = true := ⟨starts_go _ _ rfl rfl (by decide +kernel) (by decide +kernel), by decide +kernel⟩
def traceD (on iv n : Nat) : Desc := mk 0x61 7 [(8, on), (12, iv), (16, 0x1000), (24, n)]
theorem wit_trace : Starts sv 0 (traceD 1 65536 65536) (tag sv (traceD 1 65536 65536)) (go sv (traceD 1 65536 65536)) ∧ traceFields (traceD 1 65536 65536) = true
    ∧ traceFields (traceD 1 65537 65536) = false ∧ traceFields (traceD 1 1 65472) = false ∧ traceFields (traceD 0 0 0) = true
    ∧ descFld (traceD 1 1 65536) 8 1 = 1 ∧ descFld (traceD 0 0 0) 8 1 = 0 ∧ (go sv (traceD 1 65536 65536)).tly.traceEn = false
    ∧ ({ sv with tly := { sv.tly with traceEn := true } } : State).tly.traceEn = true :=
  ⟨starts_go _ _ rfl rfl (by decide +kernel) (by decide +kernel), by decide +kernel⟩

theorem wit_registers : regAt 0x3FFFFFC = none ∧ reachable State.reset .host 0x60008 = false ∧ reachable sv .host Off.linkIntEn = true
    ∧ (regAt Off.linkIntEn).isSome = true ∧ (regAt Off.linkStatus).map (fun r => r.ty == .w1c) = some true
    ∧ (regAt 0x260028).map (fun r => r.ty == .rc) = some true ∧ (regAt 0).map (fun r => r.ty == .ro) = some true
    ∧ reachable sv .host Off.linkStatus = true ∧ reachable sv .host 0 = true := by decide +kernel

/-! ## Witnesses: the conditions of the completion statements -/

/-- Training: sixteen management flits of an adapter with four good lanes, or with two. -/
def training (good : BitVec 4) (run now : Nat) : State :=
  { up with link := { up.link with lstate := .train, lanesMod := 0xF, peer := some { state := 2, good := good, set := good, limMrd := 64, limMwr := 512 }, peerRun := run }
            wt := { sv.wt with now := now } }
theorem wit_train_complete : ∀ p ∈ [((0xF : BitVec 4), (0xF : BitVec 4)), (3, 3)],
    (training p.1 16 16000000).link.lstate = .train ∧ selectedSet (training p.1 16 16000000).link = some p.2 ∧ 16 ≤ (training p.1 16 0).link.peerRun
      ∧ (training p.1 16 16000000).wt.now ≤ (training p.1 16 0).link.since + 16000000
      ∧ (training p.1 16 16000001).link.since + 16000000 < (training p.1 16 16000001).wt.now ∧ (training p.1 15 0).link.peerRun < 16
      ∧ (training p.1 16 0).link.epochHeld = none ∧ (training p.1 16 0).rings.waiting = [] := by decide +kernel
def recovering_ (now : Nat) : State := { up with link := { up.link with lstate := .recovery, lanesUsed := 0xF, replay := [(0, [])] }, wt := { sv.wt with now := now } }
theorem wit_recovery_complete : (recovering_ 0).link.lstate = .recovery ∧ laneSet (3 &&& (recovering_ 0).link.lanesUsed) ≠ 0
    ∧ laneSet (0 &&& (recovering_ 0).link.lanesUsed) = 0 ∧ (recovering_ 1600000).wt.now ≤ (recovering_ 0).link.since + 1600000
    ∧ (recovering_ 0).link.since + 1600000 < (recovering_ 1600001).wt.now ∧ (recovering_ 0).link.replay ≠ [] := by decide +kernel
theorem wit_signal_lanes : (0xF : BitVec 4) &&& laneEn sv ≠ 0 ∧ (0 : BitVec 4) &&& laneEn sv = 0 := by decide +kernel
set_option maxRecDepth 1000000 in
theorem wit_train_flits : flitGood (flitBytes 2 0 0 false 0 0 []) = true ∧ fld (BitVec.ofNat 32 (leAt (flitBytes 2 0 0 false 0 0 []) 0 4)) 31 30 = 2
    ∧ fld (BitVec.ofNat 32 (leAt (flitBytes 1 0 0 false 0 0 []) 0 4)) 31 30 = 1 := by decide +kernel
/-- A request and a completion behind an earlier write in the receive queue wait. -/
theorem wit_behind_a_write : let l := (linked fun l => { l with rxq := [.mwr 0 [1, 2, 3, 4], .mrd 4095 0 4, .cpl 4095 0 true 0 [1, 2, 3, 4]] }).link
    mayApply l (.mrd 4095 0 4) = false ∧ mayApply l (.mwr 0 [1, 2, 3, 4]) = true ∧ mayApply up.link (.mrd 4095 0 4) = true
      ∧ mayApply l (.cpl 4095 0 true 0 [1, 2, 3, 4]) = false := by decide +kernel
theorem wit_cpl_more : cplFits { addr := 0, len := 128 } 0 false 0 (zeros 64) = true ∧ cplFits { addr := 0, len := 128, next := 64 } 0 true 64 (zeros 64) = true := by
  decide +kernel
theorem wit_quarantine_end : ∃ s : State, mget none s.link.quarantine 4095 = some 5 ∧ 5 ≤ s.wt.now :=
  ⟨{ linked fun l => { l with quarantine := [(4095, some 5)] } with wt := { sv.wt with now := 5 } }, by decide +kernel⟩

theorem wit_refresh : ∃ s : State, refreshDue s 31 = true ∧ refreshDue State.reset 31 = false ∧ s.mem.trained = true ∧ (s.channel 31).mr4At + 2560000 ≤ s.wt.now :=
  ⟨{ chan { trained := true } with wt := { sv.wt with now := 2560000 }, mem := { (chan { trained := true }).mem with trained := true } }, by decide +kernel⟩
theorem wit_mr4_early : sv.wt.now < (sv.channel 31).mr4At + 2560000 ∧ State.reset.mem.trained = false := by decide +kernel
theorem wit_burst_channel : memChannel 0 = memChannel 63 ∧ memChannel 0 < 32 ∧ memBad sv 0 64 = false ∧ 0 % 64 = 0
    ∧ memBad { sv with mem := { sv.mem with bad := [0] } } 0 64 = true := by decide +kernel
theorem wit_peak_time : sv.pwr.peakAt ≤ sv.wt.now ∧ ({ sv with pwr := { sv.pwr with peakAt := 1 } } : State).wt.now < 1 ∧ sv.serving = true := by decide +kernel
theorem wit_wakes : ((domained 62 { waking := some 0 }).domain 62).waking = some 0 ∧ 0 ≤ (domained 62 {}).wt.now := by decide +kernel
theorem wit_alloc_grant : ∃ (s : State) (m : HeldMsg), s.eg.waiting.find? (fun m => canAlloc s.buf (poolFor (msgLen m)) m.owner) = some m :=
  ⟨{ sv with eg := { sv.eg with waiting := [{}] } }, {}, by decide +kernel⟩
theorem wit_sweep_time : sv.tbl.visitAt ≤ 16 * sv.wt.now ∧ ¬ (({ sv with tbl := { sv.tbl with visitAt := 1 } } : State).tbl.visitAt ≤ 16 * sv.wt.now) := by
  decide +kernel
theorem wit_spread : ({ sv with tbl := { sv.tbl with spread := [32767] } } : State).tbl.spread = 32767 :: [] := rfl
theorem wit_audit_held : ({ sv with pwr := { sv.pwr with throttled := true } } : State).pwr.throttled = true ∧ sv.pwr.throttled = false
    ∧ (domained 61 { state := .off }).domainOn 61 = false ∧ sv.domainOn 61 = true := by decide +kernel
theorem wit_link_lost_ring : ((porting {}).port 31).linkUp = true ∧ ((porting { portQ := [{}] }).port 31).portQ ≠ [] := by decide +kernel
theorem wit_temps : (({ sv with corr := { sv.corr with eps := [(16383, { newest := some (400, 0) })] } } : State).corr.eps.map fun e => e.2.newest.isSome) = [true] := by
  decide +kernel
theorem wit_l3_tables : ∀ d ∈ [61, 62], ((domained d { restarting := true }).domain d).restarting = true ∧ (domained d { restarting := true }).pwr.phase ≠ .stopped := by
  decide +kernel
theorem wit_fault_320 : unitFault 320 = false ∧ (320 : Nat) < 512 := by decide +kernel
theorem wit_pixel_trim : pixelTrim 264 = true ∧ pixelTrim 519 = true ∧ pixelTrim 4095 = false ∧ startTrim 4095 = false ∧ someRunning sv = false
    ∧ someRunning (withContract sv 63 { state := .running }) = true := by decide +kernel

end Sys2Proof.Machine.Tests
end

/-! PROOFS. What starting a command and a check give, the rules of the launch slots, and the statements on `LAUNCH_AT` (R26) and on
`CONTRACT_COMMIT` outside the LOCKED time state (R37). -/

namespace Sys2Proof.Machine

/-! ## Starting and checking a command -/

/-- A command that starts runs its body on the state in which it is in flight. -/
theorem runCmd_of_starts {s t : State} {sq : Fin 1024} {d : Desc} {ref : CmdRef} (h : Starts s sq d ref t)
    (body : CmdRef → State → State) : runCmd sq d s body = .next (body ref t) := by
  obtain ⟨hserving, hgo⟩ := h
  simp only [runCmd, hserving, hgo, if_true]

@[simp] theorem check_true (status : Nat) (ref : CmdRef) (s : State) (k : State → State) : check true status ref s k = k s := rfl

@[simp] theorem check_false (status : Nat) (ref : CmdRef) (s : State) (k : State → State) :
    check false status ref s k = completeWith s ref status := rfl

/-! ## Launch slots -/

@[simp] theorem State.slot_modSlot_same (s : State) (k : Nat) (f : LSlot → LSlot) : (s.modSlot k f).slot k = f (s.slot k) :=
  (mget_mmod ({} : LSlot) s.wt.slots k f k).trans (if_pos rfl)

/-- The slots of `LAUNCH_AT` are tried in rising order (log entry 41). -/
theorem freeAbsSlot_eq_find_range' (s : State) : freeAbsSlot s = (List.range' 7936 256).find? fun k => !(s.slot k).armed := by
  simp only [freeAbsSlot, List.range'_eq_map_range, Nat.add_comm]

theorem freeAbsSlot_eq_some_iff (s : State) (k : Nat) :
    freeAbsSlot s = some k ↔ 7936 ≤ k ∧ k ≤ 8191 ∧ (s.slot k).armed = false ∧ ∀ j, 7936 ≤ j → j < k → (s.slot j).armed = true := by
  have hrange : k ∈ List.range' 7936 256 ↔ 7936 ≤ k ∧ k ≤ 8191 := by
    rw [List.mem_range'_1]; omega
  rw [freeAbsSlot_eq_find_range', List.find?_range'_eq_some, hrange]
  simp only [Bool.not_eq_true', Bool.not_not]
  tauto

theorem freeAbsSlot_eq_none_of_all_armed {s : State} (h : ∀ k, 7936 ≤ k → k ≤ 8191 → (s.slot k).armed = true) :
    freeAbsSlot s = none := by
  rw [freeAbsSlot_eq_find_range', List.find?_range'_eq_none]
  intro k hlo hhi
  rw [h k hlo (by omega)]
  rfl

/-- An absolute slot that was not armed late fires at its own tick (R23). -/
theorem fireTick_absolute {s : State} {l : LSlot} (hrel : l.rel = false) (hlate : l.late = none) : fireTick s l = l.time := by
  simp only [fireTick, hlate, hrel, Bool.false_eq_true, if_false]

theorem firedSlot_absolute {s : State} {l : LSlot} (hrel : l.rel = false) :
    firedSlot s l = { l with armed := false, fired := true, ref := none } := by
  simp only [firedSlot, hrel, Bool.false_eq_true, if_false]

/-- Firing a slot that a command armed in time completes that command with the fire tick (R26). -/
theorem fireSlot_of_ref {s : State} {k : Nat} {ref : CmdRef} (hlate : (s.slot k).late = none) (href : (s.slot k).ref = some ref) :
    fireSlot s k = complete (s.modSlot k (firedSlot s)) ref St.ok (fireTick s (s.slot k)).toNat 0 0 := by
  simp only [fireSlot, hlate, href, Option.isSome_none, Bool.false_eq_true, if_false]

/-! ## `LAUNCH_AT` (R26) -/

/-- What a `LAUNCH_AT` whose checks pass does: it takes the lowest free slot, or completes with `NO_RESOURCE`. -/
def armLowestFree (d : Desc) (ref : CmdRef) (s : State) : State :=
  match freeAbsSlot s with
  | some k => s.modSlot k fun _ => armAbs d ref
  | none => completeWith s ref St.noResource

theorem armLowestFree_of_some {d : Desc} {ref : CmdRef} {s : State} {k : Nat} (h : freeAbsSlot s = some k) :
    armLowestFree d ref s = s.modSlot k fun _ => armAbs d ref := by
  simp only [armLowestFree, h]

theorem armLowestFree_of_none {d : Desc} {ref : CmdRef} {s : State} (h : freeAbsSlot s = none) :
    armLowestFree d ref s = completeWith s ref St.noResource := by
  simp only [armLowestFree, h]

/-- A `LAUNCH_AT` with legal operands is decided by its fire tick and the free slots. -/
theorem exec_launchAt_of_operands {s t : State} {sq : Fin 1024} {d : Desc} {ref : CmdRef} (h : Starts s sq d ref t)
    (hhdr : hdrOk d 0x41 [(9, 3), (12, 4), (16, 8)] = true)
    (hops : launchAtOperands (descFld d 9 1) (descFld d 10 2) (descFld d 12 4) = true) :
    exec (.launchAt sq d) s = .next (check (decide (t.wallNow + 1600 ≤ descFld d 16 8)) St.invalidField ref t
      (armLowestFree d ref)) := by
  have hexec : exec (.launchAt sq d) s = execLaunchAt sq d s := rfl
  rw [hexec, execLaunchAt, runCmd_of_starts h, hhdr, hops]
  rfl

/-- Settles O11: the command's checks decide among arming, refusing and `NO_RESOURCE`; the search for a slot is in rising order;
the slot that fires completes the command that armed it. -/
theorem launchAtArmsASlot : Obligations.LaunchAtArmsASlot := by
  refine ⟨fun sq d s t ref hstart hhdr hops => ?_, freeAbsSlot_eq_some_iff, fun s k ref hrel hlate href => ?_⟩
  · rw [exec_launchAt_of_operands hstart hhdr hops]
    refine ⟨fun hintime k hfree => ?_, fun hintime harmed => ?_, fun hearly => ?_⟩
    · rw [decide_eq_true hintime, check_true, armLowestFree_of_some hfree]
      rfl
    · rw [decide_eq_true hintime, check_true, armLowestFree_of_none (freeAbsSlot_eq_none_of_all_armed harmed)]
    · rw [decide_eq_false (Nat.not_le.mpr hearly), check_false]
  · have hslot : (s.modSlot k (firedSlot s)).slot k = { s.slot k with armed := false, fired := true, ref := none } := by
      rw [State.slot_modSlot_same, firedSlot_absolute hrel]
    refine ⟨s.modSlot k (firedSlot s), ?_, ?_, ?_, rfl, rfl, rfl⟩
    · rw [fireSlot_of_ref hlate href, fireTick_absolute hrel hlate]
    · rw [hslot]
    · rw [hslot]

/-! ## `CONTRACT_COMMIT` and the time state (R37) -/

theorem commitStates_false_of_not_locked {s : State} (h : s.wt.tstate ≠ .locked) (n : Nat) : commitStates s n = false := by
  have htime : (s.wt.tstate == .locked) = false := beq_false_of_ne h
  simp only [commitStates, htime, Bool.and_false, Bool.false_and]

/-- Settles O16: the check of the states fails before the commit plans any ring. -/
theorem commitNeedsLockedTime : Obligations.CommitNeedsLockedTime := by
  intro sq d s t ref hstart hfields htime
  have hexec : exec (.contractCommit sq d) s = execContractCommit sq d s := rfl
  rw [hexec, execContractCommit, runCmd_of_starts hstart, hfields, check_true, commitStates_false_of_not_locked htime, check_false]

end Sys2Proof.Machine

/-! PROOFS. The colour transform of Sward (R158): each halving is an arithmetic shift, a lifting step is undone by subtracting what it
added, and `b + (a - b) / 2` lies between `a` and `b`. -/

namespace Sys2Proof.Machine

/-! ## Shifts and midpoints -/

/-- An arithmetic shift by one place halves towards minus infinity. Mathlib shifts an `Int` by an `Int` and core by a `Nat`; the count
of the statement of R158 is of the one type or of the other by what its file imports, so the lemma gives both. -/
theorem shiftRight_one_eq_ediv_two (a : Int) : a >>> (1 : Int) = a / 2 ∧ a >>> (1 : Nat) = a / 2 := by
  have hnat : a >>> (1 : Nat) = a / 2 := Int.shiftRight_eq_div_pow a 1
  exact ⟨(Int.shiftRight_natCast_right a 1).trans hnat, hnat⟩

/-- The halfway point of two samples, rounded down, stays in every interval that holds both. -/
theorem midpoint_mem_Icc {lo hi a b : Int} (ha : a ∈ Set.Icc lo hi) (hb : b ∈ Set.Icc lo hi) :
    b + (a - b) / 2 ∈ Set.Icc lo hi := by
  obtain ⟨hloa, hhia⟩ := ha
  obtain ⟨hlob, hhib⟩ := hb
  constructor <;> omega

/-- Two samples of `0..m` differ by at most `m` either way. -/
theorem sub_mem_Icc_neg {m a b : Int} (ha : a ∈ Set.Icc 0 m) (hb : b ∈ Set.Icc 0 m) : a - b ∈ Set.Icc (-m) m := by
  obtain ⟨hloa, hhia⟩ := ha
  obtain ⟨hlob, hhib⟩ := hb
  constructor <;> omega

/-! ## The transform and its inverse (R158) -/

theorem ycocg_apply (r g b : Int) :
    ycocg (r, g, b) = (b + (r - b) / 2 + (g - (b + (r - b) / 2)) / 2, r - b, g - (b + (r - b) / 2)) := rfl

theorem unYcocg_apply (y co cg : Int) :
    unYcocg (y, co, cg) = (y - cg / 2 - co / 2 + co, cg + (y - cg / 2), y - cg / 2 - co / 2) := rfl

/-- The inverse takes off `cg / 2`, then `co / 2`, in the reverse of the order in which the transform added them. -/
theorem unYcocg_ycocg (p : Px) : unYcocg (ycocg p) = p := by
  obtain ⟨r, g, b⟩ := p
  rw [ycocg_apply, unYcocg_apply]
  simp only [add_sub_cancel_right, sub_add_cancel, add_sub_cancel]

theorem ycocg_unYcocg (p : Px) : ycocg (unYcocg p) = p := by
  obtain ⟨y, co, cg⟩ := p
  rw [unYcocg_apply, ycocg_apply]
  simp only [add_sub_cancel_left, add_sub_cancel_right, sub_add_cancel]

/-- The ranges of Table 7-2: Y is a midpoint of midpoints, Co and Cg are differences, of samples of `0..m`. -/
theorem ycocg_mem_ranges {m r g b : Int} (hr : r ∈ Set.Icc 0 m) (hg : g ∈ Set.Icc 0 m) (hb : b ∈ Set.Icc 0 m) :
    (ycocg (r, g, b)).1 ∈ Set.Icc 0 m ∧ (ycocg (r, g, b)).2.1 ∈ Set.Icc (-m) m ∧ (ycocg (r, g, b)).2.2 ∈ Set.Icc (-m) m := by
  have ht : b + (r - b) / 2 ∈ Set.Icc 0 m := midpoint_mem_Icc hr hb
  rw [ycocg_apply]
  exact ⟨midpoint_mem_Icc hg ht, sub_mem_Icc_neg hr hb, sub_mem_Icc_neg hg ht⟩

/-- Settles O27: the transform's halvings are shifts, its two lifting steps are undone in reverse order, and it forms its outputs from
midpoints and differences of its inputs. -/
theorem colourTransformIsReversible : Obligations.ColourTransformIsReversible := by
  refine ⟨fun r g b => ?_, fun y co cg => ?_, fun p => ⟨unYcocg_ycocg p, ycocg_unYcocg p⟩, fun w r g b hr hr' hg hg' hb hb' => ?_⟩
  · simp only [shiftRight_one_eq_ediv_two, ycocg_apply]
  · simp only [shiftRight_one_eq_ediv_two, unYcocg_apply]
  · obtain ⟨⟨hylo, hyhi⟩, ⟨hcolo, hcohi⟩, hcglo, hcghi⟩ := ycocg_mem_ranges ⟨hr, hr'⟩ ⟨hg, hg'⟩ ⟨hb, hb'⟩
    exact ⟨hylo, hyhi, hcolo, hcohi, hcglo, hcghi⟩

end Sys2Proof.Machine

/-! PROOFS. The interrupt controller: the bits of a word of all sources, the election of the source that a claim returns, and the
statements on `CLAIM` (R442, R516) and on `COMPLETE` (R443). -/

namespace Sys2Proof.Machine

/-! ## Words of all sources -/

theorem getLsbD_srcMask (n m : Nat) : (BitVec.ofNat 2048 (2 ^ n)).getLsbD m = (decide (m < 2048) && decide (n = m)) := by
  rw [BitVec.getLsbD_ofNat, Nat.testBit_two_pow]

theorem srcBit_srcSet_same {n : Nat} (h : n < 2048) (x : BitVec 2048) : srcBit (srcSet x n) n = true := by
  rw [srcBit, srcSet, BitVec.getLsbD_or, getLsbD_srcMask, decide_eq_true h, decide_eq_true rfl, Bool.and_self, Bool.or_true]

theorem srcBit_srcSet_ne {n m : Nat} (h : m ≠ n) (x : BitVec 2048) : srcBit (srcSet x n) m = srcBit x m := by
  rw [srcBit, srcSet, BitVec.getLsbD_or, getLsbD_srcMask, decide_eq_false h.symm, Bool.and_false, Bool.or_false, srcBit]

theorem srcBit_srcClear (x : BitVec 2048) (n m : Nat) : srcBit (srcClear x n) m = (srcBit x m && !decide (n = m)) := by
  by_cases hm : m < 2048
  · simp only [srcBit, srcClear, BitVec.getLsbD_and, BitVec.getLsbD_not, getLsbD_srcMask, decide_eq_true hm, Bool.true_and]
  · simp only [srcBit, BitVec.getLsbD_of_ge _ m (Nat.le_of_not_lt hm), Bool.false_and]

theorem srcBit_srcClear_same (x : BitVec 2048) (n : Nat) : srcBit (srcClear x n) n = false := by
  rw [srcBit_srcClear, decide_eq_true rfl, Bool.not_true, Bool.and_false]

theorem srcBit_srcClear_ne {n m : Nat} (h : m ≠ n) (x : BitVec 2048) : srcBit (srcClear x n) m = srcBit x m := by
  rw [srcBit_srcClear, decide_eq_false h.symm, Bool.not_false, Bool.and_true]

/-! ## What pending a source changes -/

/-- The state with another state of the interrupt controller. -/
def State.withIntc (s : State) (c : Intc) : State := { s with intc := c }

/-- The state with another word of pending bits: what every event of an interrupt source comes to. -/
def State.withPend (s : State) (p : BitVec 2048) : State := s.withIntc { s.intc with pend := p }

theorem State.withPend_withPend (s : State) (p q : BitVec 2048) : (s.withPend p).withPend q = s.withPend q := rfl

theorem State.withPend_self (s : State) : s.withPend s.intc.pend = s := rfl

/-- The causes of the level sources lie outside the interrupt controller. -/
theorem levelCause_withIntc (s : State) (c : Intc) (n : Nat) : levelCause (s.withIntc c) n = levelCause s n := rfl

/-- A change of `DEVSTATE` moves no pending bit but that of source 1 (Table 18-1). -/
theorem devEvent_eq_withPend (s0 s1 : State) :
    ∃ p, devEvent s0 s1 = s1.withPend p ∧ ∀ m, m ≠ 1 → srcBit p m = srcBit s1.intc.pend m := by
  unfold devEvent
  split
  · exact ⟨s1.intc.pend, rfl, fun _ _ => rfl⟩
  · exact ⟨srcSet s1.intc.pend 1, rfl, fun _ hm => srcBit_srcSet_ne hm _⟩

/-- The event of source 1 is lost while that source is in service (R440). -/
theorem devEvent_of_svc (s0 : State) {s1 : State} (h : srcBit s1.intc.svc 1 = true) : devEvent s0 s1 = s1 := if_pos (.inr h)

/-- A source with a level cause is one of the sources that exist. -/
theorem srcReal_of_levelCause {s : State} {n : Nat} (h : levelCause s n = true) : srcReal n = true := by
  have hpos : 0 < n := by
    rcases Nat.eq_zero_or_pos n with rfl | hpos
    · exact absurd h Bool.false_ne_true
    · exact hpos
  have hlt : n < 1088 := by
    by_contra hge
    have hfalse : levelCause s n = false := by simp (disch := omega) only [levelCause, if_neg]
    exact Bool.false_ne_true (hfalse.symm.trans h)
  rw [srcReal, decide_eq_true hpos, decide_eq_true hlt, Bool.and_self]

/-- Sampling a source that is not in service pends it where its cause holds, and moves no other bit but that of source 1 (R440). -/
theorem levelSample_eq_withPend {s : State} {n : Nat} (hsvc : srcBit s.intc.svc n = false) :
    ∃ p, levelSample s n = s.withPend p ∧ (n ≠ 1 → srcBit p n = (levelCause s n || srcBit s.intc.pend n))
      ∧ ∀ m, m ≠ n → m ≠ 1 → srcBit p m = srcBit s.intc.pend m := by
  cases hcause : levelCause s n with
  | false =>
    have hop : levelSample s n = s := if_neg (by rw [hcause]; exact Bool.false_ne_true)
    exact ⟨s.intc.pend, hop.trans s.withPend_self.symm, fun _ => rfl, fun _ _ _ => rfl⟩
  | true =>
    have hreal : srcReal n = true := srcReal_of_levelCause hcause
    have hn : n < 2048 := by
      simp only [srcReal, Bool.and_eq_true, decide_eq_true_eq] at hreal
      omega
    obtain ⟨p, hp, hpend⟩ := devEvent_eq_withPend s (pendRaw s n)
    refine ⟨p, ?_, fun h1 => ?_, fun m hm h1 => ?_⟩
    · simp only [levelSample, pendSrc, hcause, hreal, hsvc, Bool.not_false, Bool.and_self, if_true, hp]
      rfl
    · exact (hpend n h1).trans (srcBit_srcSet_same hn _)
    · exact (hpend m h1).trans (srcBit_srcSet_ne hm _)

/-! ## Edge sources -/

/-- An edge source has no level cause: the numbers of the one kind are none of the other (R437). -/
theorem levelCause_of_srcEdge {n : Nat} (h : srcEdge n = true) (s : State) : levelCause s n = false := by
  simp only [srcEdge, Bool.or_eq_true, Bool.and_eq_true, decide_eq_true_eq, beq_iff_eq, List.contains_iff_mem] at h
  rcases h with (((((hone | ⟨hlo, hhi⟩) | ⟨hlo, hhi⟩) | ⟨⟨hlo, hhi⟩, hmod⟩) | ⟨hlo, hhi⟩) | ⟨⟨hlo, hhi⟩, hmod⟩) | ⟨⟨hlo, hhi⟩, hmod⟩
  · simp only [List.mem_cons, List.not_mem_nil, or_false] at hone
    rcases hone with rfl | rfl | rfl | rfl | rfl | rfl | rfl | rfl <;> rfl
  · simp (disch := omega) only [levelCause, if_neg, if_pos]
  · simp (disch := omega) only [levelCause, if_neg, if_pos]
  · have hne : (n % 8 == 0) = false := beq_false_of_ne (by omega)
    simp (disch := omega) only [levelCause, if_neg, if_pos, hne, Bool.false_and]
  · simp (disch := omega) only [levelCause, if_neg, if_pos]
  · have hne : (n % 4 == 0) = false := beq_false_of_ne (by omega)
    simp (disch := omega) only [levelCause, if_neg, if_pos, hne, Bool.false_and]
  · have hne : (n % 2 == 0) = false := beq_false_of_ne (by omega)
    simp (disch := omega) only [levelCause, if_neg, if_pos, hne, Bool.false_and]

/-! ## `COMPLETE` (R443) -/

/-- The interrupt controller with the service of source n ended. -/
def endedIntc (c : Intc) (n : Nat) : Intc := { c with svc := srcClear c.svc n, claimer := mset none c.claimer n none }

theorem mayComplete_iff (c : Intc) (t n : Nat) :
    mayComplete c t n = true ↔ srcBit c.svc n = true ∧ mget none c.claimer n = some t := by
  rw [mayComplete, Bool.and_eq_true, beq_iff_eq]

theorem completeOp_of_not_mayComplete {s : State} {t : Nat} {v : Word} (h : ¬ mayComplete s.intc t (fld v 10 0) = true) :
    completeOp s t v = s := if_neg h

/-- A completion that takes effect ends the service, and samples its source again; beside that, only source 1 may pend. -/
theorem completeOp_of_mayComplete {s : State} {t n : Nat} {v : Word} (hn : fld v 10 0 = n) (h : mayComplete s.intc t n = true) :
    ∃ p, completeOp s t v = (s.withIntc (endedIntc s.intc n)).withPend p
      ∧ (n ≠ 1 → srcBit p n = (levelCause s n || srcBit s.intc.pend n))
      ∧ ∀ m, m ≠ n → m ≠ 1 → srcBit p m = srcBit s.intc.pend m := by
  have hop : completeOp s t v = levelSample (devEvent s (s.withIntc (endedIntc s.intc n))) n := by
    subst hn
    exact if_pos h
  obtain ⟨p, hdev, hpend⟩ := devEvent_eq_withPend s (s.withIntc (endedIntc s.intc n))
  have hsvc : srcBit ((s.withIntc (endedIntc s.intc n)).withPend p).intc.svc n = false := srcBit_srcClear_same s.intc.svc n
  obtain ⟨q, hsample, hsame, hother⟩ := levelSample_eq_withPend hsvc
  refine ⟨q, ?_, fun h1 => ?_, fun m hm h1 => ?_⟩
  · rw [hop, hdev, hsample, State.withPend_withPend]
  · exact (hsame h1).trans (congrArg (levelCause s n || ·) (hpend n h1))
  · exact (hother m hm h1).trans (hpend m h1)

theorem exec_complete (t : Fin 5) (v : Word) (s : State) : exec (.complete t v) s = .next (completeOp s t.val v) := rfl

/-- Settles O46: the end of service clears one in-service bit and one claimer, and the source is sampled afterwards, when it is no longer
in service. -/
theorem completionEndsService : Obligations.CompletionEndsService := by
  intro t v s n
  rw [exec_complete]
  refine ⟨fun hnot => ?_, fun hsvc hclaimer => ?_⟩
  · have hmay : ¬ mayComplete s.intc t.val n = true := by
      rw [mayComplete_iff, not_and_or, Bool.not_eq_true]
      exact hnot
    rw [completeOp_of_not_mayComplete hmay]
  · obtain ⟨p, hop, hsame, hother⟩ := completeOp_of_mayComplete (s := s) rfl ((mayComplete_iff s.intc t.val n).mpr ⟨hsvc, hclaimer⟩)
    have hcause : levelCause (completeOp s t.val v) n = levelCause s n := by
      rw [hop, State.withPend, levelCause_withIntc, levelCause_withIntc]
    refine ⟨completeOp s t.val v, rfl, ?_⟩
    rw [hcause, hop]
    refine ⟨srcBit_srcClear_same s.intc.svc n, ?_, fun hedge => levelCause_of_srcEdge hedge s, fun h1 hc => ?_, fun h1 hc => ?_,
      hother, fun m hm => srcBit_srcClear_ne hm s.intc.svc, rfl, rfl, rfl⟩
    · exact (mget_mset none s.intc.claimer n none n).trans (if_pos rfl)
    · exact (hsame h1).trans (by rw [hc, Bool.true_or])
    · exact (hsame h1).trans (by rw [hc, Bool.false_or])

/-! ## The election of a claim (R441, R442) -/

theorem claimableBy_iff (s : State) (t n : Nat) : claimableBy s t n = true ↔
    srcReal n = true ∧ srcBit s.ripe n = true ∧ s.target n = t ∧ s.threshold t < s.prio n := by
  simp only [claimableBy, Bool.and_eq_true, beq_iff_eq, decide_eq_true_eq, and_assoc]

theorem srcReal_iff (n : Nat) : srcReal n = true ↔ 0 < n ∧ n < 1088 := by
  rw [srcReal, Bool.and_eq_true, decide_eq_true_eq, decide_eq_true_eq]

theorem claimableBy_bounds {s : State} {t n : Nat} (h : claimableBy s t n = true) : 0 < n ∧ n < 1088 :=
  (srcReal_iff n).mp ((claimableBy_iff s t n).mp h).1

/-- A source in service is claimable by no target. -/
theorem claimableBy_of_svc {s : State} {n : Nat} (h : srcBit s.intc.svc n = true) (t : Nat) : claimableBy s t n = false := by
  have hripe : srcBit s.ripe n = false := by
    have hsvc : s.intc.svc.getLsbD n = true := h
    rw [srcBit, State.ripe, BitVec.getLsbD_and, BitVec.getLsbD_not, hsvc, Bool.not_true, Bool.and_false, Bool.and_false]
  rw [claimableBy, hripe, Bool.and_false, Bool.false_and, Bool.false_and]

/-- R442: source n goes before source m, by priority, then by number. -/
def State.goesBefore (s : State) (n m : Nat) : Prop := s.prio m < s.prio n ∨ (s.prio m = s.prio n ∧ n ≤ m)

/-- `b` is what a claim of target t returns where it looks at the sources below k alone. -/
def IsWinnerBelow (s : State) (t k b : Nat) : Prop :=
  (b ≠ 0 → claimableBy s t b = true ∧ b < k) ∧ ∀ m < k, claimableBy s t m = true → b ≠ 0 ∧ s.goesBefore b m

/-- One round of the search of `claimWinner`. -/
def electSrc (s : State) (t best n : Nat) : Nat := if claimableBy s t n then betterSrc s best n else best

theorem betterSrc_cases (s : State) (b k : Nat) : (betterSrc s b k = k ∧ (b ≠ 0 → s.prio b < s.prio k))
    ∨ (betterSrc s b k = b ∧ b ≠ 0 ∧ s.prio k ≤ s.prio b) := by
  unfold betterSrc
  split
  next hb0 => exact .inl ⟨rfl, fun h => absurd hb0 h⟩
  next hb0 =>
    split
    next hprio => exact .inl ⟨rfl, fun _ => hprio⟩
    next hprio => exact .inr ⟨rfl, hb0, Nat.le_of_not_lt hprio⟩

theorem isWinnerBelow_succ {s : State} {t k b : Nat} (h : IsWinnerBelow s t k b) : IsWinnerBelow s t (k + 1) (electSrc s t b k) := by
  obtain ⟨hb, hall⟩ := h
  unfold electSrc
  split
  next hk =>
    have hk0 : k ≠ 0 := Nat.ne_of_gt (claimableBy_bounds hk).1
    rcases betterSrc_cases s b k with ⟨hbest, hprio⟩ | ⟨hbest, hb0, hprio⟩
    · rw [hbest]
      refine ⟨fun _ => ⟨hk, Nat.lt_succ_self k⟩, fun m hm hclaim => ⟨hk0, ?_⟩⟩
      rcases Nat.lt_succ_iff_lt_or_eq.mp hm with hlt | rfl
      · obtain ⟨hb0, hbefore⟩ := hall m hlt hclaim
        have hlower := hprio hb0
        unfold State.goesBefore at hbefore ⊢
        omega
      · exact .inr ⟨rfl, Nat.le_refl _⟩
    · rw [hbest]
      obtain ⟨hclaimb, hbk⟩ := hb hb0
      refine ⟨fun _ => ⟨hclaimb, Nat.lt_succ_of_lt hbk⟩, fun m hm hclaim => ⟨hb0, ?_⟩⟩
      rcases Nat.lt_succ_iff_lt_or_eq.mp hm with hlt | rfl
      · exact (hall m hlt hclaim).2
      · unfold State.goesBefore
        omega
  next hk =>
    refine ⟨fun hb0 => ⟨(hb hb0).1, Nat.lt_succ_of_lt (hb hb0).2⟩, fun m hm hclaim => ?_⟩
    rcases Nat.lt_succ_iff_lt_or_eq.mp hm with hlt | rfl
    · exact hall m hlt hclaim
    · exact absurd hclaim hk

theorem isWinnerBelow_foldl (s : State) (t k : Nat) : IsWinnerBelow s t k ((List.range k).foldl (electSrc s t) 0) := by
  induction k with
  | zero => exact ⟨fun h => absurd rfl h, fun m hm => absurd hm (Nat.not_lt_zero m)⟩
  | succ k ih =>
    rw [List.range_succ, List.foldl_append]
    exact isWinnerBelow_succ ih

/-- R442: the winner of a claim, where there is one, is claimable and goes before every claimable source; 0 where none is claimable. -/
theorem claimWinner_spec (s : State) (t : Nat) :
    (claimWinner s t ≠ 0 → claimableBy s t (claimWinner s t) = true)
      ∧ ∀ m, claimableBy s t m = true → claimWinner s t ≠ 0 ∧ s.goesBefore (claimWinner s t) m := by
  unfold claimWinner
  split
  next hripe =>
    refine ⟨fun h => absurd rfl h, fun m hm => ?_⟩
    have hbit : srcBit s.ripe m = true := ((claimableBy_iff s t m).mp hm).2.1
    have hzero : srcBit s.ripe m = false := by rw [hripe]; exact BitVec.getLsbD_zero
    exact absurd (hzero.symm.trans hbit) Bool.false_ne_true
  next =>
    obtain ⟨hb, hall⟩ := isWinnerBelow_foldl s t 1088
    exact ⟨fun h0 => (hb h0).1, fun m hm => hall m (claimableBy_bounds hm).2 hm⟩

theorem claimWinner_eq_zero_iff (s : State) (t : Nat) : claimWinner s t = 0 ↔ ∀ m, claimableBy s t m = false := by
  obtain ⟨hwin, hall⟩ := claimWinner_spec s t
  refine ⟨fun h0 m => ?_, fun hnone => ?_⟩
  · exact Bool.eq_false_iff.mpr fun hm => (hall m hm).1 h0
  · by_contra h0
    exact Bool.false_ne_true ((hnone _).symm.trans (hwin h0))

theorem claimWinner_lt (s : State) (t : Nat) : claimWinner s t < 2048 := by
  by_cases h0 : claimWinner s t = 0
  · omega
  · have hlt := (claimableBy_bounds ((claimWinner_spec s t).1 h0)).2
    omega

/-! ## The claim (R442) -/

theorem claimOp_of_none {s : State} {t : Nat} (h : claimWinner s t = 0) : claimOp s t = s := if_pos h

/-- A claim puts its winner in service; beside that, only source 1 may pend, and not where it is the winner itself. -/
theorem claimOp_of_winner {s : State} {t n : Nat} (hn : claimWinner s t = n) (h0 : n ≠ 0) :
    ∃ p, claimOp s t = (s.withIntc (claimIntc s.intc t n)).withPend p ∧ srcBit p n = false
      ∧ ∀ m, m ≠ n → m ≠ 1 → srcBit p m = srcBit s.intc.pend m := by
  have hop : claimOp s t = devEvent s (s.withIntc (claimIntc s.intc t n)) := by
    subst hn
    exact if_neg h0
  have hlt : n < 2048 := hn ▸ claimWinner_lt s t
  have hclear : srcBit (claimIntc s.intc t n).pend n = false := srcBit_srcClear_same s.intc.pend n
  have hkeep : ∀ m, m ≠ n → srcBit (claimIntc s.intc t n).pend m = srcBit s.intc.pend m := fun m hm =>
    srcBit_srcClear_ne hm s.intc.pend
  rw [hop]
  by_cases h1 : n = 1
  · have hsvc : srcBit (claimIntc s.intc t n).svc n = true := srcBit_srcSet_same hlt s.intc.svc
    exact ⟨(claimIntc s.intc t n).pend, devEvent_of_svc s (h1 ▸ hsvc), hclear, fun m hm _ => hkeep m hm⟩
  · obtain ⟨p, hdev, hpend⟩ := devEvent_eq_withPend s (s.withIntc (claimIntc s.intc t n))
    exact ⟨p, hdev, (hpend n h1).trans hclear, fun m hm hm1 => (hpend m hm1).trans (hkeep m hm)⟩

theorem exec_claim (t : Fin 5) (s : State) : exec (.claim t) s = .next (claimOp s t.val) := rfl

theorem claimOp_svc_winner {s : State} {t : Nat} (h0 : claimWinner s t ≠ 0) : srcBit (claimOp s t).intc.svc (claimWinner s t) = true := by
  obtain ⟨p, hop, -, -⟩ := claimOp_of_winner rfl h0
  rw [hop]
  exact srcBit_srcSet_same (claimWinner_lt s t) s.intc.svc

/-- The source that a claim returned is not what the next claim returns. -/
theorem claimWinner_claimOp_ne {s : State} {t : Nat} (h0 : claimWinner s t ≠ 0) : claimWinner (claimOp s t) t ≠ claimWinner s t := by
  intro heq
  have hclaim : claimableBy (claimOp s t) t (claimWinner s t) = true := heq ▸ (claimWinner_spec (claimOp s t) t).1 (heq ▸ h0)
  exact Bool.false_ne_true ((claimableBy_of_svc (claimOp_svc_winner h0) t).symm.trans hclaim)

/-! ## Reads of RC registers (R516) -/

/-- A read of a register that answers and is not write-only shows its value. -/
theorem readValue_of_regAt {s : State} {a : Agent} {off : Nat} {r : RegRow} (hreg : regAt off = some r) (hty : r.ty ≠ .wo)
    (hreach : reachable s a off = true) : readValue s a off = regValue s a off := by
  have hwo : (r.ty == .wo) = false := beq_false_of_ne hty
  simp only [readValue, hreg, hreach, hwo, Bool.not_true, Bool.or_false, Bool.false_eq_true, if_false]

theorem readState_of_regAt {s : State} {a : Agent} {off : Nat} {r : RegRow} (hreg : regAt off = some r)
    (hreach : reachable s a off = true) : readState s a off = readEffect s a off := by
  simp only [readState, hreg, hreach, Option.isSome_some, Bool.and_self, if_true]

/-- The always-on blocks answer in every state (R7). -/
theorem reachable_of_always_on {off : Nat} (s : State) (a : Agent) (hoff : off < 0x180000 ∨ 0x1C0000 ≤ off)
    (hdom : regDomain off = none) : reachable s a off = true := by
  have hwindow : ¬ (0x180000 ≤ off ∧ off < 0x1C0000) := by omega
  simp only [reachable, hwindow, hdom, if_false]

theorem claim_offset (t : Fin 5) : Off.claim t.val = 0x33000 + 16 * t.val := rfl

theorem regAt_claim (t : Fin 5) : ∃ r, regAt (Off.claim t.val) = some r ∧ r.ty = .rc := by
  revert t
  decide

theorem reachable_claim (s : State) (a : Agent) (t : Fin 5) : reachable s a (Off.claim t.val) = true :=
  reachable_of_always_on s a (.inl (by rw [claim_offset]; omega)) (by revert t; decide)

theorem regValue_claim (s : State) (a : Agent) (t : Fin 5) : regValue s a (Off.claim t.val) = w32 (claimWinner s t.val) := by
  have hlatched : isLatched (Off.claim t.val) = false := by revert t; decide
  have hsel : isSelector (Off.claim t.val) = false := by revert t; decide
  have hoff := claim_offset t
  have hblock : Off.claim t.val / 65536 = 3 := by omega
  have hindex : (Off.claim t.val - 0x33000) / 16 = t.val := by omega
  have hview : viewIntc s (Off.claim t.val) = w32 (claimWinner s t.val) := by
    simp (disch := omega) only [viewIntc, if_neg, if_pos, hindex]
  simp only [regValue, hlatched, hsel, hblock, hview, Bool.false_eq_true, if_false]

/-- `CLAIM` t shows every agent the same winner. -/
theorem readValue_claim (s : State) (a : Agent) (t : Fin 5) : readValue s a (Off.claim t.val) = w32 (claimWinner s t.val) := by
  obtain ⟨r, hreg, hty⟩ := regAt_claim t
  rw [readValue_of_regAt hreg (by rw [hty]; decide) (reachable_claim s a t), regValue_claim]

theorem exec_loRegisterRead (a : Agent) (addr : BitVec 26) (s : State) :
    exec (.loRegisterRead a addr) s = .next (readState s a addr.toNat) := rfl

/-- A read of `CLAIM` t by any agent is the claim. -/
theorem readState_claim (s : State) (a : Agent) (t : Fin 5) : readState s a (Off.claim t.val) = claimOp s t.val := by
  obtain ⟨r, hreg, -⟩ := regAt_claim t
  have hoff := claim_offset t
  have hindex : (Off.claim t.val - 0x33000) / 16 = t.val := by omega
  have hwait : Off.claim t.val ≠ 0x260028 := by omega
  have hclaim : 0x33000 ≤ Off.claim t.val ∧ Off.claim t.val < 0x33050 ∧ Off.claim t.val % 16 = 0 := by omega
  rw [readState_of_regAt hreg (reachable_claim s a t), readEffect, if_neg hwait, if_pos hclaim, hindex]

theorem readValue_memPortWait (s : State) (a : Agent) :
    readValue s a Off.memPortWait = w32 (mget 0 s.mem.waits (s.seln a Off.memPortSel)) := by
  have hreach : reachable s a Off.memPortWait = true := reachable_of_always_on s a (.inr (by decide)) rfl
  rw [readValue_of_regAt (r := ⟨Off.memPortWait, 4, 1, .rc, 0, 0⟩) rfl (by decide) hreach]
  rfl

theorem readState_memPortWait (s : State) (a : Agent) : readState s a Off.memPortWait = clearWait s a :=
  readState_of_regAt (r := ⟨Off.memPortWait, 4, 1, .rc, 0, 0⟩) rfl (reachable_of_always_on s a (.inr (by decide)) rfl)

/-- After agent a has read the longest wait of its port, an agent at that port reads 0 and an agent at another port what it read before. -/
theorem readValue_memPortWait_clearWait (s : State) (a b : Agent) :
    readValue (clearWait s a) b Off.memPortWait
      = if s.seln b Off.memPortSel = s.seln a Off.memPortSel then 0 else readValue s b Off.memPortWait := by
  have hsel : (clearWait s a).seln b Off.memPortSel = s.seln b Off.memPortSel := rfl
  have hwaits : (clearWait s a).mem.waits = mset 0 s.mem.waits (s.seln a Off.memPortSel) 0 := rfl
  rw [readValue_memPortWait, readValue_memPortWait, hsel, hwaits, mget_mset]
  split <;> rfl

theorem w32_ne_of_lt {m n : Nat} (hm : m < 2048) (hn : n < 2048) (h : m ≠ n) : w32 m ≠ w32 n := by
  intro heq
  have hnat := congrArg BitVec.toNat heq
  simp only [w32, BitVec.toNat_ofNat] at hnat
  omega

/-- Settles O45: a claim elects by one pass over the sources in rising order, which keeps the first of the highest priority; the value of
an RC register depends on no agent, or on the agent's selector alone. -/
theorem claimTakesTheHighestPriority : Obligations.ClaimTakesTheHighestPriority := by
  refine ⟨fun t a s => ?_, fun a b s hsel => ?_, fun a b t s => ?_⟩
  · obtain ⟨hwin, hall⟩ := claimWinner_spec s t.val
    rw [exec_claim]
    refine ⟨claimWinner s t.val, readValue_claim s a t, claimWinner_lt s t.val, (claimWinner_eq_zero_iff s t.val).mpr, fun h0 => ?_,
      fun h0 => ?_⟩
    · exact ⟨(claimWinner_eq_zero_iff s t.val).mp h0, by rw [claimOp_of_none h0]⟩
    · obtain ⟨p, hop, hclear, hother⟩ := claimOp_of_winner rfl h0
      refine ⟨hwin h0, fun m hm => (hall m hm).2, claimOp s t.val, rfl, ?_⟩
      rw [hop]
      refine ⟨hclear, srcBit_srcSet_same (claimWinner_lt s t.val) s.intc.svc, ?_, hother, fun m hm => srcBit_srcSet_ne hm s.intc.svc,
        rfl, rfl, rfl⟩
      exact (mget_mset none s.intc.claimer _ (some t.val) _).trans (if_pos rfl)
  · have hread : readState s a 0x260028 = clearWait s a := readState_memPortWait s a
    refine ⟨clearWait s a, ?_, ?_, fun c hc => ?_⟩
    · rw [exec_loRegisterRead, ← hread]
      rfl
    · exact (readValue_memPortWait_clearWait s a b).trans (if_pos hsel.symm)
    · exact (readValue_memPortWait_clearWait s a c).trans (if_neg hc)
  · have haddr : (BitVec.ofNat 26 (Off.claim t.val)).toNat = Off.claim t.val := by revert t; decide
    refine ⟨by rw [readValue_claim, readValue_claim], ?_, fun u hu h0 => ?_⟩
    · rw [exec_loRegisterRead, haddr, readState_claim, exec_claim]
    · rw [exec_claim] at hu
      injection hu with hu
      rw [← hu, readValue_claim, readValue_claim]
      exact w32_ne_of_lt (claimWinner_lt _ _) (claimWinner_lt _ _) (claimWinner_claimOp_ne h0)

end Sys2Proof.Machine

/-! PROOFS. Every command answers a next state and keeps the queue, the clock and the canonical form of device memory; so does every
step, which keeps a sound state sound. -/

namespace Sys2Proof.Machine

/-! ## Outcomes that keep -/

/-- The outcome is a next state in which the queue and the clock are those of `qq` and device memory has its canonical form. -/
def Answers (qq : List Instr × Nat) (o : Out) : Prop := ∃ t, o = .next t ∧ Kept qq t

section
variable {qq : List Instr × Nat} {s t : State}

theorem answers_next (h : Kept qq t) : Answers qq (.next t) := ⟨t, rfl, h⟩

theorem kept_ite {c : Prop} [Decidable c] (ht : Kept qq t) (hs : Kept qq s) : Kept qq (if c then t else s) := by
  split
  · exact ht
  · exact hs

theorem answers_ite {c : Prop} [Decidable c] (ht : Kept qq t) (hs : Kept qq s) :
    Answers qq (if c then .next t else .next s) := by
  split
  · exact answers_next ht
  · exact answers_next hs

theorem kept_check {ok : Bool} {st : Nat} {ref : CmdRef} {k : State → State} (h : Kept qq s)
    (hk : ∀ t, Kept qq t → Kept qq (k t)) : Kept qq (check ok st ref s k) := check_kept _ _ _ _ _ hk h

theorem kept_fetchOf {h : HostData} {ref : CmdRef} {k : List Byte → State → State} (hs : Kept qq s)
    (hk : ∀ bs t, Kept qq t → Kept qq (k bs t)) : Kept qq (fetchOf h ref s k) := fetchOf_kept _ _ _ _ hk hs

/-! ## Commands that start and slots that fire -/

/-- The state that `startCmd` leaves, whether the command starts or not. -/
def Start.state : Start → State
  | .notYet t => t
  | .go _ t => t

theorem startCmd_state_kept (hK : Kept qq s) (sq : Nat) (d : Desc) : Kept qq (startCmd s sq d).state := by
  unfold startCmd
  dsimp only
  split
  · split
    · split
      · exact modSq_kept _ _ _ (State_modRings_kept (hK := hK) ..)
      · exact ⟨hK.1, hK.2⟩
    · exact hK
  · split
    · exact holdSubmit_kept _ _ _ hK
    · split
      · exact modSq_kept _ _ _ (State_modRings_kept (hK := hK) ..)
      · exact ⟨hK.1, hK.2⟩

theorem runCmd_answers {sq : Fin 1024} {d : Desc} {body : CmdRef → State → State} (hK : Kept qq s)
    (hb : ∀ ref t, Kept qq t → Kept qq (body ref t)) : Answers qq (runCmd sq d s body) := by
  have hstart := startCmd_state_kept hK sq.val d
  unfold runCmd
  split
  · cases hgo : startCmd s sq.val d with
    | notYet t => rw [hgo] at hstart; exact answers_next hstart
    | go ref t => rw [hgo] at hstart; exact answers_next (hb ref t hstart)
  · exact answers_next hK

theorem runLaunch_answers {k : Fin 8192} {action : Nat} {body : LSlot → State → State} (hK : Kept qq s)
    (hb : ∀ l t, Kept qq t → Kept qq (body l t)) : Answers qq (runLaunch k action s body) :=
  answers_ite (hb _ _ (fireSlot_kept _ _ hK)) hK

/-! ## Commands whose meaning branches on more than a condition -/

theorem execStreamOpen_answers (sq : Fin 1024) (d : Desc) (h : HostData) (cfg : CfgParse) (hK : Kept qq s) :
    Answers qq (execStreamOpen sq d h cfg s) :=
  runCmd_answers hK fun _ _ h => kept_check h fun _ h => kept_check h fun _ h => by
    split
    · exact openRaw_kept (hK := h) ..
    · exact kept_fetchOf h fun _ _ h => openParsed_kept (hK := h) ..
    · exact completeWith_kept (hK := h) ..

theorem execCoefLoad_answers (sq : Fin 1024) (d : Desc) (h : HostData) (hK : Kept qq s) : Answers qq (execCoefLoad sq d h s) :=
  runCmd_answers hK fun _ _ h => kept_check h fun _ h => kept_check h fun _ h => kept_fetchOf h fun _ _ h => by
    split
    · exact completeWith_kept (hK := h) ..
    · split
      · exact completeWith_kept (hK := h) ..
      · exact coefStoreRec_kept (hK := h) ..

theorem execLaunchAt_answers (sq : Fin 1024) (d : Desc) (hK : Kept qq s) : Answers qq (execLaunchAt sq d s) :=
  runCmd_answers hK fun _ _ h => kept_check h fun _ h => by
    split
    · exact State_modSlot_kept (hK := h) ..
    · exact completeWith_kept (hK := h) ..

theorem execContractCommitAccept_answers (c : Fin 64) (hK : Kept qq s) : Answers qq (execContractCommitAccept c s) := by
  unfold execContractCommitAccept
  split
  · exact answers_ite (commitDecide_kept (hK := hK) ..) hK
  · exact answers_next hK

theorem execAuFetchComplete_answers (st : Fin 256) (h : HostData) (info : UnitInfo) (hK : Kept qq s) :
    Answers qq (execAuFetchComplete st h info s) := by
  unfold execAuFetchComplete
  split
  · exact answers_next (settle_kept (hK := markIngest_kept (hK := State_modStream_kept (hK := hK) ..) ..) ..)
  · exact answers_next hK

theorem execPictureDecodeDone_answers (st : Fin 256) (o : DecOutcome) (hK : Kept qq s) : Answers qq (execPictureDecodeDone st o s) := by
  unfold execPictureDecodeDone
  split
  · exact answers_next (pictureDone_kept (hK := hK) ..)
  · exact answers_next hK

theorem execRepairDone_answers (core : Fin 16) (hK : Kept qq s) : Answers qq (execRepairDone core s) := by
  unfold execRepairDone
  split
  · exact answers_next (pendSrc_kept (hK := State_modDec_kept (hK := State_modStream_kept (hK := hK) ..) ..) ..)
  · exact answers_next hK

theorem execRawFetchDone_answers (st : Fin 256) (h : HostData) (hK : Kept qq s) : Answers qq (execRawFetchDone st h s) := by
  unfold execRawFetchDone
  split
  · exact answers_next hK
  · split
    · exact answers_next (rawDone_kept (hK := hK) ..)
    · exact answers_next hK

theorem execPaddockRowWritten_answers (c : Fin 64) (row : Fin 32) (p : List (Nat × Nat)) (hK : Kept qq s) :
    Answers qq (execPaddockRowWritten c row p s) := by
  unfold execPaddockRowWritten
  split
  · exact answers_ite hK (rowWritten_kept (hK := hK) ..)
  · exact answers_next hK

theorem execShaperTokensReady_answers (p : Fin 32) (q : Fin 65536) (hK : Kept qq s) : Answers qq (execShaperTokensReady p q s) :=
  answers_next (by
    split
    · exact kept_ite (portGo_kept (hK := hK) ..) hK
    · exact hK)

theorem execBurstComplete_answers (ch : Fin 32) (op : BurstOp) (hK : Kept qq s) : Answers qq (execBurstComplete ch op s) := by
  unfold execBurstComplete
  split
  · exact answers_next hK
  · split
    · exact answers_next (burstRead_kept (hK := hK) ..)
    · exact answers_next (burstWrite_kept (hK := hK) ..)

theorem execShadowAuditDone_answers (hK : Kept qq s) : Answers qq (execShadowAuditDone s) :=
  answers_next (by
    split
    · exact kept_ite hK (auditEnd_kept (hK := hK) ..)
    · exact hK)

/-! ## Launch rows -/

theorem execFrameBoundary_answers (k : Fin 8192) (hK : Kept qq s) : Answers qq (execFrameBoundary k s) :=
  runLaunch_answers hK fun _ _ h => boundary_kept (hK := h) ..

theorem execLaunchTallySnapshot_answers (k : Fin 8192) (hK : Kept qq s) : Answers qq (execLaunchTallySnapshot k s) :=
  runLaunch_answers hK fun _ _ h => capture_kept (hK := h) ..

theorem execDecodeStart_answers (k : Fin 8192) (hK : Kept qq s) : Answers qq (execDecodeStart k s) :=
  runLaunch_answers hK fun _ _ h => decodeStartOp_kept (hK := h) ..

theorem execCompositionStart_answers (k : Fin 8192) (hK : Kept qq s) : Answers qq (execCompositionStart k s) :=
  runLaunch_answers hK fun _ _ h => kept_ite (compBody_kept (hK := h) ..) (overrun_kept (hK := h) ..)

theorem execEncoderStripeStart_answers (k : Fin 8192) (mm : Option (Fin 32)) (hK : Kept qq s) : Answers qq (execEncoderStripeStart k mm s) :=
  runLaunch_answers hK fun _ _ h => kept_ite (encStart_kept (hK := ringMismatch_kept (hK := h) ..) ..) (overrun_kept (hK := h) ..)

theorem execDroverMapListStart_answers (k : Fin 8192) (hK : Kept qq s) : Answers qq (execDroverMapListStart k s) :=
  runLaunch_answers hK fun _ _ h => kept_ite (mapListStart_kept (hK := h) ..) (overrun_kept (hK := h) ..)

theorem execSeamStripSend_answers (k : Fin 8192) (hK : Kept qq s) : Answers qq (execSeamStripSend k s) :=
  runLaunch_answers hK fun _ _ h => foldl_kept _ _ _ (fun _ _ h => sendStrip_kept (hK := h) ..) h

theorem execBeacon_answers (k : Fin 8192) (hK : Kept qq s) : Answers qq (execBeacon k s) :=
  runLaunch_answers hK fun _ _ h => emitBeacon_kept (hK := guardDiscard_kept (hK := h) ..) ..

theorem execPresent_answers (k : Fin 8192) (hK : Kept qq s) : Answers qq (execPresent k s) :=
  runLaunch_answers hK fun _ _ h => present_kept (hK := h) ..

theorem execBlank_answers (k : Fin 8192) (hK : Kept qq s) : Answers qq (execBlank k s) :=
  runLaunch_answers hK fun _ _ h => emitBlanks_kept (hK := h) ..

theorem execMessageRelease_answers (k : Fin 8192) (hK : Kept qq s) : Answers qq (execMessageRelease k s) :=
  runLaunch_answers hK fun _ _ h => releaseMessage_kept (hK := h) ..

theorem execHostInterrupt_answers (k : Fin 8192) (hK : Kept qq s) : Answers qq (execHostInterrupt k s) :=
  runLaunch_answers hK fun _ _ h => pendSrc_kept (hK := h) ..

/-! ## Every command -/

theorem exec_answers (c : Instr) (hK : Kept qq s) : Answers qq (exec c s) := by
  cases c with
  | nop _ _ => exact runCmd_answers hK fun _ _ h => kept_check h fun _ h => completeWith_kept (hK := h) ..
  | streamOpen _ _ _ _ => exact execStreamOpen_answers (hK := hK) ..
  | streamClose _ _ => exact runCmd_answers hK fun _ _ h => kept_check h fun _ h => kept_check h fun _ h => streamCloseRun_kept (hK := h) ..
  | auSubmit _ _ => exact runCmd_answers hK fun _ _ h => kept_check h fun _ h => kept_check h fun _ h => kept_check h fun _ h => auAccept_kept (hK := h) ..
  | rawFrameSubmit _ _ => exact runCmd_answers hK fun _ _ h => kept_check h fun _ h => kept_check h fun _ h => kept_check h fun _ h => rawAccept_kept (hK := h) ..
  | rawSliceSubmit _ _ => exact runCmd_answers hK fun _ _ h => kept_check h fun _ h => kept_check h fun _ h => kept_check h fun _ h => rawAccept_kept (hK := h) ..
  | contractPropose _ _ _ => exact runCmd_answers hK fun _ _ h => kept_check h fun _ h => kept_check h fun _ h => kept_fetchOf h fun _ _ h => proposeBlock_kept (hK := h) ..
  | contractCommit _ _ => exact runCmd_answers hK fun _ _ h => kept_check h fun _ h => kept_check h fun _ h => commitTry_kept (hK := h) ..
  | contractCommitAccept _ => exact execContractCommitAccept_answers (hK := hK) ..
  | contractRelease _ _ => exact runCmd_answers hK fun _ _ h => kept_check h fun _ h => releaseRun_kept (hK := h) ..
  | layoutUpdate _ _ _ => exact runCmd_answers hK fun _ _ h => kept_check h fun _ h => kept_check h fun _ h => kept_fetchOf h fun _ _ h => kept_check h fun _ h => kept_check h fun _ h => layoutAdmit_kept (hK := h) ..
  | coefLoad _ _ _ => exact execCoefLoad_answers (hK := hK) ..
  | driftTableLoad _ _ _ =>
    exact runCmd_answers hK fun _ _ h => kept_check h fun _ h => kept_check h fun _ h => kept_fetchOf h fun _ _ h => kept_check h fun _ h => kept_check h fun _ h =>
      atOnceOr_kept (h1 := fun _ h => modDrift_kept (hK := h) ..) (h2 := fun _ h => modDrift_kept (hK := h) ..) (hK := h) ..
  | curveLoad _ _ _ =>
    exact runCmd_answers hK fun _ _ h => kept_check h fun _ h => kept_check h fun _ h => kept_fetchOf h fun _ _ h => kept_check h fun _ h => kept_check h fun _ h =>
      atOnceOr_kept (h1 := fun _ h => modCurve_kept (hK := h) ..) (h2 := fun _ h => modCurve_kept (hK := h) ..) (hK := h) ..
  | mapLoad _ _ _ => exact runCmd_answers hK fun _ _ h => kept_check h fun _ h => kept_check h fun _ h => kept_fetchOf h fun _ _ h => kept_check h fun _ h => kept_check h fun _ h => mapAdmit_kept (hK := h) ..
  | ucodeLoad _ _ _ _ _ => exact runCmd_answers hK fun _ _ h => kept_check h fun _ h => kept_check h fun _ h => kept_fetchOf h fun _ _ h => kept_ite (ucodeRun_kept (hK := h) ..) (ucodeRun_kept (hK := h) ..)
  | endpointSend _ _ _ => exact runCmd_answers hK fun _ _ h => kept_check h fun _ h => msgRun_kept (hK := h) ..
  | regionSend _ _ _ => exact runCmd_answers hK fun _ _ h => kept_check h fun _ h => msgRun_kept (hK := h) ..
  | tableLearn _ _ => exact runCmd_answers hK fun _ _ h => kept_check h fun _ h => offerHeld_kept (hK := h) ..
  | tableRemove _ _ => exact runCmd_answers hK fun _ _ h => kept_check h fun _ h => offerHeld_kept (hK := h) ..
  | lpmInsert _ _ => exact runCmd_answers hK fun _ _ h => kept_check h fun _ h => offerHeld_kept (hK := h) ..
  | lpmDelete _ _ => exact runCmd_answers hK fun _ _ h => kept_check h fun _ h => offerHeld_kept (hK := h) ..
  | shadowAudit _ _ _ => exact runCmd_answers hK fun _ _ h => kept_check h fun _ h => kept_check h fun _ h => kept_fetchOf h fun _ _ h => kept_check h fun _ h => State_modTbl_kept (hK := h) ..
  | dmaCopy _ _ _ _ => exact runCmd_answers hK fun _ _ h => kept_check h fun _ h => dmaRun_kept (hK := h) ..
  | timeSet _ _ => exact runCmd_answers hK fun _ _ h => kept_check h fun _ h => kept_check h fun _ h => timeSetApply_kept (hK := h) ..
  | launchAt _ _ => exact execLaunchAt_answers (hK := hK) ..
  | proxyStart _ _ => exact runCmd_answers hK fun _ _ h => kept_check h fun _ h => kept_check h fun _ h => kept_check h fun _ h => completeWith_kept (hK := State_modPrx_kept (hK := h) ..) ..
  | proxyStop _ _ => exact runCmd_answers hK fun _ _ h => kept_check h fun _ h => prxStop_kept (hK := h) ..
  | latencyTolerance _ _ => exact runCmd_answers hK fun _ _ h => kept_check h fun _ h => completeWith_kept (hK := State_modPwr_kept (hK := h) ..) ..
  | nvmStore _ _ => exact runCmd_answers hK fun _ _ h => kept_check h fun _ h => kept_check h fun _ h => offerNvm_kept (hK := h) ..
  | firmwareStage _ _ _ => exact runCmd_answers hK fun _ _ h => kept_check h fun _ h => kept_fetchOf h fun _ _ h => offerNvm_kept (hK := h) ..
  | firmwareActivate _ _ => exact runCmd_answers hK fun _ _ h => kept_check h fun _ h => kept_check h fun _ h => completeWith_kept (hK := State_modNvm_kept (hK := h) ..) ..
  | tallySnapshot _ _ => exact runCmd_answers hK fun _ _ h => kept_check h fun _ h => snapRun_kept (hK := h) ..
  | traceConfig _ _ => exact runCmd_answers hK fun _ _ h => kept_check h fun _ h => kept_check h fun _ h => completeWith_kept (hK := traceSet_kept (hK := h) ..) ..
  | frameBoundary _ => exact execFrameBoundary_answers (hK := hK) ..
  | launchTallySnapshot _ => exact execLaunchTallySnapshot_answers (hK := hK) ..
  | decodeStart _ => exact execDecodeStart_answers (hK := hK) ..
  | compositionStart _ => exact execCompositionStart_answers (hK := hK) ..
  | encoderStripeStart _ _ => exact execEncoderStripeStart_answers (hK := hK) ..
  | droverMapListStart _ => exact execDroverMapListStart_answers (hK := hK) ..
  | seamStripSend _ => exact execSeamStripSend_answers (hK := hK) ..
  | beacon _ => exact execBeacon_answers (hK := hK) ..
  | present _ => exact execPresent_answers (hK := hK) ..
  | blank _ => exact execBlank_answers (hK := hK) ..
  | releaseBlank _ => exact answers_next (releaseBlank_kept (hK := hK) ..)
  | messageRelease _ => exact execMessageRelease_answers (hK := hK) ..
  | hostInterrupt _ => exact execHostInterrupt_answers (hK := hK) ..
  | periodicBeacon _ => exact answers_next (periodic_kept (hK := hK) ..)
  | launchTickReached _ => exact answers_next (kept_ite (launchReached_kept (hK := hK) ..) hK)
  | unitFetchResume _ => exact answers_next (State_modStream_kept (hK := hK) ..)
  | auFetchComplete _ _ _ => exact execAuFetchComplete_answers (hK := hK) ..
  | pictureDecodeDone _ _ => exact execPictureDecodeDone_answers (hK := hK) ..
  | repairDone _ => exact execRepairDone_answers (hK := hK) ..
  | rawFetchResume _ => exact answers_next (rawGo_kept (hK := hK) ..)
  | rawFetchDone _ _ => exact execRawFetchDone_answers (hK := hK) ..
  | paddockRowWritten _ _ _ => exact execPaddockRowWritten_answers (hK := hK) ..
  | overrunStepBegin _ => exact answers_next (overrunBegin_kept (hK := hK) ..)
  | granuleClaimGrant _ _ => exact answers_next (kept_ite (encKick_kept (hK := ringMismatch_kept (hK := hK) ..) ..) hK)
  | stripeComplete _ _ _ => exact answers_next (stripeDone_kept (hK := hK) ..)
  | copyDone _ => exact answers_next (copyDone_kept (hK := hK) ..)
  | droverMicroword _ _ => exact answers_next (microword_kept (hK := hK) ..)
  | stallRelease _ => exact answers_next (kept_ite (droverGo_kept (hK := hK) ..) hK)
  | learningLookupReturn _ => exact answers_next (kept_ite (lookupReturn_kept (hK := hK) ..) hK)
  | droverReloadDone _ => exact answers_next (reloadDone_kept (hK := hK) ..)
  | frameTxEnd _ _ => exact answers_next (txEnd_kept (hK := hK) ..)
  | shaperTokensReady _ _ => exact execShaperTokensReady_answers (hK := hK) ..
  | ageDrop _ _ => exact answers_next (dropAged_kept (hK := hK) ..)
  | egressLinkUp _ => exact answers_next (linkRise_kept (hK := hK) ..)
  | egressLinkDown _ _ _ => exact answers_next (linkLost_kept (hK := hK) ..)
  | egressDelayReqReceive _ _ _ => exact answers_next (delayReq_kept (hK := hK) ..)
  | delayReqWindowReset _ => exact answers_next (dreqWindow_kept (hK := hK) ..)
  | telemetryReceive _ _ => exact answers_next (telemetry_kept (hK := hK) ..)
  | rxFrameDiscard _ _ _ _ => exact answers_next (kept_ite hK (rxDiscard_kept (hK := fecBad_kept (hK := hK) ..) ..))
  | driftStale _ => exact answers_next (driftStale_kept (hK := hK) ..)
  | poolAllocGrant _ => exact answers_next (allocGrant_kept (hK := hK) ..)
  | poolCacheRefill _ => exact answers_next (refill_kept (hK := hK) ..)
  | poolCacheSpill _ => exact answers_next (spill_kept (hK := hK) ..)
  | learnEventApply => exact answers_next (learnApply_kept (hK := hK) ..)
  | ageSweepVisit => exact answers_next (sweepVisit_kept (hK := hK) ..)
  | learnNoticeReceive _ _ => exact answers_next (noticeReceive_kept (hK := hK) ..)
  | tableEccError _ => exact answers_next (kept_ite (eccError_kept (hK := hK) ..) hK)
  | trieNodeRebuild _ _ => exact answers_next (State_modTbl_kept (hK := hK) ..)
  | announceSend => exact answers_next (announceNow_kept (hK := hK) ..)
  | syncSend => exact answers_next (syncNow_kept (hK := hK) ..)
  | peerDelayReqSend _ => exact answers_next (delayReqNow_kept (hK := hK) ..)
  | announceReceive _ _ => exact answers_next (timeRx_kept (hb := fun _ h => announceTake_kept (hK := h) ..) (hK := hK) ..)
  | syncReceive _ _ _ => exact answers_next (timeRx_kept (hb := fun _ h => syncTake_kept (hK := h) ..) (hK := hK) ..)
  | peerDelayReqReceive _ _ _ => exact answers_next (timeRx_kept (hb := fun _ h => delayReqTake_kept (hK := h) ..) (hK := hK) ..)
  | peerDelayRespReceive _ _ => exact answers_next (timeRx_kept (hb := fun _ h => delayRespTake_kept (hK := h) ..) (hK := hK) ..)
  | seamFrameReceive _ _ => exact answers_next (seamReceive_kept (hK := hK) ..)
  | announceAgeOut _ => exact answers_next (ageOut_kept (hK := hK) ..)
  | syncLossTimeout => exact answers_next (syncLoss_kept (hK := hK) ..)
  | holdoverTimeout => exact answers_next (holdoverEnd_kept (hK := hK) ..)
  | peerSilenceTimeout _ => exact answers_next (silence_kept (hK := hK) ..)
  | peerLinkUp _ => exact answers_next (peerRise_kept (hK := hK) ..)
  | peerLinkDown _ _ _ _ => exact answers_next (peerFallTo_kept (hK := kept_ite (setStatus_kept (hK := hK) ..) hK) ..)
  | flitReceive _ _ => exact answers_next (flitByState_kept (hK := kept_ite (flitUncorr_kept (hK := hK) ..) hK) ..)
  | replayTimeout => exact answers_ite (replayNow_kept (hK := hK) ..) hK
  | mgmtTimeout => exact answers_ite (enterRecovery_kept (hK := hK) ..) hK
  | linkSignalDetect _ _ => exact answers_next (signalStep_kept (hK := hK) ..)
  | trainComplete => exact answers_next (trainStep_kept (hK := hK) ..)
  | trainTimeout => exact answers_next (trainTimeoutStep_kept (hK := hK) ..)
  | recoveryEntry => exact answers_next (enterRecovery_kept (hK := hK) ..)
  | recoveryComplete _ => exact answers_next (recoveryStep_kept (hK := hK) ..)
  | recoveryTimeout => exact answers_next (recoveryTimeoutStep_kept (hK := hK) ..)
  | linkMrdReceive _ _ _ => exact answers_ite (mrdTake_kept (hK := mrdFreed_kept (hK := hK) ..) ..) hK
  | linkMwrReceive _ _ => exact answers_ite (mwrTake_kept (hK := mwrFreed_kept (hK := hK) ..) ..) hK
  | linkCplReceive _ _ _ _ _ => exact answers_ite (cplTake_kept (hK := State_modLink_kept (hK := hK) ..) ..) hK
  | cplTimeout _ => exact answers_next (tagTimeout_kept (hK := hK) ..)
  | tagQuarantineEnd _ => exact answers_next (tagFree_kept (hK := hK) ..)
  | sqTailDb _ _ => exact answers_next (sqTailOp_kept (hK := hK) ..)
  | cqHeadDb _ _ => exact answers_next (cqHeadOp_kept (hK := hK) ..)
  | descriptorFetch => exact answers_next (fetchTurn_kept (hK := hK) ..)
  | submitHoldRelease _ => exact answers_next (releaseHold_kept (hK := hK) ..)
  | fenceRelease _ => exact answers_next (releaseFence_kept (hK := hK) ..)
  | completionWaitEnd _ => exact answers_next (waitEnd_kept (hK := hK) ..)
  | cqCoalTimeout _ => exact answers_next (levelSample_kept (hK := hK) ..)
  | heldMessageTimeout _ _ => exact answers_next (heldTimeout_kept (hK := hK) ..)
  | claim _ => exact answers_next (claimOp_kept (hK := hK) ..)
  | complete _ _ => exact answers_next (completeOp_kept (hK := hK) ..)
  | intpendWrite _ _ => exact answers_next (intPendOp_kept (hK := hK) ..)
  | srcCfgWrite _ _ => exact answers_next (srcCfgOp_kept (hK := hK) ..)
  | unitFaultDetect _ => exact answers_next (unitDetect_kept (hK := hK) ..)
  | sheepdogExpiry _ => exact answers_next (dogStep_kept (hK := hK) ..)
  | l3RestartDone _ => exact answers_next (restartDone_kept (hK := hK) ..)
  | fltack _ _ => exact answers_next (fltAckBy_kept (hK := hK) ..)
  | fltInject _ => exact answers_next (injectOp_kept (hK := hK) ..)
  | ccHeartbeatMiss _ => exact answers_next (kept_ite (raiseFault_kept (hK := hK) ..) hK)
  | moduleRestart _ => exact answers_next (moduleRestart_kept (hK := hK) ..)
  | dramTrainingDone _ => exact answers_next (trainingDone_kept (hK := hK) ..)
  | allBankRefresh _ _ _ => exact answers_ite (refreshStep_kept (hK := hK) ..) hK
  | mr4Poll _ _ => exact answers_ite (State_modChannel_kept (hK := hK) ..) hK
  | arbiterDecision _ _ => exact answers_next (arbDecision_kept (hK := hK) ..)
  | burstBreakPoint _ _ => exact answers_next (breakPoint_kept (hK := hK) ..)
  | burstComplete _ _ => exact execBurstComplete_answers (hK := hK) ..
  | patrolRead _ _ => exact answers_next (patrolStep_kept (hK := hK) ..)
  | memPortRankWrite _ _ => exact answers_next (portRankOp_kept (hK := hK) ..)
  | memPortWaitRead _ => exact answers_next (⟨hK.1, hK.2⟩)
  | dmaChannelFree _ => exact answers_next (channelFree_kept (hK := hK) ..)
  | powerGood => exact answers_next (powerUp_kept (hK := hK) ..)
  | powerGoodFall => exact answers_next (powerDown_kept (hK := hK) ..)
  | clkinCountEnd _ => exact answers_next (countEnd_kept (hK := hK) ..)
  | pllLock _ => exact answers_next (pllLock_kept (hK := hK) ..)
  | clkinLoss => exact answers_next (clkinDown_kept (hK := hK) ..)
  | clkinReturn => exact answers_next (clkinUp_kept (hK := hK) ..)
  | resetnLow => exact answers_next (resetnDown_kept (hK := hK) ..)
  | resetnRise => exact answers_next (kept_ite (State_modPwr_kept (hK := hK) ..) hK)
  | startupComplete _ => exact answers_next (startupDone_kept (hK := hK) ..)
  | domainGapEntry _ => exact answers_next (gapEntry_kept (hK := hK) ..)
  | domainWakeStart _ => exact answers_next (wakeStart_kept (hK := hK) ..)
  | domainEntryDone _ => exact answers_next (entryDone_kept (hK := hK) ..)
  | domainWakeDone _ => exact answers_next (wakeDone_kept (hK := hK) ..)
  | pdForceOnWrite _ _ => exact answers_next (pdForceOp_kept (hK := hK) ..)
  | dieSensorSample _ => exact answers_next (dieSample_kept (hK := hK) ..)
  | tempStopHalt => exact answers_next (tempHalt_kept (hK := hK) ..)
  | trefSample _ => exact answers_next (kept_ite (setFans_kept (hK := State_modPwr_kept (hK := hK) ..) ..) hK)
  | peakAllowanceUpdate => exact answers_next (peakUpdate_kept (hK := hK) ..)
  | fanFail _ => exact answers_next (fanFail_kept (hK := hK) ..)
  | nvmStoreDone _ => exact answers_next (storeDone_kept (hK := hK) ..)
  | firmwareStageDone _ => exact answers_next (stageDone_kept (hK := hK) ..)
  | trimApply _ => exact answers_next (trimStep_kept (hK := hK) ..)
  | proxyCaptureStart => exact answers_next (prxCapture_kept (hK := hK) ..)
  | proxyAuDone => exact answers_next (prxAuDone_kept (hK := hK) ..)
  | proxyStopDone => exact answers_next (prxStopDone_kept (hK := hK) ..)
  | readCfg => exact answers_next (schedAccOp_kept (hK := hK) ..)
  | writeCfg => exact answers_next (schedAccOp_kept (hK := hK) ..)
  | readState => exact answers_next (schedAccOp_kept (hK := hK) ..)
  | sclData3Write _ _ => exact answers_next (gated_kept _ _ _ hK (sclDataOp_kept (hK := hK) ..))
  | prxLutDataWrite _ _ => exact answers_next (lutWrite_kept (hK := hK) ..)
  | tblSelWrite _ _ => exact answers_next (gated_kept _ _ _ hK (tblSelOp_kept (hK := hK) ..))
  | loRegisterRead _ _ => exact answers_next (readState_kept (hK := hK) ..)
  | retrain => exact answers_next (kept_ite (linkCtrlOp_kept (hK := hK) ..) hK)
  | linkCfgWrite _ => exact answers_next (kept_ite (linkCfgOp_kept (hK := hK) ..) hK)
  | sqCfgWrite _ _ => exact answers_next (sqCfgOp_kept (hK := hK) ..)
  | cqCfgWrite _ _ => exact answers_next (cqCfgOp_kept (hK := hK) ..)
  | canvasSizeWrite _ => exact answers_next (gated_kept _ _ _ hK (canvasSizeOp_kept (hK := hK) ..))
  | egPortCfgWrite _ _ => exact answers_next (gated_kept _ _ _ hK (portCfgOp_kept (hK := hK) ..))
  | foldCfgWrite _ => exact answers_next (foldCfgOp_kept (hK := hK) ..)
  | ckoutCfgWrite _ => exact answers_next (State_setReg_kept (hK := hK) ..)
  | registerWrite _ _ _ => exact answers_next (writeReg_kept (hK := hK) ..)
  | flitSlot => exact answers_next (flitStep_kept (hK := hK) ..)
  | schedAccDone => exact answers_next (schedRun_kept (hK := hK) ..)
  | shadowAuditDone => exact execShadowAuditDone_answers (hK := hK) ..
  | addNoticeSpreadSend => exact answers_next (spreadSend_kept (hK := hK) ..)
  | patrolIntervalEnd => exact answers_next (patrolInterval_kept (hK := hK) ..)
  | mainsLoss => exact answers_next (kept_ite hK (State_modPwr_kept (hK := hK) ..))
  | mainsReturn => exact answers_next (State_modPwr_kept (hK := hK) ..)
  | plugInModuleInserted _ _ => exact answers_next (⟨hK.1, hK.2⟩)
  | plugInModuleRemoved _ => exact answers_next (unplug_kept (hK := hK) ..)

/-! ## Every step -/

/-- A tick leaves the queue and device memory; the clock alone goes on. -/
theorem tick_kept (hK : Kept qq s) : Kept (qq.1, qq.2 + 1) (tick s) := by
  have hrun : Kept qq (if s.pwr.pllLocked then levelTallies (s.modWt wallTick) else s) :=
    kept_ite (levelTallies_kept _ (modWt_kept _ _ hK rfl)) hK
  exact readyFollow_kept _ ⟨⟨hrun.1.1, congrArg (· + 1) hrun.1.2⟩, hrun.2⟩

end

/-- Settles O1: the step is the queue's own case split. -/
theorem stepRunsTheFrontCommand : Obligations.StepRunsTheFrontCommand := by
  intro c rest s hs
  unfold step
  rw [hs]

theorem State.Inv.of_kept {t : State} {qs : List Instr} {n : Nat} (h : Kept (qs, n) t) (hqs : qs.all Instr.wf = true) : t.Inv :=
  ⟨h.2, (congrArg (List.all · Instr.wf) h.1.1).trans hqs⟩

/-- Settles O3: an empty queue is a tick; else the front command answers a state with the queue's rest, and that state's device
memory is canonical. -/
theorem stepKeepsSound : Obligations.StepKeepsSound := by
  intro s t ⟨hmem, hqueue⟩ hstep
  cases hs : s.pending with
  | nil =>
    have htick : Kept ([], s.wt.now + 1) (tick s) := tick_kept (qq := ([], s.wt.now)) ⟨⟨hs, rfl⟩, hmem⟩
    simp only [step, hs, Host.Outcome.next.injEq] at hstep
    exact .of_kept (hstep ▸ htick) rfl
  | cons c rest =>
    rw [State.queueWf, hs, List.all_cons, Bool.and_eq_true] at hqueue
    rw [stepRunsTheFrontCommand c rest s hs] at hstep
    obtain ⟨u, hexec, hu⟩ := exec_answers (qq := (rest, s.wt.now)) (s := { s with pending := rest }) c ⟨⟨rfl, rfl⟩, hmem⟩
    rw [hexec, Host.Outcome.next.injEq] at hstep
    exact .of_kept (hstep ▸ hu) hqueue.2

end Sys2Proof.Machine

/-! PROOFS. The state right after reset. -/

namespace Sys2Proof.Machine

/-- Settles O4: reset is one state, whose registers are evaluated from the register table and the stored words. -/
theorem resetIsSound : Obligations.ResetIsSound := by
  refine ⟨⟨⟨rfl, rfl⟩, rfl⟩, ?_, ?_⟩
  · decide +kernel
  · decide +kernel

end Sys2Proof.Machine

/-! PROOFS. The codes of Sward: what is written for a number of bits, for a residual, a vector and a tuft's samples is read back. -/

namespace Sys2Proof.Machine

/-! ## Bits and runs of zeros (R163) -/

theorem readBits_putBits (n acc v : Nat) (rest : List Bool) :
    readBits n acc (putBits n v ++ rest) = some (acc * 2 ^ n + v % 2 ^ n, rest) := by
  induction n generalizing acc with
  | zero => simp [readBits, putBits, Nat.mod_one]
  | succ n ih =>
    have hbit : b2n (v / 2 ^ n % 2 == 1) = v / 2 ^ n % 2 := by
      rcases Nat.mod_two_eq_zero_or_one (v / 2 ^ n) with h | h <;> simp [h, b2n]
    have hsplit : v % 2 ^ (n + 1) = 2 ^ n * (v / 2 ^ n % 2) + v % 2 ^ n := by
      rw [pow_succ, Nat.mod_mul, Nat.add_comm]
    rw [putBits, List.cons_append, readBits, ih, hbit, hsplit, pow_succ]
    congr 2
    ring

theorem readBits_putBits_of_lt {n v : Nat} (h : v < 2 ^ n) (rest : List Bool) :
    readBits n 0 (putBits n v ++ rest) = some (v, rest) := by
  rw [readBits_putBits, Nat.zero_mul, Nat.zero_add, Nat.mod_eq_of_lt h]

theorem readZeros_replicate {u lim : Nat} (h : u ≤ lim) (rest : List Bool) :
    readZeros lim (List.replicate u false ++ true :: rest) = some (u, rest) := by
  induction u generalizing lim with
  | zero => cases lim <;> rfl
  | succ u ih =>
    obtain ⟨m, rfl⟩ : ∃ m, lim = m + 1 := ⟨lim - 1, by omega⟩
    rw [List.replicate_succ, List.cons_append, readZeros, ih (by omega), Option.map_some]

/-! ## Residuals (R173, R174) -/

theorem unfoldM_foldM (e : Int) : unfoldM (foldM e) = e := by
  unfold unfoldM foldM
  split <;> split <;> omega

theorem readResidual_putResidual {b : Nat} {e : Int} (h : foldM e < 2 ^ (b + 2)) (x : Ctx) (rest : List Bool) :
    readResidual b x (putResidual b x e ++ rest) = some (e, rest) := by
  unfold putResidual
  dsimp only
  split
  next hshort =>
    have hmod : foldM e % 2 ^ x.k < 2 ^ x.k := Nat.mod_lt _ (by positivity)
    rw [List.append_assoc, List.append_assoc, List.singleton_append, readResidual, readZeros_replicate (le_of_lt hshort)]
    simp only [hshort, if_true, readBits_putBits_of_lt hmod, Option.map_some, Nat.div_add_mod', unfoldM_foldM]
  next hlong =>
    rw [List.append_assoc, List.append_assoc, List.singleton_append, readResidual, readZeros_replicate le_rfl]
    simp only [lt_irrefl, if_false, readBits_putBits_of_lt h, Option.map_some, unfoldM_foldM]

/-! ## Signed numbers and vectors (R175) -/

/-- The number of which a signed Exp-Golomb code is the unsigned code. -/
def foldSe (v : Int) : Nat := if 0 < v then (2 * v - 1).toNat else 2 * v.natAbs

/-- The signed number that an unsigned Exp-Golomb code stands for. -/
def unfoldSe (m : Nat) : Int := if m % 2 = 1 then ((m + 1) / 2 : Nat) else -((m / 2 : Nat) : Int)

theorem unfoldSe_foldSe (v : Int) : unfoldSe (foldSe v) = v := by
  unfold unfoldSe foldSe
  split <;> split <;> omega

theorem readSe_putUe {m : Nat} (h : m < 511) (rest : List Bool) : readSe (putUe m ++ rest) = some (unfoldSe m, rest) := by
  have hz : Nat.log2 (m + 1) ≤ 8 := by
    have := Nat.log2_lt (n := m + 1) (k := 9) (by omega)
    omega
  have hle : 2 ^ Nat.log2 (m + 1) ≤ m + 1 := Nat.log2_self_le (by omega)
  have hlt : m + 1 < 2 ^ (Nat.log2 (m + 1) + 1) := Nat.lt_log2_self
  have hlow : m + 1 - 2 ^ Nat.log2 (m + 1) < 2 ^ Nat.log2 (m + 1) := by
    rw [pow_succ] at hlt
    omega
  have hsum : 2 ^ Nat.log2 (m + 1) - 1 + (m + 1 - 2 ^ Nat.log2 (m + 1)) = m := by
    have := Nat.two_pow_pos (Nat.log2 (m + 1))
    omega
  unfold putUe readSe
  rw [List.append_assoc, List.append_assoc, List.singleton_append, readZeros_replicate hz]
  simp only [readBits_putBits_of_lt hlow, Option.map_some, hsum, unfoldSe]

theorem readSe_putSe {v : Int} (h : v.natAbs ≤ 255) (rest : List Bool) : readSe (putSe v ++ rest) = some (v, rest) := by
  have hm : foldSe v < 511 := by
    unfold foldSe
    split <;> omega
  exact (readSe_putUe hm rest).trans (by rw [unfoldSe_foldSe])

/-- A written difference is at most half the period, and adding it to the prediction gives the component back. -/
theorem mvDiff_spec {half v p : Int} (hhalf : 0 < half) (hv : -half ≤ v ∧ v < half) :
    -half < mvDiff half v p ∧ mvDiff half v p ≤ half ∧ (p + mvDiff half v p + half) % (2 * half) - half = v := by
  have hlo := Int.emod_nonneg (v - p + half) (b := 2 * half) (by omega)
  have hhi := Int.emod_lt_of_pos (v - p + half) (b := 2 * half) (by omega)
  have hq := Int.mul_ediv_add_emod (v - p + half) (2 * half)
  have hback (c d : Int) (h : p + d + half = v + half + 2 * half * c) : (p + d + half) % (2 * half) - half = v := by
    rw [h, Int.add_mul_emod_self_left, Int.emod_eq_of_lt (by omega) (by omega)]
    omega
  unfold mvDiff
  dsimp only
  split
  next hmin => exact ⟨by omega, le_rfl, hback (1 - (v - p + half) / (2 * half)) _ (by rw [mul_sub]; omega)⟩
  next hmin => exact ⟨by omega, by omega, hback (-((v - p + half) / (2 * half))) _ (by rw [mul_neg]; omega)⟩

theorem readMv_putMv {p v : Int × Int} (hv : -64 ≤ v.1 ∧ v.1 ≤ 63 ∧ -32 ≤ v.2 ∧ v.2 ≤ 31) (rest : List Bool) :
    readMv p (putMv p v ++ rest) = some (v, rest) := by
  obtain ⟨hx1, hx2, hx⟩ := mvDiff_spec (half := 64) (v := v.1) (p := p.1) (by omega) (by omega)
  obtain ⟨hy1, hy2, hy⟩ := mvDiff_spec (half := 32) (v := v.2) (p := p.2) (by omega) (by omega)
  have hbound : (mvDiff 64 v.1 p.1).natAbs ≤ 64 ∧ (mvDiff 32 v.2 p.2).natAbs ≤ 32 := by omega
  have hwrap : wrapMv p (mvDiff 64 v.1 p.1) (mvDiff 32 v.2 p.2) = v := Prod.ext hx hy
  unfold putMv readMv
  rw [List.append_assoc, readSe_putSe (by omega)]
  dsimp only
  rw [readSe_putSe (by omega)]
  dsimp only
  rw [if_pos hbound, hwrap]

/-! ## The quantiser (R166, R167) -/

theorem quant_bound (x p : Int) (q : Nat) : (p + quant x p q * (2 * q + 1) - x).natAbs ≤ q := by
  unfold quant
  dsimp only
  split
  next h =>
    have hdiv := Int.mul_ediv_add_emod (x - p + q) (2 * q + 1)
    have hlo := Int.emod_nonneg (x - p + q) (b := 2 * q + 1) (by omega)
    have hhi := Int.emod_lt_of_pos (x - p + q) (b := 2 * q + 1) (by omega)
    rw [mul_comm] at hdiv
    omega
  next h =>
    have hdiv := Int.mul_ediv_add_emod (q - (x - p)) (2 * q + 1)
    have hlo := Int.emod_nonneg (q - (x - p)) (b := 2 * q + 1) (by omega)
    have hhi := Int.emod_lt_of_pos (q - (x - p)) (b := 2 * q + 1) (by omega)
    rw [mul_comm] at hdiv
    rw [neg_mul]
    omega

theorem recon_quant_bound {x lo hi : Int} (p : Int) (q : Nat) (hlo : lo ≤ x) (hhi : x ≤ hi) :
    (recon p (quant x p q) q lo hi - x).natAbs ≤ q ∧ lo ≤ recon p (quant x p q) q lo hi ∧ recon p (quant x p q) q lo hi ≤ hi := by
  have hq := quant_bound x p q
  have hclip := clip_range (hlo.trans hhi) (p + quant x p q * (2 * q + 1))
  refine ⟨?_, hclip⟩
  unfold recon clip
  omega

theorem natAbs_quant_le (x p : Int) (q : Nat) : (quant x p q).natAbs ≤ (x - p).natAbs := by
  have hround (e : Int) (he : 0 ≤ e) : 0 ≤ (e + q) / (2 * q + 1) ∧ (e + q) / (2 * q + 1) ≤ e := by
    refine ⟨Int.ediv_nonneg (by omega) (by omega), ?_⟩
    rcases he.eq_or_lt with rfl | hpos
    · exact le_of_eq (Int.ediv_eq_zero_of_lt (by omega) (by omega))
    · exact Int.lt_add_one_iff.mp (Int.ediv_lt_of_lt_mul (by omega) (by nlinarith))
  unfold quant
  dsimp only
  split
  next h => have := hround (x - p) h; omega
  next h =>
    have := hround (-(x - p)) (by omega)
    rw [show -(x - p) + (q : Int) = q - (x - p) by ring] at this
    omega

theorem foldM_quant_lt {b q : Nat} {v p lo hi : Int} (hrange : hi - lo < 2 ^ (b + 1)) (hv : lo ≤ v ∧ v ≤ hi)
    (hp : lo ≤ p ∧ p ≤ hi) : foldM (quant v p q) < 2 ^ (b + 2) := by
  have hq := natAbs_quant_le v p q
  have hcast : ((2 ^ (b + 1) : Nat) : Int) = 2 ^ (b + 1) := by push_cast; rfl
  rw [← hcast] at hrange
  rw [pow_succ 2 (b + 1)]
  unfold foldM
  split <;> omega

/-! ## The statements -/

/-- Settles O28: the quantiser rounds to the nearest multiple and a clip into a range that holds the source moves towards it; a code is
a run of zeros, a one and bits, each read back in turn. -/
theorem swardCodesReadBack : Obligations.SwardCodesReadBack :=
  ⟨fun _ p _ _ q hlo hhi => recon_quant_bound p q hlo hhi, fun _ x _ rest h => readResidual_putResidual h x rest,
    fun _ rest h => readSe_putSe h rest, fun _ _ rest hv _ => readMv_putMv hv rest⟩

theorem putSamples_appends (b q : Nat) (lo hi : Int) (pred : List Int → Nat → Int) (vs acc : List Int) (x : Ctx)
    (bs : List (List Bool)) :
    putSamples b q lo hi pred vs acc x bs = (bs ++ (putSamples b q lo hi pred vs acc x []).1, (putSamples b q lo hi pred vs acc x []).2) := by
  induction vs generalizing acc x bs with
  | nil => simp [putSamples]
  | cons v vs ih =>
    rw [putSamples, putSamples, ih, ih (bs := [] ++ _)]
    simp

/-- Settles O29: sample by sample, the decoder predicts from the same reconstructed samples, reads the residual that was written and
moves to the same context; every residual has a code because samples and predictions lie in one range of fewer than 2^(b+1) values. -/
theorem samplesReadBack : Obligations.SamplesReadBack := by
  intro b q lo hi pred vs acc x rest hrange hvs hpred
  induction vs generalizing acc x with
  | nil => simp [putSamples, readSamples]
  | cons v vs ih =>
    obtain ⟨hv, hvs⟩ := List.forall_mem_cons.mp hvs
    have hcode := foldM_quant_lt (q := q) hrange hv (hpred acc acc.length)
    obtain ⟨hread, hlen⟩ := ih (acc ++ [recon (pred acc acc.length) (quant v (pred acc acc.length) q) q lo hi])
      (x.update (quant v (pred acc acc.length) q)) hvs
    rw [putSamples, putSamples_appends]
    dsimp only
    refine ⟨?_, ?_⟩
    · rw [List.nil_append, List.singleton_append, List.flatten_cons, List.append_assoc, List.length_cons, readSamples,
        readResidual_putResidual hcode]
      exact hread
    · rw [hlen, List.length_append, List.length_singleton, List.length_cons]
      omega

end Sys2Proof.Machine

/-! PROOFS. The descriptor commands: when one starts, and what a bad header or a module that does not serve makes of it. -/

namespace Sys2Proof.Machine

/-! ## Starting (R381, R382) -/

theorem startCmd_of_not_fetched {s : State} {sq : Nat} {d : Desc} (hnone : (s.rings.fetched.all fun f => !(f.sq == sq && f.d == d)) = true)
    (hfits : submitFits s d = true) (hfence : dFence d = false) :
    startCmd s sq d = .go (cmdRef sq (sqCqOf (s.sq sq)) s.wt.now d)
      (s.modRings fun x => { x with inflight := x.inflight ++ [cmdRef sq (sqCqOf (s.sq sq)) s.wt.now d] }) := by
  have hfind : s.rings.fetched.find? (fun f => f.sq == sq && f.d == d) = none := by
    simpa [List.find?_eq_none, ← not_and_or] using hnone
  simp [startCmd, hfind, hfits, hfence]

theorem startCmd_of_fetched_first {s : State} {f : Fetched} {fs : List Fetched} (hs : s.rings.fetched = f :: fs)
    (hfence : dFence f.d = false) :
    startCmd s f.sq f.d = .go (cmdRef f.sq f.cq f.at_ f.d) (s.modRings fun x => { x with fetched := fs }) := by
  have hdrop : (s.modRings fun x => { x with fetched := dropFetched x.fetched f.sq f.d }) = s.modRings fun x => { x with fetched := fs } := by
    simp [State.modRings, hs, dropFetched]
  simp [startCmd, hs, hfence, hdrop]

theorem startCmd_of_fetched_later {s : State} {sq : Nat} {d : Desc} {f : Fetched} {fs : List Fetched} (hs : s.rings.fetched = f :: fs)
    (hf : f.sq ≠ sq ∨ f.d ≠ d) (hfs : (fs.any fun g => g.sq == sq && g.d == d) = true) : startCmd s sq d = .notYet s := by
  have hskip : (f.sq == sq && f.d == d) = false := by
    rcases hf with h | h <;> simp [h]
  obtain ⟨g, hg⟩ : ∃ g, fs.find? (fun g => g.sq == sq && g.d == d) = some g := by
    simpa [Option.isSome_iff_exists] using (List.find?_isSome (xs := fs)).mpr (by simpa using hfs)
  have hne : f ≠ g := by
    rintro rfl
    exact absurd (List.find?_some hg) (by simp [hskip])
  simp [startCmd, hs, hskip, hg, hne]

/-! ## Commands that do not run -/

theorem runCmd_of_not_serving {s : State} (h : s.serving = false) (sq : Fin 1024) (d : Desc) (body : CmdRef → State → State) :
    runCmd sq d s body = .next s := by
  simp [runCmd, h]

/-- A command whose first check fails completes with that check's status. -/
theorem runCmd_check_false {s t : State} {sq : Fin 1024} {d : Desc} {ref : CmdRef} (h : Starts s sq d ref t) {ok : State → Bool}
    {status : Nat} {k : CmdRef → State → State → State} (hok : ok t = false) :
    runCmd sq d s (fun ref s => check (ok s) status ref s (k ref s)) = .next (completeWith t ref status) := by
  rw [runCmd_of_starts h]
  simp only [hok, check_false]

theorem hdrOk_eq_false {d : Desc} {opc : Nat} (h : dOpc d ≠ opc ∨ 4 ≤ descFld d 1 1 ∨ dCid d = 0xFFFF) (ranges : List (Nat × Nat)) :
    hdrOk d opc ranges = false := by
  rcases h with h | h | h
  · simp [hdrOk, h]
  · simp [hdrOk, Nat.not_lt.mpr h]
  · simp [hdrOk, h]

/-- Settles O6: a command starts by its place among the descriptors fetched; the first check of each of the 33 commands includes its
header, and each runs only while the module serves commands. -/
theorem descriptorStartsOrIsRejected : Obligations.DescriptorStartsOrIsRejected := by
  refine ⟨fun s sq d => ⟨fun hnone hfits hfence => ⟨_, startCmd_of_not_fetched hnone hfits hfence, rfl⟩, ?_, ?_⟩, ?_, ?_⟩
  · rintro f fs hs rfl rfl hfence
    exact ⟨_, startCmd_of_fetched_first hs hfence, rfl⟩
  · exact fun f fs hs hf hfs => ⟨s, startCmd_of_fetched_later hs hf hfs, rfl⟩
  · intro sq d s t ref h h2 cfg mm bw hstart p hp hbad
    have hhdr := hdrOk_eq_false hbad
    simp only [List.mem_cons, List.not_mem_nil, or_false] at hp
    rcases hp with rfl | rfl | rfl | rfl | rfl | rfl | rfl | rfl | rfl | rfl | rfl | rfl | rfl | rfl | rfl | rfl | rfl | rfl | rfl
      | rfl | rfl | rfl | rfl | rfl | rfl | rfl | rfl | rfl | rfl | rfl | rfl | rfl | rfl <;>
    refine runCmd_check_false hstart ?_ <;>
    simp [hhdr, openFields, proposeFields, commitFields, layoutFields, auditFields, dmaFields, prxFields, snapFields, traceFields]
  · intro sq d s h h2 cfg mm bw hserving c hc
    simp only [List.mem_cons, List.not_mem_nil, or_false] at hc
    rcases hc with rfl | rfl | rfl | rfl | rfl | rfl | rfl | rfl | rfl | rfl | rfl | rfl | rfl | rfl | rfl | rfl | rfl | rfl | rfl
      | rfl | rfl | rfl | rfl | rfl | rfl | rfl | rfl | rfl | rfl | rfl | rfl | rfl | rfl <;>
    exact runCmd_of_not_serving hserving ..

end Sys2Proof.Machine

/-! PROOFS. The rules of the shared operations: what a read returns after a write, and what an interrupt source, a status bit, a fault, a
tally, a transaction and a completion leave as it was. -/

namespace Sys2Proof.Machine

/-! ## Reads after writes -/

theorem mget_mset_ne {α : Type} [DecidableEq α] {i j : Nat} (h : j ≠ i) (d e : α) (m : Map α) (x : α) :
    mget e (mset d m i x) j = mget e m j := by
  unfold mset
  split
  · rw [mget_merase, if_neg h]
  · rw [mget_minsert, if_neg h]

theorem mget_mset_same {α : Type} [DecidableEq α] (d : α) (m : Map α) (i : Nat) (x : α) : mget d (mset d m i x) i = x := by
  rw [mget_mset, if_pos rfl]

/-- A register reads as written; every other one as before. -/
theorem State.reg_setReg (s : State) (off : Nat) (v : Word) (j : Nat) : (s.setReg off v).reg j = if j = off then v else s.reg j := by
  split
  next h => subst h; exact mget_mset_same _ _ _ _
  next h => exact mget_mset_ne h _ _ _ _

@[simp] theorem State.reg_setReg_same (s : State) (off : Nat) (v : Word) : (s.setReg off v).reg off = v := by
  rw [State.reg_setReg, if_pos rfl]

theorem State.reg_setReg_ne {off j : Nat} (h : j ≠ off) (s : State) (v : Word) : (s.setReg off v).reg j = s.reg j := by
  rw [State.reg_setReg, if_neg h]

theorem State.sel_setSel_same (s : State) (a : Agent) (off : Nat) (v : Word) : (s.setSel a off v).sel a off = v := mget_mset_same _ _ _ _

@[simp] theorem State.contract_modContract (s : State) (n : Nat) (f : Contract → Contract) (m : Nat) :
    (s.modContract n f).contract m = if m = n then f (s.contract n) else s.contract m := mget_mmod _ _ _ _ _

@[simp] theorem State.stream_modStream (s : State) (n : Nat) (f : Stream → Stream) (m : Nat) :
    (s.modStream n f).stream m = if m = n then f (s.stream n) else s.stream m := mget_mmod _ _ _ _ _

@[simp] theorem State.drover_modDrover (s : State) (n : Nat) (f : Drover → Drover) (m : Nat) :
    (s.modDrover n f).drover m = if m = n then f (s.drover n) else s.drover m := mget_mmod _ _ _ _ _

@[simp] theorem State.port_modPort (s : State) (n : Nat) (f : Port → Port) (m : Nat) :
    (s.modPort n f).port m = if m = n then f (s.port n) else s.port m := mget_mmod _ _ _ _ _

@[simp] theorem State.channel_modChannel (s : State) (n : Nat) (f : Channel → Channel) (m : Nat) :
    (s.modChannel n f).channel m = if m = n then f (s.channel n) else s.channel m := mget_mmod _ _ _ _ _

@[simp] theorem State.domain_modDomain (s : State) (n : Nat) (f : Domain → Domain) (m : Nat) :
    (s.modDomain n f).domain m = if m = n then f (s.domain n) else s.domain m := mget_mmod _ _ _ _ _

@[simp] theorem State.sq_modSq (s : State) (n : Nat) (f : Sq → Sq) (m : Nat) :
    (s.modSq n f).sq m = if m = n then f (s.sq n) else s.sq m := mget_mmod _ _ _ _ _

@[simp] theorem State.cq_modCq (s : State) (n : Nat) (f : Cq → Cq) (m : Nat) :
    (s.modCq n f).cq m = if m = n then f (s.cq n) else s.cq m := mget_mmod _ _ _ _ _

@[simp] theorem State.slot_modSlot (s : State) (n : Nat) (f : LSlot → LSlot) (m : Nat) :
    (s.modSlot n f).slot m = if m = n then f (s.slot n) else s.slot m := mget_mmod _ _ _ _ _

@[simp] theorem State.slice_modSlice (s : State) (n : Nat) (f : Slice → Slice) (m : Nat) :
    (s.modSlice n f).slice m = if m = n then f (s.slice n) else s.slice m := mget_mmod _ _ _ _ _

@[simp] theorem State.dec_modDec (s : State) (n : Nat) (f : DecCore → DecCore) (m : Nat) :
    (s.modDec n f).dec m = if m = n then f (s.dec n) else s.dec m := by
  split
  next h => subst h; exact mget_mset_same _ _ _ _
  next h => exact mget_mset_ne h _ _ _ _

@[simp] theorem State.encCore_modEncCore (s : State) (n : Nat) (f : EncCore → EncCore) (m : Nat) :
    (s.modEncCore n f).encCore m = if m = n then f (s.encCore n) else s.encCore m := by
  split
  next h => subst h; exact mget_mset_same _ _ _ _
  next h => exact mget_mset_ne h _ _ _ _

/-! ## Folds -/

/-- What every step of a fold leaves, the fold leaves. -/
theorem foldl_leaves {α β : Type} {g : State → α → State} {view : State → β} (h : ∀ t x, view (g t x) = view t) (xs : List α) (s : State) :
    view (xs.foldl g s) = view s := by
  induction xs generalizing s with
  | nil => rfl
  | cons x xs ih => exact (ih _).trans (h s x)

/-! ## Interrupt sources and status bits -/

theorem pendSrc_eq_withPend (s : State) (n : Nat) : ∃ p, pendSrc s n = s.withPend p := by
  unfold pendSrc
  split
  · obtain ⟨p, hp, -⟩ := devEvent_eq_withPend s (pendRaw s n)
    exact ⟨p, hp⟩
  · exact ⟨_, rfl⟩

theorem levelSample_frame (s : State) (n : Nat) : ∃ p, levelSample s n = s.withPend p := by
  unfold levelSample
  split
  · exact pendSrc_eq_withPend s n
  · exact ⟨_, rfl⟩

/-- A status bit is stored, and what it may pend is an interrupt source. -/
theorem setStatus_frame (s : State) (off mask : Nat) :
    ∃ p, setStatus s off mask = (s.setReg off (s.reg off ||| BitVec.ofNat 32 mask)).withPend p := levelSample_frame _ _

theorem raiseFault_frame (s : State) (f : Nat) : ∃ i g x, raiseFault s f = { s with intc := i, regs := g, flt := x } := by
  unfold raiseFault
  split
  · exact ⟨_, _, _, rfl⟩
  · obtain ⟨p, hp⟩ := setStatus_frame s (Off.fltStat (f / 16)) (2 ^ (f % 16))
    dsimp only
    rw [hp]
    split
    · exact ⟨_, _, _, rfl⟩
    · exact ⟨_, _, _, rfl⟩

/-! ## Completions -/

theorem putCpl_frame (s : State) (c : Completion) : ∃ r l i, putCpl s c = { s with rings := r, link := l, intc := i } := by
  unfold putCpl
  cases c.ref with
  | none => exact ⟨_, _, _, (levelSample_frame _ _).choose_spec⟩
  | some ref => exact ⟨_, _, _, (levelSample_frame _ _).choose_spec⟩

theorem markFull_frame (s : State) (n : Nat) : ∃ r g i, markFull s n = { s with rings := r, regs := g, intc := i } := by
  unfold markFull
  split
  · exact ⟨_, _, _, (setStatus_frame _ _ _).choose_spec⟩
  · exact ⟨_, _, _, rfl⟩

/-- A completion of a command that is not deferred is written or waits. -/
theorem offerCpl_frame {c : Completion} (h : c.defer = none) (s : State) :
    ∃ r l i g, offerCpl s c = { s with rings := r, link := l, intc := i, regs := g } := by
  unfold offerCpl
  split
  · have hput : writeCpl s c = putCpl s c := by simp [writeCpl, deferredOf, h]
    obtain ⟨r, l, i, hp⟩ := putCpl_frame s c
    exact ⟨r, l, i, s.regs, hput.trans hp⟩
  · obtain ⟨r, g, i, hp⟩ := markFull_frame (s.modRings fun x => { x with waiting := x.waiting ++ [c] }) c.cq
    exact ⟨r, s.link, i, g, hp⟩

theorem complete_frame (s : State) (ref : CmdRef) (status r0 r1 r2 : Nat) :
    ∃ r l i g, complete s ref status r0 r1 r2 = { s with rings := r, link := l, intc := i, regs := g } := by
  unfold complete
  split
  · exact offerCpl_frame rfl s
  · exact ⟨_, _, _, _, rfl⟩

/-- A completion touches no register but `RING_STATUS`. -/
theorem complete_reg {j : Nat} (h : j ≠ Off.ringStatus) (s : State) (ref : CmdRef) (status r0 r1 r2 : Nat) :
    (complete s ref status r0 r1 r2).reg j = s.reg j := by
  have hfull (t : State) (n : Nat) : (markFull t n).reg j = t.reg j := by
    unfold markFull
    split
    · rw [(setStatus_frame _ _ _).choose_spec]
      exact State.reg_setReg_ne h _ _
    · rfl
  have hput (c : Completion) : (putCpl s c).reg j = s.reg j := by
    obtain ⟨r, l, i, hp⟩ := putCpl_frame s c
    rw [hp]
    rfl
  unfold complete offerCpl
  split
  · split
    · exact hput _
    · exact hfull _ _
  · rfl

theorem completeWith_reg {j : Nat} (h : j ≠ Off.ringStatus) (s : State) (ref : CmdRef) (status : Nat) :
    (completeWith s ref status).reg j = s.reg j := complete_reg h s ref status 0 0 0

theorem completeWith_frame (s : State) (ref : CmdRef) (status : Nat) :
    ∃ r l i g, completeWith s ref status = { s with rings := r, link := l, intc := i, regs := g } := complete_frame s ref status 0 0 0

/-! ## The fields that the shared operations leave -/

@[simp] theorem State.modPeer_wt (s : State) (e : Nat) (f : Peer → Peer) : (s.modPeer e f).wt = s.wt := by
  unfold State.modPeer; split <;> rfl
@[simp] theorem State.modPeer_contracts (s : State) (e : Nat) (f : Peer → Peer) : (s.modPeer e f).contracts = s.contracts := by
  unfold State.modPeer; split <;> rfl
@[simp] theorem State.modPeer_streams (s : State) (e : Nat) (f : Peer → Peer) : (s.modPeer e f).streams = s.streams := by
  unfold State.modPeer; split <;> rfl
@[simp] theorem State.modPeer_decs (s : State) (e : Nat) (f : Peer → Peer) : (s.modPeer e f).decs = s.decs := by
  unfold State.modPeer; split <;> rfl
@[simp] theorem State.modPeer_comp (s : State) (e : Nat) (f : Peer → Peer) : (s.modPeer e f).comp = s.comp := by
  unfold State.modPeer; split <;> rfl
@[simp] theorem State.modPeer_corr (s : State) (e : Nat) (f : Peer → Peer) : (s.modPeer e f).corr = s.corr := by
  unfold State.modPeer; split <;> rfl
@[simp] theorem State.modPeer_enc (s : State) (e : Nat) (f : Peer → Peer) : (s.modPeer e f).enc = s.enc := by
  unfold State.modPeer; split <;> rfl
@[simp] theorem State.modPeer_prx (s : State) (e : Nat) (f : Peer → Peer) : (s.modPeer e f).prx = s.prx := by
  unfold State.modPeer; split <;> rfl
@[simp] theorem State.modPeer_drovers (s : State) (e : Nat) (f : Peer → Peer) : (s.modPeer e f).drovers = s.drovers := by
  unfold State.modPeer; split <;> rfl
@[simp] theorem State.modPeer_eg (s : State) (e : Nat) (f : Peer → Peer) : (s.modPeer e f).eg = s.eg := by
  unfold State.modPeer; split <;> rfl
@[simp] theorem State.modPeer_buf (s : State) (e : Nat) (f : Peer → Peer) : (s.modPeer e f).buf = s.buf := by
  unfold State.modPeer; split <;> rfl
@[simp] theorem State.modPeer_qcfg (s : State) (e : Nat) (f : Peer → Peer) : (s.modPeer e f).qcfg = s.qcfg := by
  unfold State.modPeer; split <;> rfl
@[simp] theorem State.modPeer_tbl (s : State) (e : Nat) (f : Peer → Peer) : (s.modPeer e f).tbl = s.tbl := by
  unfold State.modPeer; split <;> rfl
@[simp] theorem State.modPeer_link (s : State) (e : Nat) (f : Peer → Peer) : (s.modPeer e f).link = s.link := by
  unfold State.modPeer; split <;> rfl
@[simp] theorem State.modPeer_rings (s : State) (e : Nat) (f : Peer → Peer) : (s.modPeer e f).rings = s.rings := by
  unfold State.modPeer; split <;> rfl
@[simp] theorem State.modPeer_mem (s : State) (e : Nat) (f : Peer → Peer) : (s.modPeer e f).mem = s.mem := by
  unfold State.modPeer; split <;> rfl
@[simp] theorem State.modPeer_dma (s : State) (e : Nat) (f : Peer → Peer) : (s.modPeer e f).dma = s.dma := by
  unfold State.modPeer; split <;> rfl
@[simp] theorem State.modPeer_intc (s : State) (e : Nat) (f : Peer → Peer) : (s.modPeer e f).intc = s.intc := by
  unfold State.modPeer; split <;> rfl
@[simp] theorem State.modPeer_flt (s : State) (e : Nat) (f : Peer → Peer) : (s.modPeer e f).flt = s.flt := by
  unfold State.modPeer; split <;> rfl
@[simp] theorem State.modPeer_pwr (s : State) (e : Nat) (f : Peer → Peer) : (s.modPeer e f).pwr = s.pwr := by
  unfold State.modPeer; split <;> rfl
@[simp] theorem State.modPeer_nvm (s : State) (e : Nat) (f : Peer → Peer) : (s.modPeer e f).nvm = s.nvm := by
  unfold State.modPeer; split <;> rfl
@[simp] theorem State.modPeer_tly (s : State) (e : Nat) (f : Peer → Peer) : (s.modPeer e f).tly = s.tly := by
  unfold State.modPeer; split <;> rfl
@[simp] theorem State.modPeer_cages (s : State) (e : Nat) (f : Peer → Peer) : (s.modPeer e f).cages = s.cages := by
  unfold State.modPeer; split <;> rfl
@[simp] theorem State.modPeer_regs (s : State) (e : Nat) (f : Peer → Peer) : (s.modPeer e f).regs = s.regs := by
  unfold State.modPeer; split <;> rfl
@[simp] theorem State.modPeer_sels (s : State) (e : Nat) (f : Peer → Peer) : (s.modPeer e f).sels = s.sels := by
  unfold State.modPeer; split <;> rfl
@[simp] theorem State.modPeer_latches (s : State) (e : Nat) (f : Peer → Peer) : (s.modPeer e f).latches = s.latches := by
  unfold State.modPeer; split <;> rfl
@[simp] theorem State.modPeer_free (s : State) (e : Nat) (f : Peer → Peer) : (s.modPeer e f).free = s.free := by
  unfold State.modPeer; split <;> rfl
@[simp] theorem State.modPeer_pending (s : State) (e : Nat) (f : Peer → Peer) : (s.modPeer e f).pending = s.pending := by
  unfold State.modPeer; split <;> rfl

@[simp] theorem pendSrc_wt (s : State) (n : Nat) : (pendSrc s n).wt = s.wt := by
  rw [(pendSrc_eq_withPend s n).choose_spec]; rfl
@[simp] theorem pendSrc_contracts (s : State) (n : Nat) : (pendSrc s n).contracts = s.contracts := by
  rw [(pendSrc_eq_withPend s n).choose_spec]; rfl
@[simp] theorem pendSrc_streams (s : State) (n : Nat) : (pendSrc s n).streams = s.streams := by
  rw [(pendSrc_eq_withPend s n).choose_spec]; rfl
@[simp] theorem pendSrc_decs (s : State) (n : Nat) : (pendSrc s n).decs = s.decs := by
  rw [(pendSrc_eq_withPend s n).choose_spec]; rfl
@[simp] theorem pendSrc_comp (s : State) (n : Nat) : (pendSrc s n).comp = s.comp := by
  rw [(pendSrc_eq_withPend s n).choose_spec]; rfl
@[simp] theorem pendSrc_corr (s : State) (n : Nat) : (pendSrc s n).corr = s.corr := by
  rw [(pendSrc_eq_withPend s n).choose_spec]; rfl
@[simp] theorem pendSrc_enc (s : State) (n : Nat) : (pendSrc s n).enc = s.enc := by
  rw [(pendSrc_eq_withPend s n).choose_spec]; rfl
@[simp] theorem pendSrc_prx (s : State) (n : Nat) : (pendSrc s n).prx = s.prx := by
  rw [(pendSrc_eq_withPend s n).choose_spec]; rfl
@[simp] theorem pendSrc_drovers (s : State) (n : Nat) : (pendSrc s n).drovers = s.drovers := by
  rw [(pendSrc_eq_withPend s n).choose_spec]; rfl
@[simp] theorem pendSrc_eg (s : State) (n : Nat) : (pendSrc s n).eg = s.eg := by
  rw [(pendSrc_eq_withPend s n).choose_spec]; rfl
@[simp] theorem pendSrc_buf (s : State) (n : Nat) : (pendSrc s n).buf = s.buf := by
  rw [(pendSrc_eq_withPend s n).choose_spec]; rfl
@[simp] theorem pendSrc_qcfg (s : State) (n : Nat) : (pendSrc s n).qcfg = s.qcfg := by
  rw [(pendSrc_eq_withPend s n).choose_spec]; rfl
@[simp] theorem pendSrc_tbl (s : State) (n : Nat) : (pendSrc s n).tbl = s.tbl := by
  rw [(pendSrc_eq_withPend s n).choose_spec]; rfl
@[simp] theorem pendSrc_peerE (s : State) (n : Nat) : (pendSrc s n).peerE = s.peerE := by
  rw [(pendSrc_eq_withPend s n).choose_spec]; rfl
@[simp] theorem pendSrc_peerW (s : State) (n : Nat) : (pendSrc s n).peerW = s.peerW := by
  rw [(pendSrc_eq_withPend s n).choose_spec]; rfl
@[simp] theorem pendSrc_link (s : State) (n : Nat) : (pendSrc s n).link = s.link := by
  rw [(pendSrc_eq_withPend s n).choose_spec]; rfl
@[simp] theorem pendSrc_rings (s : State) (n : Nat) : (pendSrc s n).rings = s.rings := by
  rw [(pendSrc_eq_withPend s n).choose_spec]; rfl
@[simp] theorem pendSrc_mem (s : State) (n : Nat) : (pendSrc s n).mem = s.mem := by
  rw [(pendSrc_eq_withPend s n).choose_spec]; rfl
@[simp] theorem pendSrc_dma (s : State) (n : Nat) : (pendSrc s n).dma = s.dma := by
  rw [(pendSrc_eq_withPend s n).choose_spec]; rfl
@[simp] theorem pendSrc_flt (s : State) (n : Nat) : (pendSrc s n).flt = s.flt := by
  rw [(pendSrc_eq_withPend s n).choose_spec]; rfl
@[simp] theorem pendSrc_pwr (s : State) (n : Nat) : (pendSrc s n).pwr = s.pwr := by
  rw [(pendSrc_eq_withPend s n).choose_spec]; rfl
@[simp] theorem pendSrc_nvm (s : State) (n : Nat) : (pendSrc s n).nvm = s.nvm := by
  rw [(pendSrc_eq_withPend s n).choose_spec]; rfl
@[simp] theorem pendSrc_tly (s : State) (n : Nat) : (pendSrc s n).tly = s.tly := by
  rw [(pendSrc_eq_withPend s n).choose_spec]; rfl
@[simp] theorem pendSrc_cages (s : State) (n : Nat) : (pendSrc s n).cages = s.cages := by
  rw [(pendSrc_eq_withPend s n).choose_spec]; rfl
@[simp] theorem pendSrc_regs (s : State) (n : Nat) : (pendSrc s n).regs = s.regs := by
  rw [(pendSrc_eq_withPend s n).choose_spec]; rfl
@[simp] theorem pendSrc_sels (s : State) (n : Nat) : (pendSrc s n).sels = s.sels := by
  rw [(pendSrc_eq_withPend s n).choose_spec]; rfl
@[simp] theorem pendSrc_latches (s : State) (n : Nat) : (pendSrc s n).latches = s.latches := by
  rw [(pendSrc_eq_withPend s n).choose_spec]; rfl
@[simp] theorem pendSrc_free (s : State) (n : Nat) : (pendSrc s n).free = s.free := by
  rw [(pendSrc_eq_withPend s n).choose_spec]; rfl
@[simp] theorem pendSrc_pending (s : State) (n : Nat) : (pendSrc s n).pending = s.pending := by
  rw [(pendSrc_eq_withPend s n).choose_spec]; rfl

@[simp] theorem levelSample_wt (s : State) (n : Nat) : (levelSample s n).wt = s.wt := by
  rw [(levelSample_frame s n).choose_spec]; rfl
@[simp] theorem levelSample_contracts (s : State) (n : Nat) : (levelSample s n).contracts = s.contracts := by
  rw [(levelSample_frame s n).choose_spec]; rfl
@[simp] theorem levelSample_streams (s : State) (n : Nat) : (levelSample s n).streams = s.streams := by
  rw [(levelSample_frame s n).choose_spec]; rfl
@[simp] theorem levelSample_decs (s : State) (n : Nat) : (levelSample s n).decs = s.decs := by
  rw [(levelSample_frame s n).choose_spec]; rfl
@[simp] theorem levelSample_comp (s : State) (n : Nat) : (levelSample s n).comp = s.comp := by
  rw [(levelSample_frame s n).choose_spec]; rfl
@[simp] theorem levelSample_corr (s : State) (n : Nat) : (levelSample s n).corr = s.corr := by
  rw [(levelSample_frame s n).choose_spec]; rfl
@[simp] theorem levelSample_enc (s : State) (n : Nat) : (levelSample s n).enc = s.enc := by
  rw [(levelSample_frame s n).choose_spec]; rfl
@[simp] theorem levelSample_prx (s : State) (n : Nat) : (levelSample s n).prx = s.prx := by
  rw [(levelSample_frame s n).choose_spec]; rfl
@[simp] theorem levelSample_drovers (s : State) (n : Nat) : (levelSample s n).drovers = s.drovers := by
  rw [(levelSample_frame s n).choose_spec]; rfl
@[simp] theorem levelSample_eg (s : State) (n : Nat) : (levelSample s n).eg = s.eg := by
  rw [(levelSample_frame s n).choose_spec]; rfl
@[simp] theorem levelSample_buf (s : State) (n : Nat) : (levelSample s n).buf = s.buf := by
  rw [(levelSample_frame s n).choose_spec]; rfl
@[simp] theorem levelSample_qcfg (s : State) (n : Nat) : (levelSample s n).qcfg = s.qcfg := by
  rw [(levelSample_frame s n).choose_spec]; rfl
@[simp] theorem levelSample_tbl (s : State) (n : Nat) : (levelSample s n).tbl = s.tbl := by
  rw [(levelSample_frame s n).choose_spec]; rfl
@[simp] theorem levelSample_peerE (s : State) (n : Nat) : (levelSample s n).peerE = s.peerE := by
  rw [(levelSample_frame s n).choose_spec]; rfl
@[simp] theorem levelSample_peerW (s : State) (n : Nat) : (levelSample s n).peerW = s.peerW := by
  rw [(levelSample_frame s n).choose_spec]; rfl
@[simp] theorem levelSample_link (s : State) (n : Nat) : (levelSample s n).link = s.link := by
  rw [(levelSample_frame s n).choose_spec]; rfl
@[simp] theorem levelSample_rings (s : State) (n : Nat) : (levelSample s n).rings = s.rings := by
  rw [(levelSample_frame s n).choose_spec]; rfl
@[simp] theorem levelSample_mem (s : State) (n : Nat) : (levelSample s n).mem = s.mem := by
  rw [(levelSample_frame s n).choose_spec]; rfl
@[simp] theorem levelSample_dma (s : State) (n : Nat) : (levelSample s n).dma = s.dma := by
  rw [(levelSample_frame s n).choose_spec]; rfl
@[simp] theorem levelSample_flt (s : State) (n : Nat) : (levelSample s n).flt = s.flt := by
  rw [(levelSample_frame s n).choose_spec]; rfl
@[simp] theorem levelSample_pwr (s : State) (n : Nat) : (levelSample s n).pwr = s.pwr := by
  rw [(levelSample_frame s n).choose_spec]; rfl
@[simp] theorem levelSample_nvm (s : State) (n : Nat) : (levelSample s n).nvm = s.nvm := by
  rw [(levelSample_frame s n).choose_spec]; rfl
@[simp] theorem levelSample_tly (s : State) (n : Nat) : (levelSample s n).tly = s.tly := by
  rw [(levelSample_frame s n).choose_spec]; rfl
@[simp] theorem levelSample_cages (s : State) (n : Nat) : (levelSample s n).cages = s.cages := by
  rw [(levelSample_frame s n).choose_spec]; rfl
@[simp] theorem levelSample_regs (s : State) (n : Nat) : (levelSample s n).regs = s.regs := by
  rw [(levelSample_frame s n).choose_spec]; rfl
@[simp] theorem levelSample_sels (s : State) (n : Nat) : (levelSample s n).sels = s.sels := by
  rw [(levelSample_frame s n).choose_spec]; rfl
@[simp] theorem levelSample_latches (s : State) (n : Nat) : (levelSample s n).latches = s.latches := by
  rw [(levelSample_frame s n).choose_spec]; rfl
@[simp] theorem levelSample_free (s : State) (n : Nat) : (levelSample s n).free = s.free := by
  rw [(levelSample_frame s n).choose_spec]; rfl
@[simp] theorem levelSample_pending (s : State) (n : Nat) : (levelSample s n).pending = s.pending := by
  rw [(levelSample_frame s n).choose_spec]; rfl

@[simp] theorem setStatus_wt (s : State) (off mask : Nat) : (setStatus s off mask).wt = s.wt := by
  rw [(setStatus_frame s off mask).choose_spec]; rfl
@[simp] theorem setStatus_contracts (s : State) (off mask : Nat) : (setStatus s off mask).contracts = s.contracts := by
  rw [(setStatus_frame s off mask).choose_spec]; rfl
@[simp] theorem setStatus_streams (s : State) (off mask : Nat) : (setStatus s off mask).streams = s.streams := by
  rw [(setStatus_frame s off mask).choose_spec]; rfl
@[simp] theorem setStatus_decs (s : State) (off mask : Nat) : (setStatus s off mask).decs = s.decs := by
  rw [(setStatus_frame s off mask).choose_spec]; rfl
@[simp] theorem setStatus_comp (s : State) (off mask : Nat) : (setStatus s off mask).comp = s.comp := by
  rw [(setStatus_frame s off mask).choose_spec]; rfl
@[simp] theorem setStatus_corr (s : State) (off mask : Nat) : (setStatus s off mask).corr = s.corr := by
  rw [(setStatus_frame s off mask).choose_spec]; rfl
@[simp] theorem setStatus_enc (s : State) (off mask : Nat) : (setStatus s off mask).enc = s.enc := by
  rw [(setStatus_frame s off mask).choose_spec]; rfl
@[simp] theorem setStatus_prx (s : State) (off mask : Nat) : (setStatus s off mask).prx = s.prx := by
  rw [(setStatus_frame s off mask).choose_spec]; rfl
@[simp] theorem setStatus_drovers (s : State) (off mask : Nat) : (setStatus s off mask).drovers = s.drovers := by
  rw [(setStatus_frame s off mask).choose_spec]; rfl
@[simp] theorem setStatus_eg (s : State) (off mask : Nat) : (setStatus s off mask).eg = s.eg := by
  rw [(setStatus_frame s off mask).choose_spec]; rfl
@[simp] theorem setStatus_buf (s : State) (off mask : Nat) : (setStatus s off mask).buf = s.buf := by
  rw [(setStatus_frame s off mask).choose_spec]; rfl
@[simp] theorem setStatus_qcfg (s : State) (off mask : Nat) : (setStatus s off mask).qcfg = s.qcfg := by
  rw [(setStatus_frame s off mask).choose_spec]; rfl
@[simp] theorem setStatus_tbl (s : State) (off mask : Nat) : (setStatus s off mask).tbl = s.tbl := by
  rw [(setStatus_frame s off mask).choose_spec]; rfl
@[simp] theorem setStatus_peerE (s : State) (off mask : Nat) : (setStatus s off mask).peerE = s.peerE := by
  rw [(setStatus_frame s off mask).choose_spec]; rfl
@[simp] theorem setStatus_peerW (s : State) (off mask : Nat) : (setStatus s off mask).peerW = s.peerW := by
  rw [(setStatus_frame s off mask).choose_spec]; rfl
@[simp] theorem setStatus_link (s : State) (off mask : Nat) : (setStatus s off mask).link = s.link := by
  rw [(setStatus_frame s off mask).choose_spec]; rfl
@[simp] theorem setStatus_rings (s : State) (off mask : Nat) : (setStatus s off mask).rings = s.rings := by
  rw [(setStatus_frame s off mask).choose_spec]; rfl
@[simp] theorem setStatus_mem (s : State) (off mask : Nat) : (setStatus s off mask).mem = s.mem := by
  rw [(setStatus_frame s off mask).choose_spec]; rfl
@[simp] theorem setStatus_dma (s : State) (off mask : Nat) : (setStatus s off mask).dma = s.dma := by
  rw [(setStatus_frame s off mask).choose_spec]; rfl
@[simp] theorem setStatus_flt (s : State) (off mask : Nat) : (setStatus s off mask).flt = s.flt := by
  rw [(setStatus_frame s off mask).choose_spec]; rfl
@[simp] theorem setStatus_pwr (s : State) (off mask : Nat) : (setStatus s off mask).pwr = s.pwr := by
  rw [(setStatus_frame s off mask).choose_spec]; rfl
@[simp] theorem setStatus_nvm (s : State) (off mask : Nat) : (setStatus s off mask).nvm = s.nvm := by
  rw [(setStatus_frame s off mask).choose_spec]; rfl
@[simp] theorem setStatus_tly (s : State) (off mask : Nat) : (setStatus s off mask).tly = s.tly := by
  rw [(setStatus_frame s off mask).choose_spec]; rfl
@[simp] theorem setStatus_cages (s : State) (off mask : Nat) : (setStatus s off mask).cages = s.cages := by
  rw [(setStatus_frame s off mask).choose_spec]; rfl
@[simp] theorem setStatus_sels (s : State) (off mask : Nat) : (setStatus s off mask).sels = s.sels := by
  rw [(setStatus_frame s off mask).choose_spec]; rfl
@[simp] theorem setStatus_latches (s : State) (off mask : Nat) : (setStatus s off mask).latches = s.latches := by
  rw [(setStatus_frame s off mask).choose_spec]; rfl
@[simp] theorem setStatus_free (s : State) (off mask : Nat) : (setStatus s off mask).free = s.free := by
  rw [(setStatus_frame s off mask).choose_spec]; rfl
@[simp] theorem setStatus_pending (s : State) (off mask : Nat) : (setStatus s off mask).pending = s.pending := by
  rw [(setStatus_frame s off mask).choose_spec]; rfl

@[simp] theorem raiseFault_wt (s : State) (f : Nat) : (raiseFault s f).wt = s.wt := by
  obtain ⟨_, _, _, h⟩ := raiseFault_frame s f; rw [h]
@[simp] theorem raiseFault_contracts (s : State) (f : Nat) : (raiseFault s f).contracts = s.contracts := by
  obtain ⟨_, _, _, h⟩ := raiseFault_frame s f; rw [h]
@[simp] theorem raiseFault_streams (s : State) (f : Nat) : (raiseFault s f).streams = s.streams := by
  obtain ⟨_, _, _, h⟩ := raiseFault_frame s f; rw [h]
@[simp] theorem raiseFault_decs (s : State) (f : Nat) : (raiseFault s f).decs = s.decs := by
  obtain ⟨_, _, _, h⟩ := raiseFault_frame s f; rw [h]
@[simp] theorem raiseFault_comp (s : State) (f : Nat) : (raiseFault s f).comp = s.comp := by
  obtain ⟨_, _, _, h⟩ := raiseFault_frame s f; rw [h]
@[simp] theorem raiseFault_corr (s : State) (f : Nat) : (raiseFault s f).corr = s.corr := by
  obtain ⟨_, _, _, h⟩ := raiseFault_frame s f; rw [h]
@[simp] theorem raiseFault_enc (s : State) (f : Nat) : (raiseFault s f).enc = s.enc := by
  obtain ⟨_, _, _, h⟩ := raiseFault_frame s f; rw [h]
@[simp] theorem raiseFault_prx (s : State) (f : Nat) : (raiseFault s f).prx = s.prx := by
  obtain ⟨_, _, _, h⟩ := raiseFault_frame s f; rw [h]
@[simp] theorem raiseFault_drovers (s : State) (f : Nat) : (raiseFault s f).drovers = s.drovers := by
  obtain ⟨_, _, _, h⟩ := raiseFault_frame s f; rw [h]
@[simp] theorem raiseFault_eg (s : State) (f : Nat) : (raiseFault s f).eg = s.eg := by
  obtain ⟨_, _, _, h⟩ := raiseFault_frame s f; rw [h]
@[simp] theorem raiseFault_buf (s : State) (f : Nat) : (raiseFault s f).buf = s.buf := by
  obtain ⟨_, _, _, h⟩ := raiseFault_frame s f; rw [h]
@[simp] theorem raiseFault_qcfg (s : State) (f : Nat) : (raiseFault s f).qcfg = s.qcfg := by
  obtain ⟨_, _, _, h⟩ := raiseFault_frame s f; rw [h]
@[simp] theorem raiseFault_tbl (s : State) (f : Nat) : (raiseFault s f).tbl = s.tbl := by
  obtain ⟨_, _, _, h⟩ := raiseFault_frame s f; rw [h]
@[simp] theorem raiseFault_peerE (s : State) (f : Nat) : (raiseFault s f).peerE = s.peerE := by
  obtain ⟨_, _, _, h⟩ := raiseFault_frame s f; rw [h]
@[simp] theorem raiseFault_peerW (s : State) (f : Nat) : (raiseFault s f).peerW = s.peerW := by
  obtain ⟨_, _, _, h⟩ := raiseFault_frame s f; rw [h]
@[simp] theorem raiseFault_link (s : State) (f : Nat) : (raiseFault s f).link = s.link := by
  obtain ⟨_, _, _, h⟩ := raiseFault_frame s f; rw [h]
@[simp] theorem raiseFault_rings (s : State) (f : Nat) : (raiseFault s f).rings = s.rings := by
  obtain ⟨_, _, _, h⟩ := raiseFault_frame s f; rw [h]
@[simp] theorem raiseFault_mem (s : State) (f : Nat) : (raiseFault s f).mem = s.mem := by
  obtain ⟨_, _, _, h⟩ := raiseFault_frame s f; rw [h]
@[simp] theorem raiseFault_dma (s : State) (f : Nat) : (raiseFault s f).dma = s.dma := by
  obtain ⟨_, _, _, h⟩ := raiseFault_frame s f; rw [h]
@[simp] theorem raiseFault_pwr (s : State) (f : Nat) : (raiseFault s f).pwr = s.pwr := by
  obtain ⟨_, _, _, h⟩ := raiseFault_frame s f; rw [h]
@[simp] theorem raiseFault_nvm (s : State) (f : Nat) : (raiseFault s f).nvm = s.nvm := by
  obtain ⟨_, _, _, h⟩ := raiseFault_frame s f; rw [h]
@[simp] theorem raiseFault_tly (s : State) (f : Nat) : (raiseFault s f).tly = s.tly := by
  obtain ⟨_, _, _, h⟩ := raiseFault_frame s f; rw [h]
@[simp] theorem raiseFault_cages (s : State) (f : Nat) : (raiseFault s f).cages = s.cages := by
  obtain ⟨_, _, _, h⟩ := raiseFault_frame s f; rw [h]
@[simp] theorem raiseFault_sels (s : State) (f : Nat) : (raiseFault s f).sels = s.sels := by
  obtain ⟨_, _, _, h⟩ := raiseFault_frame s f; rw [h]
@[simp] theorem raiseFault_latches (s : State) (f : Nat) : (raiseFault s f).latches = s.latches := by
  obtain ⟨_, _, _, h⟩ := raiseFault_frame s f; rw [h]
@[simp] theorem raiseFault_free (s : State) (f : Nat) : (raiseFault s f).free = s.free := by
  obtain ⟨_, _, _, h⟩ := raiseFault_frame s f; rw [h]
@[simp] theorem raiseFault_pending (s : State) (f : Nat) : (raiseFault s f).pending = s.pending := by
  obtain ⟨_, _, _, h⟩ := raiseFault_frame s f; rw [h]

@[simp] theorem tallyAdd_wt (s : State) (i n : Nat) : (tallyAdd s i n).wt = s.wt := rfl
@[simp] theorem tallyAdd_contracts (s : State) (i n : Nat) : (tallyAdd s i n).contracts = s.contracts := rfl
@[simp] theorem tallyAdd_streams (s : State) (i n : Nat) : (tallyAdd s i n).streams = s.streams := rfl
@[simp] theorem tallyAdd_decs (s : State) (i n : Nat) : (tallyAdd s i n).decs = s.decs := rfl
@[simp] theorem tallyAdd_comp (s : State) (i n : Nat) : (tallyAdd s i n).comp = s.comp := rfl
@[simp] theorem tallyAdd_corr (s : State) (i n : Nat) : (tallyAdd s i n).corr = s.corr := rfl
@[simp] theorem tallyAdd_enc (s : State) (i n : Nat) : (tallyAdd s i n).enc = s.enc := rfl
@[simp] theorem tallyAdd_prx (s : State) (i n : Nat) : (tallyAdd s i n).prx = s.prx := rfl
@[simp] theorem tallyAdd_drovers (s : State) (i n : Nat) : (tallyAdd s i n).drovers = s.drovers := rfl
@[simp] theorem tallyAdd_eg (s : State) (i n : Nat) : (tallyAdd s i n).eg = s.eg := rfl
@[simp] theorem tallyAdd_buf (s : State) (i n : Nat) : (tallyAdd s i n).buf = s.buf := rfl
@[simp] theorem tallyAdd_qcfg (s : State) (i n : Nat) : (tallyAdd s i n).qcfg = s.qcfg := rfl
@[simp] theorem tallyAdd_tbl (s : State) (i n : Nat) : (tallyAdd s i n).tbl = s.tbl := rfl
@[simp] theorem tallyAdd_peerE (s : State) (i n : Nat) : (tallyAdd s i n).peerE = s.peerE := rfl
@[simp] theorem tallyAdd_peerW (s : State) (i n : Nat) : (tallyAdd s i n).peerW = s.peerW := rfl
@[simp] theorem tallyAdd_link (s : State) (i n : Nat) : (tallyAdd s i n).link = s.link := rfl
@[simp] theorem tallyAdd_rings (s : State) (i n : Nat) : (tallyAdd s i n).rings = s.rings := rfl
@[simp] theorem tallyAdd_mem (s : State) (i n : Nat) : (tallyAdd s i n).mem = s.mem := rfl
@[simp] theorem tallyAdd_dma (s : State) (i n : Nat) : (tallyAdd s i n).dma = s.dma := rfl
@[simp] theorem tallyAdd_intc (s : State) (i n : Nat) : (tallyAdd s i n).intc = s.intc := rfl
@[simp] theorem tallyAdd_flt (s : State) (i n : Nat) : (tallyAdd s i n).flt = s.flt := rfl
@[simp] theorem tallyAdd_pwr (s : State) (i n : Nat) : (tallyAdd s i n).pwr = s.pwr := rfl
@[simp] theorem tallyAdd_nvm (s : State) (i n : Nat) : (tallyAdd s i n).nvm = s.nvm := rfl
@[simp] theorem tallyAdd_cages (s : State) (i n : Nat) : (tallyAdd s i n).cages = s.cages := rfl
@[simp] theorem tallyAdd_regs (s : State) (i n : Nat) : (tallyAdd s i n).regs = s.regs := rfl
@[simp] theorem tallyAdd_sels (s : State) (i n : Nat) : (tallyAdd s i n).sels = s.sels := rfl
@[simp] theorem tallyAdd_latches (s : State) (i n : Nat) : (tallyAdd s i n).latches = s.latches := rfl
@[simp] theorem tallyAdd_free (s : State) (i n : Nat) : (tallyAdd s i n).free = s.free := rfl
@[simp] theorem tallyAdd_pending (s : State) (i n : Nat) : (tallyAdd s i n).pending = s.pending := rfl

@[simp] theorem complete_wt (s : State) (ref : CmdRef) (status r0 r1 r2 : Nat) : (complete s ref status r0 r1 r2).wt = s.wt := by
  obtain ⟨_, _, _, _, h⟩ := complete_frame s ref status r0 r1 r2; rw [h]
@[simp] theorem complete_contracts (s : State) (ref : CmdRef) (status r0 r1 r2 : Nat) : (complete s ref status r0 r1 r2).contracts = s.contracts := by
  obtain ⟨_, _, _, _, h⟩ := complete_frame s ref status r0 r1 r2; rw [h]
@[simp] theorem complete_streams (s : State) (ref : CmdRef) (status r0 r1 r2 : Nat) : (complete s ref status r0 r1 r2).streams = s.streams := by
  obtain ⟨_, _, _, _, h⟩ := complete_frame s ref status r0 r1 r2; rw [h]
@[simp] theorem complete_decs (s : State) (ref : CmdRef) (status r0 r1 r2 : Nat) : (complete s ref status r0 r1 r2).decs = s.decs := by
  obtain ⟨_, _, _, _, h⟩ := complete_frame s ref status r0 r1 r2; rw [h]
@[simp] theorem complete_comp (s : State) (ref : CmdRef) (status r0 r1 r2 : Nat) : (complete s ref status r0 r1 r2).comp = s.comp := by
  obtain ⟨_, _, _, _, h⟩ := complete_frame s ref status r0 r1 r2; rw [h]
@[simp] theorem complete_corr (s : State) (ref : CmdRef) (status r0 r1 r2 : Nat) : (complete s ref status r0 r1 r2).corr = s.corr := by
  obtain ⟨_, _, _, _, h⟩ := complete_frame s ref status r0 r1 r2; rw [h]
@[simp] theorem complete_enc (s : State) (ref : CmdRef) (status r0 r1 r2 : Nat) : (complete s ref status r0 r1 r2).enc = s.enc := by
  obtain ⟨_, _, _, _, h⟩ := complete_frame s ref status r0 r1 r2; rw [h]
@[simp] theorem complete_prx (s : State) (ref : CmdRef) (status r0 r1 r2 : Nat) : (complete s ref status r0 r1 r2).prx = s.prx := by
  obtain ⟨_, _, _, _, h⟩ := complete_frame s ref status r0 r1 r2; rw [h]
@[simp] theorem complete_drovers (s : State) (ref : CmdRef) (status r0 r1 r2 : Nat) : (complete s ref status r0 r1 r2).drovers = s.drovers := by
  obtain ⟨_, _, _, _, h⟩ := complete_frame s ref status r0 r1 r2; rw [h]
@[simp] theorem complete_eg (s : State) (ref : CmdRef) (status r0 r1 r2 : Nat) : (complete s ref status r0 r1 r2).eg = s.eg := by
  obtain ⟨_, _, _, _, h⟩ := complete_frame s ref status r0 r1 r2; rw [h]
@[simp] theorem complete_buf (s : State) (ref : CmdRef) (status r0 r1 r2 : Nat) : (complete s ref status r0 r1 r2).buf = s.buf := by
  obtain ⟨_, _, _, _, h⟩ := complete_frame s ref status r0 r1 r2; rw [h]
@[simp] theorem complete_qcfg (s : State) (ref : CmdRef) (status r0 r1 r2 : Nat) : (complete s ref status r0 r1 r2).qcfg = s.qcfg := by
  obtain ⟨_, _, _, _, h⟩ := complete_frame s ref status r0 r1 r2; rw [h]
@[simp] theorem complete_tbl (s : State) (ref : CmdRef) (status r0 r1 r2 : Nat) : (complete s ref status r0 r1 r2).tbl = s.tbl := by
  obtain ⟨_, _, _, _, h⟩ := complete_frame s ref status r0 r1 r2; rw [h]
@[simp] theorem complete_peerE (s : State) (ref : CmdRef) (status r0 r1 r2 : Nat) : (complete s ref status r0 r1 r2).peerE = s.peerE := by
  obtain ⟨_, _, _, _, h⟩ := complete_frame s ref status r0 r1 r2; rw [h]
@[simp] theorem complete_peerW (s : State) (ref : CmdRef) (status r0 r1 r2 : Nat) : (complete s ref status r0 r1 r2).peerW = s.peerW := by
  obtain ⟨_, _, _, _, h⟩ := complete_frame s ref status r0 r1 r2; rw [h]
@[simp] theorem complete_mem (s : State) (ref : CmdRef) (status r0 r1 r2 : Nat) : (complete s ref status r0 r1 r2).mem = s.mem := by
  obtain ⟨_, _, _, _, h⟩ := complete_frame s ref status r0 r1 r2; rw [h]
@[simp] theorem complete_dma (s : State) (ref : CmdRef) (status r0 r1 r2 : Nat) : (complete s ref status r0 r1 r2).dma = s.dma := by
  obtain ⟨_, _, _, _, h⟩ := complete_frame s ref status r0 r1 r2; rw [h]
@[simp] theorem complete_flt (s : State) (ref : CmdRef) (status r0 r1 r2 : Nat) : (complete s ref status r0 r1 r2).flt = s.flt := by
  obtain ⟨_, _, _, _, h⟩ := complete_frame s ref status r0 r1 r2; rw [h]
@[simp] theorem complete_pwr (s : State) (ref : CmdRef) (status r0 r1 r2 : Nat) : (complete s ref status r0 r1 r2).pwr = s.pwr := by
  obtain ⟨_, _, _, _, h⟩ := complete_frame s ref status r0 r1 r2; rw [h]
@[simp] theorem complete_nvm (s : State) (ref : CmdRef) (status r0 r1 r2 : Nat) : (complete s ref status r0 r1 r2).nvm = s.nvm := by
  obtain ⟨_, _, _, _, h⟩ := complete_frame s ref status r0 r1 r2; rw [h]
@[simp] theorem complete_tly (s : State) (ref : CmdRef) (status r0 r1 r2 : Nat) : (complete s ref status r0 r1 r2).tly = s.tly := by
  obtain ⟨_, _, _, _, h⟩ := complete_frame s ref status r0 r1 r2; rw [h]
@[simp] theorem complete_cages (s : State) (ref : CmdRef) (status r0 r1 r2 : Nat) : (complete s ref status r0 r1 r2).cages = s.cages := by
  obtain ⟨_, _, _, _, h⟩ := complete_frame s ref status r0 r1 r2; rw [h]
@[simp] theorem complete_sels (s : State) (ref : CmdRef) (status r0 r1 r2 : Nat) : (complete s ref status r0 r1 r2).sels = s.sels := by
  obtain ⟨_, _, _, _, h⟩ := complete_frame s ref status r0 r1 r2; rw [h]
@[simp] theorem complete_latches (s : State) (ref : CmdRef) (status r0 r1 r2 : Nat) : (complete s ref status r0 r1 r2).latches = s.latches := by
  obtain ⟨_, _, _, _, h⟩ := complete_frame s ref status r0 r1 r2; rw [h]
@[simp] theorem complete_free (s : State) (ref : CmdRef) (status r0 r1 r2 : Nat) : (complete s ref status r0 r1 r2).free = s.free := by
  obtain ⟨_, _, _, _, h⟩ := complete_frame s ref status r0 r1 r2; rw [h]
@[simp] theorem complete_pending (s : State) (ref : CmdRef) (status r0 r1 r2 : Nat) : (complete s ref status r0 r1 r2).pending = s.pending := by
  obtain ⟨_, _, _, _, h⟩ := complete_frame s ref status r0 r1 r2; rw [h]

@[simp] theorem completeWith_wt (s : State) (ref : CmdRef) (status : Nat) : (completeWith s ref status).wt = s.wt := complete_wt s ref status 0 0 0
@[simp] theorem completeWith_contracts (s : State) (ref : CmdRef) (status : Nat) : (completeWith s ref status).contracts = s.contracts := complete_contracts s ref status 0 0 0
@[simp] theorem completeWith_streams (s : State) (ref : CmdRef) (status : Nat) : (completeWith s ref status).streams = s.streams := complete_streams s ref status 0 0 0
@[simp] theorem completeWith_decs (s : State) (ref : CmdRef) (status : Nat) : (completeWith s ref status).decs = s.decs := complete_decs s ref status 0 0 0
@[simp] theorem completeWith_comp (s : State) (ref : CmdRef) (status : Nat) : (completeWith s ref status).comp = s.comp := complete_comp s ref status 0 0 0
@[simp] theorem completeWith_corr (s : State) (ref : CmdRef) (status : Nat) : (completeWith s ref status).corr = s.corr := complete_corr s ref status 0 0 0
@[simp] theorem completeWith_enc (s : State) (ref : CmdRef) (status : Nat) : (completeWith s ref status).enc = s.enc := complete_enc s ref status 0 0 0
@[simp] theorem completeWith_prx (s : State) (ref : CmdRef) (status : Nat) : (completeWith s ref status).prx = s.prx := complete_prx s ref status 0 0 0
@[simp] theorem completeWith_drovers (s : State) (ref : CmdRef) (status : Nat) : (completeWith s ref status).drovers = s.drovers := complete_drovers s ref status 0 0 0
@[simp] theorem completeWith_eg (s : State) (ref : CmdRef) (status : Nat) : (completeWith s ref status).eg = s.eg := complete_eg s ref status 0 0 0
@[simp] theorem completeWith_buf (s : State) (ref : CmdRef) (status : Nat) : (completeWith s ref status).buf = s.buf := complete_buf s ref status 0 0 0
@[simp] theorem completeWith_qcfg (s : State) (ref : CmdRef) (status : Nat) : (completeWith s ref status).qcfg = s.qcfg := complete_qcfg s ref status 0 0 0
@[simp] theorem completeWith_tbl (s : State) (ref : CmdRef) (status : Nat) : (completeWith s ref status).tbl = s.tbl := complete_tbl s ref status 0 0 0
@[simp] theorem completeWith_peerE (s : State) (ref : CmdRef) (status : Nat) : (completeWith s ref status).peerE = s.peerE := complete_peerE s ref status 0 0 0
@[simp] theorem completeWith_peerW (s : State) (ref : CmdRef) (status : Nat) : (completeWith s ref status).peerW = s.peerW := complete_peerW s ref status 0 0 0
@[simp] theorem completeWith_mem (s : State) (ref : CmdRef) (status : Nat) : (completeWith s ref status).mem = s.mem := complete_mem s ref status 0 0 0
@[simp] theorem completeWith_dma (s : State) (ref : CmdRef) (status : Nat) : (completeWith s ref status).dma = s.dma := complete_dma s ref status 0 0 0
@[simp] theorem completeWith_flt (s : State) (ref : CmdRef) (status : Nat) : (completeWith s ref status).flt = s.flt := complete_flt s ref status 0 0 0
@[simp] theorem completeWith_pwr (s : State) (ref : CmdRef) (status : Nat) : (completeWith s ref status).pwr = s.pwr := complete_pwr s ref status 0 0 0
@[simp] theorem completeWith_nvm (s : State) (ref : CmdRef) (status : Nat) : (completeWith s ref status).nvm = s.nvm := complete_nvm s ref status 0 0 0
@[simp] theorem completeWith_tly (s : State) (ref : CmdRef) (status : Nat) : (completeWith s ref status).tly = s.tly := complete_tly s ref status 0 0 0
@[simp] theorem completeWith_cages (s : State) (ref : CmdRef) (status : Nat) : (completeWith s ref status).cages = s.cages := complete_cages s ref status 0 0 0
@[simp] theorem completeWith_sels (s : State) (ref : CmdRef) (status : Nat) : (completeWith s ref status).sels = s.sels := complete_sels s ref status 0 0 0
@[simp] theorem completeWith_latches (s : State) (ref : CmdRef) (status : Nat) : (completeWith s ref status).latches = s.latches := complete_latches s ref status 0 0 0
@[simp] theorem completeWith_free (s : State) (ref : CmdRef) (status : Nat) : (completeWith s ref status).free = s.free := complete_free s ref status 0 0 0
@[simp] theorem completeWith_pending (s : State) (ref : CmdRef) (status : Nat) : (completeWith s ref status).pending = s.pending := complete_pending s ref status 0 0 0

/-! ## Registers after a status bit -/

@[simp] theorem State.reg_withPend (s : State) (p : BitVec 2048) (j : Nat) : (s.withPend p).reg j = s.reg j := rfl

@[simp] theorem pendSrc_reg (s : State) (n j : Nat) : (pendSrc s n).reg j = s.reg j := by
  rw [State.reg, pendSrc_regs]; rfl

@[simp] theorem levelSample_reg (s : State) (n j : Nat) : (levelSample s n).reg j = s.reg j := by
  rw [State.reg, levelSample_regs]; rfl

theorem setStatus_reg (s : State) (off mask j : Nat) :
    (setStatus s off mask).reg j = if j = off then s.reg off ||| BitVec.ofNat 32 mask else s.reg j := by
  rw [(setStatus_frame s off mask).choose_spec, State.reg_withPend, State.reg_setReg]

theorem setStatus_reg_ne {off j : Nat} (h : j ≠ off) (s : State) (mask : Nat) : (setStatus s off mask).reg j = s.reg j := by
  rw [setStatus_reg, if_neg h]

/-- The bits that are raised read as 1. -/
theorem setStatus_bit {mask k : Nat} (hk : k < 32) (hmask : mask.testBit k = true) (s : State) (off : Nat) :
    bit ((setStatus s off mask).reg off) k = true := by
  rw [setStatus_reg, if_pos rfl, bit, BitVec.getLsbD_or, BitVec.getLsbD_ofNat, hmask]
  simp [hk]

theorem setStatus_bit_of_set {j k : Nat} {s : State} (h : bit (s.reg j) k = true) (off mask : Nat) :
    bit ((setStatus s off mask).reg j) k = true := by
  rw [setStatus_reg]
  split
  next hj =>
    subst hj
    rw [bit, BitVec.getLsbD_or]
    exact Bool.or_eq_true_iff.mpr (.inl h)
  next => exact h

theorem raiseFault_reg {j f : Nat} (h : j ≠ Off.fltStat (f / 16)) (s : State) : (raiseFault s f).reg j = s.reg j := by
  unfold raiseFault
  split
  · rfl
  · have hstatus := setStatus_reg_ne h s (2 ^ (f % 16))
    dsimp only
    split
    · exact hstatus
    · exact hstatus

/-- A fault source that exists sets its bit of its group's status. -/
theorem raiseFault_bit {f l : Nat} (hl : fltLevel f = some l) (s : State) :
    bit ((raiseFault s f).reg (Off.fltStat (f / 16))) (f % 16) = true := by
  have hstatus : bit ((setStatus s (Off.fltStat (f / 16)) (2 ^ (f % 16))).reg (Off.fltStat (f / 16))) (f % 16) = true :=
    setStatus_bit (by omega) (Nat.testBit_two_pow_self) s _
  unfold raiseFault
  simp only [hl]
  split
  · exact hstatus
  · exact hstatus

end Sys2Proof.Machine

/-! PROOFS. Completions (R377-R379, R386). -/

namespace Sys2Proof.Machine

/-- The completion that ends a command. -/
def cplOf (ref : CmdRef) (status r0 r1 r2 : Nat) : Completion :=
  { ref := some ref, cq := ref.cq, r0 := BitVec.ofNat 64 r0, r1 := BitVec.ofNat 64 r1, r2 := BitVec.ofNat 64 r2,
    cid := ref.cid, sqId := ref.sq, status := status, urgent := ref.urgent }

/-- The ring after a completion has been written at its tail. -/
def cqWritten (now : Nat) (urgent : Bool) (q : Cq) : Cq :=
  { q with
    tail := (q.tail + 1) % ringSize q.cfg, phase := if (q.tail + 1) % ringSize q.cfg = 0 then !q.phase else q.phase
    pend := q.pend ++ [(now, urgent)] }

section
variable {s : State} {ref : CmdRef} (status r0 r1 r2 : Nat)

theorem complete_of_room (hin : s.rings.inflight.contains ref = true) (hopen : cplOpen s = true) (hroom : cqRoom s ref.cq = true)
    (hwait : (s.rings.waiting.any fun k => k.cq == ref.cq) = false) :
    complete s ref status r0 r1 r2 = putCpl s (cplOf ref status r0 r1 r2) := by
  simp only [complete, hin, if_true, offerCpl, hopen, hroom, hwait, Bool.not_false, Bool.and_self, writeCpl, deferredOf]
  rfl

theorem complete_of_no_room (hin : s.rings.inflight.contains ref = true) (hroom : cqRoom s ref.cq = false) :
    complete s ref status r0 r1 r2
      = markFull (s.modRings fun x => { x with waiting := x.waiting ++ [cplOf ref status r0 r1 r2] }) ref.cq := by
  simp only [complete, hin, if_true, offerCpl, hroom, Bool.and_false, Bool.false_and, Bool.false_eq_true, if_false]
  rfl

/-- A written completion is one MWR and one place of its ring; the rest is its ring's interrupt. -/
theorem putCpl_cplOf (s : State) (ref : CmdRef) : putCpl s (cplOf ref status r0 r1 r2)
    = levelSample
        (((sendTxn s (.mwr (ringBase (s.cq ref.cq).baseLo (s.cq ref.cq).baseHi + 32 * (s.cq ref.cq).tail)
            (cplBytes (cplOf ref status r0 r1 r2) (s.sq ref.sq).fetch (s.cq ref.cq).phase))).modRings fun x =>
              { x with cqs := mset {} x.cqs ref.cq (cqWritten s.wt.now ref.urgent (s.cq ref.cq)) }).modRings fun x =>
              { x with inflight := x.inflight.erase ref })
        (768 + fld (s.cq ref.cq).cfg 23 16) := rfl

theorem cplBytes_cplOf (h0 : r0 < 2 ^ 64) (h1 : r1 < 2 ^ 64) (h2 : r2 < 2 ^ 64) (head : Nat) (phase : Bool) :
    cplBytes (cplOf ref status r0 r1 r2) head phase
      = leBytes 8 r0 ++ leBytes 8 r1 ++ leBytes 8 r2 ++ leBytes 2 ref.cid ++ leBytes 2 head ++ leBytes 2 ref.sq ++ leBytes 1 status
        ++ leBytes 1 (128 * b2n phase) := by
  simp only [cplBytes, cplOf, BitVec.toNat_ofNat, Nat.mod_eq_of_lt h0, Nat.mod_eq_of_lt h1, Nat.mod_eq_of_lt h2, Nat.mul_zero,
    Nat.add_zero]

end

/-- A completion that finds its enabled ring full marks it and raises `CQ_FULL`. -/
theorem markFull_of_full {s : State} {r : Nat} (hopen : cplOpen s = true) (hen : bit (s.cq r).cfg 31 = true) (hroom : cqRoom s r = false) :
    markFull s r = setStatus (s.modCq r fun q => { q with full := true }) Off.ringStatus (2 ^ 4) := by
  simp [markFull, hopen, hen, hroom]

/-- Settles O7: with room the completion is written, else it waits and marks its ring. -/
theorem completionsAreWrittenOrWait : Obligations.CompletionsAreWrittenOrWait := by
  refine ⟨fun s ref status r0 r1 r2 hin hopen hroom hwait h0 h1 h2 => ?_, fun s ref status r0 r1 r2 hin hopen hroom hen => ?_⟩
  · rw [complete_of_room status r0 r1 r2 hin hopen hroom hwait, putCpl_cplOf, cplBytes_cplOf status r0 r1 r2 h0 h1 h2]
    have hcq (t : State) (n : Nat) (q : Cq) :
        (levelSample ((t.modRings fun x => { x with cqs := mset {} x.cqs ref.cq q }).modRings fun x =>
          { x with inflight := x.inflight.erase ref }) n).cq ref.cq = q := by
      rw [State.cq, levelSample_rings]
      exact mget_mset_same _ _ _ _
    dsimp only
    rw [hcq]
    simp only [levelSample_link, levelSample_rings, levelSample_mem, levelSample_regs, levelSample_contracts]
    exact ⟨rfl, rfl, rfl, rfl, rfl, rfl, rfl, rfl⟩
  · have hfull := markFull_of_full (s := s.modRings fun x => { x with waiting := x.waiting ++ [cplOf ref status r0 r1 r2] })
      (r := ref.cq) hopen hen hroom
    dsimp only
    rw [complete_of_no_room status r0 r1 r2 hin hroom, hfull]
    refine ⟨?_, ?_, ?_, ?_, setStatus_bit (k := 4) (by decide) (by decide) _ _, ?_, ?_⟩
    · rw [setStatus_link]; rfl
    · rw [setStatus_rings]; exact List.length_append
    · rw [setStatus_rings]; rfl
    · rw [State.cq, setStatus_rings]
      exact congrArg Cq.full ((State.cq_modCq _ _ _ _).trans (if_pos rfl))
    · rw [setStatus_mem]; rfl
    · rw [setStatus_contracts]; rfl

end Sys2Proof.Machine

/-! PROOFS. Launch rows: when a slot fires, in which order, what firing does to it, and which action it runs (R20-R27, Table 2-2). -/

namespace Sys2Proof.Machine

/-! ## The rows of Table 2-2 -/

theorem exec_frameBoundary (k : Fin 8192) (s : State) : exec (.frameBoundary k) s = execFrameBoundary k s := rfl

theorem exec_launchTallySnapshot (k : Fin 8192) (s : State) : exec (.launchTallySnapshot k) s = execLaunchTallySnapshot k s := rfl

theorem exec_decodeStart (k : Fin 8192) (s : State) : exec (.decodeStart k) s = execDecodeStart k s := rfl

theorem exec_compositionStart (k : Fin 8192) (s : State) : exec (.compositionStart k) s = execCompositionStart k s := rfl

theorem exec_encoderStripeStart (k : Fin 8192) (mm : Option (Fin 32)) (s : State) : exec (.encoderStripeStart k mm) s = execEncoderStripeStart k mm s := rfl

theorem exec_droverMapListStart (k : Fin 8192) (s : State) : exec (.droverMapListStart k) s = execDroverMapListStart k s := rfl

theorem exec_seamStripSend (k : Fin 8192) (s : State) : exec (.seamStripSend k) s = execSeamStripSend k s := rfl

theorem exec_beacon (k : Fin 8192) (s : State) : exec (.beacon k) s = execBeacon k s := rfl

theorem exec_present (k : Fin 8192) (s : State) : exec (.present k) s = execPresent k s := rfl

theorem exec_blank (k : Fin 8192) (s : State) : exec (.blank k) s = execBlank k s := rfl

theorem exec_messageRelease (k : Fin 8192) (s : State) : exec (.messageRelease k) s = execMessageRelease k s := rfl

theorem exec_hostInterrupt (k : Fin 8192) (s : State) : exec (.hostInterrupt k) s = execHostInterrupt k s := rfl

/-! ## When a slot fires -/

theorem runLaunch_of_not_firing {s : State} {k : Fin 8192} (h : s.serving = false ∨ firesNow s k.val = false) (action : Nat)
    (body : LSlot → State → State) : runLaunch k action s body = .next s := by
  refine if_neg ?_
  rcases h with h | h <;> simp [h]

/-- A slot that fires runs the row's action on the slot as its frame sees it and on the state in which the slot has moved on. -/
theorem runLaunch_of_fires {s : State} {k : Fin 8192} {action : Nat} {l : LSlot} (h : Fires s k action l)
    (body : LSlot → State → State) : runLaunch k action s body = .next (body l (fireSlot s k.val)) := by
  obtain ⟨hserving, hnow, haction, rfl⟩ := h
  exact if_pos (by simp [hserving, hnow, haction])

theorem slotDue_iff (s : State) (l : LSlot) : slotDue s l = true ↔
    l.armed = true ∧ realAction l.action = true ∧ slotLive s l = true ∧ fireTick s l ≤ (s.wallNow : Int) := by
  simp only [slotDue, Bool.and_eq_true, decide_eq_true_eq, and_assoc]

/-- A slot that fires is due, and every due slot comes after it in the order of R25. -/
theorem firesNow_iff (s : State) (k : Nat) : firesNow s k = true ↔
    slotDue s (s.slot k) = true ∧ ∀ p ∈ s.wt.slots, slotDue s p.2 = true → firesBefore s p.1 p.2 k (s.slot k) = false := by
  simp only [firesNow, Bool.and_eq_true, Bool.not_eq_true', List.any_eq_false, not_and, Bool.not_eq_true]

theorem firesBefore_eq_false_iff (s : State) (j k : Nat) (lj lk : LSlot) : firesBefore s j lj k lk = false ↔
    firedOn s lk < firedOn s lj ∨ (firedOn s lk = firedOn s lj ∧ (lk.action < lj.action ∨ (lk.action = lj.action ∧ k ≤ j))) := by
  simp only [firesBefore, Bool.or_eq_false_iff, Bool.and_eq_false_iff, decide_eq_false_iff_not, beq_eq_false_iff_ne, ne_eq]
  omega

theorem firedOn_eq (s : State) (l : LSlot) :
    firedOn s l = if fireTick s l ≤ (s.wt.prev.toNat : Int) then fireTick s l else (s.wallNow : Int) := by
  unfold firedOn
  split <;> split <;> omega

/-! ## What firing does to the slot (R20, R23, R524) -/

theorem fireSlot_of_no_ref {s : State} {k : Nat} (hlate : (s.slot k).late = none) (href : (s.slot k).ref = none) :
    fireSlot s k = s.modSlot k (firedSlot s) := by
  simp only [fireSlot, hlate, href, Option.isSome_none, Bool.false_eq_true, if_false]

theorem firedSlot_relative {s : State} {l : LSlot} (hrel : l.rel = true) :
    (firedSlot s l).next = l.next + 1 ∧ (firedSlot s l).arg = argFor l (l.next + 1)
      ∧ (firedSlot s l).armed = (match (s.contract l.contract).nLast with
        | some n => decide (l.next < n)
        | none => true) := by
  unfold firedSlot
  rw [if_pos hrel]
  exact ⟨rfl, rfl, rfl⟩

theorem fireTick_relative {s : State} {l : LSlot} (hrel : l.rel = true) (hlate : l.late = none) (hmoves : l.moves = []) :
    fireTick s l = (launchTick (s.contract l.contract) l.next : Int) + l.time := by
  simp only [fireTick, hlate, hrel, if_true, timeFor, hmoves, List.foldl_nil]

/-- Settles O8: the row's guard, the order of the due slots and the two ways in which a slot moves on. -/
theorem launchRowsWaitAndMoveTheirSlot : Obligations.LaunchRowsWaitAndMoveTheirSlot := by
  refine ⟨fun k mm s h c hc => ?_, fun s k h => ?_, fun s k hlate => ⟨fun hrel href => ?_, fun hrel ref href => ?_⟩⟩
  · revert c
    simp [exec_frameBoundary, exec_launchTallySnapshot, exec_decodeStart, exec_compositionStart, exec_encoderStripeStart, exec_droverMapListStart, exec_seamStripSend, exec_beacon, exec_present, exec_blank, exec_messageRelease, exec_hostInterrupt,
      execFrameBoundary, execLaunchTallySnapshot, execDecodeStart, execCompositionStart, execEncoderStripeStart, execDroverMapListStart, execSeamStripSend, execBeacon, execPresent, execBlank, execMessageRelease, execHostInterrupt,
      runLaunch_of_not_firing h]
  · obtain ⟨hdue, hfirst⟩ := (firesNow_iff s k).mp h
    obtain ⟨harmed, -, -, htick⟩ := (slotDue_iff s _).mp hdue
    exact ⟨harmed, htick, fun p hp hpdue => (firesBefore_eq_false_iff ..).mp (hfirst p hp hpdue), firedOn_eq s⟩
  · obtain ⟨hnext, harg, harmed⟩ := firedSlot_relative (s := s) hrel
    rw [fireSlot_of_no_ref hlate href, State.slot_modSlot_same]
    refine ⟨hnext, fun hmoves => fireTick_relative hrel hlate hmoves, fun haction => ?_, harmed⟩
    rw [harg, argFor, if_pos haction]
  · rw [fireSlot_of_ref hlate href, fireTick_absolute hrel hlate]
    congr 1
    exact congrArg (fun x => s.modWt fun w => { w with slots := mset {} w.slots k x }) (firedSlot_absolute hrel)

/-! ## The actions of Table 2-2 -/

/-- A source that exists and is not in service pends. -/
theorem pendSrc_pends {s : State} {n : Nat} (hreal : srcReal n = true) (hsvc : srcBit s.intc.svc n = false) :
    srcBit (pendSrc s n).intc.pend n = true := by
  have hn : n < 2048 := by
    have := (srcReal_iff n).mp hreal
    omega
  have hset : srcBit (pendRaw s n).intc.pend n = true := srcBit_srcSet_same hn _
  have hop : pendSrc s n = devEvent s (pendRaw s n) := if_pos (by simp [hreal, hsvc])
  rw [hop]
  unfold devEvent
  split
  · exact hset
  · by_cases h1 : n = 1
    · subst h1
      exact srcBit_srcSet_same hn _
    · exact (srcBit_srcSet_ne h1 _).trans hset

/-- Settles O9: each row runs its action where its slot fires; composition, encoder and drover steps check their flag or domain first. -/
theorem launchActionsRun : Obligations.LaunchActionsRun := by
  refine ⟨fun k s l => ⟨fun mm h hready => ?_, fun h => ?_, fun h => ?_, fun h => ?_, fun h => ?_, fun h => ?_, fun h => ?_,
    fun h hready => ?_, fun h hready => ?_, fun h hon => ?_, fun h => ?_, fun h => ?_⟩, fun k s l h h1 h64 hsvc => ?_⟩
  · rw [exec_encoderStripeStart, execEncoderStripeStart, runLaunch_of_fires h, if_pos hready]
  · rw [exec_frameBoundary, execFrameBoundary, runLaunch_of_fires h]
  · rw [exec_launchTallySnapshot, execLaunchTallySnapshot, runLaunch_of_fires h]
  · rw [exec_beacon, execBeacon, runLaunch_of_fires h]
  · rw [exec_present, execPresent, runLaunch_of_fires h]
  · rw [exec_blank, execBlank, runLaunch_of_fires h]
  · rw [exec_decodeStart, execDecodeStart, runLaunch_of_fires h]
  · rw [exec_compositionStart, execCompositionStart, runLaunch_of_fires h, if_pos hready]
  · rw [exec_compositionStart, execCompositionStart, runLaunch_of_fires h, if_neg (by simp [hready])]
  · rw [exec_droverMapListStart, execDroverMapListStart, runLaunch_of_fires h, if_pos hon]
  · rw [exec_seamStripSend, execSeamStripSend, runLaunch_of_fires h]
  · rw [exec_messageRelease, execMessageRelease, runLaunch_of_fires h]
  · rw [exec_hostInterrupt, execHostInterrupt, runLaunch_of_fires h]
    have hbit : srcBit (fireSlot s k.val).intc.svc l.arg = false := by simp [hsvc, srcBit]
    exact ⟨_, rfl, pendSrc_pends ((srcReal_iff _).mpr (by omega)) hbit, pendSrc_regs .., pendSrc_mem .., pendSrc_contracts ..,
      pendSrc_link ..⟩

end Sys2Proof.Machine

/-! PROOFS. `TIME_SET` and steps of `WALLTIME` (R18, R19). -/

namespace Sys2Proof.Machine

theorem exec_timeSet_of_fields {s t : State} {sq : Fin 1024} {d : Desc} {ref : CmdRef} (h : Starts s sq d ref t)
    (hhdr : hdrOk d 0x40 [(16, 8)] = true) :
    exec (.timeSet sq d) s = .next (if timeSetConflict t then completeWith t ref St.stateConflict else timeSetApply ref d t) := by
  refine (runCmd_of_starts h _).trans ?_
  rw [hhdr, check_true]
  cases timeSetConflict t <;> rfl

theorem anyActive_iff (s : State) : anyActive s = true ↔
    ∃ p ∈ s.contracts, p.2.state = .committed ∨ p.2.state = .running ∨ p.2.state = .draining := by
  have hactive (c : Contract) : contractActive c = true ↔ c.state = .committed ∨ c.state = .running ∨ c.state = .draining := by
    unfold contractActive
    cases c.state <;> simp
  simp only [anyActive, List.any_eq_true, hactive]

theorem heardActive_of_mem {s : State} {p : Nat × Option Heard} {h : Heard} {u : Nat} (hp : p ∈ s.wt.heard) (hh : p.2 = some h)
    (hu : h.lastActive = some u) (hnow : s.wt.now ≤ u + 480000) : heardActive s = true :=
  List.any_eq_true.mpr ⟨p, hp, by simp [hh, hu, msTicks, hnow]⟩

/-! ## A step of `WALLTIME` (R19) -/

theorem cancelSlots_leaves {β : Type} {view : State → β} (h : ∀ t r, view (completeWith t r St.aborted) = view t) (s : State) :
    view (cancelSlots s) = view (s.modWt fun w => { w with slots := w.slots.map fun p => (p.1, cancelledSlot p.2) }) :=
  foldl_leaves h _ _

theorem cancelledSlot_disarmed {l : LSlot} (h : (cancelledSlot l).rel = false) : (cancelledSlot l).armed = false := by
  unfold cancelledSlot at h ⊢
  split
  · rfl
  next hkeep =>
    rw [if_neg hkeep] at h
    simpa [h] using hkeep

theorem stepWall_wt (s : State) (v : Dword) (f : BitVec 16) :
    (stepWall s v f).wt = { s.wt with wall := v, frac := f, slots := s.wt.slots.map fun p => (p.1, cancelledSlot p.2) } := by
  unfold stepWall
  rw [cancelSlots_leaves (view := State.wt) fun t r => completeWith_wt t r _]
  simp only [State.modWt_wt, newSeconds, State.modEg_wt, setStatus_wt]

theorem stepWall_reg {j : Nat} (hj : j ≠ Off.ringStatus) (s : State) (v : Dword) (f : BitVec 16) :
    (stepWall s v f).reg j = (setStatus (s.modWt fun w => { w with wall := v, frac := f }) Off.wtStatus 1).reg j := by
  unfold stepWall
  rw [cancelSlots_leaves (view := (State.reg · j)) fun t r => completeWith_reg hj t r _]
  rfl

theorem stepWall_mem (s : State) (v : Dword) (f : BitVec 16) : (stepWall s v f).mem = s.mem := by
  unfold stepWall
  rw [cancelSlots_leaves (view := State.mem) fun t r => completeWith_mem t r _]
  simp only [newSeconds, State.modWt_mem, State.modEg_mem, setStatus_mem]

theorem stepWall_contracts (s : State) (v : Dword) (f : BitVec 16) : (stepWall s v f).contracts = s.contracts := by
  unfold stepWall
  rw [cancelSlots_leaves (view := State.contracts) fun t r => completeWith_contracts t r _]
  simp only [newSeconds, State.modWt_contracts, State.modEg_contracts, setStatus_contracts]

/-- Settles O10: the conflict decides between the load and `STATE_CONFLICT`; a step of `WALLTIME` sets one status bit, disarms the absolute
slots and completes commands, which touch nothing else. -/
theorem timeSetLoadsWalltime : Obligations.TimeSetLoadsWalltime := by
  refine ⟨fun sq d s t ref h hhdr hfree => ?_, fun sq d s t ref h hhdr hconf => ?_, fun s v f => ?_⟩
  · rw [exec_timeSet_of_fields h hhdr, if_neg (by simp [hfree])]
    rfl
  · have hc : timeSetConflict t = true := by
      rcases hconf with hactive | hmember | ⟨hrole, p, hp, x, u, hx, hu, hnow⟩
      · simp [timeSetConflict, (anyActive_iff t).mpr hactive]
      · simp [timeSetConflict, hmember]
      · simp [timeSetConflict, hrole, heardActive_of_mem hp hx hu hnow]
    rw [exec_timeSet_of_fields h hhdr, if_pos hc]
  · dsimp only
    rw [stepWall_wt, stepWall_reg (by decide)]
    refine ⟨rfl, rfl, setStatus_bit (by decide) (by decide) _ _, fun p hp hrel => ?_, stepWall_mem s v f, stepWall_contracts s v f⟩
    obtain ⟨q, -, rfl⟩ := List.mem_map.mp hp
    exact cancelledSlot_disarmed hrel

end Sys2Proof.Machine

/-! PROOFS. The fold: time messages, the election, the servo, the time states, the peer links and `FOLD_CFG` (R28-R36, R44, R519). -/

namespace Sys2Proof.Machine

/-! ## The times of a peer port -/

@[simp] theorem peerTime_modPeerTime (s : State) (e : Nat) (f : PeerTime → PeerTime) :
    peerTime (modPeerTime s e f) e = f (peerTime s e) := by
  unfold peerTime modPeerTime
  by_cases h : e = 0 <;> simp [h]

@[simp] theorem modPeerTime_wall (s : State) (e : Nat) (f : PeerTime → PeerTime) : (modPeerTime s e f).wt.wall = s.wt.wall := by
  unfold modPeerTime
  by_cases h : e = 0 <;> simp [h]

@[simp] theorem modPeerTime_frac (s : State) (e : Nat) (f : PeerTime → PeerTime) : (modPeerTime s e f).wt.frac = s.wt.frac := by
  unfold modPeerTime
  by_cases h : e = 0 <;> simp [h]

@[simp] theorem modPeerTime_regs (s : State) (e : Nat) (f : PeerTime → PeerTime) : (modPeerTime s e f).regs = s.regs := rfl

@[simp] theorem modPeerTime_mem (s : State) (e : Nat) (f : PeerTime → PeerTime) : (modPeerTime s e f).mem = s.mem := rfl

@[simp] theorem modPeerTime_seqResp (s : State) (e : Nat) (f : PeerTime → PeerTime) : (modPeerTime s e f).wt.seqResp = s.wt.seqResp := by
  unfold modPeerTime
  by_cases h : e = 0 <;> simp [h]

theorem wall16_heardNow (s : State) (e : Nat) : wall16 (heardNow s e) = wall16 s := by
  simp [wall16, heardNow]

@[simp] theorem peerSend_wt (s : State) (e : Nat) (bs : List Byte) : (peerSend s e bs).wt = s.wt := by
  unfold peerSend
  split <;> simp

/-! ## Messages that leave (R29-R33) -/

theorem announceNow_eq (s : State) : announceNow s =
    if foldEn s = true ∧ s.wt.dup = false ∧ s.wt.lastAnnounce + 160000 ≤ s.wt.now then
      (sendBoth s (timeMsg s 1 s.wt.seqAnnounce false 0 0 0 s.wt.nonce)).modWt fun w =>
        { w with lastAnnounce := w.now, seqAnnounce := (w.seqAnnounce + 1) % 65536 }
    else s := by
  simp only [announceNow, msTicks, Bool.and_eq_true, Bool.not_eq_true', decide_eq_true_eq, and_assoc, Nat.mul_one]

theorem syncNow_eq (s : State) : syncNow s =
    if foldEn s = true ∧ s.wt.dup = false ∧ s.wt.role = .bellwether ∧ s.wt.lastSyncSent + 20000 ≤ s.wt.now then
      (sendBoth s (timeMsg s 2 s.wt.seqSync s.wt.timeStep (wall16 s) 0 0 0)).modWt fun w =>
        { w with lastSyncSent := w.now, seqSync := (w.seqSync + 1) % 65536, timeStep := false }
    else s := by
  unfold syncNow
  have hdue : (decide (s.wt.lastSyncSent + usTicks 125 ≤ s.wt.now) = true) = (s.wt.lastSyncSent + 20000 ≤ s.wt.now) := decide_eq_true_eq
  simp only [Bool.and_eq_true, Bool.not_eq_true', beq_iff_eq, and_assoc, hdue]

theorem delayReqNow_eq (s : State) (e : Nat) : delayReqNow s e =
    if foldEn s = true ∧ (peerTime s e).lastReq + 160000 ≤ s.wt.now then
      (modPeerTime (peerSend s e (timeMsg s 3 s.wt.seqReq false (wall16 s) 0 0 0)) e fun p =>
        { p with t1 := some (wall16 s), lastReq := s.wt.now }).modWt fun w => { w with seqReq := (w.seqReq + 1) % 65536 }
    else s := by
  simp only [delayReqNow, msTicks, Bool.and_eq_true, decide_eq_true_eq, Nat.mul_one]

/-! ## Messages that arrive (R29-R34) -/

theorem timeRx_of_ok {s : State} {e type : Nat} {bs : List Byte} (h : TimeMsgOk s e bs type) (body : State → State) :
    timeRx s e bs type body = body (heardNow s e) := by
  obtain ⟨hfold, hup, hframe, htype, hmod⟩ := h
  simp [timeRx, hfold, hup, hframe, htype, Nat.not_le.mpr hmod, heardNow]

theorem timeRx_of_bad_frame {s : State} {e : Nat} {bs : List Byte} (hfold : foldEn s = true) (hup : (s.peer e).linkUp = true)
    (hbad : foldFrameOk s 64 bs = false) (type : Nat) (body : State → State) : timeRx s e bs type body = foldDiscard s e 994 := by
  simp [timeRx, hfold, hup, hbad]

theorem exec_announceReceive_of_ok {s : State} {e : Fin 2} {bs : List Byte} (h : TimeMsgOk s e.val bs 1) :
    exec (.announceReceive e bs) s = .next (announceTake e.val bs (heardNow s e.val)) :=
  congrArg Host.Outcome.next (timeRx_of_ok h _)

theorem exec_syncReceive_of_ok {s : State} {e : Fin 2} {bs : List Byte} (h : TimeMsgOk s e.val bs 2) (r : Nat) :
    exec (.syncReceive e bs r) s = .next (syncTake e.val bs r (heardNow s e.val)) :=
  congrArg Host.Outcome.next (timeRx_of_ok h _)

theorem exec_peerDelayReqReceive_of_ok {s : State} {e : Fin 2} {bs : List Byte} (h : TimeMsgOk s e.val bs 3) (turn : Nat) :
    exec (.peerDelayReqReceive e bs turn) s = .next (delayReqTake e.val turn (heardNow s e.val)) :=
  congrArg Host.Outcome.next (timeRx_of_ok h _)

theorem exec_peerDelayRespReceive_of_ok {s : State} {e : Fin 2} {bs : List Byte} (h : TimeMsgOk s e.val bs 4) :
    exec (.peerDelayRespReceive e bs) s = .next (delayRespTake e.val bs (heardNow s e.val)) :=
  congrArg Host.Outcome.next (timeRx_of_ok h _)

/-- A DELAY_REQ is answered at once, and the next answer takes the next sequence number (R33). -/
theorem delayReqTake_heardNow (s : State) (e turn : Nat) : delayReqTake e turn (heardNow s e) =
    (peerSend (heardNow s e) e (timeMsg (heardNow s e) 4 s.wt.seqResp false 0 (wall16 s) (wall16 s + turn) 0)).modWt fun w =>
      { w with seqResp := (s.wt.seqResp + 1) % 65536 } := by
  have hseq : (heardNow s e).wt.seqResp = s.wt.seqResp := modPeerTime_seqResp s e _
  simp only [delayReqTake, wall16_heardNow, hseq, State.modWt, peerSend_wt]

/-- The DELAY_RESP that answers an open DELAY_REQ gives one value of d (R33). -/
theorem delayRespTake_of_open {s : State} {e : Nat} {t1 : Int} (h : (peerTime s e).t1 = some t1) (bs : List Byte) :
    delayRespTake e bs (heardNow s e) = modPeerTime (heardNow s e) e fun p =>
      { p with t1 := none, samples := (delaySample t1 (timeAt bs 32) (timeAt bs 48) (wall16 s) (peerAsym s e) :: p.samples).take 8 } := by
  have hopen : (peerTime (heardNow s e) e).t1 = some t1 := by rw [heardNow, peerTime_modPeerTime]; exact h
  simp only [delayRespTake, hopen, wall16_heardNow]
  rfl

/-- A member that hears its bellwether notes the SYNC, and its servo runs where the port is the nearer one (R34). -/
theorem syncTake_of_member {e : Nat} {bs : List Byte} {r : Nat} {s : State} (hrole : s.wt.role ≠ .bellwether)
    (hmember : (forwardFold s e (syncForward s e bs r) false).wt.role = .member)
    (hbw : (forwardFold s e (syncForward s e bs r) false).wt.bellwether = some (u8 bs 2)) :
    syncTake e bs r s =
      (let s2 := forwardFold s e (syncForward s e bs r) false
       let s3 := s2.modWt fun w => { w with lastSync := some w.now, lastHops := mset none w.lastHops e (some (u8 bs 3, w.now)) }
       if bestPort s2 e (u8 bs 3) then servo s3 (syncError s e bs) ((u8 bs 11).testBit 2) else s3) := by
  simp [syncTake, hrole, hmember, hbw]

/-- Settles O12: each message leaves under its own guard; a received one is discarded for its frame, else its type's rule runs on the
state in which its receipt has been noted. -/
theorem timeMessagesLeaveAndAreTaken : Obligations.TimeMessagesLeaveAndAreTaken := by
  refine ⟨fun s e hfold hdup => ⟨fun h => ?_, fun h => ?_, fun hrole h => ?_, fun hrole => ?_, fun h => ?_, fun h => ?_⟩,
    fun e bs r s hfold hup hbad c hc => ?_, fun e bs s hok => ⟨fun hm hold => ?_, fun hm hnew => ?_, fun hm hn => ?_, fun hm hn => ?_⟩,
    fun e bs turn s => ⟨fun hok => ?_, fun hok t1 ht1 => ?_⟩,
    fun e bs r s hok => ⟨fun hm hrole => ?_, fun hrole hmem hbw hbest => ?_, fun hrole hmem hbw hbest => ?_⟩⟩
  · exact congrArg Host.Outcome.next ((announceNow_eq s).trans (if_pos ⟨hfold, hdup, h⟩))
  · exact congrArg Host.Outcome.next ((announceNow_eq s).trans (if_neg fun hc => by omega))
  · exact congrArg Host.Outcome.next ((syncNow_eq s).trans (if_pos ⟨hfold, hdup, hrole, h⟩))
  · exact congrArg Host.Outcome.next ((syncNow_eq s).trans (if_neg fun hc => hrole hc.2.2.1))
  · exact congrArg Host.Outcome.next ((delayReqNow_eq s e.val).trans (if_pos ⟨hfold, h⟩))
  · exact congrArg Host.Outcome.next ((delayReqNow_eq s e.val).trans (if_neg fun hc => by omega))
  · simp only [List.mem_cons, List.not_mem_nil, or_false] at hc
    rcases hc with rfl | rfl | rfl | rfl <;>
    exact congrArg Host.Outcome.next (timeRx_of_bad_frame hfold hup hbad _ _)
  · simp only [exec_announceReceive_of_ok hok, announceTake, hm, hold, Bool.false_eq_true, if_false]
  · simp only [exec_announceReceive_of_ok hok, announceTake, hm, hnew, if_true, if_false]
  · simp only [exec_announceReceive_of_ok hok, announceTake, hm, hn, if_true]
  · simp only [exec_announceReceive_of_ok hok, announceTake, hm, hn, if_true, if_false]
  · rw [exec_peerDelayReqReceive_of_ok hok, delayReqTake_heardNow]
  · rw [exec_peerDelayRespReceive_of_ok hok, delayRespTake_of_open ht1]
    exact ⟨_, rfl, by simp, by simp [heardNow, delaySample], by simp [heardNow], by simp [heardNow], by simp [heardNow]⟩
  · simp [exec_syncReceive_of_ok hok, syncTake, hm, hrole]
  · rw [exec_syncReceive_of_ok hok, syncTake_of_member hrole hmem hbw]
    exact congrArg Host.Outcome.next (if_pos hbest)
  · rw [exec_syncReceive_of_ok hok, syncTake_of_member hrole hmem hbw]
    exact congrArg Host.Outcome.next (if_neg (by simp [hbest]))

/-! ## The election (R31) -/

/-- `betterModule` keeps one of the two, and neither is better than what it keeps. -/
theorem betterModule_le (a b : Nat × Nat) : (betterModule a b = a ∨ betterModule a b = b)
    ∧ ∀ q ∈ [a, b], q.2 < (betterModule a b).2 ∨ (q.2 = (betterModule a b).2 ∧ (betterModule a b).1 ≤ q.1) := by
  simp only [List.mem_cons, List.not_mem_nil, or_false, forall_eq_or_imp, forall_eq]
  unfold betterModule
  split
  · exact ⟨.inr rfl, .inl (by assumption), .inr ⟨rfl, Nat.le_refl _⟩⟩
  · split
    · exact ⟨.inr rfl, by omega, by omega⟩
    · exact ⟨.inl rfl, by omega, by omega⟩

theorem foldl_betterModule_best (c : Nat × Nat) (cs : List (Nat × Nat)) : cs.foldl betterModule c ∈ c :: cs
    ∧ ∀ q ∈ c :: cs, q.2 < (cs.foldl betterModule c).2 ∨ (q.2 = (cs.foldl betterModule c).2 ∧ (cs.foldl betterModule c).1 ≤ q.1) := by
  induction cs generalizing c with
  | nil => simp
  | cons b cs ih =>
    obtain ⟨hmem, hbest⟩ := ih (betterModule c b)
    obtain ⟨hone, hle⟩ := betterModule_le c b
    rw [List.foldl_cons]
    refine ⟨?_, fun q hq => ?_⟩
    · rcases List.mem_cons.mp hmem with h | h
      · rcases hone with hone | hone <;> rw [h, hone] <;> simp
      · exact List.mem_cons_of_mem _ (List.mem_cons_of_mem _ h)
    · have hkept := hbest _ List.mem_cons_self
      rcases List.mem_cons.mp hq with rfl | hq
      · have := hle q (by simp)
        omega
      rcases List.mem_cons.mp hq with rfl | hq
      · have := hle q (by simp)
        omega
      · exact hbest q (List.mem_cons_of_mem _ hq)

theorem winner_best {s : State} {w : Nat} (h : winner s = some w) : ∃ p, (w, p) ∈ candidates s
    ∧ ∀ q ∈ candidates s, q.2 < p ∨ (q.2 = p ∧ w ≤ q.1) := by
  unfold winner at h
  split at h
  · exact absurd h (by simp)
  next c cs hcs =>
    obtain rfl := Option.some.inj h
    rw [hcs]
    exact ⟨_, foldl_betterModule_best c cs⟩

/-! ## Time states and timers (Table 2-5, R36) -/

theorem enterTime_unlocked {s : State} (h : s.wt.tstate ≠ .unlocked) : enterTime s .unlocked =
    raiseFault (setStatus (s.modWt fun w => { w with tstate := .unlocked, good := 0, bad := 0, holdSince := w.now }) Off.wtStatus 2) 208 := by
  simp [enterTime, h]

theorem silence_of_heard {s : State} {e h : Nat} (hh : (peerTime s e).lastHeard = some h) : silence s e =
    if foldEn s = true ∧ h + 480000 ≤ s.wt.now then
      setStatus ((modPeerTime s e fun p => { p with lastHeard := none }).modWt fun w => { w with lostAt := some w.now }) Off.wtStatus (2 ^ (6 + e))
    else s := by
  simp [silence, hh, ↓Bool.and_eq_true, ↓decide_eq_true_eq, msTicks]

theorem ageOut_of_heard {s : State} {m : Nat} {h : Heard} (hh : mget none s.wt.heard m = some h) : ageOut s m =
    if s.wt.now ≤ h.at_ + 480000 then s
    else elect (dropModule (s.modWt fun w => { w with heard := mset none w.heard m none }) m) := by
  simp only [ageOut, hh, fresh, decide_eq_true_eq]
  rfl

/-- Settles O13: the election by induction on its candidates; each timer acts under the guard that names its time. -/
theorem servoElectionAndFoldTimers : Obligations.ServoElectionAndFoldTimers := by
  refine ⟨fun s w => winner_best, fun s e => ⟨fun hbig hact => ?_, fun hbig hact => ?_, fun hsmall => ?_⟩, fun s hs => ?_, fun s e m =>
    ⟨fun hrole hst h => ?_, fun h => ?_, fun hst h => ?_, fun h => ?_, fun h hfold hh hdue => ?_, fun h hh hearly => ?_,
      fun h hh hdue => ?_, fun h hh hearly => ?_⟩⟩
  · simp [servoAct, errBig, hbig, hact, servoStep]
  · simp [servoAct, errBig, hbig, hact]
  · simp [servoAct, errBig, Nat.not_lt.mpr hsmall]
  · simp only [enterTime_unlocked hs]
    refine ⟨by simp, ?_, raiseFault_bit (f := 208) (l := 0) (by decide) _, by simp⟩
    rw [raiseFault_reg (by decide)]
    exact setStatus_bit (by omega) (by decide) _ _
  · exact congrArg Host.Outcome.next (if_pos (by simp [hrole, hst, usTicks, h]))
  · exact congrArg Host.Outcome.next (if_neg (by simp only [↓Bool.and_eq_true, ↓decide_eq_true_eq, usTicks]; omega))
  · exact congrArg Host.Outcome.next (if_pos (by simp [hst, msTicks, h]))
  · exact congrArg Host.Outcome.next (if_neg (by simp only [↓Bool.and_eq_true, ↓decide_eq_true_eq, msTicks]; omega))
  · refine ⟨_, congrArg Host.Outcome.next ((silence_of_heard hh).trans (if_pos ⟨hfold, hdue⟩)),
      setStatus_bit (by omega) Nat.testBit_two_pow_self _ _, ?_, by simp, by simp [modPeerTime]⟩
    have hpeer := congrArg PeerTime.lastHeard (peerTime_modPeerTime s e.val fun p => { p with lastHeard := none })
    simpa only [peerTime, setStatus_wt, State.modWt_wt] using hpeer
  · exact congrArg Host.Outcome.next ((silence_of_heard hh).trans (if_neg (by omega)))
  · exact congrArg Host.Outcome.next ((ageOut_of_heard hh).trans (if_neg (by omega)))
  · exact congrArg Host.Outcome.next ((ageOut_of_heard hh).trans (if_pos hearly))

/-! ## Peer links and `FOLD_CFG` (R519, R44) -/

@[simp] theorem State.peer_modPeer (s : State) (e : Nat) (f : Peer → Peer) : (s.modPeer e f).peer e = f (s.peer e) := by
  unfold State.peer State.modPeer
  by_cases h : e = 0 <;> simp [h]

@[simp] theorem State.reg_modPeer (s : State) (e : Nat) (f : Peer → Peer) (j : Nat) : (s.modPeer e f).reg j = s.reg j := by
  simp only [State.reg, State.modPeer_regs]

@[simp] theorem setStatus_peer (s : State) (off mask e : Nat) : (setStatus s off mask).peer e = s.peer e := by
  simp only [State.peer, setStatus_peerE, setStatus_peerW]

theorem peerFallTo_of_up {s : State} {e : Nat} (h : (s.peer e).linkUp = true) (lanes : BitVec 4) (fec : Bool) : peerFallTo s e lanes fec =
    setStatus (s.modPeer e fun _ => { lanes := lanes, fec := fec && lanes == 0xF }) (Off.peerStatus e) (if lanes = 0xF then 1 else 3) :=
  if_pos h

theorem exec_peerLinkDown_of_corrected (e : Fin 2) (lanes : BitVec 4) (fec : Bool) (s : State) :
    exec (.peerLinkDown e lanes fec false) s = .next (peerFallTo s e.val lanes fec) := rfl

/-- An uncorrectable codeword is noted before the link falls. -/
theorem exec_peerLinkDown_of_uncorrected {e : Fin 2} {s : State} (h : (s.peer e.val).linkUp = true) (lanes : BitVec 4) (fec : Bool) :
    exec (.peerLinkDown e lanes fec true) s = .next (peerFallTo (setStatus s (Off.peerStatus e.val) 8) e.val lanes fec) :=
  congrArg (fun t => Host.Outcome.next (peerFallTo t e.val lanes fec)) (if_pos (by simp [h]))

theorem exec_foldCfgWrite_of_idle {s : State} (h : anyActive s = false) (v : Word) : exec (.foldCfgWrite v) s =
    .next (let s1 := s.setReg Off.foldCfg (v &&& 0x00FF001F#32)
      if bit v 4 then (if foldEn s then elect s1 else joinFold s1) else if foldEn s then leaveFold s1 else s1) :=
  congrArg Host.Outcome.next (if_neg (by simp [h]))

/-- Settles O14: a link rises and falls under the guards of `peerMayRise` and `linkUp`; a write of `FOLD_CFG` goes by `FOLD_EN`. -/
theorem peerLinksAndFoldCfg : Obligations.PeerLinksAndFoldCfg := by
  refine ⟨fun e lanes fec s => ⟨fun h => ?_, fun h => ?_, fun hup hlanes => ?_, fun hup => ?_, fun hup => ?_, fun hdown u => ?_⟩,
    fun v s => ⟨fun h => ?_, fun h hb hf => ?_, fun h hb hf => ?_, fun h hb hf => ?_, fun h hb hf => ?_⟩⟩
  · exact congrArg Host.Outcome.next (if_pos h)
  · exact congrArg Host.Outcome.next (if_neg (by simp [h]))
  · rw [exec_peerLinkDown_of_corrected, peerFallTo_of_up hup, beq_eq_false_iff_ne.mpr hlanes, if_neg hlanes, Bool.and_false]
  · rw [exec_peerLinkDown_of_corrected, peerFallTo_of_up hup, beq_self_eq_true, if_pos rfl, Bool.and_true]
  · have hnoted : bit ((setStatus s (Off.peerStatus e.val) 8).reg (Off.peerStatus e.val)) 3 = true :=
      setStatus_bit (by omega) (by decide) s _
    rw [exec_peerLinkDown_of_uncorrected hup, peerFallTo_of_up (by rw [setStatus_peer]; exact hup)]
    refine ⟨_, rfl, by simp, setStatus_bit (by omega) ?_ _ _, setStatus_bit_of_set ?_ _ _⟩
    · split <;> decide
    · rwa [State.reg_modPeer]
  · exact congrArg Host.Outcome.next (by cases u <;> simp [peerFallTo, hdown])
  · exact congrArg Host.Outcome.next (if_pos h)
  all_goals
    rw [exec_foldCfgWrite_of_idle h]
    simp [hb, hf]

end Sys2Proof.Machine

/-! PROOFS. Contracts: proposals, commits, releases, layout updates and drains (R48-R53, R57, R298, R460). -/

namespace Sys2Proof.Machine

/-! ## A descriptor command that has started -/

theorem check_of_true {ok : Bool} (h : ok = true) (status : Nat) (ref : CmdRef) (s : State) (k : State → State) :
    check ok status ref s k = k s := if_pos h

theorem check_of_false {ok : Bool} (h : ok = false) (status : Nat) (ref : CmdRef) (s : State) (k : State → State) :
    check ok status ref s k = completeWith s ref status := by rw [h, check_false]

theorem fetchOf_ok {s : State} (h : linkUp s = true) (bs : List Byte) (ref : CmdRef) (k : List Byte → State → State) :
    fetchOf (.ok bs) ref s k = k bs s := by
  rw [fetchOf, hostSays, if_pos h]

/-! ## What an accepted proposal leaves unchanged -/

@[simp] theorem relevel_contracts (s : State) : (relevel s).contracts = s.contracts := by
  simp only [relevel, apply_ite State.contracts, setStatus_contracts, ite_self]

@[simp] theorem relevel_wt (s : State) : (relevel s).wt = s.wt := by
  simp only [relevel, apply_ite State.wt, setStatus_wt, ite_self]

@[simp] theorem relevel_mem (s : State) : (relevel s).mem = s.mem := by
  simp only [relevel, apply_ite State.mem, setStatus_mem, ite_self]

@[simp] theorem relevel_comp (s : State) : (relevel s).comp = s.comp := by
  simp only [relevel, apply_ite State.comp, setStatus_comp, ite_self]

theorem placeEndpoint_contracts (s : State) (e : Endpoint) : (placeEndpoint s e).contracts = s.contracts := by
  unfold placeEndpoint
  split <;> rfl

theorem placeStat_contracts (s : State) (n : Nat) (c : Contract) : (placeStat s n c).contracts = s.contracts := by
  unfold placeStat
  split <;> rfl

theorem reserveRing_contracts (c : Nat) (s : State) (p z : Nat) : (reserveRing c s p z).contracts = s.contracts := by
  unfold reserveRing
  split <;> rfl

theorem ownStreams_contracts (s : State) (n : Nat) (xs : List Source) : (ownStreams s n xs).contracts = s.contracts :=
  foldl_leaves (view := State.contracts) (fun t x => by split <;> rfl) xs s

theorem writeReport_contracts (s : State) (a : Nat) (v : Verdict) : (writeReport s a v).contracts = s.contracts := by
  unfold writeReport
  split <;> rfl

theorem acceptProposal_contracts (s : State) (n : Nat) (c : Contract) (v : Verdict) : (acceptProposal s n c v).contracts =
    (s.modContract n fun _ => { c with state := .proposed, stage := v.stage, wd := v.decWin, windows := v.windows }).contracts := by
  unfold acceptProposal
  simp only [relevel_contracts, addSlots, State.modWt_contracts]
  rw [foldl_leaves (view := State.contracts) fun t p => reserveRing_contracts n t p _, placeStat_contracts,
    foldl_leaves (view := State.contracts) placeEndpoint_contracts, ownStreams_contracts]

theorem acceptProposal_contract (s : State) (n : Nat) (c : Contract) (v : Verdict) : (acceptProposal s n c v).contract n =
    { c with state := .proposed, stage := v.stage, wd := v.decWin, windows := v.windows } := by
  rw [State.contract, acceptProposal_contracts]
  exact (State.contract_modContract s n _ n).trans (if_pos rfl)

/-! ## Proposals (R57, R63) -/

theorem exec_contractPropose_of_fields {s t : State} {sq : Fin 1024} {d : Desc} {ref : CmdRef} (h : Starts s sq d ref t)
    (hf : proposeFields d = true) (x : HostData) : exec (.contractPropose sq d x) s =
    .next (check ((t.contract (descFld d 8 1)).state == .free) St.stateConflict ref t fun u =>
      fetchOf x ref u fun bs u => proposeBlock ref d bs u) :=
  (runCmd_of_starts h _).trans (congrArg _ (check_of_true hf _ _ _ _))

theorem exec_contractCommit_of_fields {s t : State} {sq : Fin 1024} {d : Desc} {ref : CmdRef} (h : Starts s sq d ref t)
    (hf : commitFields t d = true) : exec (.contractCommit sq d) s =
    .next (check (commitStates t (descFld d 8 1)) St.stateConflict ref t fun u =>
      commitTry u (descFld d 8 1) ref (descFld d 9 1 == 1) (descFld d 16 8)) :=
  (runCmd_of_starts h _).trans (congrArg _ (check_of_true hf _ _ _ _))

theorem exec_layoutUpdate_of_fields {s t : State} {sq : Fin 1024} {d : Desc} {ref : CmdRef} (h : Starts s sq d ref t)
    (hf : layoutFields d = true) (x : HostData) : exec (.layoutUpdate sq d x) s =
    .next (check (layoutState (t.contract (descFld d 8 1))) St.stateConflict ref t fun u =>
      fetchOf x ref u fun bs u =>
        check (layoutOk u (t.contract (descFld d 8 1)) d bs) St.invalidField ref u fun u =>
        check (sourcesOpen u (layoutSources (t.contract (descFld d 8 1)) d bs)) St.stateConflict ref u fun u =>
        layoutAdmit ref d bs u) :=
  (runCmd_of_starts h _).trans (congrArg _ (check_of_true hf _ _ _ _))

/-- A proposal that is well-formed and whose sources, slots and buffers are there goes to its admission. -/
theorem proposeBlock_of_good {t : State} {d : Desc} {bs : List Byte} (hlen : bs.length = descFld d 24 4)
    (hok : proposalOk t (descFld d 8 1) bs = true) (hst : proposalStates t (descFld d 8 1) (parseProposal bs) = true)
    (hfits : fits t (proposalBytes (parseProposal bs)) = true) (ref : CmdRef) :
    proposeBlock ref d bs t = proposeAdmit ref d (parseProposal bs) t := by
  unfold proposeBlock
  rw [check_of_true (by simp [hlen, hok]), check_of_true hst, check_of_true hfits]

theorem commitLoaded_eq_false {s : State} {n : Nat} {e : Endpoint} (he : e ∈ (s.contract n).endpoints)
    (h : mget none (s.contract n).maps e.slot = none ∨ (mget {} s.corr.coefs (16384 * n + e.slot)).inForce = none) :
    commitLoaded s n = false := by
  refine List.all_eq_false.mpr ⟨e, he, ?_⟩
  rcases h with h | h <;> simp [h, coefKey]

theorem commitStates_eq_false {s : State} {n : Nat} (h : (s.contract n).state ≠ .proposed ∨ commitLoaded s n = false) :
    commitStates s n = false := by
  unfold commitStates
  rcases h with h | h
  · rw [beq_eq_false_iff_ne.mpr h]
    simp only [Bool.false_and]
  · simp only [h, Bool.and_false]

theorem layoutState_eq_true_iff (c : Contract) : layoutState c = true ↔ c.state = .committed ∨ c.state = .running := by
  simp only [layoutState, Bool.or_eq_true, beq_iff_eq]

/-- Settles O15: a good proposal reaches its admission, whose verdict decides; a wrong state is met by the command's own check. -/
theorem proposalIsAdmittedOrRefused : Obligations.ProposalIsAdmittedOrRefused := by
  refine ⟨fun sq d bs s t ref h hf => ?_, fun sq d x s t ref h => ⟨fun hf hst => ?_, fun hf hst => ?_, fun hf hc hr => ?_⟩⟩
  · intro n c v u hfree hlen hok hst hup hfits
    have hexec : exec (.contractPropose sq d (.ok bs)) s = .next (proposeAdmit ref d c t) := by
      rw [exec_contractPropose_of_fields h hf, check_of_true (beq_iff_eq.mpr hfree), fetchOf_ok hup, proposeBlock_of_good hlen hok hst hfits]
    refine ⟨fun hv => ⟨hexec.trans (congrArg Host.Outcome.next (if_pos hv)), ?_⟩, fun hv =>
      ⟨hexec.trans (congrArg Host.Outcome.next (if_neg hv)), writeReport_contracts t _ v⟩⟩
    rw [acceptProposal_contract]
    exact ⟨rfl, rfl, rfl⟩
  · rw [exec_contractPropose_of_fields h hf, check_of_false (beq_eq_false_iff_ne.mpr hst)]
  · have hno : commitStates t (descFld d 8 1) = false := commitStates_eq_false <| hst.imp_right fun ⟨_, he, hmissing⟩ =>
      commitLoaded_eq_false he hmissing
    rw [exec_contractCommit_of_fields h hf, check_of_false hno]
  · have hno : layoutState (t.contract (descFld d 8 1)) = false := by
      rw [Bool.eq_false_iff, ne_eq, layoutState_eq_true_iff]
      exact fun hs => hs.elim hc hr
    rw [exec_layoutUpdate_of_fields h hf, check_of_false hno]

/-! ## The first frame (R50) -/

theorem le_ceilDiv_mul {a b : Nat} (hb : 0 < b) : a ≤ ceilDiv a b * b := by
  have h := Nat.div_add_mod (a + b - 1) b
  have hlt := Nat.mod_lt (a + b - 1) hb
  rw [Nat.mul_comm] at h
  unfold ceilDiv
  omega

theorem ceilDiv_le_of_le_mul {a b m : Nat} (hb : 0 < b) (h : a ≤ m * b) : ceilDiv a b ≤ m := by
  refine Nat.le_of_lt_succ (Nat.div_lt_of_lt_mul ?_)
  rw [Nat.mul_comm, Nat.succ_mul]
  omega

/-- The least frame number whose period count has reached `need`. -/
theorem ceilDiv_le_iff {need p q n : Nat} (hp : 0 < p) (hq : 0 < q) : ceilDiv (need * q) p ≤ n ↔ need ≤ n * p / q := by
  rw [Nat.le_div_iff_mul_le hq]
  exact ⟨fun h => Nat.le_trans (le_ceilDiv_mul hp) (Nat.mul_le_mul_right p h), ceilDiv_le_of_le_mul hp⟩

theorem autoFirst_le_iff {c : Contract} (hp : 0 < c.pnum) (hq : 0 < c.pden) (wall : Nat) (d : Int) (n : Nat) :
    autoFirst c wall d ≤ n ↔ (wall : Int) + 160000 ≤ (c.t0 + n * c.pnum / c.pden : Nat) + d := by
  unfold autoFirst
  simp only []
  split
  · have : 0 ≤ n * c.pnum / c.pden := Nat.zero_le _
    omega
  · rw [ceilDiv_le_iff hp hq]
    omega

theorem launchTick_le (c : Contract) (n : Nat) : launchTick c n ≤ c.t0 + n * c.pnum / c.pden := Nat.mod_le _ _

/-! ## Commits (R50, R298) -/

theorem planRings_contracts (s : State) (n : Nat) : (planRings s n).contracts = s.contracts := relevel_contracts _

theorem planRings_wt (s : State) (n : Nat) : (planRings s n).wt = s.wt := relevel_wt _

theorem boundaryOffset_congr {s t : State} (h : s.wt = t.wt) (n : Nat) : boundaryOffset s n = boundaryOffset t n := by
  unfold boundaryOffset boundarySlot
  rw [h]

theorem planRings_contract (s : State) (n : Nat) : (planRings s n).contract n = s.contract n :=
  congrArg (mget ({} : Contract) · n) (planRings_contracts s n)

theorem planRings_wallNow (s : State) (n : Nat) : (planRings s n).wallNow = s.wallNow :=
  congrArg (fun w : WallTime => w.wall.toNat) (planRings_wt s n)

theorem planRings_firstOk (s : State) (n f : Nat) : firstOk (planRings s n) n f = firstOk s n f := by
  rw [firstOk, planRings_contract, planRings_wallNow, boundaryOffset_congr (planRings_wt s n), firstOk]

/-! ## Releases (R51) -/

theorem beginDrain_contract (s : State) (n : Nat) (ref : CmdRef) (blank : Bool) : (beginDrain s n ref blank).contract n =
    { s.contract n with state := .draining, nLast := some ((s.contract n).frame.getD 0), blankOut := blank, releases := [ref] } :=
  (State.contract_modContract s n (fun c => { c with
    state := .draining, nLast := some ((s.contract n).frame.getD 0), blankOut := blank, releases := [ref] }) n).trans (if_pos rfl)

theorem drainSlot_next_le {n last : Nat} {l : LSlot} (hslot : slotOf n (drainSlot n last l) = true) (harmed : (drainSlot n last l).armed = true) :
    (drainSlot n last l).next ≤ last := by
  unfold drainSlot at *
  split at harmed
  next h =>
    rw [if_pos h]
    exact of_decide_eq_true (Bool.and_eq_true_iff.mp harmed).2
  next h =>
    rw [if_neg h] at hslot
    exact absurd hslot h

theorem releaseRun_of_free {s : State} {n : Nat} (h : (s.contract n).state = .free) (ref : CmdRef) (blank : Bool) :
    releaseRun s n ref blank = complete s ref St.ok (2 ^ 64 - 1) 0 0 := by
  simp only [releaseRun, h, allOnes64]

theorem releaseRun_of_draining {s : State} {n : Nat} (h : (s.contract n).state = .draining) (ref : CmdRef) (blank : Bool) :
    releaseRun s n ref blank = s.modContract n fun c => { c with releases := c.releases ++ [ref] } := by
  simp only [releaseRun, h]

/-- A contract that is PROPOSED or COMMITTED, with no commit that waits, is freed at once. -/
theorem releaseRun_of_idle {s : State} {n : Nat} (h : (s.contract n).state = .proposed ∨ (s.contract n).state = .committed)
    (hc : (s.contract n).commit = none) (ref : CmdRef) (blank : Bool) :
    releaseRun s n ref blank = complete (freeContract s n) ref St.ok (2 ^ 64 - 1) 0 0 := by
  rcases h with h | h <;> simp only [releaseRun, releaseIdle, h, hc, allOnes64]

theorem releaseRun_of_running {s : State} {n : Nat} {blank : Bool} (hst : (s.contract n).state = .running)
    (hlate : s.wallNow < launchTick (s.contract n) ((s.contract n).frame.getD 0 + b2n blank)) (ref : CmdRef) :
    releaseRun s n ref blank = beginDrain s n ref blank := by
  have hopen : drained (beginDrain s n ref blank) ((beginDrain s n ref blank).contract n) = false := by
    rw [beginDrain_contract, drained, Bool.and_eq_false_iff]
    exact .inr (decide_eq_false (Nat.not_le.mpr hlate))
  simp only [releaseRun, hst, hopen, Bool.false_eq_true, if_false]

theorem exec_contractRelease_of_fields {s t : State} {sq : Fin 1024} {d : Desc} {ref : CmdRef} (h : Starts s sq d ref t)
    (hhdr : hdrOk d 0x12 [(8, 2)] = true) (hn : descFld d 8 1 < 64) (hb : descFld d 9 1 < 2) :
    exec (.contractRelease sq d) s = .next (releaseRun t (descFld d 8 1) ref (descFld d 9 1 == 1)) :=
  (runCmd_of_starts h _).trans (congrArg _ (check_of_true (by simp [hhdr, hn, hb]) _ _ _ _))

/-- Settles O17: a commit by whether its rings can be built and by `AT_FRAME`, a release by the contract's state. -/
theorem commitAndReleaseFollowTheState : Obligations.CommitAndReleaseFollowTheState := by
  refine ⟨fun sq d s t ref h hf => ?_, fun c wall d hp hq => ⟨fun hfit => ?_, fun n hn => ?_⟩, fun c s ref a f hc hs => ⟨fun hb => ?_, fun hb => ?_⟩,
    fun sq d s t ref h hhdr hn hb => ?_⟩
  · intro n at_ f p ok hst
    have hexec : exec (.contractCommit sq d) s = .next (commitTry t n ref at_ f) := by
      rw [exec_contractCommit_of_fields h hf, check_of_true hst]
    have hcomp : p.comp = t.comp := relevel_comp _
    have haccept (n0 : Nat) : commitAccept p n ref n0 = ok n0 := by
      simp only [commitAccept, hcomp, ok]
    refine ⟨fun hno => ?_, fun hyes hat hfirst => ?_, fun hyes hat hfirst => ?_, fun hyes hat => ?_, planRings_contracts t n, planRings_wt t n, relevel_mem _⟩
    · exact hexec.trans (congrArg Host.Outcome.next (if_neg (by simp [p, hno])))
    all_goals refine hexec.trans (congrArg Host.Outcome.next ((if_pos hyes).trans ?_))
    · rw [commitDecide, if_pos hat, if_pos ((planRings_firstOk t n f).trans hfirst)]
      exact haccept f
    · rw [commitDecide, if_pos hat, if_neg (by rw [planRings_firstOk, hfirst]; exact Bool.false_ne_true)]
    · rw [commitDecide, if_neg (by simp [hat]), planRings_contract, planRings_wallNow, boundaryOffset_congr (planRings_wt t n)]
      exact haccept _
  · have hdue := (autoFirst_le_iff hp hq wall d _).mp (Nat.le_refl _)
    rwa [launchTick, Nat.mod_eq_of_lt hfit]
  · have hle := launchTick_le c n
    exact (autoFirst_le_iff hp hq wall d n).mpr (by omega)
  · exact (by simp [exec, execContractCommitAccept, hc, hs, hb])
  · exact (by simp [exec, execContractCommitAccept, hc, hb])
  · intro n
    rw [exec_contractRelease_of_fields h hhdr hn hb]
    refine ⟨fun hst => ?_, fun hst => ?_, fun hst hc => ?_, fun hst hc => ?_, fun hst hlate => ?_⟩
    · exact congrArg Host.Outcome.next (releaseRun_of_free hst ref _)
    · exact congrArg Host.Outcome.next (releaseRun_of_draining hst ref _)
    · exact congrArg Host.Outcome.next (releaseRun_of_idle (.inl hst) hc ref _)
    · exact congrArg Host.Outcome.next (releaseRun_of_idle (.inr hst) hc ref _)
    · refine ⟨_, congrArg Host.Outcome.next (releaseRun_of_running hst hlate ref), ?_⟩
      rw [beginDrain_contract]
      refine ⟨rfl, rfl, rfl, rfl, rfl, rfl, rfl, fun p hp hslot harmed => ?_⟩
      obtain ⟨q, -, rfl⟩ := List.mem_map.mp hp
      exact drainSlot_next_le hslot harmed

/-! ## Layout updates and drains -/

/-- Settles O18: an update that passes its checks reaches re-admission, whose verdict decides; a drain's BLANK leaves when it is due. -/
theorem layoutAndDrain : Obligations.LayoutAndDrain := by
  refine ⟨fun sq d bs s t ref h hf => ?_, fun c s => ⟨fun hdue hs => ?_, fun hdue => ?_, fun hs => ?_, fun hs => ?_⟩,
    fun sq d s t ref h hhdr => ⟨fun hle => ?_, fun hgt => ?_⟩⟩
  · intro n c xs ch v u hup hst hok hopen
    have hexec : exec (.layoutUpdate sq d (.ok bs)) s = .next (layoutAdmit ref d bs t) := by
      rw [exec_layoutUpdate_of_fields h hf, check_of_true ((layoutState_eq_true_iff _).mpr hst), fetchOf_ok hup, check_of_true hok, check_of_true hopen]
    exact ⟨fun hv => hexec.trans (congrArg Host.Outcome.next (if_pos hv)), fun hv =>
      ⟨hexec.trans (congrArg Host.Outcome.next (if_neg hv)), writeReport_contracts t _ v⟩⟩
  · exact congrArg Host.Outcome.next (if_pos (by simp [hdue, hs]))
  · exact congrArg Host.Outcome.next (if_neg (by simp [hdue]))
  · exact congrArg Host.Outcome.next (if_pos hs)
  · exact congrArg Host.Outcome.next (if_neg (by simp [hs]))
  · exact (runCmd_of_starts h _).trans (congrArg _ (check_of_true (by simp [hhdr, hle]) _ _ _ _))
  · exact (runCmd_of_starts h _).trans (congrArg _ (check_of_false (by simp [hgt]) _ _ _ _))

end Sys2Proof.Machine

/-! PROOFS. Device memory: what a write stores where none of its codewords is bad (R391, R409). -/

namespace Sys2Proof.Machine

theorem mget_dramWrite (bs : List Byte) (m : Map Byte) (a x : Nat) :
    mget 0 (dramWrite m a bs) x = if a ≤ x ∧ x < a + bs.length then bs.getD (x - a) 0 else mget 0 m x := by
  induction bs generalizing m a with
  | nil => rw [if_neg (by simp only [List.length_nil]; omega)]; rfl
  | cons b bs ih =>
    rw [dramWrite, ih, mget_mset, List.length_cons]
    by_cases hx : x = a
    · subst hx
      simp
    by_cases hin : a + 1 ≤ x ∧ x < a + 1 + bs.length
    · obtain ⟨k, rfl⟩ : ∃ k, x = a + 1 + k := ⟨x - (a + 1), by omega⟩
      rw [if_pos hin, if_pos (by omega), Nat.add_sub_cancel_left, show a + 1 + k - a = k + 1 by omega, List.getD_cons_succ]
    · rw [if_neg hin, if_neg hx, if_neg (by omega)]

theorem mem_codewords {a n w : Nat} (hn : 0 < n) : w ∈ codewords a n ↔ a / 64 ≤ w ∧ w ≤ (a + n - 1) / 64 := by
  unfold codewords
  rw [if_neg (by omega), List.mem_map]
  simp only [List.mem_range]
  constructor
  · rintro ⟨i, hi, rfl⟩
    omega
  · rintro ⟨h1, h2⟩
    exact ⟨w - a / 64, by omega, by omega⟩

theorem not_bad_of_memBad {s : State} {a n w : Nat} (h : memBad s a n = false) (hw : w ∈ codewords a n) : s.mem.bad.contains w = false := by
  simpa using List.any_eq_false.mp h w hw

/-- Where no codeword of a write is bad, the write covers all its bytes. -/
theorem writeSpan_of_good {s : State} {a n : Nat} (h : memBad s a n = false) : writeSpan s.mem.bad a (a + n) = (a, a + n) := by
  rcases Nat.eq_zero_or_pos n with rfl | hn
  · unfold writeSpan
    ext <;> simp only [Nat.add_zero] <;> split <;> omega
  have hfirst : s.mem.bad.contains (a / 64) = false := not_bad_of_memBad h ((mem_codewords hn).mpr ⟨Nat.le_refl _, by omega⟩)
  unfold writeSpan
  ext
  · simp only [hfirst, Bool.false_and, Bool.false_eq_true, if_false]
  · by_cases hwhole : (a + n) % 64 = 0
    · simp only []
      split <;> omega
    · have hlast : s.mem.bad.contains ((a + n) / 64) = false := not_bad_of_memBad h ((mem_codewords hn).mpr ⟨by omega, by omega⟩)
      simp only [hlast, Bool.false_and, Bool.false_eq_true, if_false]

/-- A write that covers all its bytes stores them and leaves the registers alone. -/
theorem memWrite_of_span {s : State} {a : Nat} {bs : List Byte} (h : writeSpan s.mem.bad a (a + bs.length) = (a, a + bs.length)) :
    memWrite s a bs = s.modMem fun m => { m with
      dram := dramWrite m.dram a bs
      bad := m.bad.filter fun w => !(decide (a ≤ 64 * w) && decide (64 * w + 64 ≤ a + bs.length)) } := by
  have hslice : slice bs (a - a) (a + bs.length - a) = bs := by simp [slice]
  unfold memWrite
  simp only [h, hslice, if_true]

theorem memByte_memWrite_of_span {s : State} {a : Nat} {bs : List Byte} (h : writeSpan s.mem.bad a (a + bs.length) = (a, a + bs.length))
    (x : Nat) : memByte (memWrite s a bs) x = if a ≤ x ∧ x < a + bs.length then bs.getD (x - a) 0 else memByte s x := by
  rw [memWrite_of_span h]
  exact mget_dramWrite bs s.mem.dram a x

/-- A whole codeword is covered, whatever it held. -/
theorem writeSpan_of_codeword (bad : List Nat) {a : Nat} (h : a % 64 = 0) : writeSpan bad a (a + 64) = (a, a + 64) := by
  have hstart : 64 * (a / 64) = a := by omega
  have hend : 64 * (a / 64 + 1) = a + 64 := by omega
  simp [writeSpan, hstart, hend]

theorem memWrite_of_good {s : State} {a : Nat} {bs : List Byte} (h : memBad s a bs.length = false) : memWrite s a bs =
    s.modMem fun m => { m with
      dram := dramWrite m.dram a bs
      bad := m.bad.filter fun w => !(decide (a ≤ 64 * w) && decide (64 * w + 64 ≤ a + bs.length)) } :=
  memWrite_of_span (writeSpan_of_good h)

theorem memByte_memWrite_of_good {s : State} {a : Nat} {bs : List Byte} (h : memBad s a bs.length = false) (x : Nat) :
    memByte (memWrite s a bs) x = if a ≤ x ∧ x < a + bs.length then bs.getD (x - a) 0 else memByte s x :=
  memByte_memWrite_of_span (writeSpan_of_good h) x

theorem writeSpan_within (bad : List Nat) (a b : Nat) (h : a ≤ b) : a ≤ (writeSpan bad a b).1 ∧ (writeSpan bad a b).2 ≤ b := by
  unfold writeSpan
  constructor
  · simp only []
    split
    · exact Nat.le_min.mpr ⟨h, by omega⟩
    · exact Nat.le_refl a
  · simp only []
    split
    · exact Nat.max_le.mpr ⟨h, by omega⟩
    · exact Nat.le_refl b

/-- A write stays within its range, also where it must leave out parts of bad codewords. -/
theorem memByte_memWrite_outside {s : State} {a x : Nat} {bs : List Byte} (hx : x < a ∨ a + bs.length ≤ x) :
    memByte (memWrite s a bs) x = memByte s x := by
  let w := writeSpan s.mem.bad a (a + bs.length)
  obtain ⟨hlo, hhi⟩ : a ≤ w.1 ∧ w.2 ≤ a + bs.length := writeSpan_within _ _ _ (Nat.le_add_right a _)
  have hdram : (memWrite s a bs).mem.dram = dramWrite s.mem.dram w.1 (slice bs (w.1 - a) (w.2 - w.1)) := by
    simp only [memWrite, apply_ite State.mem, setStatus_mem, ite_self]
    rfl
  rw [memByte, hdram, mget_dramWrite]
  refine if_neg fun hin => ?_
  have hlen : (slice bs (w.1 - a) (w.2 - w.1)).length ≤ w.2 - w.1 := List.length_take_le _ _
  omega

theorem memByte_congr {s t : State} (h : s.mem = t.mem) (x : Nat) : memByte s x = memByte t x := by
  rw [memByte, h, memByte]

end Sys2Proof.Machine

/-! PROOFS. Streams: opening, closing, access units and raw frames (R47, R72-R78, R82, R108-R111). -/

namespace Sys2Proof.Machine

/-! ## Tracing and tallies move nothing else -/

theorem State.modTly_modTly (s : State) (f g : Tally → Tally) : (s.modTly f).modTly g = s.modTly fun x => g (f x) := rfl

theorem tagSubmit_eq_modTly (s : State) (kind n : Nat) (ref : CmdRef) (key : Option Nat) :
    ∃ f, tagSubmit s kind n ref key = s.modTly f := by
  unfold tagSubmit
  split
  · unfold traceTag
    cases (s.stream n).owner with
    | none => exact ⟨id, rfl⟩
    | some c =>
      by_cases hen : s.tly.traceEn = true
      · simp only [hen, Bool.not_true, Bool.false_eq_true, if_false]
        split
        · exact ⟨_, State.modTly_modTly s _ _⟩
        · exact ⟨_, rfl⟩
      · exact ⟨id, by simp [hen, State.modTly]⟩
  · exact ⟨id, rfl⟩

/-! ## A stream that closes (R47, R82) -/

theorem tryClose_of_not_flushing {s : State} {n : Nat} (h : (s.stream n).state ≠ .flushing) : tryClose s n = s :=
  if_neg fun hc => h hc.1

theorem tryClose_of_busy {s : State} {n : Nat} (h : (s.stream n).units ≠ []) : tryClose s n = s :=
  if_neg fun hc => h (List.isEmpty_iff.mp hc.2.1)

theorem tryClose_of_empty {s : State} {n : Nat} (hst : (s.stream n).state = .flushing) (hu : (s.stream n).units = [])
    (hr : (s.stream n).rawQueue = []) :
    tryClose s n = (s.stream n).closes.foldl (fun t r => completeWith t r St.ok) (closedStream s n) :=
  if_pos ⟨hst, by simp [hu], by simp [hr]⟩

theorem State.stream_congr {s t : State} (h : s.streams = t.streams) (m : Nat) : s.stream m = t.stream m := by
  rw [State.stream, h, State.stream]

theorem closedStream_stream (s : State) (n m : Nat) : (closedStream s n).stream m = if m = n then {} else s.stream m := by
  unfold closedStream
  rw [State.stream_modStream]
  rfl

theorem closedStream_dram (s : State) (n : Nat) : (closedStream s n).mem.dram = s.mem.dram := rfl

/-- What an OPEN stream keeps when its `STREAM_CLOSE` flushes it: the units being decoded, and the close that waits (R82). -/
theorem flushStream_spec (s : State) (n : Nat) (ref : CmdRef) :
    (if ((s.stream n).units.any fun v => v.phase == .decoding) = true then
      ((flushStream s n ref).stream n).state = .flushing
        ∧ ((flushStream s n ref).stream n).units = (s.stream n).units.filter (fun v => v.phase == .decoding)
        ∧ ((flushStream s n ref).stream n).rawQueue = [] ∧ ((flushStream s n ref).stream n).closes = (s.stream n).closes ++ [ref]
    else (flushStream s n ref).stream n = {})
    ∧ (∀ m, m ≠ n → (flushStream s n ref).stream m = s.stream m) ∧ (flushStream s n ref).mem.dram = s.mem.dram := by
  let flush : Stream → Stream := fun x => { x with
    state := .flushing, closes := x.closes ++ [ref], units := x.units.filter fun u => u.phase == .decoding, rawQueue := [] }
  let u := (queuedRefs (s.stream n)).foldl (fun t r => completeWith t r St.aborted) (s.modStream n flush)
  have hflush : flushStream s n ref = tryClose u n := rfl
  have hu (m : Nat) : u.stream m = if m = n then flush (s.stream n) else s.stream m :=
    (foldl_leaves (view := (State.stream · m)) (fun t r => State.stream_congr (completeWith_streams t r _) m) _ _).trans
      (State.stream_modStream s n flush m)
  have hun : u.stream n = flush (s.stream n) := (hu n).trans (if_pos rfl)
  have hmem : u.mem = s.mem := foldl_leaves (view := State.mem) (fun t r => completeWith_mem t r _) _ _
  by_cases hdec : ((s.stream n).units.any fun v => v.phase == .decoding) = true
  · have hbusy : (u.stream n).units ≠ [] := by
      obtain ⟨v, hv, hp⟩ := List.any_eq_true.mp hdec
      rw [hun]
      exact List.ne_nil_of_mem (List.mem_filter.mpr ⟨hv, hp⟩)
    rw [if_pos hdec, hflush, tryClose_of_busy hbusy, hun]
    exact ⟨⟨rfl, rfl, rfl, rfl⟩, fun m hm => (hu m).trans (if_neg hm), congrArg Mem.dram hmem⟩
  · have hempty : (u.stream n).units = [] := by
      rw [hun]
      refine List.filter_eq_nil_iff.mpr fun v hv hp => hdec (List.any_eq_true.mpr ⟨v, hv, hp⟩)
    rw [if_neg hdec, hflush, tryClose_of_empty (by rw [hun]) hempty (by rw [hun])]
    have hclosed (m : Nat) : ((u.stream n).closes.foldl (fun t r => completeWith t r St.ok) (closedStream u n)).stream m
        = if m = n then {} else u.stream m :=
      (foldl_leaves (view := (State.stream · m)) (fun t r => State.stream_congr (completeWith_streams t r _) m) _ _).trans
        (closedStream_stream u n m)
    refine ⟨(hclosed n).trans (if_pos rfl), fun m hm => ((hclosed m).trans (if_neg hm)).trans ((hu m).trans (if_neg hm)), ?_⟩
    have hm := foldl_leaves (view := State.mem) (fun t r => completeWith_mem t r St.ok) (u.stream n).closes (closedStream u n)
    rw [hm, closedStream_dram, hmem]

/-! ## `STREAM_OPEN` (R72-R74, R108) -/

theorem exec_streamOpen_of_fields {s t : State} {sq : Fin 1024} {d : Desc} {ref : CmdRef} (h : Starts s sq d ref t)
    (hf : openFields d = true) (x : HostData) (cfg : CfgParse) : exec (.streamOpen sq d x cfg) s =
    .next (check ((t.stream (descFld d 8 1)).state == .closed) St.stateConflict ref t fun u =>
      match codecOf (descFld d 9 1) with
      | some .raw => openRaw ref d u
      | some c => fetchOf x ref u fun bs u => openParsed ref d c cfg bs u
      | none => completeWith u ref St.invalidField) :=
  (runCmd_of_starts h _).trans (congrArg _ (check_of_true hf _ _ _ _))

theorem exec_streamOpen_raw {s t : State} {sq : Fin 1024} {d : Desc} {ref : CmdRef} (h : Starts s sq d ref t)
    (hf : openFields d = true) (hst : (t.stream (descFld d 8 1)).state = .closed) (hc : codecOf (descFld d 9 1) = some .raw)
    (x : HostData) (cfg : CfgParse) : exec (.streamOpen sq d x cfg) s = .next (openRaw ref d t) := by
  rw [exec_streamOpen_of_fields h hf, check_of_true (beq_iff_eq.mpr hst), hc]

theorem exec_streamOpen_coded {s t : State} {sq : Fin 1024} {d : Desc} {ref : CmdRef} {c : Codec} (h : Starts s sq d ref t)
    (hf : openFields d = true) (hst : (t.stream (descFld d 8 1)).state = .closed) (hc : codecOf (descFld d 9 1) = some c)
    (hraw : c ≠ .raw) (hup : linkUp t = true) (bs : List Byte) (cfg : CfgParse) :
    exec (.streamOpen sq d (.ok bs) cfg) s = .next (openParsed ref d c cfg bs t) := by
  rw [exec_streamOpen_of_fields h hf, check_of_true (beq_iff_eq.mpr hst), hc]
  cases c with
  | raw => exact absurd rfl hraw
  | hevc => exact congrArg _ (fetchOf_ok hup _ _ _)
  | av1 => exact congrArg _ (fetchOf_ok hup _ _ _)
  | vvc => exact congrArg _ (fetchOf_ok hup _ _ _)

theorem openRaw_of_fits {t : State} {d : Desc} (hfits : fits t (3 * (descFld d 32 4 * descFld d 30 2)) = true) (ref : CmdRef) :
    openRaw ref d t = complete ((place t (3 * (descFld d 32 4 * descFld d 30 2))).2.modStream (descFld d 8 1) fun _ =>
        openStream .raw d (rawRecord d) [] (place t (3 * (descFld d 32 4 * descFld d 30 2))).1 0) ref St.ok
      (place t (3 * (descFld d 32 4 * descFld d 30 2))).1 0 0 := by
  rw [openRaw, check_of_true hfits]

theorem openCoded_of_fits {t : State} {d : Desc} {r : StreamRec} (hfits : fits t (storeBytes r + descFld d 12 4) = true) (ref : CmdRef)
    (c : Codec) (bs : List Byte) : openCoded ref d c r bs t =
      complete ((place (place t (storeBytes r)).2 (descFld d 12 4)).2.modStream (descFld d 8 1) fun _ =>
        openStream c d r [bs] (place t (storeBytes r)).1 (place (place t (storeBytes r)).2 (descFld d 12 4)).1) ref St.ok
      (place t (storeBytes r)).1 0 0 := by
  rw [openCoded, check_of_true hfits]

theorem exec_streamClose_of_hdr {s t : State} {sq : Fin 1024} {d : Desc} {ref : CmdRef} (h : Starts s sq d ref t)
    (hhdr : hdrOk d 0x03 [(8, 1)] = true) : exec (.streamClose sq d) s =
    .next (check (!streamNamed t (descFld d 8 1)) St.stateConflict ref t fun u => streamCloseRun ref (descFld d 8 1) u) :=
  (runCmd_of_starts h _).trans (congrArg _ (check_of_true hhdr _ _ _ _))

theorem exec_streamClose_of_unnamed {s t : State} {sq : Fin 1024} {d : Desc} {ref : CmdRef} (h : Starts s sq d ref t)
    (hhdr : hdrOk d 0x03 [(8, 1)] = true) (hn : streamNamed t (descFld d 8 1) = false) :
    exec (.streamClose sq d) s = .next (streamCloseRun ref (descFld d 8 1) t) := by
  rw [exec_streamClose_of_hdr h hhdr, check_of_true (by rw [hn]; rfl)]

/-- Settles O19: an open goes by the stream's state, its codec and what fits; a close by whether the stream is named and by its state. -/
theorem streamsOpenAndClose : Obligations.StreamsOpenAndClose := by
  refine ⟨fun sq d x cfg s t ref h hf => ?_, fun sq d s t ref h hhdr => ?_⟩
  · intro n rawBytes
    refine ⟨fun hst => ?_, fun hst hc hfits => ?_, fun c r bs hst hc hraw hup hx hcfg hrec hseq hfits => ?_, fun hst hc hfits => ?_,
      fun c bs hst hc hraw hup hx => ⟨fun hbad => ?_, fun r hrec hcfg hseq => ?_⟩⟩
    · rw [exec_streamOpen_of_fields h hf, check_of_false (beq_eq_false_iff_ne.mpr hst)]
    · refine ⟨_, _, (exec_streamOpen_raw h hf hst hc x cfg).trans (congrArg Host.Outcome.next (openRaw_of_fits hfits ref)), rfl, ?_⟩
      rw [State.stream_modStream, if_pos rfl]
      exact ⟨rfl, rfl, rfl, rfl, rfl, rfl, rfl, fun m hm => (State.stream_modStream _ _ _ m).trans (if_neg hm), rfl, rfl, rfl, rfl⟩
    · subst hx hcfg
      have hexec : exec (.streamOpen sq d (.ok bs) (.ok r)) s = .next (openCoded ref d c r bs t) := by
        rw [exec_streamOpen_coded h hf hst hc hraw hup, openParsed, check_of_true hrec]
        exact congrArg _ (check_of_true hseq _ _ _ _)
      refine ⟨_, _, hexec.trans (congrArg Host.Outcome.next (openCoded_of_fits hfits ref c bs)), rfl, ?_⟩
      rw [State.stream_modStream, if_pos rfl]
      exact ⟨rfl, rfl, rfl, rfl, rfl, rfl, rfl, fun m hm => (State.stream_modStream _ _ _ m).trans (if_neg hm), rfl, rfl, rfl, rfl⟩
    · rw [exec_streamOpen_raw h hf hst hc, openRaw, check_of_false hfits]
    · subst hx
      rw [exec_streamOpen_coded h hf hst hc hraw hup, openParsed]
      cases hrec : recordFormat c bs with
      | false => rfl
      | true =>
        obtain rfl := hbad.resolve_left (by simp [hrec])
        rfl
    · subst hx hcfg
      rw [exec_streamOpen_coded h hf hst hc hraw hup, openParsed, check_of_true hrec]
      exact congrArg _ (check_of_false hseq _ _ _ _)
  · intro n
    refine ⟨fun hn => ?_, fun hn hst => ?_, fun hn hst => ?_, fun hn hst => ?_⟩
    · rw [exec_streamClose_of_hdr h hhdr, check_of_false (by rw [hn]; rfl)]
    · rw [exec_streamClose_of_unnamed h hhdr hn, streamCloseRun, hst]
    · rw [exec_streamClose_of_unnamed h hhdr hn, streamCloseRun, hst]
    · have hexec : exec (.streamClose sq d) s = .next (flushStream t n ref) := by
        rw [exec_streamClose_of_unnamed h hhdr hn, streamCloseRun, hst]
      exact ⟨_, hexec, flushStream_spec t n ref⟩

/-! ## The input buffer of a coded stream (R78) -/

theorem startFetch_refs (us : List Au) (total used : Nat) : (startFetch us total used).2.map (fun w => w.ref) = us.map (fun w => w.ref) := by
  induction us with
  | nil => rfl
  | cons u us ih =>
    unfold startFetch
    split
    · split <;> rfl
    · simp only [List.map_cons, ih]

theorem startFetch_used_le {total used : Nat} (h : used ≤ total) (us : List Au) : (startFetch us total used).1 ≤ total := by
  induction us with
  | nil => exact h
  | cons u us ih =>
    unfold startFetch
    split
    · split
      · assumption
      · exact h
    · exact ih

/-- The last unit of a queue stays the last, and at most its fetch starts. -/
theorem startFetch_getLast (us : List Au) (v : Au) (total used : Nat) :
    (startFetch (us ++ [v]) total used).2.getLast? = some v
      ∨ (v.phase = .waiting ∧ (startFetch (us ++ [v]) total used).2.getLast? = some { v with phase := .fetching }) := by
  induction us with
  | nil =>
    rw [List.nil_append]
    unfold startFetch
    split
    next hw =>
      split
      · exact .inr ⟨hw, rfl⟩
      · exact .inl rfl
    · exact .inl rfl
  | cons u us ih =>
    rw [List.cons_append]
    unfold startFetch
    split
    · refine .inl ?_
      split <;> simp [List.getLast?_cons]
    · rcases ih with h | ⟨hw, h⟩
      · exact .inl (by simp [List.getLast?_cons, h])
      · exact .inr ⟨hw, by simp [List.getLast?_cons, h]⟩

theorem fetchNext_refs (x : Stream) : (fetchNext x).units.map (fun w => w.ref) = x.units.map (fun w => w.ref) := startFetch_refs _ _ _

theorem fetchNext_fits {x : Stream} (h : x.ibufUsed ≤ x.ibufBytes) : (fetchNext x).ibufUsed ≤ (fetchNext x).ibufBytes := startFetch_used_le h _

/-- The stream after an accepted `AU_SUBMIT`. -/
def submitted (x : Stream) (u : Au) : Stream :=
  let y := { x with submits := x.submits + 1, units := x.units ++ [u] }
  if anyWaiting x then y else fetchNext y

theorem auAccept_eq (ref : CmdRef) (d : Desc) (s : State) : ∃ f, auAccept ref d s =
    (s.modTly f).modStream (descFld d 8 1) fun x => submitted x (auOf ref d) := by
  obtain ⟨f, hf⟩ := tagSubmit_eq_modTly s 1 (descFld d 8 1) ref none
  exact ⟨f, by rw [← hf]; rfl⟩

theorem submitted_refs (x : Stream) (u : Au) : (submitted x u).units.map (fun w => w.ref) = x.units.map (fun w => w.ref) ++ [u.ref] := by
  unfold submitted
  split
  · simp
  · simp [fetchNext_refs]

theorem submitted_last (x : Stream) {u : Au} (hu : u.phase = .waiting) : ∃ v, (submitted x u).units.getLast? = some v
    ∧ v.bytes = u.bytes ∧ v.addr = u.addr ∧ (v.phase = .waiting ∨ v.phase = .fetching) := by
  unfold submitted
  split
  · exact ⟨u, by simp, rfl, rfl, .inl hu⟩
  · rcases startFetch_getLast x.units u x.ibufBytes x.ibufUsed with h | ⟨-, h⟩
    · exact ⟨u, h, rfl, rfl, .inl hu⟩
    · exact ⟨_, h, rfl, rfl, .inr rfl⟩

theorem submitted_submits (x : Stream) (u : Au) : (submitted x u).submits = x.submits + 1 := by
  unfold submitted
  split <;> rfl

theorem submitted_fits {x : Stream} (h : x.ibufUsed ≤ x.ibufBytes) (u : Au) : (submitted x u).ibufUsed ≤ (submitted x u).ibufBytes := by
  unfold submitted
  split
  · exact h
  · exact fetchNext_fits h

theorem exec_auSubmit_of_fields {s t : State} {sq : Fin 1024} {d : Desc} {ref : CmdRef} (h : Starts s sq d ref t)
    (hhdr : hdrOk d 0x04 [(8, 2), (16, 12)] = true) (hb : descFld d 9 1 < 4) : exec (.auSubmit sq d) s =
    .next (check ((t.stream (descFld d 8 1)).state == .open_) St.stateConflict ref t fun u =>
      check ((t.stream (descFld d 8 1)).codec != .raw && decide (descFld d 24 4 ≤ (t.stream (descFld d 8 1)).ibufBytes / 2))
        St.invalidField ref u fun u => auAccept ref d u) :=
  (runCmd_of_starts h _).trans (congrArg _ (check_of_true (by simp [hhdr, hb]) _ _ _ _))

/-! ## A fetch that completes -/

theorem fetchingRef_eq_none {x : Stream} (h : ∀ u ∈ x.units, u.phase ≠ .fetching) : fetchingRef x = none := by
  unfold fetchingRef
  rw [List.find?_eq_none.mpr fun u hu => by simp [h u hu]]
  rfl

theorem fetchingRef_of_first {x : Stream} {a b : List Au} {u : Au} (hx : x.units = a ++ u :: b) (hu : u.phase = .fetching)
    (ha : ∀ v ∈ a, v.phase = .decoding) : fetchingRef x = some u.ref := by
  have hnone : a.find? (fun u => u.phase == .fetching) = none := List.find?_eq_none.mpr fun v hv => by simp [ha v hv]
  unfold fetchingRef
  rw [hx, List.find?_append, hnone]
  simp [hu]

theorem auFetched_of_first {a b : List Au} {u : Au} (hu : u.phase = .fetching) (ha : ∀ v ∈ a, v.phase = .decoding) (codec : Codec)
    (bs : List Byte) (info : UnitInfo) : auFetched codec (.ok bs) info (a ++ u :: b) =
      a ++ { u with
        phase := .complete, data := bs.take u.bytes, info := info
        rap := isRap codec (bs.take u.bytes) info, bad := 0 } :: b := by
  induction a with
  | nil =>
    rw [List.nil_append, auFetched, if_pos hu]
    rfl
  | cons v a ih =>
    have hv : v.phase ≠ .fetching := by simp [ha v List.mem_cons_self]
    rw [List.cons_append, auFetched, if_neg hv, ih fun w hw => ha w (List.mem_cons_of_mem _ hw)]
    rfl

/-- Where the unit at the head is not dead and there is one, nothing settles. -/
theorem settle_of_live {s : State} {n : Nat} {u : Au} {us : List Au} (h : (s.stream n).units = u :: us) (hu : auDead u = false) :
    settle s n = s := by
  have hdrop : dropDead n (s.stream n).units s = s := by
    rw [h, dropDead, if_neg (by simp [hu])]
  rw [settle, hdrop, tryClose_of_busy (by simp [h])]

theorem auFetchComplete_of_first {s : State} {n : Nat} {a b : List Au} {u : Au} (hx : (s.stream n).units = a ++ u :: b)
    (hu : u.phase = .fetching) (ha : ∀ v ∈ a, v.phase = .decoding) (bs : List Byte) (info : UnitInfo) :
    let t := markIngest (s.modStream n fun x => { x with units := auFetched x.codec (.ok bs) info x.units }) u.ref
    settle t n = t ∧ (t.stream n).units = a ++ { u with
        phase := .complete, data := bs.take u.bytes, info := info
        rap := isRap (s.stream n).codec (bs.take u.bytes) info, bad := 0 } :: b := by
  intro t
  have hunits : (t.stream n).units = a ++ { u with
      phase := .complete, data := bs.take u.bytes, info := info
      rap := isRap (s.stream n).codec (bs.take u.bytes) info, bad := 0 } :: b := by
    have hstream : t.stream n = { s.stream n with units := auFetched (s.stream n).codec (.ok bs) info (s.stream n).units } :=
      (State.stream_modStream s n (fun x => { x with units := auFetched x.codec (.ok bs) info x.units }) n).trans (if_pos rfl)
    rw [hstream, ← auFetched_of_first hu ha, hx]
  refine ⟨?_, hunits⟩
  cases a with
  | nil => exact settle_of_live hunits rfl
  | cons v a => exact settle_of_live hunits (by simp [auDead, ha v List.mem_cons_self])

/-- Settles O20: a submit by the stream's state and the unit's size; `startFetch` keeps to the room and touches one unit's phase. -/
theorem unitsAreQueuedAndFetched : Obligations.UnitsAreQueuedAndFetched := by
  refine ⟨fun sq d s t ref h hhdr hb => ?_, fun st bs info s => ⟨fun hnone => ?_, fun a u b hx hu ha hup => ?_⟩, fun st s => ?_⟩
  · intro n x
    refine ⟨fun hst => ?_, fun hst hbad => ?_, fun hst hraw hsize => ?_⟩
    · rw [exec_auSubmit_of_fields h hhdr hb, check_of_false (beq_eq_false_iff_ne.mpr hst)]
    · have hno : ((t.stream n).codec != .raw && decide (descFld d 24 4 ≤ (t.stream n).ibufBytes / 2)) = false := by
        rcases hbad with hbad | hbad
        · rw [bne_eq_false_iff_eq.mpr hbad, Bool.false_and]
        · rw [decide_eq_false (Nat.not_le.mpr hbad), Bool.and_false]
      rw [exec_auSubmit_of_fields h hhdr hb, check_of_true (beq_iff_eq.mpr hst), check_of_false hno]
    · have hok : ((t.stream n).codec != .raw && decide (descFld d 24 4 ≤ (t.stream n).ibufBytes / 2)) = true := by
        rw [bne_iff_ne.mpr hraw, decide_eq_true hsize, Bool.and_true]
      obtain ⟨f, hf⟩ := auAccept_eq ref d t
      have hexec : exec (.auSubmit sq d) s = .next ((t.modTly f).modStream n fun x => submitted x (auOf ref d)) := by
        rw [exec_auSubmit_of_fields h hhdr hb, check_of_true (beq_iff_eq.mpr hst), check_of_true hok, hf]
      have hstream (m : Nat) := State.stream_modStream (t.modTly f) n (fun x => submitted x (auOf ref d)) m
      obtain ⟨v, hv, hbytes, haddr, hphase⟩ := submitted_last x (u := auOf ref d) rfl
      refine ⟨_, v, hexec, ?_⟩
      rw [(hstream n).trans (if_pos rfl)]
      exact ⟨submitted_refs x _, hv, hbytes, haddr, hphase, submitted_submits x _, fun hroom => submitted_fits hroom _,
        fun m hm => (hstream m).trans (if_neg hm), rfl, rfl, rfl, rfl⟩
  · simp only [exec, execAuFetchComplete, fetchingRef_eq_none hnone]
  · obtain ⟨hsettle, hunits⟩ := auFetchComplete_of_first hx hu ha bs info
    refine ⟨_, ?_, hunits, rfl, rfl, rfl⟩
    simp only [exec, execAuFetchComplete, fetchingRef_of_first hx hu ha, hostSays, hup, if_true, hsettle]
  · refine ⟨_, rfl, ?_⟩
    rw [State.stream_modStream, if_pos rfl]
    exact ⟨fetchNext_refs _, fetchNext_fits, rfl, rfl, rfl, rfl⟩

end Sys2Proof.Machine

/-! PROOFS. Raw frames and slices: which buffer they take and where their data lands (R109, R111, R391). -/

namespace Sys2Proof.Machine

/-! ## The buffer that a new frame takes -/

theorem bufFree_iff (s : State) (n b : Nat) : bufFree s n b = true ↔ bufInUse s n b = false ∧ (s.stream n).newest ≠ some b := by
  simp only [bufFree, Bool.and_eq_true, Bool.not_eq_true', bne_iff_ne]

theorem chooseBuf_free {s : State} {n b : Nat} (h : chooseBuf s n = some b) : b < 3 ∧ bufFree s n b = true := by
  have hthree {x : Nat} (hx : x ∈ [0, 1, 2]) : x < 3 := by simp only [List.mem_cons, List.not_mem_nil, or_false] at hx; omega
  unfold chooseBuf at h
  split at h
  next x hx =>
    obtain rfl := Option.some.inj h
    exact ⟨hthree (List.mem_of_find?_eq_some hx), (Bool.and_eq_true_iff.mp (List.find?_some (p := fun b => bufFree s n b && !bufPartial (rawBuf (s.stream n) b)) hx)).1⟩
  next => exact ⟨hthree (List.mem_of_find?_eq_some h), List.find?_some h⟩

theorem chooseBuf_congr {s t : State} {n : Nat} (hc : s.contracts = t.contracts) (hn : (s.stream n).newest = (t.stream n).newest)
    (hb : (s.stream n).bufs = (t.stream n).bufs) : chooseBuf s n = chooseBuf t n := by
  have hraw (b : Nat) : rawBuf (s.stream n) b = rawBuf (t.stream n) b := by rw [rawBuf, hb, rawBuf]
  have hfree (b : Nat) : bufFree s n b = bufFree t n b := by rw [bufFree, bufInUse, hc, hn, bufFree, bufInUse]
  unfold chooseBuf
  simp only [hraw, hfree]

/-! ## Taking a buffer -/

/-- A stream after a buffer has been taken for a new frame. -/
def buffered (x : Stream) (b tag : Nat) (sliced : Bool) : Stream :=
  { x with
    abandoned := if bufPartial (rawBuf x b) then some (rawBuf x b).tag else x.abandoned
    frameSeq := x.frameSeq + 1, bufs := mset {} x.bufs b { held := true, tag := tag, sliced := sliced, seq := x.frameSeq + 1 } }

theorem takeBuf_stream (s : State) (n b tag : Nat) (sliced : Bool) (m : Nat) :
    (takeBuf s n b tag sliced).stream m = if m = n then buffered (s.stream n) b tag sliced else s.stream m := by
  unfold takeBuf
  rw [State.stream_modStream]
  by_cases hp : bufPartial (rawBuf (s.stream n) b) = true
  · have htally (k : Nat) := (State.stream_congr (tallyAdd_streams (s.modStream n fun x =>
      { x with abandoned := some (rawBuf (s.stream n) b).tag }) n 1) k).trans (State.stream_modStream s n _ k)
    simp only [if_pos hp, htally, if_true, buffered]
    by_cases hm : m = n <;> simp [hm, rawBuf]
  · simp only [if_neg hp, buffered]

theorem takeBuf_mem (s : State) (n b tag : Nat) (sliced : Bool) : (takeBuf s n b tag sliced).mem = s.mem := by
  simp only [takeBuf, State.modStream_mem, apply_ite State.mem, tallyAdd_mem, ite_self]

theorem takeBuf_contracts (s : State) (n b tag : Nat) (sliced : Bool) : (takeBuf s n b tag sliced).contracts = s.contracts := by
  simp only [takeBuf, State.modStream_contracts, apply_ite State.contracts, tallyAdd_contracts, ite_self]

theorem takeBuf_rings (s : State) (n b tag : Nat) (sliced : Bool) : (takeBuf s n b tag sliced).rings = s.rings := by
  simp only [takeBuf, State.modStream_rings, apply_ite State.rings, tallyAdd_rings, ite_self]

/-! ## The head of a raw queue -/

theorem startRaw_of_empty {s : State} {n : Nat} (h : (s.stream n).rawQueue = []) (k : Nat) : startRaw n k s = s := by
  cases k with
  | zero => rfl
  | succ k => simp only [startRaw, h]

theorem startRaw_of_frame {s : State} {n : Nat} {r : RawSubmit} {rs : List RawSubmit} (h : (s.stream n).rawQueue = r :: rs)
    (hb : r.buf = none) (hs : r.slice = none) {b : Nat} (hc : chooseBuf s n = some b) (k : Nat) :
    startRaw n (k + 1) s = (takeBuf s n b r.tag false).modStream n fun x => headBuf x b := by
  simp only [startRaw, h, hb, hs, hc, Option.isSome_none, Bool.false_and, Bool.false_eq_true, if_false]

theorem startRaw_of_no_buffer {s : State} {n : Nat} {r : RawSubmit} {rs : List RawSubmit} (h : (s.stream n).rawQueue = r :: rs)
    (hb : r.buf = none) (hs : r.slice = none) (hc : chooseBuf s n = none) (k : Nat) : startRaw n (k + 1) s = s := by
  simp only [startRaw, h, hb, hs, hc, Option.isSome_none, Bool.false_and, Bool.false_eq_true, if_false]

theorem startRaw_of_slice {s : State} {n : Nat} {r : RawSubmit} {rs : List RawSubmit} {b : Nat} (h : (s.stream n).rawQueue = r :: rs)
    (hb : r.buf = none) (hs : r.slice.isSome = true) (htag : bufOfTag (s.stream n) r.tag = some b) (k : Nat) :
    startRaw n (k + 1) s = s.modStream n fun x => headBuf x b := by
  simp only [startRaw, h, hb, hs, htag, Option.isSome_none, Option.isNone_some, Bool.and_false, Bool.false_and, Bool.false_eq_true,
    if_false, if_true]

theorem headBuf_of_cons {x : Stream} {r : RawSubmit} {rs : List RawSubmit} (h : x.rawQueue = r :: rs) (b : Nat) :
    headBuf x b = { x with rawQueue := { r with buf := some b } :: rs } := by
  simp only [headBuf, h]

/-- What giving buffers to a raw queue leaves unchanged. -/
def RawKept (n : Nat) (s t : State) : Prop :=
  t.mem = s.mem ∧ t.contracts = s.contracts ∧ (t.stream n).state = (s.stream n).state ∧ (t.stream n).newest = (s.stream n).newest

theorem headBuf_kept (x : Stream) (b : Nat) : (headBuf x b).state = x.state ∧ (headBuf x b).newest = x.newest := by
  unfold headBuf
  split <;> exact ⟨rfl, rfl⟩

theorem rawKept_headBuf (n b : Nat) (s : State) : RawKept n s (s.modStream n fun x => headBuf x b) := by
  refine ⟨rfl, rfl, ?_⟩
  rw [State.stream_modStream, if_pos rfl]
  exact headBuf_kept _ b

theorem rawKept_takeBuf (s : State) (n b tag : Nat) (sliced : Bool) : RawKept n s (takeBuf s n b tag sliced) := by
  refine ⟨takeBuf_mem s n b tag sliced, takeBuf_contracts s n b tag sliced, ?_⟩
  rw [takeBuf_stream, if_pos rfl]
  exact ⟨rfl, rfl⟩

theorem rawKept_popRaw (s : State) (n : Nat) (ref : CmdRef) : RawKept n s (completeWith (s.modStream n popRaw) ref St.aborted) := by
  refine ⟨completeWith_mem _ _ _, completeWith_contracts _ _ _, ?_⟩
  rw [State.stream_congr (completeWith_streams _ _ _) n, State.stream_modStream, if_pos rfl]
  exact ⟨rfl, rfl⟩

theorem RawKept.trans {n : Nat} {s t u : State} (h : RawKept n s t) (k : RawKept n t u) : RawKept n s u := by
  obtain ⟨h1, h2, h3, h4⟩ := h
  obtain ⟨k1, k2, k3, k4⟩ := k
  exact ⟨k1.trans h1, k2.trans h2, k3.trans h3, k4.trans h4⟩

theorem rawKept_startRaw (n k : Nat) (s : State) : RawKept n s (startRaw n k s) := by
  have hid : RawKept n s s := ⟨rfl, rfl, rfl, rfl⟩
  induction k generalizing s with
  | zero => exact hid
  | succ k ih =>
    unfold startRaw
    split
    · exact hid
    next r rs _ =>
      split
      · exact hid
      · split
        · exact (rawKept_popRaw s n r.ref).trans (ih _ ⟨rfl, rfl, rfl, rfl⟩)
        · split
          · exact rawKept_headBuf n _ s
          · split
            · exact (rawKept_takeBuf s n _ r.tag _).trans (rawKept_headBuf n _ _)
            · exact hid

theorem rawGo_of_not_flushing {s : State} {n : Nat} (h : (s.stream n).state ≠ .flushing) :
    rawGo s n = startRaw n ((s.stream n).rawQueue.length + 1) s := by
  obtain ⟨-, -, hst, -⟩ := rawKept_startRaw n ((s.stream n).rawQueue.length + 1) s
  exact tryClose_of_not_flushing (by rwa [hst])

/-! ## Submits (R109, R111) -/

/-- The queue entry of a raw submit. -/
def rawJob (ref : CmdRef) (d : Desc) (slice b : Option Nat) : RawSubmit :=
  { ref := ref, tag := descFld d 12 4, slice := slice, bytes := descFld d 24 4, addr := descFld d 16 8, sgl := bit d 73, buf := b }

/-- A stream after a raw submit has joined its queue. -/
def rawQueued (x : Stream) (r : RawSubmit) : Stream := { x with submits := x.submits + 1, rawQueue := x.rawQueue ++ [r] }

theorem rawQueued_of_empty {x : Stream} (h : x.rawQueue = []) (r : RawSubmit) : (rawQueued x r).rawQueue = [r] := by
  rw [rawQueued, h]
  rfl

theorem rawAccept_eq (ref : CmdRef) (d : Desc) (slice : Option Nat) (s : State) : ∃ f, rawAccept ref d slice s =
    rawGo ((s.modTly f).modStream (descFld d 8 1) fun x => rawQueued x (rawJob ref d slice none)) (descFld d 8 1) := by
  obtain ⟨f, hf⟩ := tagSubmit_eq_modTly s (if slice.isSome then 3 else 2) (descFld d 8 1) ref (some (descFld d 12 4))
  exact ⟨f, by rw [← hf]; rfl⟩

theorem exec_rawFrameSubmit_of_fields {s t : State} {sq : Fin 1024} {d : Desc} {ref : CmdRef} (h : Starts s sq d ref t)
    (hhdr : hdrOk d 0x05 [(8, 2), (12, 16)] = true) (hb : descFld d 9 1 = 0 ∨ descFld d 9 1 = 2) : exec (.rawFrameSubmit sq d) s =
    .next (check ((t.stream (descFld d 8 1)).state == .open_) St.stateConflict ref t fun u =>
      check ((t.stream (descFld d 8 1)).codec == .raw && descFld d 24 4 == (t.stream (descFld d 8 1)).stride * (t.stream (descFld d 8 1)).height)
        St.invalidField ref u fun u => rawAccept ref d none u) :=
  (runCmd_of_starts h _).trans (congrArg _ (check_of_true (by simp [hhdr, hb]) _ _ _ _))

theorem exec_rawSliceSubmit_of_fields {s t : State} {sq : Fin 1024} {d : Desc} {ref : CmdRef} (h : Starts s sq d ref t)
    (hhdr : hdrOk d 0x06 [(8, 20)] = true) (hb : descFld d 9 1 = 0 ∨ descFld d 9 1 = 2) : exec (.rawSliceSubmit sq d) s =
    .next (check ((t.stream (descFld d 8 1)).state == .open_) St.stateConflict ref t fun u =>
      check ((t.stream (descFld d 8 1)).codec == .raw && decide (descFld d 10 2 < sliceCount (t.stream (descFld d 8 1)))
          && descFld d 24 4 == (t.stream (descFld d 8 1)).stride * sliceRows (t.stream (descFld d 8 1)) (descFld d 10 2))
        St.invalidField ref u fun u => rawAccept ref d (some (descFld d 10 2)) u) :=
  (runCmd_of_starts h _).trans (congrArg _ (check_of_true (by simp [hhdr, hb]) _ _ _ _))

/-- A frame that meets an empty queue takes the buffer that is free for it, if there is one. -/
theorem rawAccept_frame {s : State} {d : Desc} (hopen : (s.stream (descFld d 8 1)).state = .open_)
    (hq : (s.stream (descFld d 8 1)).rawQueue = []) (ref : CmdRef) :
    ∃ u, rawAccept ref d none s = u ∧ u.mem = s.mem ∧ u.rings = s.rings ∧ (∀ m, m ≠ descFld d 8 1 → u.stream m = s.stream m)
      ∧ (chooseBuf s (descFld d 8 1) = none → u.stream (descFld d 8 1) = rawQueued (s.stream (descFld d 8 1)) (rawJob ref d none none))
      ∧ (∀ b, chooseBuf s (descFld d 8 1) = some b → u.stream (descFld d 8 1) =
          headBuf (buffered (rawQueued (s.stream (descFld d 8 1)) (rawJob ref d none none)) b (descFld d 12 4) false) b) := by
  obtain ⟨f, hf⟩ := rawAccept_eq ref d none s
  generalize hn : descFld d 8 1 = n at *
  have hstream (m : Nat) := State.stream_modStream (s.modTly f) n (fun x => rawQueued x (rawJob ref d none none)) m
  generalize ht : (s.modTly f).modStream n (fun x => rawQueued x (rawJob ref d none none)) = t at hf hstream
  have htn : t.stream n = rawQueued (s.stream n) (rawJob ref d none none) := (hstream n).trans (if_pos rfl)
  have htm (m : Nat) (hm : m ≠ n) : t.stream m = s.stream m := (hstream m).trans (if_neg hm)
  have htmem : t.mem = s.mem := by rw [← ht]; rfl
  have htrings : t.rings = s.rings := by rw [← ht]; rfl
  have hqueue : (t.stream n).rawQueue = [rawJob ref d none none] := by rw [htn]; exact rawQueued_of_empty hq _
  have hchoose : chooseBuf t n = chooseBuf s n := chooseBuf_congr (by rw [← ht]; rfl) (by rw [htn]; rfl) (by rw [htn]; rfl)
  have hgo : rawAccept ref d none s = startRaw n ((t.stream n).rawQueue.length + 1) t := by
    rw [hf, rawGo_of_not_flushing (by rw [htn]; simp [rawQueued, hopen])]
  rw [hgo]
  cases hb : chooseBuf s n with
  | none =>
    rw [startRaw_of_no_buffer hqueue rfl rfl (hchoose.trans hb)]
    exact ⟨t, rfl, htmem, htrings, htm, fun _ => htn, fun b h => absurd h (by simp)⟩
  | some b =>
    rw [startRaw_of_frame hqueue rfl rfl (hchoose.trans hb)]
    have hhead (m : Nat) := State.stream_modStream (takeBuf t n b (rawJob ref d none none).tag false) n (fun x => headBuf x b) m
    refine ⟨_, rfl, (takeBuf_mem t n b (rawJob ref d none none).tag false).trans htmem, (takeBuf_rings t n b (rawJob ref d none none).tag false).trans htrings, fun m hm => ?_,
      fun h => absurd h (by simp), fun c hc => ?_⟩
    · rw [hhead, if_neg hm, takeBuf_stream, if_neg hm, htm m hm]
    · obtain rfl := Option.some.inj hc
      rw [hhead, if_pos rfl, takeBuf_stream, if_pos rfl, htn]
      rfl

/-- A slice whose frame has a buffer joins it at once where nothing waits before it. -/
theorem rawAccept_slice {s : State} {d : Desc} {j b : Nat} (hopen : (s.stream (descFld d 8 1)).state = .open_)
    (hq : (s.stream (descFld d 8 1)).rawQueue = []) (htag : bufOfTag (s.stream (descFld d 8 1)) (descFld d 12 4) = some b) (ref : CmdRef) :
    ∃ u, rawAccept ref d (some j) s = u ∧ u.mem = s.mem ∧ u.rings = s.rings ∧ (∀ m, m ≠ descFld d 8 1 → u.stream m = s.stream m)
      ∧ u.stream (descFld d 8 1) = headBuf (rawQueued (s.stream (descFld d 8 1)) (rawJob ref d (some j) none)) b := by
  obtain ⟨f, hf⟩ := rawAccept_eq ref d (some j) s
  generalize hn : descFld d 8 1 = n at *
  have hstream (m : Nat) := State.stream_modStream (s.modTly f) n (fun x => rawQueued x (rawJob ref d (some j) none)) m
  generalize ht : (s.modTly f).modStream n (fun x => rawQueued x (rawJob ref d (some j) none)) = t at hf hstream
  have htn : t.stream n = rawQueued (s.stream n) (rawJob ref d (some j) none) := (hstream n).trans (if_pos rfl)
  have hqueue : (t.stream n).rawQueue = [rawJob ref d (some j) none] := by rw [htn]; exact rawQueued_of_empty hq _
  have hfound : bufOfTag (t.stream n) (rawJob ref d (some j) none).tag = some b := by rw [htn]; exact htag
  have hgo : rawAccept ref d (some j) s = t.modStream n fun x => headBuf x b := by
    rw [hf, rawGo_of_not_flushing (by rw [htn]; simp [rawQueued, hopen]), startRaw_of_slice hqueue rfl rfl hfound]
  have hhead (m : Nat) := State.stream_modStream t n (fun x => headBuf x b) m
  refine ⟨_, hgo, by rw [← ht]; rfl, by rw [← ht]; rfl, fun m hm => ?_, ?_⟩
  · rw [hhead, if_neg hm, hstream, if_neg hm]
    rfl
  · rw [hhead, if_pos rfl, htn]

/-! ## Data that arrives (R391) -/

theorem rawArrive_state (x : Stream) (r : RawSubmit) (b : Nat) : (rawArrive x r b).state = x.state := by
  unfold rawArrive
  simp only []
  split <;> rfl

theorem rawArrive_newest {x : Stream} {r : RawSubmit} {b : Nat} (hs : r.slice = none) (hc : (rawBuf x b).complete = false) :
    (rawArrive x r b).newest = some b := by
  simp [rawArrive, arrived, hs, hc]

theorem rawDone_of_good {s : State} {n b : Nat} {r : RawSubmit} {bs : List Byte} (hopen : (s.stream n).state = .open_)
    (hgood : memBad s (rawDest (s.stream n) r b) r.bytes = false) (hlen : bs.length = r.bytes) :
    (∀ a, memByte (rawDone n (.ok bs) r b s) a = if rawDest (s.stream n) r b ≤ a ∧ a < rawDest (s.stream n) r b + r.bytes
        then bs.getD (a - rawDest (s.stream n) r b) 0 else memByte s a)
      ∧ ((rawDone n (.ok bs) r b s).stream n).newest = (rawArrive (s.stream n) r b).newest
      ∧ (rawDone n (.ok bs) r b s).contracts = s.contracts := by
  have hgood' : memBad s (rawDest (s.stream n) r b) bs.length = false := by rwa [hlen]
  have hall : bs.take r.bytes = bs := by rw [← hlen, List.take_length]
  let s1 := memWrite s (rawDest (s.stream n) r b) bs
  have hs1 : s1 = s.modMem _ := memWrite_of_good hgood'
  let s3 := complete (markIngest (s1.modStream n fun x => rawArrive x r b) r.ref) r.ref St.ok b 0 0
  have hdone : rawDone n (.ok bs) r b s = rawGo s3 n := by
    simp only [rawDone, hall]
    rfl
  have hstream : s3.stream n = rawArrive (s.stream n) r b := by
    refine (State.stream_congr (complete_streams _ _ _ _ _ _) n).trans ?_
    refine (State.stream_modStream s1 n (fun x => rawArrive x r b) n).trans ((if_pos rfl).trans ?_)
    rw [hs1]
    rfl
  have hgo := rawKept_startRaw n ((s3.stream n).rawQueue.length + 1) s3
  rw [← rawGo_of_not_flushing (by rw [hstream, rawArrive_state, hopen]; simp), ← hdone] at hgo
  obtain ⟨hmem, hcontracts, -, hnewest⟩ := hgo
  refine ⟨fun a => ?_, hnewest.trans (by rw [hstream]), hcontracts.trans ?_⟩
  · rw [memByte_congr (hmem.trans (complete_mem _ _ _ _ _ _)), ← hlen]
    exact memByte_memWrite_of_good hgood' a
  · refine (complete_contracts _ _ _ _ _ _).trans ?_
    show s1.contracts = s.contracts
    rw [hs1]
    rfl

theorem exec_rawFetchDone_of_none {s : State} {st : Fin 256} (h : ∀ r rs, (s.stream st.val).rawQueue = r :: rs → r.buf = none) (x : HostData) :
    exec (.rawFetchDone st x) s = .next s := by
  simp only [exec, execRawFetchDone]
  split
  · rfl
  next r rs hq =>
    rw [h r rs hq]

theorem exec_rawFetchDone_of_some {s : State} {st : Fin 256} {r : RawSubmit} {rs : List RawSubmit} {b : Nat}
    (hq : (s.stream st.val).rawQueue = r :: rs) (hb : r.buf = some b) (x : HostData) :
    exec (.rawFetchDone st x) s = .next (rawDone st.val (hostSays s x) r b s) := by
  simp only [exec, execRawFetchDone, hq, hb]

theorem rawFetchDone_spec (st : Fin 256) (h : HostData) (s : State) :
    ((s.stream st.val).rawQueue = [] → exec (.rawFetchDone st h) s = .next s)
    ∧ (∀ r rs, (s.stream st.val).rawQueue = r :: rs → r.buf = none → exec (.rawFetchDone st h) s = .next s) :=
  ⟨fun hq => exec_rawFetchDone_of_none (fun r rs hr => by simp [hq] at hr) h,
    fun r rs hq hb => exec_rawFetchDone_of_none (fun r' rs' hr => by
      obtain ⟨rfl, rfl⟩ := List.cons.inj (hq.symm.trans hr)
      exact hb) h⟩

/-- Settles O22: a submit by the stream's state and kind, then by the buffer its frame takes; the data of the head by that buffer. -/
theorem rawFramesReachTheirBuffers : Obligations.RawFramesReachTheirBuffers := by
  refine ⟨⟨fun sq d s t ref h => ?_, fun s n b hb => ?_⟩, fun st x s => ⟨(rawFetchDone_spec st x s).1, (rawFetchDone_spec st x s).2,
    fun r rs b bs hq hb hup hx hopen hgood hlen => ?_, fun hq hst => ?_, fun r rs b hq hbuf hs hb hopen => ?_⟩⟩
  · intro n x job
    refine ⟨fun hhdr hflag => ⟨fun hst => ?_, fun hst hbad => ?_, fun hst hraw hsize hq => ?_⟩, fun hhdr hflag => ⟨fun hst => ?_,
      fun hst hraw hj hsize hq b htag => ?_⟩⟩
    · rw [exec_rawFrameSubmit_of_fields h hhdr hflag, check_of_false (beq_eq_false_iff_ne.mpr hst)]
    · have hno : ((t.stream n).codec == .raw && descFld d 24 4 == (t.stream n).stride * (t.stream n).height) = false := by
        rcases hbad with hbad | hbad
        · rw [beq_eq_false_iff_ne.mpr hbad, Bool.false_and]
        · rw [beq_eq_false_iff_ne.mpr hbad, Bool.and_false]
      rw [exec_rawFrameSubmit_of_fields h hhdr hflag, check_of_true (beq_iff_eq.mpr hst), check_of_false hno]
    · obtain ⟨u, hu, hmem, hrings, hothers, hwait, htake⟩ := rawAccept_frame hst hq ref
      have hexec : exec (.rawFrameSubmit sq d) s = .next u := by
        rw [exec_rawFrameSubmit_of_fields h hhdr hflag, check_of_true (beq_iff_eq.mpr hst),
          check_of_true (by rw [beq_iff_eq.mpr hraw, beq_iff_eq.mpr hsize, Bool.and_true]), hu]
      refine ⟨u, hexec, ?_⟩
      cases hb : chooseBuf t n with
      | none =>
        rw [hwait hb]
        exact ⟨rawQueued_of_empty hq _, rfl, fun b hb => absurd hb (by simp), rfl, hothers, hmem, hrings⟩
      | some b =>
        have hqueue : (buffered (rawQueued (t.stream n) (rawJob ref d none none)) b (descFld d 12 4) false).rawQueue = [rawJob ref d none none] :=
          rawQueued_of_empty hq _
        rw [htake b hb, headBuf_of_cons hqueue]
        refine ⟨rfl, rfl, fun c hc => ?_, rfl, hothers, hmem, hrings⟩
        obtain rfl := Option.some.inj hc
        simp [rawBuf, buffered, mget_mset]
    · rw [exec_rawSliceSubmit_of_fields h hhdr hflag, check_of_false (beq_eq_false_iff_ne.mpr hst)]
    · obtain ⟨u, hu, hmem, hrings, hothers, hstream⟩ := rawAccept_slice (j := descFld d 10 2) hst hq htag ref
      have hexec : exec (.rawSliceSubmit sq d) s = .next u := by
        rw [exec_rawSliceSubmit_of_fields h hhdr hflag, check_of_true (beq_iff_eq.mpr hst),
          check_of_true (by rw [beq_iff_eq.mpr hraw, beq_iff_eq.mpr hsize, decide_eq_true hj]; rfl), hu]
      have hqueue : (rawQueued (t.stream n) (rawJob ref d (some (descFld d 10 2)) none)).rawQueue = [rawJob ref d (some (descFld d 10 2)) none] :=
        rawQueued_of_empty hq _
      refine ⟨u, hexec, ?_⟩
      rw [hstream, headBuf_of_cons hqueue]
      exact ⟨rfl, rfl, rfl, hothers, hmem, hrings⟩
  · obtain ⟨hlt, hfree⟩ := chooseBuf_free hb
    exact ⟨hlt, (bufFree_iff s n b).mp hfree⟩
  · subst hx
    obtain ⟨hbytes, hnewest, hcontracts⟩ := rawDone_of_good (b := b) hopen hgood hlen
    refine ⟨_, ?_, hbytes, fun hs hc => hnewest.trans (rawArrive_newest hs hc), hcontracts⟩
    rw [exec_rawFetchDone_of_some hq hb, hostSays, if_pos hup]
  · refine congrArg Host.Outcome.next ((rawGo_of_not_flushing hst).trans (startRaw_of_empty hq _))
  · have hgo : rawGo s st.val = (takeBuf s st.val b r.tag false).modStream st.val fun x => headBuf x b := by
      rw [rawGo_of_not_flushing (by rw [hopen]; simp), startRaw_of_frame hq hbuf hs hb]
    have hqueue : (buffered (s.stream st.val) b r.tag false).rawQueue = r :: rs := hq
    refine ⟨_, rs, congrArg Host.Outcome.next hgo, ?_, rfl, takeBuf_mem s st.val b r.tag false⟩
    rw [State.stream_modStream, if_pos rfl, takeBuf_stream, if_pos rfl, headBuf_of_cons hqueue]

end Sys2Proof.Machine

/-! PROOFS. Composition: what a write of device memory leaves unchanged, paddock rows, blending and seam strips (R12, R127, R130, R131, R152). -/

namespace Sys2Proof.Machine

/-! ## What a write of device memory leaves unchanged -/

@[simp] theorem memWrite_wt (s : State) (a : Nat) (bs : List Byte) : (memWrite s a bs).wt = s.wt := by
  simp only [memWrite, apply_ite State.wt, setStatus_wt, State.modMem_wt, ite_self]

@[simp] theorem memWrite_contracts (s : State) (a : Nat) (bs : List Byte) : (memWrite s a bs).contracts = s.contracts := by
  simp only [memWrite, apply_ite State.contracts, setStatus_contracts, State.modMem_contracts, ite_self]

@[simp] theorem memWrite_streams (s : State) (a : Nat) (bs : List Byte) : (memWrite s a bs).streams = s.streams := by
  simp only [memWrite, apply_ite State.streams, setStatus_streams, State.modMem_streams, ite_self]

@[simp] theorem memWrite_decs (s : State) (a : Nat) (bs : List Byte) : (memWrite s a bs).decs = s.decs := by
  simp only [memWrite, apply_ite State.decs, setStatus_decs, State.modMem_decs, ite_self]

@[simp] theorem memWrite_comp (s : State) (a : Nat) (bs : List Byte) : (memWrite s a bs).comp = s.comp := by
  simp only [memWrite, apply_ite State.comp, setStatus_comp, State.modMem_comp, ite_self]

@[simp] theorem memWrite_corr (s : State) (a : Nat) (bs : List Byte) : (memWrite s a bs).corr = s.corr := by
  simp only [memWrite, apply_ite State.corr, setStatus_corr, State.modMem_corr, ite_self]

@[simp] theorem memWrite_enc (s : State) (a : Nat) (bs : List Byte) : (memWrite s a bs).enc = s.enc := by
  simp only [memWrite, apply_ite State.enc, setStatus_enc, State.modMem_enc, ite_self]

@[simp] theorem memWrite_prx (s : State) (a : Nat) (bs : List Byte) : (memWrite s a bs).prx = s.prx := by
  simp only [memWrite, apply_ite State.prx, setStatus_prx, State.modMem_prx, ite_self]

@[simp] theorem memWrite_drovers (s : State) (a : Nat) (bs : List Byte) : (memWrite s a bs).drovers = s.drovers := by
  simp only [memWrite, apply_ite State.drovers, setStatus_drovers, State.modMem_drovers, ite_self]

@[simp] theorem memWrite_eg (s : State) (a : Nat) (bs : List Byte) : (memWrite s a bs).eg = s.eg := by
  simp only [memWrite, apply_ite State.eg, setStatus_eg, State.modMem_eg, ite_self]

@[simp] theorem memWrite_buf (s : State) (a : Nat) (bs : List Byte) : (memWrite s a bs).buf = s.buf := by
  simp only [memWrite, apply_ite State.buf, setStatus_buf, State.modMem_buf, ite_self]

@[simp] theorem memWrite_qcfg (s : State) (a : Nat) (bs : List Byte) : (memWrite s a bs).qcfg = s.qcfg := by
  simp only [memWrite, apply_ite State.qcfg, setStatus_qcfg, State.modMem_qcfg, ite_self]

@[simp] theorem memWrite_tbl (s : State) (a : Nat) (bs : List Byte) : (memWrite s a bs).tbl = s.tbl := by
  simp only [memWrite, apply_ite State.tbl, setStatus_tbl, State.modMem_tbl, ite_self]

@[simp] theorem memWrite_peerE (s : State) (a : Nat) (bs : List Byte) : (memWrite s a bs).peerE = s.peerE := by
  simp only [memWrite, apply_ite State.peerE, setStatus_peerE, State.modMem_peerE, ite_self]

@[simp] theorem memWrite_peerW (s : State) (a : Nat) (bs : List Byte) : (memWrite s a bs).peerW = s.peerW := by
  simp only [memWrite, apply_ite State.peerW, setStatus_peerW, State.modMem_peerW, ite_self]

@[simp] theorem memWrite_link (s : State) (a : Nat) (bs : List Byte) : (memWrite s a bs).link = s.link := by
  simp only [memWrite, apply_ite State.link, setStatus_link, State.modMem_link, ite_self]

@[simp] theorem memWrite_rings (s : State) (a : Nat) (bs : List Byte) : (memWrite s a bs).rings = s.rings := by
  simp only [memWrite, apply_ite State.rings, setStatus_rings, State.modMem_rings, ite_self]

@[simp] theorem memWrite_dma (s : State) (a : Nat) (bs : List Byte) : (memWrite s a bs).dma = s.dma := by
  simp only [memWrite, apply_ite State.dma, setStatus_dma, State.modMem_dma, ite_self]

@[simp] theorem memWrite_flt (s : State) (a : Nat) (bs : List Byte) : (memWrite s a bs).flt = s.flt := by
  simp only [memWrite, apply_ite State.flt, setStatus_flt, State.modMem_flt, ite_self]

@[simp] theorem memWrite_pwr (s : State) (a : Nat) (bs : List Byte) : (memWrite s a bs).pwr = s.pwr := by
  simp only [memWrite, apply_ite State.pwr, setStatus_pwr, State.modMem_pwr, ite_self]

@[simp] theorem memWrite_nvm (s : State) (a : Nat) (bs : List Byte) : (memWrite s a bs).nvm = s.nvm := by
  simp only [memWrite, apply_ite State.nvm, setStatus_nvm, State.modMem_nvm, ite_self]

@[simp] theorem memWrite_tly (s : State) (a : Nat) (bs : List Byte) : (memWrite s a bs).tly = s.tly := by
  simp only [memWrite, apply_ite State.tly, setStatus_tly, State.modMem_tly, ite_self]

@[simp] theorem memWrite_cages (s : State) (a : Nat) (bs : List Byte) : (memWrite s a bs).cages = s.cages := by
  simp only [memWrite, apply_ite State.cages, setStatus_cages, State.modMem_cages, ite_self]

@[simp] theorem memWrite_sels (s : State) (a : Nat) (bs : List Byte) : (memWrite s a bs).sels = s.sels := by
  simp only [memWrite, apply_ite State.sels, setStatus_sels, State.modMem_sels, ite_self]

@[simp] theorem memWrite_latches (s : State) (a : Nat) (bs : List Byte) : (memWrite s a bs).latches = s.latches := by
  simp only [memWrite, apply_ite State.latches, setStatus_latches, State.modMem_latches, ite_self]

@[simp] theorem memWrite_free (s : State) (a : Nat) (bs : List Byte) : (memWrite s a bs).free = s.free := by
  simp only [memWrite, apply_ite State.free, setStatus_free, State.modMem_free, ite_self]

@[simp] theorem memWrite_pending (s : State) (a : Nat) (bs : List Byte) : (memWrite s a bs).pending = s.pending := by
  simp only [memWrite, apply_ite State.pending, setStatus_pending, State.modMem_pending, ite_self]

/-! ## A paddock row that is written (R131, R134) -/

theorem writePad_contracts (k : Nat) (c : Contract) (f : FrameSet) (row : Nat) (poisoned : List (Nat × Nat)) (s : State) (col : Nat) :
    (writePad k c f row poisoned s col).contracts = s.contracts := by
  simp only [writePad, apply_ite State.contracts, setStatus_contracts, tallyAdd_contracts, memWrite_contracts, ite_self]

theorem unqueuePads_contracts (deal : List Nat) (s : State) (i : Nat) : (unqueuePads deal s i).contracts = s.contracts := by
  simp only [unqueuePads, apply_ite State.contracts, State.modSlice_contracts, ite_self]

theorem prxRowWritten_contracts (s : State) (c n row : Nat) : (prxRowWritten s c n row).contracts = s.contracts := by
  unfold prxRowWritten
  split <;> rfl

theorem dropSets_contract (s : State) (k : Nat) : ∃ sets, (dropSets s k).contract k = { s.contract k with sets := sets } := by
  have hunplaced (xs : List Nat) (t : State) : (xs.foldl unplace t).contracts = t.contracts :=
    foldl_leaves (g := unplace) (view := State.contracts) (fun t a => rfl) xs t
  let gone := (s.contract k).sets.filter fun f => setDone (s.contract k) (contractPorts s (s.contract k)) f.frame
  refine ⟨(s.contract k).sets.filter fun f => !gone.contains f, (congrArg (mget ({} : Contract) · k) (hunplaced _ _)).trans ?_⟩
  exact (State.contract_modContract s k (fun d => { d with sets := d.sets.filter fun f => !gone.contains f }) k).trans (if_pos rfl)

/-- The row's job leaves the composing rows and joins the written ones. -/
theorem rowWritten_contract (s : State) (k : Nat) (j : RowJob) (poisoned : List (Nat × Nat)) :
    ((rowWritten s k j poisoned).contract k).rowsWritten = (s.contract k).rowsWritten ++ [(j.frame, j.row)]
      ∧ ((rowWritten s k j poisoned).contract k).rowsComposing = (s.contract k).rowsComposing.erase j := by
  unfold rowWritten
  simp only []
  generalize hs2 : (if coefPoison (frameSet (s.contract k) j.frame) (frameContract (s.contract k) j.frame) poisoned = 0 then _ else _ : State) = s2
  have hs2c : s2.contracts = s.contracts := by
    rw [← hs2, apply_ite State.contracts, setStatus_contracts, tallyAdd_contracts, ite_self]
    exact foldl_leaves (view := State.contracts) (fun t col => writePad_contracts k _ _ _ _ t col) _ _
  generalize hs3 : s2.modContract k _ = s3
  obtain ⟨sets, hdrop⟩ := dropSets_contract (prxRowWritten ((activeSlices s3).foldl (unqueuePads j.deal) s3) k j.frame j.row) k
  have hkept : (prxRowWritten ((activeSlices s3).foldl (unqueuePads j.deal) s3) k j.frame j.row).contract k = s3.contract k :=
    congrArg (mget ({} : Contract) · k) ((prxRowWritten_contracts _ _ _ _).trans
      (foldl_leaves (view := State.contracts) (unqueuePads_contracts j.deal) _ _))
  have hs2k : s2.contract k = s.contract k := congrArg (mget ({} : Contract) · k) hs2c
  rw [hdrop, hkept, ← hs3, State.contract_modContract, if_pos rfl, hs2k]
  exact ⟨rfl, rfl⟩

theorem exec_paddockRowWritten_of_none {s : State} {c : Fin 64} {row : Fin 32}
    (h : ∀ j ∈ (s.contract c.val).rowsComposing, j.row ≠ row.val) (p : List (Nat × Nat)) : exec (.paddockRowWritten c row p) s = .next s := by
  have hnone : (s.contract c.val).rowsComposing.find? (fun j => j.row == row.val) = none :=
    List.find?_eq_none.mpr fun j hj => by simp [h j hj]
  simp only [exec, execPaddockRowWritten, hnone]

theorem exec_paddockRowWritten_of_some {s : State} {c : Fin 64} {row : Fin 32} {j : RowJob}
    (h : (s.contract c.val).rowsComposing.find? (fun j => j.row == row.val) = some j) (p : List (Nat × Nat)) :
    exec (.paddockRowWritten c row p) s = if rowWaits s c.val j.frame j.row || !s.serving || !s.domainOn 36 then .next s
      else .next (rowWritten s c.val j p) := by
  simp only [exec, execPaddockRowWritten, h]

/-! ## Blending (R130) -/

theorem composedPx_of_uncovered {looks : List Look} {x y : Nat} (h : ∀ k ∈ looks, covers k.l x y = false) (s : State) (bg : List Nat) :
    composedPx s bg looks x y = [bg.getD 0 0, bg.getD 1 0, bg.getD 2 0] := by
  induction looks using List.reverseRecOn with
  | nil => rfl
  | append_singleton looks k ih =>
    have hstep : composedPx s bg (looks ++ [k]) x y = composedPx s bg looks x y := by
      unfold composedPx
      rw [List.foldl_append]
      exact if_neg (by simp [h k (by simp)])
    rw [hstep, ih fun l hl => h l (List.mem_append_left _ hl)]

theorem composedPx_append (s : State) (bg : List Nat) (looks : List Look) (k : Look) (x y : Nat) :
    composedPx s bg (looks ++ [k]) x y = if covers k.l x y then
      blendPixel k.l (layerPx s k x y).1 (layerPx s k x y).2 (composedPx s bg looks x y) else composedPx s bg looks x y := by
  unfold composedPx
  rw [List.foldl_append]
  rfl

/-! ## Seam strips (R127) -/

theorem sameStrip_self (x : Seam) : sameStrip x x = true := by
  simp [sameStrip]

/-- A list in which a strip stands for its part alone. -/
theorem mem_replaceStrip {x y : Seam} {xs : List Seam} : y ∈ (xs.filter fun y => !sameStrip x y) ++ [x] ↔
    (y ∈ xs ∧ sameStrip x y = false) ∨ y = x := by
  simp only [List.mem_append, List.mem_filter, Bool.not_eq_true', List.mem_cons, List.not_mem_nil, or_false]

/-- A good seam frame replaces the strip that it stands for. -/
theorem seamReceive_of_good {s : State} {e : Nat} {bs : List Byte} (hfold : foldEn s = true) (hup : (s.peer e).linkUp = true)
    (hok : foldFrameOk s (32 + 128 * leAt bs 12 2) bs = true) (htype : u8 bs 0 = 0x10) (hlo : 1 ≤ leAt bs 12 2) (hhi : leAt bs 12 2 ≤ 64) :
    seamReceive s e bs = { s with comp := { s.comp with
      seams := (s.comp.seams.filter fun y => !sameStrip (parseSeam e bs) y) ++ [parseSeam e bs] } } :=
  (if_neg (by simp [hfold, hup])).trans ((if_neg (by simp [hok])).trans (if_neg (by omega)))

/-- Settles O24: a row by its job's guard, a pixel by the last layer, a strip by the frame that brings it. -/
theorem paddockAndSeams : Obligations.PaddockAndSeams := by
  refine ⟨⟨fun c row p s => ⟨fun h => exec_paddockRowWritten_of_none h p, fun j hj => ⟨fun hwait => ?_, fun hwait hserving hon => ?_⟩⟩,
    fun s bg looks x y => ⟨fun h => composedPx_of_uncovered h s bg, fun k => composedPx_append s bg looks k x y⟩⟩,
    fun k s l h => ?_, fun e bs s => ⟨fun hoff => ?_, fun hfold hup hbad => ?_, fun hfold hup hok htype hlo hhi => ?_⟩⟩
  · refine (exec_paddockRowWritten_of_some hj p).trans (if_pos ?_)
    rcases hwait with h | h | h <;> simp [h]
  · exact ⟨_, (exec_paddockRowWritten_of_some hj p).trans (if_neg (by simp [hwait, hserving, hon])), rfl, rowWritten_contract s c.val j p⟩
  · rw [exec_seamStripSend, execSeamStripSend]
    exact runLaunch_of_fires h _
  · refine congrArg Host.Outcome.next (if_pos ?_)
    rcases hoff with h | h <;> simp [h]
  · refine congrArg Host.Outcome.next ((if_neg (by simp [hfold, hup])).trans (if_pos (by simp [hbad])))
  · have htake := seamReceive_of_good hfold hup hok htype hlo hhi
    refine ⟨_, congrArg Host.Outcome.next htake, mem_replaceStrip.mpr (.inr rfl), fun y hy hsame => ?_, fun y hdiff => ?_, rfl, rfl, rfl, rfl⟩
    · rcases mem_replaceStrip.mp hy with ⟨-, hdiff⟩ | rfl
      · exact absurd (hsame.symm.trans hdiff) (by simp)
      · rfl
    · refine mem_replaceStrip.trans ⟨fun hy => ?_, fun hy => .inl ⟨hy, hdiff⟩⟩
      rcases hy with ⟨hy, -⟩ | rfl
      · exact hy
      · exact absurd ((sameStrip_self _).symm.trans hdiff) (by simp)

end Sys2Proof.Machine

/-! PROOFS. Canvas size, scaler coefficients and the loads of coefficients, drift tables and curves (R52, R118, R129, R144-R149). -/

namespace Sys2Proof.Machine

/-! ## A gated register write -/

theorem gated_of_on {s : State} {n : Nat} (h : s.domainOn n = true) (t : State) : gated n s t = t := if_pos h

theorem gated_of_off {s : State} {n : Nat} (h : s.domainOn n = false) (t : State) : gated n s t = s := if_neg (by simp [h])

/-! ## The canvas (R129) -/

theorem exec_canvasSizeWrite (v : Word) (s : State) : exec (.canvasSizeWrite v) s = .next (gated 36 s (canvasSizeOp s v)) := rfl

theorem placeCanvas_placed (s : State) (v : Word) :
    ((placeCanvas s v).comp.canvasBase0, fld v 6 0 * fld v 21 16 * 393216) ∈ (placeCanvas s v).mem.placed
      ∧ ((placeCanvas s v).comp.canvasBase1, fld v 6 0 * fld v 21 16 * 393216) ∈ (placeCanvas s v).mem.placed := by
  simp [placeCanvas, place]

theorem canvasSizeOp_of_good {s : State} {v : Word} (hy : 1 ≤ fld v 21 16) (hy' : fld v 21 16 ≤ 32) (hx : 1 ≤ fld v 6 0) (hx' : fld v 6 0 ≤ 64)
    (hc : anyContract s = false) : canvasSizeOp s v = placeCanvas (s.setReg Off.canvasSize (v &&& 0x003F007F#32)) v :=
  if_pos (by simp [inRange, hy, hy', hx, hx', hc])

theorem canvasSizeOp_of_bad {s : State} {v : Word}
    (h : fld v 21 16 = 0 ∨ 32 < fld v 21 16 ∨ fld v 6 0 = 0 ∨ 64 < fld v 6 0 ∨ anyContract s = true) : canvasSizeOp s v = s := by
  refine if_neg fun hok => ?_
  simp only [inRange, Bool.and_eq_true, decide_eq_true_eq, Bool.not_eq_true'] at hok
  obtain ⟨⟨⟨h1, h2⟩, h3, h4⟩, h5⟩ := hok
  rcases h with h | h | h | h | h
  · omega
  · omega
  · omega
  · omega
  · simp [h5] at h

/-! ## Scaler coefficients (R118) -/

theorem exec_sclData3Write (a : Agent) (v : Word) (s : State) : exec (.sclData3Write a v) s = .next (gated 36 s (sclDataOp s a 3 v)) := rfl

theorem commitPhase_taps (c : Compose) (set axis ph : Nat) (ts : List Int) (k : Nat) : mget [] (commitPhase c set axis ph ts).taps k =
    if k = phaseKey set axis ph then ts else mget [] c.taps k := mget_mset _ _ _ _ _

theorem commitPhase_loaded (c : Compose) (set axis : Nat) {ph : Nat} (hph : ph < 64) (ts : List Int) :
    (mget 0 (commitPhase c set axis ph ts).loaded (halfKey set axis)).getLsbD ph = true := by
  rw [commitPhase, mget_mmod, if_pos rfl, BitVec.getLsbD_or, BitVec.getLsbD_ofNat, Nat.testBit_two_pow_self]
  simp [hph]

/-! ## The stores of an endpoint's coefficients (R146) -/

theorem coefStore_modCoef (s : State) (n slot : Nat) (f : CoefStore → CoefStore) :
    coefStore (modCoef s n slot f) n slot = f (coefStore s n slot) := (mget_mmod _ _ _ _ _).trans (if_pos rfl)

theorem coefStore_congr {s t : State} (h : s.corr = t.corr) (n slot : Nat) : coefStore s n slot = coefStore t n slot := by
  rw [coefStore, h, coefStore]

theorem modCoef_contracts (s : State) (n slot : Nat) (f : CoefStore → CoefStore) : (modCoef s n slot f).contracts = s.contracts := rfl

theorem memByte_modCoef (s : State) (n slot : Nat) (f : CoefStore → CoefStore) (x : Nat) : memByte (modCoef s n slot f) x = memByte s x := rfl

theorem memByte_defer (s : State) (n : Nat) (c : Deferred) (x : Nat) : memByte (defer_ s n c) x = memByte s x := rfl

theorem coefStore_defer (s : State) (n : Nat) (c : Deferred) (m slot : Nat) : coefStore (defer_ s n c) m slot = coefStore s m slot := rfl

theorem allocCoef_contracts (s : State) (n : Nat) (e : Endpoint) : (allocCoef s n e).contracts = s.contracts := by
  unfold allocCoef
  split <;> rfl

theorem allocCoef_dram (s : State) (n : Nat) (e : Endpoint) :
    (allocCoef s n e).mem.dram = s.mem.dram ∧ (allocCoef s n e).mem.bad = s.mem.bad := by
  unfold allocCoef
  split <;> exact ⟨rfl, rfl⟩

theorem allocCoef_inForce (s : State) (n : Nat) (e : Endpoint) :
    (coefStore (allocCoef s n e) n e.slot).inForce = (coefStore s n e.slot).inForce := by
  unfold allocCoef
  split
  · rfl
  · simp only [place]
    rw [coefStore_modCoef]
    rfl

/-- The planes of a load are in the endpoint's pending store, and its record waits there. -/
def coefStored (s : State) (n : Nat) (e : Endpoint) (r : CorrRec) (planes : List Byte) : State :=
  modCoef (memWrite (allocCoef s n e) (pendingStore (coefStore (allocCoef s n e) n e.slot) e) planes) n e.slot fun st => { st with pending := some r }

theorem coefStored_coefStore (s : State) (n : Nat) (e : Endpoint) (r : CorrRec) (planes : List Byte) :
    coefStore (coefStored s n e r planes) n e.slot = { coefStore (allocCoef s n e) n e.slot with pending := some r } := by
  rw [coefStored, coefStore_modCoef, coefStore_congr (memWrite_corr _ _ _)]

theorem coefStored_contracts (s : State) (n : Nat) (e : Endpoint) (r : CorrRec) (planes : List Byte) :
    (coefStored s n e r planes).contracts = s.contracts := by
  refine (memWrite_contracts _ _ _).trans (allocCoef_contracts s n e)

theorem coefStored_memByte_outside (s : State) (n : Nat) (e : Endpoint) (r : CorrRec) (planes : List Byte) (x : Nat)
    (hx : x < pendingStore (coefStore (allocCoef s n e) n e.slot) e
      ∨ pendingStore (coefStore (allocCoef s n e) n e.slot) e + planes.length ≤ x) :
    memByte (coefStored s n e r planes) x = memByte s x := by
  refine (memByte_memWrite_outside hx).trans ?_
  rw [memByte, (allocCoef_dram s n e).1, memByte]

theorem coefStored_memByte_inside {s : State} {n : Nat} {e : Endpoint} {planes : List Byte}
    (hgood : memBad s (pendingStore (coefStore (allocCoef s n e) n e.slot) e) planes.length = false) (r : CorrRec) {i : Nat} (hi : i < planes.length) :
    memByte (coefStored s n e r planes) (pendingStore (coefStore (allocCoef s n e) n e.slot) e + i) = planes.getD i 0 := by
  have hgood' : memBad (allocCoef s n e) (pendingStore (coefStore (allocCoef s n e) n e.slot) e) planes.length = false := by
    rw [memBad, (allocCoef_dram s n e).2]
    exact hgood
  refine (memByte_memWrite_of_good hgood' _).trans ((if_pos (by omega)).trans ?_)
  rw [Nat.add_sub_cancel_left]

/-! ## Loads that take force at once or at a boundary (R52, R144-R149) -/

theorem loadState_iff (c : Contract) : loadState c = true ↔ c.state = .proposed ∨ c.state = .committed ∨ c.state = .running := by
  simp only [loadState, Bool.or_eq_true, beq_iff_eq, layoutState_eq_true_iff]

theorem atOnceOr_of_proposed {s : State} {n : Nat} (h : (s.contract n).state = .proposed) (ref : CmdRef) (ch : Change) (now later : State → State) :
    atOnceOr s n ref ch now later = complete (now s) ref St.ok fromFirst 0 0 := if_pos h

theorem atOnceOr_of_running {s : State} {n : Nat} (h : (s.contract n).state = .committed ∨ (s.contract n).state = .running) (ref : CmdRef)
    (ch : Change) (now later : State → State) :
    atOnceOr s n ref ch now later = completeDeferred (defer_ (later s) n { change := ch, wait := some ref }) ref n :=
  if_neg (by rcases h with h | h <;> simp [h])

theorem exec_driftTableLoad_of_good {s t : State} {sq : Fin 1024} {d : Desc} {ref : CmdRef} {bs : List Byte} (h : Starts s sq d ref t)
    (hhdr : hdrOk d 0x19 [(8, 2), (16, 8)] = true) (hn : descFld d 8 1 < 64) (hi : descFld d 9 1 < 8)
    (hst : loadState (t.contract (descFld d 8 1)) = true) (hup : linkUp t = true) (hok : driftOk bs = true)
    (hfree : placeFree t.corr.drifts (8 * descFld d 8 1 + descFld d 9 1) 1024 (isProposed t (descFld d 8 1)) = true) :
    exec (.driftTableLoad sq d (.ok bs)) s = .next (atOnceOr t (descFld d 8 1) ref (.drift (descFld d 9 1))
      (fun u => modDrift u (8 * descFld d 8 1 + descFld d 9 1) (putForce (driftTable bs)))
      (fun u => modDrift u (8 * descFld d 8 1 + descFld d 9 1) (putWait (driftTable bs)))) := by
  refine (runCmd_of_starts h _).trans (congrArg Host.Outcome.next ?_)
  rw [check_of_true (by simp [hhdr, loadContract, hn, hi])]
  simp only [loadContract]
  rw [check_of_true hst, fetchOf_ok hup, check_of_true hok, check_of_true hfree]

theorem exec_curveLoad_of_good {s t : State} {sq : Fin 1024} {d : Desc} {ref : CmdRef} {bs : List Byte} (h : Starts s sq d ref t)
    (hhdr : hdrOk d 0x1A [(8, 2), (16, 8)] = true) (hn : descFld d 8 1 < 64) (hi : descFld d 9 1 < 4)
    (hst : loadState (t.contract (descFld d 8 1)) = true) (hup : linkUp t = true) (hlen : bs.length = 24576)
    (hfree : placeFree t.corr.curves (4 * descFld d 8 1 + descFld d 9 1) 128 (isProposed t (descFld d 8 1)) = true) :
    exec (.curveLoad sq d (.ok bs)) s = .next (atOnceOr t (descFld d 8 1) ref (.curve (descFld d 9 1))
      (fun u => modCurve u (4 * descFld d 8 1 + descFld d 9 1) (putForce (words16 bs 0 12288)))
      (fun u => modCurve u (4 * descFld d 8 1 + descFld d 9 1) (putWait (words16 bs 0 12288)))) := by
  refine (runCmd_of_starts h _).trans (congrArg Host.Outcome.next ?_)
  rw [check_of_true (by simp [hhdr, loadContract, hn, hi])]
  simp only [loadContract]
  rw [check_of_true hst, fetchOf_ok hup, check_of_true (beq_iff_eq.mpr hlen), check_of_true hfree]

theorem exec_coefLoad_of_good {s t : State} {sq : Fin 1024} {d : Desc} {ref : CmdRef} {bs : List Byte} {e : Endpoint} {r : CorrRec}
    (h : Starts s sq d ref t) (hhdr : hdrOk d 0x18 [(8, 1), (16, 12)] = true) (hn : descFld d 8 1 < 64)
    (hst : loadState (t.contract (descFld d 8 1)) = true) (hup : linkUp t = true) (hlen : bs.length = descFld d 24 4) (h64 : 64 ≤ bs.length)
    (he : endpointAt (t.contract (descFld d 8 1)) (leAt bs 0 2) = some e) (hr : parseCoef e bs = some r)
    (hroom : coefAllocated (coefStore t (descFld d 8 1) e.slot) = true ∨ fits t (2 * coefStoreBytes e) = true) :
    exec (.coefLoad sq d (.ok bs)) s = .next (atOnceOr (coefStored t (descFld d 8 1) e r (bs.drop 64)) (descFld d 8 1) ref (.coef e.slot)
      (fun u => modCoef u (descFld d 8 1) e.slot exchangeCoef) id) := by
  refine (runCmd_of_starts h _).trans (congrArg Host.Outcome.next ?_)
  rw [check_of_true (by simp [hhdr, loadContract, hn, ← hlen, h64])]
  simp only [loadContract]
  rw [check_of_true hst, fetchOf_ok hup]
  simp only [he, hlen, if_true, hr]
  exact check_of_true (by simpa using hroom) _ _ _ _

/-- The last word of a phase commits it where its taps sum to 1,024. -/
theorem sclDataOp_commits {s : State} {a : Agent} {v : Word}
    (hfree : coefBusy s (fld (s.sel a Off.sclSel) 3 0) (fld (s.sel a Off.sclSel) 16 16) = false) (hset : 4 ≤ fld (s.sel a Off.sclSel) 3 0)
    (hok : tapsOk (fld (s.sel a Off.sclSel) 16 16) (dataTaps s (v &&& 0x0FFF0FFF#32)) = true) :
    sclDataOp s a 3 v = { s.setReg (Off.sclData 3) (v &&& 0x0FFF0FFF#32) with
      comp := commitPhase s.comp (fld (s.sel a Off.sclSel) 3 0) (fld (s.sel a Off.sclSel) 16 16) (fld (s.sel a Off.sclSel) 13 8)
        (dataTaps s (v &&& 0x0FFF0FFF#32)) } :=
  (if_neg (by rw [hfree]; exact Bool.false_ne_true)).trans ((if_neg (Nat.not_lt.mpr hset)).trans
    ((if_neg (fun h => h rfl)).trans (if_pos hok)))

/-- Settles O25: the writes by their guards, each load by its contract's state once its checks have passed. -/
theorem canvasLoadsAndBoundaries : Obligations.CanvasLoadsAndBoundaries := by
  refine ⟨⟨fun v s hon => ⟨fun hy hy' hx hx' hc => ?_, fun hbad => ?_⟩, fun a v s hon => ?_, fun v a s hoff => ⟨?_, ?_⟩⟩,
    fun sq d bs s t ref h => ?_⟩
  · rw [exec_canvasSizeWrite, gated_of_on hon, canvasSizeOp_of_good hy hy' hx hx' hc]
    obtain ⟨h0, h1⟩ := placeCanvas_placed (s.setReg Off.canvasSize (v &&& 0x003F007F#32)) v
    exact ⟨_, rfl, State.reg_setReg_same s _ _, rfl, h0, h1, rfl⟩
  · rw [exec_canvasSizeWrite, gated_of_on hon, canvasSizeOp_of_bad hbad]
  · intro sel set axis w
    rw [exec_sclData3Write, gated_of_on hon]
    refine ⟨fun hbusy => congrArg _ (if_pos hbusy), fun hfree hset => ?_, fun hfree hset hok => ?_, fun hfree hset hok => ?_⟩
    · exact congrArg _ ((if_neg (by simp [set, axis, sel] at hfree; simp [hfree])).trans (if_pos hset))
    · rw [sclDataOp_commits hfree hset hok]
      have hph : fld sel 13 8 < 64 := Nat.mod_lt _ (by decide)
      exact ⟨_, rfl, fun k => commitPhase_taps s.comp set axis _ _ k, commitPhase_loaded _ _ _ hph _, State.reg_setReg_same s _ _, rfl⟩
    · exact congrArg _ ((if_neg (by simp [set, axis, sel] at hfree; simp [hfree])).trans ((if_neg (Nat.not_lt.mpr hset)).trans
        ((if_neg (by simp)).trans (if_neg (by simp [w] at hok; simp [axis, sel, hok])))))
  · rw [exec_canvasSizeWrite, gated_of_off hoff]
  · rw [exec_sclData3Write, gated_of_off hoff]
  · intro n c i hn hup
    have hactive (hst : c.state = .committed ∨ c.state = .running) : loadState c = true := (loadState_iff c).mpr (.inr hst)
    have hproposed (hst : c.state = .proposed) : loadState c = true := (loadState_iff c).mpr (.inl hst)
    refine ⟨fun hhdr hi hok hfree => ⟨fun hst => ?_, fun hst => ?_⟩, fun hhdr hi hlen hfree => ⟨fun hst => ?_, fun hst => ?_⟩,
      fun e r hhdr hlen h64 he hr hroom => ?_⟩
    · rw [exec_driftTableLoad_of_good h hhdr hn hi (hproposed hst) hup hok hfree, atOnceOr_of_proposed hst]
    · rw [exec_driftTableLoad_of_good h hhdr hn hi (hactive hst) hup hok hfree, atOnceOr_of_running hst]
    · rw [exec_curveLoad_of_good h hhdr hn hi (hproposed hst) hup hlen hfree, atOnceOr_of_proposed hst]
    · rw [exec_curveLoad_of_good h hhdr hn hi (hactive hst) hup hlen hfree, atOnceOr_of_running hst]
    · intro p planes
      have hcontracts : (coefStored t n e r planes).contracts = t.contracts := coefStored_contracts t n e r planes
      have hcontract : (coefStored t n e r planes).contract n = c := congrArg (mget ({} : Contract) · n) hcontracts
      refine ⟨fun hst => ?_, fun hst => ?_⟩
      · rw [exec_coefLoad_of_good h hhdr hn (hproposed hst) hup hlen h64 he hr hroom, atOnceOr_of_proposed (by rw [hcontract]; exact hst)]
        refine ⟨_, rfl, ?_, (modCoef_contracts _ _ _ _).trans hcontracts, fun x hx => ?_, fun hgood j hj => ?_⟩
        · rw [coefStore_modCoef, coefStored_coefStore]
          rfl
        · rw [memByte_modCoef, coefStored_memByte_outside t n e r planes x hx]
        · rw [memByte_modCoef, coefStored_memByte_inside hgood r hj]
      · rw [exec_coefLoad_of_good h hhdr hn (hactive hst) hup hlen h64 he hr hroom, atOnceOr_of_running (by rw [hcontract]; exact hst), id]
        refine ⟨_, rfl, ?_, ?_, fun x hx => ?_, fun hgood j hj => ?_⟩
        · rw [coefStore_defer, coefStored_coefStore]
        · rw [coefStore_defer, coefStored_coefStore]
          exact allocCoef_inForce t n e
        · rw [memByte_defer, coefStored_memByte_outside t n e r planes x hx]
        · rw [memByte_defer, coefStored_memByte_inside hgood r hj]

end Sys2Proof.Machine

/-! PROOFS. The arithmetic of lamp correction, of the built-in scaler taps and of linear values (R117, R123, R139-R142, R150, R526). -/

namespace Sys2Proof.Machine

/-! ## The stages of lamp correction (R139-R142) -/

theorem matrixStage_length (m : List Int) (rgb : List Nat) : (matrixStage m rgb).1.length = 3 := by
  simp [matrixStage]

theorem matrixStage_le {m : List Int} {rgb : List Nat} {v : Nat} (hv : v ∈ (matrixStage m rgb).1) : v ≤ 65535 := by
  simp only [matrixStage, List.mem_map] at hv
  obtain ⟨x, -, rfl⟩ := hv
  have := clip_range (by decide : (0 : Int) ≤ 65535) x
  omega

theorem matrixStage_clipped_eq_zero (m : List Int) (rgb : List Nat) :
    (matrixStage m rgb).2 = 0 ↔ ∀ i < 3, 0 ≤ matrixAcc m i rgb ∧ matrixAcc m i rgb ≤ 65535 := by
  simp only [matrixStage, List.countP_eq_zero, List.mem_map, List.mem_range, Bool.or_eq_true, decide_eq_true_eq, not_or, Int.not_lt,
    forall_exists_index, and_imp, forall_apply_eq_imp_iff₂]

/-- The unit matrix passes each channel. -/
theorem matrixAcc_unit {i : Nat} (hi : i < 3) (a b c : Nat) :
    matrixAcc [16384, 0, 0, 0, 16384, 0, 0, 0, 16384] i [a, b, c] = ([a, b, c].getD i 0 : Nat) := by
  obtain rfl | rfl | rfl : i = 0 ∨ i = 1 ∨ i = 2 := by omega
  all_goals
    simp only [matrixAcc, List.range, List.range.loop, List.foldl, List.getD_cons_zero, List.getD_cons_succ, Nat.mul_zero, Nat.mul_one,
      Nat.zero_add, Nat.reduceAdd, Nat.reduceMul]
    omega

theorem gainStage_unit {v : Nat} (hv : v ≤ 65535) : gainStage 32768 v = v := by
  simp only [gainStage, Nat.shiftRight_eq_div_pow]
  omega

/-- Without a curve a value passes up to the last curve entry. -/
theorem curveStage_none {v : Nat} (hv : v < 65520) (ch : Nat) : curveStage none ch v = v := by
  simp only [curveStage, curveEntry, Nat.shiftRight_eq_div_pow]
  rw [if_neg (by omega)]
  omega

theorem depthStage_lt {b : Nat} (hb : b ≠ 16) (dither n lx ly y : Nat) : depthStage dither b n lx ly y < 2 ^ b := by
  rw [depthStage, if_neg hb]
  have := Nat.two_pow_pos b
  omega

theorem matrixStage_unit {a b c : Nat} (ha : a < 65520) (hb : b < 65520) (hc : c < 65520) :
    matrixStage [16384, 0, 0, 0, 16384, 0, 0, 0, 16384] [a, b, c] = ([a, b, c], 0) := by
  have hstep : (List.range 3).map (fun i => matrixAcc [16384, 0, 0, 0, 16384, 0, 0, 0, 16384] i [a, b, c]) = [(a : Int), b, c] := by
    simp only [List.range, List.range.loop, List.map, matrixAcc_unit (by decide : 0 < 3), matrixAcc_unit (by decide : 1 < 3),
      matrixAcc_unit (by decide : 2 < 3), List.getD_cons_zero, List.getD_cons_succ]
  have hclip (v : Nat) (hv : v < 65520) : (clip 0 65535 (v : Int)).toNat = v := by
    simp only [clip]
    omega
  have hin (v : Nat) (hv : v < 65520) : (decide ((v : Int) < 0) || decide (65535 < (v : Int))) = false := by
    simp only [Bool.or_eq_false_iff, decide_eq_false_iff_not]
    omega
  simp only [matrixStage, hstep, List.map, hclip a ha, hclip b hb, hclip c hc, List.countP_cons, List.countP_nil, hin a ha, hin b hb, hin c hc]
  rfl

theorem correctLamp_unit {a b c : Nat} (ha : a < 65520) (hb : b < 65520) (hc : c < 65520) (dither n lx ly : Nat) :
    correctLamp [16384, 0, 0, 0, 16384, 0, 0, 0, 16384] [32768, 32768, 32768] none dither 16 n lx ly [a, b, c] = ([a, b, c], 0) := by
  have hpass (ch v : Nat) (hv : v < 65520) : depthStage dither 16 n lx ly (curveStage none ch (gainStage 32768 v)) = v := by
    rw [gainStage_unit (by omega), curveStage_none hv, depthStage, if_pos rfl]
  simp only [correctLamp, matrixStage_unit ha hb hc, List.range, List.range.loop, List.map, List.getD_cons_zero, List.getD_cons_succ,
    hpass 0 a ha, hpass 1 b hb, hpass 2 c hc]

/-! ## Drift (R150) -/

theorem driftStep_spec {slew : Nat} (h : 0 < slew) (g target : Int) : (driftStep slew g target - g).natAbs ≤ slew
    ∧ ((target - g).natAbs ≤ slew → driftStep slew g target = target)
    ∧ (driftStep slew g target - target).natAbs ≤ (g - target).natAbs := by
  rw [driftStep, if_neg (by omega)]
  simp only [clip]
  omega

/-! ## Scaler taps (R117, R526) -/

theorem foldl_keep_largest (l : List (Int × Nat)) (b : Option (Int × Nat)) {r : Option (Int × Nat)}
    (hr : l.foldl (fun b c => match b with
      | some x => if x.1 < c.1 then some c else b
      | none => some c) b = r) : r = b ∨ ∃ c ∈ l, r = some c := by
  induction l generalizing b with
  | nil => exact .inl hr.symm
  | cons a l ih =>
    rcases ih _ hr with h | ⟨c, hc, h⟩
    · cases b with
      | none => exact .inr ⟨a, List.mem_cons_self, h⟩
      | some x =>
        by_cases hlt : x.1 < a.1
        · exact .inr ⟨a, List.mem_cons_self, h.trans (if_pos hlt)⟩
        · exact .inl (h.trans (if_neg hlt))
    · exact .inr ⟨c, List.mem_cons_of_mem _ hc, h⟩

theorem largestTap_lt {cs : List Int} (h : 0 < cs.length) : largestTap cs < cs.length := by
  unfold largestTap
  generalize hr : cs.zipIdx.foldl _ none = r
  rcases foldl_keep_largest _ _ hr with rfl | ⟨c, hc, rfl⟩
  · exact h
  · have := List.snd_lt_of_mem_zipIdx hc
    simpa using this

theorem sum_modify_add (k : Int) : ∀ (l : List Int) (i : Nat), i < l.length → (l.modify i fun c => c + k).sum = l.sum + k
  | x :: xs, 0, _ => by
    simp only [List.modify_zero_cons, List.sum_cons]
    omega
  | x :: xs, i + 1, h => by
    have hi : i < xs.length := by simpa using h
    simp only [List.modify_succ_cons, List.sum_cons, sum_modify_add k xs i hi]
    omega

theorem foldl_add_eq_sum (l : List Int) : l.foldl (· + ·) 0 = l.sum := List.sum_eq_foldl.symm

theorem foldl_getD_take (l : List Int) (n : Nat) : (List.range n).foldl (fun a t => a + l.getD t 0) 0 = (l.take n).sum := by
  induction n with
  | zero => rfl
  | succ n ih =>
    rw [List.range_succ, List.foldl_append, ih, List.take_add_one, List.sum_append]
    cases h : l[n]? <;> simp [h]

theorem lanczosRaw_length (set axis win wout ph : Nat) : 0 < (lanczosRaw set axis win wout ph).length ∧ (lanczosRaw set axis win wout ph).length ≤ 8 := by
  simp only [lanczosRaw, List.length_map, List.length_range]
  split <;> decide

/-- The largest tap takes what is missing of 1,024. -/
theorem lanczosTaps_sum (set axis win wout ph : Nat) : (lanczosTaps set axis win wout ph).sum = 1024 := by
  obtain ⟨hpos, -⟩ := lanczosRaw_length set axis win wout ph
  have hsum := sum_modify_add (1024 - (lanczosRaw set axis win wout ph).sum) _ _ (largestTap_lt hpos)
  have hshape (c : Int) : c + 1024 - (lanczosRaw set axis win wout ph).sum = c + (1024 - (lanczosRaw set axis win wout ph).sum) := by omega
  simp only [lanczosTaps, foldl_add_eq_sum, hshape, hsum]
  omega

theorem scaleTap_sum (s : State) {set axis ph : Nat} (win wout : Nat) (hset : set < 4) (haxis : axis < 2) (hph : ph < 64) :
    (List.range 8).foldl (fun a t => a + scaleTap s set axis win wout ph t) 0 = 1024 := by
  have hforce : setInForce s set axis = set := if_pos (.inl hset)
  by_cases hl : set < 2
  · have htap (t : Nat) : scaleTap s set axis win wout ph t = (lanczosTaps set axis win wout ph).getD t 0 := by
      simp only [scaleTap, hforce]
      exact if_pos hl
    simp only [htap]
    rw [foldl_getD_take, List.take_of_length_le (by simpa [lanczosTaps] using (lanczosRaw_length set axis win wout ph).2), lanczosTaps_sum]
  obtain rfl | rfl : axis = 0 ∨ axis = 1 := by omega
  all_goals
    obtain rfl | rfl : set = 2 ∨ set = 3 := by omega
    · simp [List.range, List.range.loop, scaleTap, hforce]
      omega
    · obtain h32 | h32 : ph / 32 = 0 ∨ ph / 32 = 1 := by omega
      all_goals simp [List.range, List.range.loop, scaleTap, hforce, h32]

/-! ## Linear values (R123) -/

theorem nearExact_near {tol : Nat} {exact : Int} (h0 : 0 ≤ exact) (h1 : exact ≤ 65535) (free : Nat) :
    ((nearExact tol free exact : Nat) - exact).natAbs ≤ tol := by
  have hfree : free % (2 * tol + 1) < 2 * tol + 1 := Nat.mod_lt _ (by omega)
  simp only [nearExact, clip]
  omega

theorem eotfHlg_range {nits i : Nat} {rgb : List Nat} {e : Int} (h : eotfHlg nits rgb i = some e) : 0 ≤ e ∧ e ≤ 65535 := by
  simp only [eotfHlg] at h
  split at h
  · split at h
    · obtain rfl := Option.some.inj h
      decide
    · exact absurd h (by simp)
  · obtain rfl := Option.some.inj h
    exact fxStore_range _

theorem linearise_near {nits white k tol i : Nat} {rgb : List Nat} {free : Nat → Nat} {exact : Nat → Int}
    (hlin : linearise nits white k rgb = rgb.map fun v => nearExact tol (free v) (exact v)) (hrange : ∀ v, 0 ≤ exact v ∧ exact v ≤ 65535)
    (hi : i < rgb.length) : (((linearise nits white k rgb).getD i 0 : Nat) - exact (rgb.getD i 0)).natAbs ≤ tol := by
  have hget : (linearise nits white k rgb).getD i 0 = nearExact tol (free (rgb.getD i 0)) (exact (rgb.getD i 0)) := by
    rw [hlin]
    simp [hi]
  rw [hget]
  exact nearExact_near (hrange _).1 (hrange _).2 _

/-- Settles O26: stage by stage; the built-in taps by what the largest one takes, the linear values by the clip around the exact one. -/
theorem correctionAndScalerArithmetic : Obligations.CorrectionAndScalerArithmetic := by
  refine ⟨⟨fun rgb dither n lx ly hlen hv => ?_, fun m gains rgb curve dither n lx ly b hb v hv => ?_, fun m rgb =>
    ⟨matrixStage_length m rgb, fun v hv => matrixStage_le hv, matrixStage_clipped_eq_zero m rgb⟩, fun slew g target h => driftStep_spec h g target⟩,
    fun s set axis win wout ph hset haxis hph => scaleTap_sum s win wout hset haxis hph, fun nits white rgb =>
      ⟨if_pos rfl, fun i hi => ?_, fun k i hk hi => ?_, fun i e hi he => ?_⟩⟩
  · obtain ⟨a, b, c, rfl⟩ := List.length_eq_three.mp hlen
    exact correctLamp_unit (hv a (by simp)) (hv b (by simp)) (hv c (by simp)) dither n lx ly
  · obtain ⟨ch, -, rfl⟩ := List.mem_map.mp hv
    exact depthStage_lt (by omega) _ _ _ _ _
  · exact linearise_near (free := fun v => Config.transferError 16 white nits v) rfl (fun v => eotfPq_range nits v) hi
  · have hlin : linearise nits white k rgb = rgb.map fun v => nearExact 2 (Config.transferError 1 white nits v) (eotfSdr nits white v) := by
      simp only [List.mem_cons, List.not_mem_nil, or_false] at hk
      rcases hk with rfl | rfl | rfl | rfl <;> rfl
    exact linearise_near (free := fun v => Config.transferError 1 white nits v) hlin (fun v => eotfSdr_range nits white v) hi
  · obtain ⟨h0, h1⟩ := eotfHlg_range he
    have hget : (linearise nits white 18 rgb).getD i 0 = nearExact 4 (Config.transferError (18 + 256 * i) white nits
        (rgb.getD 0 0 + 65536 * rgb.getD 1 0 + 65536 * 65536 * rgb.getD 2 0)) e := by
      simp [linearise, hi, he]
    rw [hget]
    exact nearExact_near h0 h1 _

end Sys2Proof.Machine

/-! PROOFS. Encoder cores: what one core's work leaves of the others' state, finished stripes, claims and copies (R192, R195-R197, R287, R296). -/

namespace Sys2Proof.Machine

/-! ## What touches neither the contracts nor the encoder cores -/

/-- The contracts and the encoder cores of a state. -/
def coreView (s : State) : Map Contract × Map EncCore := (s.contracts, s.enc.cores)

theorem encCore_of_coreView {s t : State} (h : coreView s = coreView t) (n : Nat) : s.encCore n = t.encCore n := by
  have hcores : s.enc.cores = t.enc.cores := congrArg Prod.snd h
  rw [State.encCore, hcores, State.encCore]

theorem contracts_of_coreView {s t : State} (h : coreView s = coreView t) : s.contracts = t.contracts := congrArg Prod.fst h

@[simp] theorem coreView_memWrite (s : State) (a : Nat) (bs : List Byte) : coreView (memWrite s a bs) = coreView s := by
  simp only [coreView, memWrite_contracts, memWrite_enc]

@[simp] theorem coreView_setStatus (s : State) (off mask : Nat) : coreView (setStatus s off mask) = coreView s := by
  simp only [coreView, setStatus_contracts, setStatus_enc]

@[simp] theorem coreView_raiseFault (s : State) (f : Nat) : coreView (raiseFault s f) = coreView s := by
  simp only [coreView, raiseFault_contracts, raiseFault_enc]

@[simp] theorem coreView_tallyAdd (s : State) (i n : Nat) : coreView (tallyAdd s i n) = coreView s := rfl

@[simp] theorem coreView_modCode (s : State) (slot : Nat) (f : EpCode → EpCode) : coreView (modCode s slot f) = coreView s := rfl

@[simp] theorem coreView_modRing (s : State) (c p : Nat) (f : CRing → CRing) : coreView (s.modRing c p f) = coreView s := rfl

@[simp] theorem coreView_pendSrc (s : State) (n : Nat) : coreView (pendSrc s n) = coreView s := by
  simp only [coreView, pendSrc_contracts, pendSrc_enc]

theorem coreView_writeEntry (s : State) (c p n : Nat) (e : Endpoint) (k : Nat) (x : Entry) : coreView (writeEntry s c p n e k x) = coreView s := by
  unfold writeEntry
  split <;> rfl

theorem coreView_putEntry (j : StripeJob) (e : Endpoint) (bytes : List Byte) (absent : Bool) (s : State) (p : Nat) :
    coreView (putEntry_ j e bytes absent s p) = coreView s := by
  simp only [putEntry_, apply_ite coreView, coreView_writeEntry, coreView_modRing, ite_self]

theorem coreView_writeRecon (s : State) (e : Endpoint) (j : StripeJob) (x : EncSt) : coreView (writeRecon s e j x) = coreView s :=
  foldl_leaves (view := coreView) (fun _ _ => coreView_memWrite _ _ _) _ s

theorem coreView_encTally (s : State) (core j n : Nat) : coreView (encTally s core j n) = coreView s := by
  simp only [encTally, apply_ite coreView, coreView_tallyAdd, ite_self]

theorem coreView_encReport (s : State) (core : Nat) (intra repair refBad : Bool) (bytes : Nat) (x : EncSt) :
    coreView (encReport s core intra repair refBad bytes x) = coreView s := by
  simp only [encReport, apply_ite coreView, coreView_setStatus, coreView_encTally, ite_self]

theorem coreView_reportWait (s : State) (core : Nat) (j : StripeJob) : coreView (reportWait s core j) = coreView s := by
  simp only [reportWait, apply_ite coreView, coreView_setStatus, coreView_encTally, coreView_tallyAdd, coreView_raiseFault, ite_self]

theorem coreView_claimPort (e : Endpoint) (a : State × StripeJob) (p : Nat) : coreView (claimPort e a p).1 = coreView a.1 := by
  simp only [claimPort]
  split
  · rfl
  · split <;> rfl

theorem coreView_claims (e : Endpoint) (ps : List Nat) (a : State × StripeJob) : coreView (ps.foldl (claimPort e) a).1 = coreView a.1 := by
  induction ps generalizing a with
  | nil => rfl
  | cons p ps ih => exact (ih _).trans (coreView_claimPort e a p)

theorem coreView_copyRows (s : State) (j : StripeJob) : coreView (copyRows s j) = coreView s := by
  unfold copyRows
  split
  · rfl
  · exact coreView_memWrite _ _ _

theorem coreView_beginStripe (s : State) (e : Endpoint) (j : StripeJob) : coreView (beginStripe s e j).1 = coreView s := rfl

/-! ## What a core that goes on keeps -/

/-- The contracts and the core's copying rows are kept. -/
def CopyKept (core : Nat) (s t : State) : Prop :=
  t.contracts = s.contracts ∧ (t.encCore core).copying = (s.encCore core).copying

theorem CopyKept.refl (core : Nat) (s : State) : CopyKept core s s := ⟨rfl, rfl⟩

theorem CopyKept.trans {core : Nat} {s t u : State} (h : CopyKept core s t) (k : CopyKept core t u) : CopyKept core s u := by
  obtain ⟨h1, h2⟩ := h
  obtain ⟨k1, k2⟩ := k
  exact ⟨k1.trans h1, k2.trans h2⟩

theorem copyKept_of_coreView {core : Nat} {s t : State} (h : coreView t = coreView s) : CopyKept core s t :=
  ⟨contracts_of_coreView h, by rw [encCore_of_coreView h]⟩

theorem copyKept_modEncCore {core : Nat} {s : State} {f : EncCore → EncCore} (h : (f (s.encCore core)).copying = (s.encCore core).copying) :
    CopyKept core s (s.modEncCore core f) := by
  refine ⟨rfl, ?_⟩
  rw [State.encCore_modEncCore, if_pos rfl, h]

theorem copyKept_putHead (core : Nat) (s : State) (j : StripeJob) (act : Nat) : CopyKept core s (putHead core s j act) := copyKept_modEncCore rfl

theorem copyKept_finishAbsent (s : State) (core : Nat) (e : Endpoint) (j : StripeJob) : CopyKept core s (finishAbsent s core e j) :=
  (copyKept_modEncCore rfl).trans (copyKept_of_coreView (foldl_leaves (view := coreView) (coreView_putEntry j e [] true) _ _))

theorem copyKept_encGo (n : Nat) (s : State) (core : Nat) : CopyKept core s (encGo n s core) := by
  induction n generalizing s with
  | zero => exact .refl core s
  | succ n ih =>
    unfold encGo
    split
    · exact copyKept_modEncCore rfl
    next j js _ =>
      split
      · exact (copyKept_modEncCore rfl).trans (ih _)
      next e _ =>
        have hclaims : CopyKept core s ((epPorts s e).foldl (claimPort e) (s, j)).1 := copyKept_of_coreView (coreView_claims e _ (s, j))
        simp only []
        split
        · split
          · exact hclaims.trans (((copyKept_putHead core _ _ 0).trans (copyKept_finishAbsent _ core e _)).trans (ih _))
          · split
            · exact hclaims.trans (copyKept_putHead core _ _ 3)
            · exact hclaims.trans ((copyKept_of_coreView (coreView_beginStripe _ e _)).trans (copyKept_putHead core _ _ 1))
        · exact hclaims.trans ((copyKept_of_coreView (coreView_reportWait _ core _)).trans (copyKept_putHead core _ _ 2))

theorem copyKept_encKick (s : State) (core : Nat) : CopyKept core s (encKick s core) := by
  unfold encKick
  split
  · exact .refl core s
  · exact copyKept_encGo _ s core

/-! ## A stripe that is finished (R192, R207) -/

theorem finishStripe_encCore (s : State) (core : Nat) (e : Endpoint) (j : StripeJob) (cols : List Nat) :
    ((finishStripe s core e j cols).encCore core).jobs = (s.encCore core).jobs.drop 1
      ∧ ((finishStripe s core e j cols).encCore core).act = 0 := by
  unfold finishStripe
  simp only []
  generalize hs4 : List.foldl _ _ _ = s4
  have hview : coreView s4 = coreView s := by
    rw [← hs4, foldl_leaves (view := coreView) (coreView_putEntry j e _ false), coreView_encReport, coreView_memWrite, coreView_modCode,
      coreView_writeRecon]
  rw [State.encCore_modEncCore, if_pos rfl, encCore_of_coreView hview]
  exact ⟨rfl, rfl⟩

theorem stripeDone_of_coding {s : State} {core : Nat} {j : StripeJob} {js : List StripeJob} {e : Endpoint} (hj : (s.encCore core).jobs = j :: js)
    (hact : (s.encCore core).act = 1) (hserving : s.serving = true) (he : endpointAt (s.contract j.contract) j.slot = some e) (cols : List Nat) :
    stripeDone s core cols none = encKick (finishStripe s core e j cols) core := by
  simp [stripeDone, hj, hact, hserving, he]

theorem stripeDone_of_not_coding {s : State} {core : Nat} (h : (s.encCore core).act ≠ 1 ∨ s.serving = false) (cols : List Nat)
    (mm : Option (Fin 32)) : stripeDone s core cols mm = s := by
  unfold stripeDone
  split
  · rfl
  · exact if_pos (h.imp_right fun hs => by simp [hs])

theorem codeOf_modCode (s : State) (slot : Nat) (f : EpCode → EpCode) : codeOf (modCode s slot f) slot = f (codeOf s slot) :=
  (mget_mmod _ _ _ _ _).trans (if_pos rfl)

/-- A stripe's start uses up the mark that it answers (R195). -/
theorem beginStripe_unmarked (s : State) (e : Endpoint) (j : StripeJob) : repairMarked (beginStripe s e j).1 j = false := by
  rw [repairMarked, beginStripe, codeOf_modCode]
  simp

/-! ## Copies (R197) -/

theorem copyDone_of_rest {s : State} {core : Nat} (h : (s.encCore core).copying = [] ∨ s.serving = false) : copyDone s core = s :=
  if_pos (h.imp (fun hc => by simp [hc]) fun hs => by simp [hs])

theorem copyDone_of_copying {s : State} {core : Nat} (hc : (s.encCore core).copying ≠ []) (hs : s.serving = true) :
    ((copyDone s core).encCore core).copying = [] ∧ (copyDone s core).contracts = s.contracts
      ∧ ((s.encCore core).act = 1 → ((copyDone s core).encCore core).jobs = (s.encCore core).jobs) := by
  let s1 := (s.encCore core).copying.foldl copyRows s
  let s2 := s1.modEncCore core fun y => { y with copying := [], act := if y.act = 3 then 0 else y.act }
  have hdone : copyDone s core = pendSrc (if (s2.encCore core).act = 0 then encKick s2 core else s2) (322 + 4 * core) :=
    if_neg (by simp [hc, hs])
  have hview : coreView s1 = coreView s := foldl_leaves (view := coreView) coreView_copyRows _ _
  have hs2 : s2.encCore core = { s.encCore core with copying := [], act := if (s.encCore core).act = 3 then 0 else (s.encCore core).act } := by
    refine (State.encCore_modEncCore s1 core _ core).trans ((if_pos rfl).trans ?_)
    rw [encCore_of_coreView hview]
  obtain ⟨hcontracts, hcopying⟩ : CopyKept core s2 (copyDone s core) := by
    rw [hdone]
    refine CopyKept.trans ?_ (copyKept_of_coreView (coreView_pendSrc _ _))
    split
    · exact copyKept_encKick s2 core
    · exact .refl core s2
  have hs1 : s1.contracts = s.contracts := contracts_of_coreView hview
  refine ⟨hcopying.trans (by rw [hs2]), hcontracts.trans hs1, fun hact => ?_⟩
  have hbusy : (s2.encCore core).act ≠ 0 := by
    rw [hs2]
    simp [hact]
  rw [hdone, if_neg hbusy, encCore_of_coreView (coreView_pendSrc s2 _), hs2]

/-- Settles O30: each row by its core's guard; what a core does on its way leaves its copying rows and the contracts alone. -/
theorem encoderCoresFinish : Obligations.EncoderCoresFinish := by
  refine fun core cols mm s => ⟨fun hj => ?_, fun h => congrArg Host.Outcome.next (stripeDone_of_not_coding h cols mm),
    fun j js e hj hact hs he => ?_, fun hact hs => ?_, fun h => ?_, fun h => congrArg Host.Outcome.next (copyDone_of_rest h),
    fun hc hs => ⟨_, rfl, copyDone_of_copying hc hs⟩, fun e j => ⟨rfl, rfl, beginStripe_unmarked s e j⟩⟩
  · simp only [exec, execStripeComplete, stripeDone, hj]
  · obtain ⟨hjobs, hact'⟩ := finishStripe_encCore s core.val e j cols
    exact ⟨congrArg Host.Outcome.next (stripeDone_of_coding hj hact hs he cols), hjobs.trans (by rw [hj]; rfl), hact'⟩
  · exact ⟨congrArg Host.Outcome.next (if_pos ⟨hact, hs⟩), fun p => congrArg Host.Outcome.next (if_pos ⟨hact, hs⟩)⟩
  · refine congrArg Host.Outcome.next (if_neg fun hc => ?_)
    obtain ⟨hact, hs⟩ := hc
    exact h.elim (· hact) fun hn => by simp [hn] at hs

end Sys2Proof.Machine

/-! PROOFS. The proxy: start and stop, captures, access units and its table (R68, R211-R218). -/

namespace Sys2Proof.Machine

/-! ## Start and stop (R211, R217) -/

theorem exec_proxyStart_of_fields {s t : State} {sq : Fin 1024} {d : Desc} {ref : CmdRef} (h : Starts s sq d ref t) (hf : prxFields t d = true) :
    exec (.proxyStart sq d) s = .next (check (prxStates t d) St.stateConflict ref t fun u =>
      check (prxFits (u.contract (descFld d 8 1)) d) St.invalidField ref u fun u =>
      completeWith (u.modPrx fun p => prxRunning p ref d (u.contract (descFld d 8 1))) ref St.ok) :=
  (runCmd_of_starts h _).trans (congrArg _ (check_of_true hf _ _ _ _))

theorem exec_proxyStop_of_hdr {s t : State} {sq : Fin 1024} {d : Desc} {ref : CmdRef} (h : Starts s sq d ref t) (hhdr : hdrOk d 0x49 [] = true) :
    exec (.proxyStop sq d) s = .next (prxStop t ref) :=
  (runCmd_of_starts h _).trans (congrArg _ (check_of_true hhdr _ _ _ _))

theorem State.modPrx_congr {s : State} {f g : Proxy → Proxy} (h : f s.prx = g s.prx) : s.modPrx f = s.modPrx g := by
  rw [State.modPrx, h, State.modPrx]

theorem prxStopped_prx (s : State) : (prxStopped s).prx = { s.prx with state := .stopped, stopRefs := [], captures := [], due := [] } :=
  foldl_leaves (view := State.prx) (fun t r => completeWith_prx t r _) _ _

/-! ## Access units (R213-R216) -/

theorem offerOrDrop_frame {c : Completion} (h : c.defer = none) (s : State) :
    ∃ r l i, (offerOrDrop s c).2 = { s with rings := r, link := l, intc := i } := by
  unfold offerOrDrop
  split
  · have hput : writeCpl s c = putCpl s c := by simp [writeCpl, deferredOf, h]
    obtain ⟨r, l, i, hp⟩ := putCpl_frame s c
    exact ⟨r, l, i, hput.trans hp⟩
  · exact ⟨s.rings, s.link, s.intc, rfl⟩

/-- The picture in progress leaves the captures, delivered or not; memory and contracts stay. -/
theorem prxDeliver_spec (s : State) (x : Capture) (last : Bool) (status : Nat) :
    (prxDeliver s x last status).2.prx.captures = s.prx.captures.drop 1 ∧ (prxDeliver s x last status).2.mem = s.mem
      ∧ (prxDeliver s x last status).2.contracts = s.contracts := by
  unfold prxDeliver
  simp only []
  generalize hs0 : (if (prxPicture s x).2 = true then _ else _ : State) = s0
  have hprx : s0.prx = s.prx := by rw [← hs0, apply_ite State.prx, setStatus_prx, ite_self]
  have hmem : s0.mem = s.mem := by rw [← hs0, apply_ite State.mem, setStatus_mem, ite_self]
  have hcontracts : s0.contracts = s.contracts := by rw [← hs0, apply_ite State.contracts, setStatus_contracts, ite_self]
  split
  · exact ⟨congrArg (fun p : Proxy => p.captures.drop 1) hprx, hmem, hcontracts⟩
  · split
    · obtain ⟨r, l, i, hoffer⟩ := offerOrDrop_frame (c := prxCpl s.prx x.frame (prxPlace s.prx (prxAu (prxPicture s x).1).length)
        (prxAu (prxPicture s x).1).length (prxPoc s.prx) (!prxIdr s.prx) last status) rfl
        (hostWrite s0 (s.prx.outAddr + prxPlace s.prx (prxAu (prxPicture s x).1).length) (prxAu (prxPicture s x).1))
      simp only [hoffer]
      exact ⟨congrArg (fun p : Proxy => p.captures.drop 1) hprx, hmem, hcontracts⟩
    · simp only [setStatus_prx, setStatus_mem, setStatus_contracts]
      exact ⟨congrArg (fun p : Proxy => p.captures.drop 1) hprx, hmem, hcontracts⟩

/-! ## The table (R218) -/

theorem lutWrite_of_open {s : State} (hst : s.prx.state = .stopped) (hon : s.domainOn 37 = true) (a : Agent) (v : Word) : lutWrite s a v =
    (s.modPrx fun p => { p with
      lut := mset (lutReset ((s.sel a Off.prxLutSel).toNat % 4096)) p.lut ((s.sel a Off.prxLutSel).toNat % 4096) (v.setWidth 10) }).setSel a Off.prxLutSel (BitVec.ofNat 32 (((s.sel a Off.prxLutSel).toNat % 4096 + 1) % 4096)) := if_pos ⟨hst, hon⟩

/-- Each entry has a reset value of its own, so the entry written is read by it. -/
theorem prxLut_mset (s : State) (k j : Nat) (x : BitVec 10) : mget (lutReset j) (mset (lutReset k) s.prx.lut k x) j =
    if j = k then x else prxLut s j := by
  by_cases hj : j = k
  · subst hj
    rw [mget_mset_same, if_pos rfl]
  · rw [mget_mset_ne hj, if_neg hj, prxLut]

/-- A picture that is due takes a free buffer. -/
theorem prxCapture_of_room {s : State} {n : Nat} {ns : List Nat} (hd : s.prx.due = n :: ns) (hhot : s.pwr.over105 = false)
    (hthr : s.pwr.throttled = false) (hlen : s.prx.captures.length < 2) : prxCapture s = s.modPrx fun p =>
      { p with due := ns, captures := p.captures ++ [⟨n, capturePlanes s (s.contract s.prx.contract) n⟩] } := by
  simp only [prxCapture, hd, hhot, hthr, hlen, Bool.false_eq_true, if_false, if_true]
  exact State.modPrx_congr rfl

/-- The oldest capture is delivered. -/
theorem prxAuDone_of_capture {s : State} {x : Capture} {xs : List Capture} (hc : s.prx.captures = x :: xs) (hst : s.prx.state ≠ .stopped)
    (hthr : s.pwr.throttled = false) : prxAuDone s = (prxDeliver s x false St.ok).2 := by
  simp [prxAuDone, hc, hst, hthr]

/-- Settles O31: start and stop by the proxy's state, captures and access units by what waits, the table by its gate. -/
theorem proxyRunsAndStops : Obligations.ProxyRunsAndStops := by
  refine ⟨⟨fun sq d s t ref h => ⟨fun hf hst => ?_, fun hf hst hfits => ?_, fun hf hst hfits => ?_, fun hhdr => ⟨fun hp => ?_, fun hp => ?_, fun hp => ?_⟩⟩,
    fun s => ⟨fun hd => ?_, fun n ns hd hhot hthr hlen => ?_, fun hc => ?_, fun hthr => ?_, fun n ns hc hst hthr => ?_, fun hst => ?_, fun hst => ?_⟩⟩,
    fun a v s => ⟨fun hst hon => ?_, fun hclosed => ?_⟩⟩
  · rw [exec_proxyStart_of_fields h hf, check_of_false hst]
  · rw [exec_proxyStart_of_fields h hf, check_of_true hst, check_of_false hfits]
  · rw [exec_proxyStart_of_fields h hf, check_of_true hst, check_of_true hfits]
    exact ⟨_, rfl, rfl, rfl, rfl, rfl, rfl, rfl, rfl, rfl⟩
  · rw [exec_proxyStop_of_hdr h hhdr, prxStop, hp]
  · rw [exec_proxyStop_of_hdr h hhdr, prxStop, hp]
    exact ⟨_, rfl, rfl, rfl, rfl, rfl, rfl, rfl⟩
  · rw [exec_proxyStop_of_hdr h hhdr, prxStop, hp]
  · simp only [exec, execProxyCaptureStart, prxCapture, hd]
  · exact congrArg Host.Outcome.next (prxCapture_of_room hd hhot hthr hlen)
  · simp only [exec, execProxyAuDone, prxAuDone, hc]
  · refine congrArg Host.Outcome.next ?_
    unfold prxAuDone
    split
    · rfl
    · exact if_pos (.inr hthr)
  · have hdone := prxAuDone_of_capture hc hst hthr
    obtain ⟨hcaptures, hmem, hcontracts⟩ := prxDeliver_spec s n false St.ok
    exact ⟨_, congrArg Host.Outcome.next hdone, hcaptures.trans (by rw [hc]; rfl), hmem, hcontracts⟩
  · exact congrArg Host.Outcome.next (if_neg hst)
  · obtain ⟨u, hu⟩ : ∃ u, prxStopDone s = prxStopped u := by
      unfold prxStopDone
      rw [if_pos hst]
      split <;> exact ⟨_, rfl⟩
    exact ⟨_, congrArg Host.Outcome.next hu, by rw [prxStopped_prx], by rw [prxStopped_prx], by rw [prxStopped_prx]⟩
  · exact ⟨_, congrArg Host.Outcome.next (lutWrite_of_open hst hon a v), fun j => prxLut_mset s _ j _, State.sel_setSel_same _ a _ _, rfl, rfl⟩
  · exact congrArg Host.Outcome.next (if_neg fun hc => hclosed.elim (· hc.1) fun hoff => by simp [hoff] at hc)

end Sys2Proof.Machine

/-! PROOFS. Drovers: loads of map images and microcode, what one word does to the registers, stalls and reloads (R52, R222-R239, R249, R253, R295). -/

namespace Sys2Proof.Machine

/-! ## `MAP_LOAD` (R239, R52, R53) -/

theorem exec_mapLoad_of_good {s t : State} {sq : Fin 1024} {d : Desc} {ref : CmdRef} {bs : List Byte} (h : Starts s sq d ref t)
    (hhdr : hdrOk d 0x20 [(8, 1), (16, 12), (32, 8)] = true) (hn : descFld d 8 1 < 64) (halign : descFld d 32 8 % 64 = 0) (hup : linkUp t = true)
    (hst : loadState (t.contract (descFld d 8 1)) = true) (hlen : bs.length = descFld d 24 4)
    (hok : imageOk t (t.contract (descFld d 8 1)) bs = true) (hfits : fits t bs.length = true) :
    exec (.mapLoad sq d (.ok bs)) s = .next (mapAdmit ref d (descFld d 8 1) (parseImage bs) bs.length t) := by
  refine (runCmd_of_starts h _).trans (congrArg Host.Outcome.next ?_)
  rw [check_of_true (by simp [hhdr, loadContract, hn, halign])]
  simp only [loadContract]
  rw [check_of_true hst, fetchOf_ok hup, check_of_true (by simp [hlen, hok]), check_of_true hfits]

theorem swapImage_map (s : State) (n : Nat) (img : MapImage) : mget none ((swapImage s n img).contract n).maps img.slot = some img := by
  unfold swapImage
  rw [State.contract_modContract, if_pos rfl]
  show mget none (mset none _ img.slot (some img)) img.slot = some img
  exact mget_mset_same _ _ _ _

theorem writeReport_contract (s : State) (a : Nat) (v : Verdict) (n : Nat) : (writeReport s a v).contract n = s.contract n :=
  congrArg (mget ({} : Contract) · n) (writeReport_contracts s a v)

/-! ## `UCODE_LOAD` (R253) -/

theorem exec_ucodeLoad_of_hdr {s t : State} {sq : Fin 1024} {d : Desc} {ref : CmdRef} {bs : List Byte} (h : Starts s sq d ref t)
    (hhdr : hdrOk d 0x21 [(12, 16)] = true) (mm : BitVec 32) (bw : BitVec 14) :
    exec (.ucodeLoad sq d (.ok bs) mm bw) s = .next (check (!ucodeConflict t (descFld d 12 4)) St.stateConflict ref t fun u =>
      fetchOf (.ok bs) ref u fun bs u => if bs.length = descFld d 24 4 then ucodeRun ref (descFld d 12 4) bs mm bw u
        else ucodeRun ref (descFld d 12 4) [] mm bw u) :=
  (runCmd_of_starts h _).trans (congrArg _ (check_of_true hhdr _ _ _ _))

theorem exec_ucodeLoad_of_free {s t : State} {sq : Fin 1024} {d : Desc} {ref : CmdRef} {bs : List Byte} (h : Starts s sq d ref t)
    (hhdr : hdrOk d 0x21 [(12, 16)] = true) (hup : linkUp t = true) (hfree : ucodeConflict t (descFld d 12 4) = false)
    (hlen : bs.length = descFld d 24 4) (mm : BitVec 32) (bw : BitVec 14) :
    exec (.ucodeLoad sq d (.ok bs) mm bw) s = .next (ucodeRun ref (descFld d 12 4) bs mm bw t) := by
  rw [exec_ucodeLoad_of_hdr h hhdr, check_of_true (by simp [hfree]), fetchOf_ok hup, if_pos hlen]

theorem loadDrovers_leaves {β : Type} {view : State → β} (hview : ∀ t p f, view (State.modDrover t p f) = view t) (bs : List Byte) (bad : BitVec 32)
    (ps : List Nat) (s : State) : view (ps.foldl (loadDrover bs bad) s) = view s :=
  foldl_leaves (view := view) (fun t p => hview t p _) ps s

/-- Each drover of the list is loaded once, and no other is touched. -/
theorem loadDrovers_drover {bs : List Byte} {ps : List Nat} (hps : ps.Nodup) (s : State) (p : Nat) :
    (ps.foldl (loadDrover bs 0) s).drover p =
      if p ∈ ps then { s.drover p with store := loadedCommon bs, disp := loadedDisp bs } else s.drover p := by
  have hload (t : State) (q : Nat) : (loadDrover bs 0 t q).drover p =
      if p = q then { t.drover q with store := loadedCommon bs, disp := loadedDisp bs } else t.drover p := by
    have hbit : bit (0 : BitVec 32) q = false := by simp [bit]
    simp only [loadDrover, State.drover_modDrover, hbit, Bool.false_eq_true, if_false]
  induction ps generalizing s with
  | nil => rfl
  | cons q ps ih =>
    obtain ⟨hq, hps'⟩ := List.nodup_cons.mp hps
    rw [List.foldl_cons, ih hps', hload]
    by_cases hpq : p = q
    · subst hpq
      simp [hq]
    · simp [hpq]

theorem mem_maskPorts {mask p : Nat} (hp : p < 32) : p ∈ maskPorts mask ↔ mask.testBit p = true := by
  simp [maskPorts, hp]

theorem nodup_maskPorts (mask : Nat) : (maskPorts mask).Nodup := List.Nodup.filter _ List.nodup_range

/-- Settles O32: an image by its checks and its re-admission, microcode by its verification, drover by drover. -/
theorem mapAndMicrocodeLoads : Obligations.MapAndMicrocodeLoads := by
  refine ⟨fun sq d bs s t ref h hhdr hn halign => ?_, fun sq d bs mm bw s t ref h hhdr hup => ⟨fun hbusy => ?_, fun hfree hlen hbad => ?_,
    fun hfree hlen hgood hmm => ?_⟩⟩
  · intro n img v hup hst hlen hok hfits
    have hexec := exec_mapLoad_of_good h hhdr hn halign hup hst hlen hok hfits
    refine ⟨fun hv hprop => ?_, fun hv => hexec.trans (congrArg Host.Outcome.next (if_neg hv))⟩
    let u := place (writeReport t (descFld d 32 8) v) bs.length
    have hcontract : (u.2.contract n).state = .proposed := (congrArg Contract.state (writeReport_contract t _ v n)).trans hprop
    refine ⟨swapImage u.2 n { img with base := u.1 }, hexec.trans (congrArg Host.Outcome.next ?_), _, swapImage_map u.2 n _, rfl⟩
    exact (if_pos hv).trans (atOnceOr_of_proposed hcontract ref _ _ _)
  · rw [exec_ucodeLoad_of_hdr h hhdr, check_of_false (by simp [hbusy])]
  · exact ⟨_, (exec_ucodeLoad_of_free h hhdr hup hfree hlen mm bw).trans (congrArg Host.Outcome.next (if_pos hbad)), fun p => rfl, rfl, rfl⟩
  · subst hmm
    have hrun : ucodeRun ref (descFld d 12 4) bs 0 bw t = complete ((maskPorts (descFld d 12 4)).foldl (loadDrover bs 0) t) ref St.ok 0 0 0 := by
      simp [ucodeRun, hgood]
    refine ⟨_, (exec_ucodeLoad_of_free h hhdr hup hfree hlen 0 bw).trans (congrArg Host.Outcome.next hrun), fun p hp => ?_,
      loadDrovers_leaves (view := State.mem) (fun t p f => rfl) bs 0 _ t, loadDrovers_leaves (view := State.regs) (fun t p f => rfl) bs 0 _ t⟩
    have hloaded := loadDrovers_drover (bs := bs) (nodup_maskPorts (descFld d 12 4)) t p
    by_cases hin : (descFld d 12 4).testBit p = true
    · rw [if_pos ((mem_maskPorts hp).mpr hin)] at hloaded
      rw [if_pos hin, if_pos hin, hloaded]
      dsimp only
      exact ⟨Eq.refl (loadedCommon bs), Eq.refl (loadedDisp bs)⟩
    · rw [if_neg (fun hm => hin ((mem_maskPorts hp).mp hm))] at hloaded
      rw [if_neg hin, if_neg hin, hloaded]
      exact ⟨rfl, rfl⟩

/-! ## The registers of one word (R222, R225, R226) -/

theorem writeDst_control (k : DCtx) (free : Nat) (r : DReg) (o : Nat) (v : Word) :
    (writeDst k free r o v).pc = r.pc ∧ (writeDst k free r o v).stack = r.stack := by
  unfold writeDst
  repeat' split
  all_goals exact ⟨rfl, rfl⟩

theorem writeLc_kept (k : DCtx) (a : Word) (r : DReg) :
    (writeLc k a r).v = r.v ∧ (writeLc k a r).pc = r.pc ∧ (writeLc k a r).stack = r.stack := by
  unfold writeLc
  split <;> exact ⟨rfl, rfl, rfl⟩

theorem nextPc_kept (k : DCtx) (r : DReg) : (nextPc k r).v = r.v ∧ (nextPc k r).z = r.z ∧ (nextPc k r).c = r.c := by
  unfold nextPc
  simp only []
  repeat' split
  all_goals exact ⟨rfl, rfl, rfl⟩

/-- The result of a word's operation, where it has one. -/
def resultRegs (k : DCtx) (free : Nat) (r : DReg) : DReg :=
  match aluResult (Mw.alu k.w) (operand k (Mw.srcA k.w)) (operand k (Mw.srcB k.w)) with
  | some v => writeDst k free r (Mw.dst k.w) v
  | none => r

/-- The flags after a word. -/
def resultFlags (k : DCtx) : Zncf :=
  aluFlags (Mw.alu k.w) (operand k (Mw.srcA k.w)) (operand k (Mw.srcB k.w)) ⟨k.x.reg.z, k.x.reg.n, k.x.reg.c⟩

theorem wordRegs_eq (k : DCtx) (free : Nat) (r : DReg) : wordRegs k free r = nextPc k
    { writeLc k (operand k (Mw.srcA k.w)) (resultRegs k free r) with z := (resultFlags k).z, n := (resultFlags k).n, c := (resultFlags k).c } := rfl

theorem wordRegs_results (k : DCtx) (free : Nat) (r : DReg) : (wordRegs k free r).v = (resultRegs k free r).v
    ∧ (wordRegs k free r).z = (resultFlags k).z ∧ (wordRegs k free r).c = (resultFlags k).c := by
  rw [wordRegs_eq]
  obtain ⟨hv, hz, hc⟩ := nextPc_kept k { writeLc k (operand k (Mw.srcA k.w)) (resultRegs k free r) with
    z := (resultFlags k).z, n := (resultFlags k).n, c := (resultFlags k).c }
  obtain ⟨hlv, -, -⟩ := writeLc_kept k (operand k (Mw.srcA k.w)) (resultRegs k free r)
  exact ⟨hv.trans hlv, hz, hc⟩

theorem resultRegs_control (k : DCtx) (free : Nat) (r : DReg) : (resultRegs k free r).pc = r.pc ∧ (resultRegs k free r).stack = r.stack := by
  unfold resultRegs
  split
  · exact writeDst_control k free r _ _
  · exact ⟨rfl, rfl⟩

/-- The next address and the stack of a word depend on those before it alone. -/
theorem wordRegs_control (k : DCtx) (free : Nat) (r : DReg) : ∃ r' : DReg, wordRegs k free r = nextPc k r' ∧ r'.pc = r.pc ∧ r'.stack = r.stack := by
  obtain ⟨hp, hs⟩ := resultRegs_control k free r
  obtain ⟨-, hlp, hls⟩ := writeLc_kept k (operand k (Mw.srcA k.w)) (resultRegs k free r)
  exact ⟨_, wordRegs_eq k free r, hlp.trans hp, hls.trans hs⟩

theorem wordRegs_add {k : DCtx} (hop : Mw.alu k.w = 2) (hlo : 1 ≤ Mw.dst k.w) (hhi : Mw.dst k.w < 16) (free : Nat) (r : DReg) :
    (wordRegs k free r).v = mset 0 r.v (Mw.dst k.w) (operand k (Mw.srcA k.w) + operand k (Mw.srcB k.w))
      ∧ (wordRegs k free r).z = decide (operand k (Mw.srcA k.w) + operand k (Mw.srcB k.w) = 0)
      ∧ (wordRegs k free r).c = decide (2 ^ 32 ≤ (operand k (Mw.srcA k.w)).toNat + (operand k (Mw.srcB k.w)).toNat) := by
  obtain ⟨hv, hz, hc⟩ := wordRegs_results k free r
  rw [hv, hz, hc, resultRegs, resultFlags, hop]
  refine ⟨?_, rfl, rfl⟩
  simp only [aluResult, writeDst]
  rw [if_neg (by omega), if_pos hhi]

theorem wordRegs_none {k : DCtx} (hop : Mw.alu k.w = 0) (free : Nat) (r : DReg) :
    (wordRegs k free r).v = r.v ∧ (wordRegs k free r).z = k.x.reg.z ∧ (wordRegs k free r).c = k.x.reg.c := by
  obtain ⟨hv, hz, hc⟩ := wordRegs_results k free r
  rw [hv, hz, hc, resultRegs, resultFlags, hop]
  exact ⟨rfl, rfl, rfl⟩

/-! ## Stalls, reloads and lookups (R223, R227, R236, R249) -/

theorem microword_of_dead {s : State} {d : Nat} {ev : DroverEvent} (h : droverLive s d = false) (hev : ev ≠ .asmMismatch) : microword s d ev = s := by
  unfold microword
  exact (if_neg hev).trans (if_pos (by simp [h]))

theorem microword_none_of_live {s : State} {d : Nat} (h : droverLive s d = true) :
    microword s d .none = if (s.drover d).act = .stall then s else droverGo s d 0 false := by
  unfold microword
  exact (if_neg (by simp)).trans (if_neg (by simp [h]))

/-- A lookup that hits gives the command its MAC (R236). -/
theorem lookupReturn_of_hit {s : State} {d : Nat} {l : RowList} {m : ListCmd} {e : TEntry} (hrun : runningCmd s d = some (l, m))
    (hlk : (s.drover d).lkDone = false) (hlook : lookupSlot s m.e.slot = some e) :
    lookupReturn s d = s.modDrover d fun x => { x with lkDone := true, lkMac := some e.mac } := by
  simp [lookupReturn, hrun, hlk, hlook]

/-- Settles O33: the rows of a drover by its guards, one word's registers by its operation and its next-address field. -/
theorem droversExecuteWords : Obligations.DroversExecuteWords := by
  refine ⟨fun dr ev s => ⟨fun hdead hev => ⟨?_, ?_, ?_⟩, fun hlive hstall => ⟨?_, ?_⟩, fun hs => ?_, fun hlive hstall => ⟨?_, ?_⟩, fun hact hon => ?_,
    fun hact => ?_, fun l m e hlive hrun hlk hlook => ?_⟩, fun k free r => ?_⟩
  · exact congrArg Host.Outcome.next (microword_of_dead hdead hev)
  · exact congrArg Host.Outcome.next (if_neg (by simp [hdead]))
  · exact congrArg Host.Outcome.next (if_neg (by simp [hdead]))
  · exact congrArg Host.Outcome.next ((microword_none_of_live hlive).trans (if_pos hstall))
  · exact congrArg Host.Outcome.next (if_pos (by simp [hlive, hstall]))
  · exact congrArg Host.Outcome.next ((if_pos rfl).trans (if_pos hs))
  · exact congrArg Host.Outcome.next (if_neg (by simp [hlive, hstall]))
  · exact congrArg Host.Outcome.next ((microword_none_of_live hlive).trans (if_neg hstall))
  · exact congrArg Host.Outcome.next (if_pos ⟨hact, hon⟩)
  · exact congrArg Host.Outcome.next (if_neg fun hc => hact hc.1)
  · exact congrArg Host.Outcome.next ((if_pos hlive).trans (lookupReturn_of_hit hrun hlk hlook))
  · intro a b o
    obtain ⟨r', hword, hpc, hstack⟩ := wordRegs_control k free r
    refine ⟨fun hop hlo hhi => ?_, fun hop => wordRegs_none hop free r, fun hn => ?_, fun hn ht => ?_, fun hn ht => ?_, fun hn ht p ps hs => ?_⟩
    · obtain ⟨hv, hz, hc⟩ := wordRegs_add hop hlo hhi free r
      refine ⟨?_, fun j hj => ?_, hz, hc⟩
      · rw [hv]
        exact mget_mset_same _ _ _ _
      · rw [hv]
        exact mget_mset_ne hj _ _ _ _
    all_goals rw [hword, nextPc, hn]
    · exact ⟨congrArg (fun p => (p + 1) % 16384) hpc, hstack⟩
    · simp [ht, hstack]
    · simp [ht, hpc, hstack]
    · simp [ht, hstack, hs]

end Sys2Proof.Machine

/-! PROOFS. Messages: offered, held, released, timed out, and waiting for a buffer (R301, R325, R334, R394, R395). -/

namespace Sys2Proof.Machine

/-! ## Message commands (R325, R334, R394) -/

theorem msgRun_of_conflict {d : Desc} {t : State} {ref : CmdRef} (hhold : (descFld d 13 1).testBit 1 = true) (hheld : tagHeld t ref.sq ref.cid = true)
    (region : Bool) (k o f : Nat) (x : HostData) : msgRun ref d region k o f x t = completeWith t ref St.stateConflict :=
  check_of_false (by simp [hhold, hheld]) _ _ _ _

theorem msgRun_of_free {d : Desc} {t : State} {ref : CmdRef} (hfree : (descFld d 13 1).testBit 1 = false ∨ tagHeld t ref.sq ref.cid = false)
    {x : HostData} (hx : x ≠ .badList) (region : Bool) (k o f : Nat) : msgRun ref d region k o f x t =
      offerMessage (drawFree t).2 (msgOf ref d ((drawFree t).1 % 2 ^ 32) region k o f) x := by
  unfold msgRun
  rw [check_of_true (by rcases hfree with h | h <;> simp [h]), check_of_true (bne_iff_ne.mpr hx)]

theorem exec_endpointSend_of_fields {s t : State} {sq : Fin 1024} {d : Desc} {ref : CmdRef} (h : Starts s sq d ref t)
    (hhdr : hdrOk d 0x28 [(8, 24)] = true) (hmsg : msgFields d 10 11 12 = true) (hslot : descFld d 8 2 < 16384) (x : HostData) :
    exec (.endpointSend sq d x) s = .next (msgRun ref d false 10 11 12 x t) :=
  (runCmd_of_starts h _).trans (congrArg _ (check_of_true (by simp [hhdr, hmsg, hslot]) _ _ _ _))

theorem exec_regionSend_of_fields {s t : State} {sq : Fin 1024} {d : Desc} {ref : CmdRef} (h : Starts s sq d ref t)
    (hhdr : hdrOk d 0x29 [(8, 5), (13, 24)] = true) (hmsg : msgFields d 34 35 36 = true) (hlen : descFld d 12 1 ≤ 32)
    (hslot : descFld d 32 2 < 16384) (x : HostData) : exec (.regionSend sq d x) s = .next (msgRun ref d true 34 35 36 x t) :=
  (runCmd_of_starts h _).trans (congrArg _ (check_of_true (by simp [hhdr, hmsg, hlen, hslot]) _ _ _ _))

/-! ## Offers (R301) -/

theorem offerMessage_of_no_route {s : State} {m : HeldMsg} (hhold : m.hold = false) (hroute : route s m = none) (x : HostData) :
    offerMessage s m x = completeWith s m.ref St.invalidField := by
  exact if_pos (Bool.and_eq_true_iff.mpr ⟨congrArg not hhold, Option.isNone_iff_eq_none.mpr hroute⟩)

theorem offerMessage_of_route {s : State} {m : HeldMsg} (h : m.hold = true ∨ (route s m).isSome = true) (x : HostData) :
    offerMessage s m x = if canAlloc s.buf (poolFor (msgLen m)) (msgOwner s m) then grantMessage s { m with owner := msgOwner s m } x
      else tallyAdd (setStatus (s.modEg fun e => { e with waiting := e.waiting ++ [{ m with owner := msgOwner s m }] }) Off.poolStatus 2) 977 1 := by
  have hkeep : (!m.hold && (route s m).isNone) = false := by
    rcases h with h | h
    · simp [h]
    · simp [Option.isNone_eq_false_iff.mpr h]
  exact if_neg (Bool.not_eq_true _ ▸ hkeep)

/-! ## Releases and time-outs (R395) -/

theorem heldTimeout_of_early {s : State} {sq cid : Nat} {m : HeldMsg} (h : heldOf s sq cid = some m) (hearly : s.wt.now < m.since + 9600000000) :
    heldTimeout s sq cid = s := by
  simp only [heldTimeout, h]
  exact if_neg (by simp only [msTicks]; omega)

theorem heldTimeout_of_due {s : State} {sq cid : Nat} {m : HeldMsg} {p b : Nat} (h : heldOf s sq cid = some m) (hb : m.buf = some (p, b))
    (hdue : m.since + 9600000000 ≤ s.wt.now) : heldTimeout s sq cid = completeWith (freeBuf (unhold s m) p b) m.ref St.timeout := by
  simp only [heldTimeout, h, hb]
  exact if_pos hdue

/-- Settles O34: a message command by its tag, an offer by its route and its pool, a held message by its list and its time. -/
theorem messagesAreSentOrHeld : Obligations.MessagesAreSentOrHeld := by
  refine ⟨fun sq d x s t ref h => ⟨fun hhdr hmsg hslot => ⟨fun hhold hheld => ?_, fun hfree hx => ?_⟩,
      fun hhdr hmsg hlen hslot => ⟨fun hhold hheld => ?_, fun hfree hx => ?_⟩⟩,
    fun s m x => ⟨fun hhold hroute => offerMessage_of_no_route hhold hroute x, fun hr => ⟨fun hcan => ?_, fun hcan => ?_⟩⟩,
    fun k s l h => ⟨fun hnone => ?_, fun m p b hm hb => ?_⟩,
    fun sq cid s => ⟨fun hnone => ?_, fun m hm hearly => ?_, fun m p b hm hdue hb => ?_⟩, fun s x => ⟨fun hw => ?_, fun m hm => ?_⟩⟩
  · rw [exec_endpointSend_of_fields h hhdr hmsg hslot, msgRun_of_conflict hhold hheld]
  · rw [exec_endpointSend_of_fields h hhdr hmsg hslot, msgRun_of_free hfree hx]
  · rw [exec_regionSend_of_fields h hhdr hmsg hlen hslot, msgRun_of_conflict hhold hheld]
  · rw [exec_regionSend_of_fields h hhdr hmsg hlen hslot, msgRun_of_free hfree hx]
  · exact (offerMessage_of_route hr x).trans (if_pos hcan)
  · rw [(offerMessage_of_route hr x).trans (if_neg (by rw [show canAlloc s.buf (poolFor (msgLen m)) (msgOwner s m) = false from hcan]; simp))]
    refine ⟨by simp, setStatus_bit (by omega) (by decide) _ _, by simp, by simp⟩
  · rw [exec_messageRelease, execMessageRelease, runLaunch_of_fires h, releaseMessage, hnone]
  · rw [exec_messageRelease, execMessageRelease, runLaunch_of_fires h, releaseMessage, hm]
    simp only [hb]
  · simp only [exec, execHeldMessageTimeout, heldTimeout, hnone]
  · exact congrArg Host.Outcome.next (heldTimeout_of_early hm hearly)
  · exact congrArg Host.Outcome.next (heldTimeout_of_due hm hb hdue)
  · simp only [exec, execPoolAllocGrant, allocGrant, hw, List.find?_nil]
  · simp only [exec, execPoolAllocGrant, allocGrant, hm]

end Sys2Proof.Machine

/-! PROOFS. Buffer pools, the scheduler's queue accesses, the choice of a port's next frame, and the links of the ports (chapters 10 to 12). -/

namespace Sys2Proof.Machine

/-! ## Buffer pools (R297, R302, R303) -/

@[simp] theorem State.pool_modPool (s : State) (p : Fin 3) (f : Pool → Pool) : (s.modPool p.val f).pool p.val = f (s.pool p.val) := by
  unfold State.modPool State.modBuf State.pool Buffers.modPool Buffers.pool
  match p with
  | 0 => rfl
  | 1 => rfl
  | 2 => rfl

theorem decRef_of_shared {s : State} {p b : Nat} (h : 1 < (mget {} (s.pool p).bufs b).refs) :
    decRef s p b = s.modPool p fun x => { x with bufs := mset {} x.bufs b { mget {} (s.pool p).bufs b with refs := (mget {} (s.pool p).bufs b).refs - 1 } } :=
  (if_neg (by omega)).trans (if_neg (by omega))

theorem poolFor_of_size (n : Nat) : (n ≤ 256 → poolFor n = 0) ∧ (256 < n → n ≤ 2048 → poolFor n = 1) ∧ (2048 < n → poolFor n = 2) := by
  unfold poolFor
  refine ⟨fun h => if_pos h, fun h h' => ?_, fun h => ?_⟩
  · rw [if_neg (by omega), if_pos h']
  · rw [if_neg (by omega), if_neg (by omega)]

/-! ## Queue accesses (R319, Table 12-7) -/

theorem State.queueCfg_of_mset {s t : State} {q : Nat} {c : QCfg} (h : t.qcfg = mset (qcfgReset q) s.qcfg q c) (j : Nat) :
    t.queueCfg j = if j = q then c else s.queueCfg j := by
  rw [State.queueCfg, h]
  split
  next hj => rw [hj, mget_mset_same]
  next hj => exact mget_mset_ne hj _ _ _ _

theorem bit_schedEnd (n : Nat) (err : Bool) :
    bit (w32 (b2n err * 2 ^ 30 + n % 4)) 31 = false ∧ bit (w32 (b2n err * 2 ^ 30 + n % 4)) 30 = err := by
  have hn : n % 4 < 2 ^ 30 := by omega
  simp only [bit, w32, BitVec.getLsbD_ofNat]
  cases err
  · simp [b2n, Nat.testBit_lt_two_pow (show n % 4 < 2 ^ 31 by omega), Nat.testBit_lt_two_pow hn]
  · have hhigh : 2 ^ 30 + n % 4 < 2 ^ 31 := by omega
    simp only [b2n, if_true, Nat.one_mul]
    rw [Nat.testBit_lt_two_pow hhigh, Nat.testBit_two_pow_add_eq, Nat.testBit_lt_two_pow hn]
    simp

/-- The end of an access clears `GO` and gives `ERR`. -/
theorem schedEnd_acc (s : State) (err : Bool) :
    schedGo (schedEnd s err) = false ∧ bit ((schedEnd s err).reg Off.schedAcc) 30 = err := by
  unfold schedGo schedEnd
  rw [State.reg_setReg_same]
  exact bit_schedEnd _ err

theorem schedFail_acc (s : State) : schedGo (schedFail s) = false ∧ bit ((schedFail s).reg Off.schedAcc) 30 = true := schedEnd_acc _ true

theorem fld_accWord (x : Word) (k : Fin 3) :
    bit ((x &&& 0x40000000#32) ||| (BitVec.ofNat 32 (0x80000000 + k.val) &&& 0x80000003#32)) 31 = true
      ∧ fld ((x &&& 0x40000000#32) ||| (BitVec.ofNat 32 (0x80000000 + k.val) &&& 0x80000003#32)) 1 0 = k.val := by
  constructor
  · match k with
    | 0 => simp [bit]
    | 1 => simp [bit]
    | 2 => simp [bit]
  · unfold fld
    rw [BitVec.toNat_or, BitVec.toNat_and, Nat.shiftRight_zero, Nat.or_mod_two_pow, Nat.and_mod_two_pow]
    match k with
    | 0 => simp
    | 1 => simp
    | 2 => simp

theorem schedAccOp_of_idle {s : State} (h : schedGo s = false) (k : Fin 3) : let t := schedAccOp s (BitVec.ofNat 32 (0x80000000 + k.val))
    schedGo t = true ∧ fld (t.reg Off.schedAcc) 1 0 = k.val ∧ (∀ off, off ≠ Off.schedAcc → t.reg off = s.reg off)
      ∧ t.qcfg = s.qcfg ∧ t.mem = s.mem := by
  have hset : schedAccOp s (BitVec.ofNat 32 (0x80000000 + k.val)) = s.setReg Off.schedAcc
      ((s.reg Off.schedAcc &&& 0x40000000#32) ||| (BitVec.ofNat 32 (0x80000000 + k.val) &&& 0x80000003#32)) := if_neg (by simp [h])
  obtain ⟨hgo, hop⟩ := fld_accWord (s.reg Off.schedAcc) k
  intro t
  rw [show t = _ from hset]
  refine ⟨?_, ?_, fun off hoff => State.reg_setReg_ne hoff _ _, rfl, rfl⟩
  · rw [schedGo, State.reg_setReg_same, hgo]
  · rw [State.reg_setReg_same, hop]

theorem schedRun_of_write {s : State} (hgo : schedGo s = true) (hop : fld (s.reg Off.schedAcc) 1 0 = 1) :
    schedRun s = schedWriteCfg s (fld (s.reg Off.schedQSel) 15 0) := by
  simp [schedRun, hgo, hop]

theorem schedRun_of_read {s : State} (hgo : schedGo s = true) (hop : fld (s.reg Off.schedAcc) 1 0 = 0) :
    schedRun s = schedReadCfg s (fld (s.reg Off.schedQSel) 15 0) := by
  simp [schedRun, hgo, hop]

theorem schedRun_of_state {s : State} (hgo : schedGo s = true) (hop : fld (s.reg Off.schedAcc) 1 0 = 2) :
    schedRun s = schedReadState s (fld (s.reg Off.schedQSel) 28 24) (fld (s.reg Off.schedQSel) 15 0) := by
  simp [schedRun, hgo, hop]

theorem schedEnd_qcfg (s : State) (err : Bool) : (schedEnd s err).qcfg = s.qcfg := by
  unfold schedEnd
  exact State.setReg_qcfg _ _ _

theorem setSchedData_qcfg (s : State) (d0 d1 d2 d3 : Nat) : (setSchedData s d0 d1 d2 d3).qcfg = s.qcfg := by simp [setSchedData]

theorem schedFail_qcfg (s : State) : (schedFail s).qcfg = s.qcfg := (schedEnd_qcfg _ _).trans (setSchedData_qcfg _ _ _ _ _)

theorem schedReadCfg_qcfg (s : State) (q : Nat) : (schedReadCfg s q).qcfg = s.qcfg := by
  simp only [schedReadCfg, schedEnd_qcfg, setSchedData_qcfg]

/-- Only the tokens of the ports' queues change with a queue's configuration. -/
theorem schedWriteCfg_qcfg {s : State} {q : Nat} (hq : q % 4 ≠ 0) (hok : qcfgOk (schedNewCfg s) = true) :
    (schedWriteCfg s q).qcfg = mset (qcfgReset q) s.qcfg q (schedNewCfg s) := by
  unfold schedWriteCfg
  simp only [hok, hq, Bool.not_true, Bool.false_eq_true, or_self, if_false]
  rw [schedEnd_qcfg, foldl_leaves (g := fun t p => t.modPort p fun x => modQueue x q (retoken s.wt.now (s.queueCfg q) (schedNewCfg s)))
    (view := State.qcfg) fun _ _ => rfl]

theorem schedWriteCfg_acc {s : State} {q : Nat} (hq : q % 4 ≠ 0) (hok : qcfgOk (schedNewCfg s) = true) :
    schedGo (schedWriteCfg s q) = false ∧ bit ((schedWriteCfg s q).reg Off.schedAcc) 30 = false := by
  unfold schedWriteCfg
  simp only [hok, hq, Bool.not_true, Bool.false_eq_true, or_self, if_false]
  exact schedEnd_acc _ false

theorem schedWriteCfg_of_bad {s : State} {q : Nat} (h : q % 4 = 0 ∨ qcfgOk (schedNewCfg s) = false) : schedWriteCfg s q = schedFail s :=
  if_pos (h.imp_right fun h => by simp [h])

theorem schedReadCfg_data {s : State} {q : Nat} (hq : q % 4 ≠ 0) :
    (schedReadCfg s q).reg (Off.schedData 2) = w32 (s.queueCfg q).polRate := by
  simp only [schedReadCfg, hq, if_false, schedEnd, setSchedData]
  rw [State.reg_setReg_ne (by decide)]
  exact (State.reg_setReg_ne (by decide) _ _).trans (State.reg_setReg_same _ _ _)

/-! ## The next frame of a port (R309, R314, R318) -/

@[simp] theorem setStatus_port (s : State) (off mask p : Nat) : (setStatus s off mask).port p = s.port p := by
  rw [State.port, setStatus_eg]; rfl

@[simp] theorem raiseFault_port (s : State) (f p : Nat) : (raiseFault s f).port p = s.port p := by
  rw [State.port, raiseFault_eg]; rfl

@[simp] theorem tallyAdd_port (s : State) (i n p : Nat) : (tallyAdd s i n).port p = s.port p := rfl

/-- The first bit of a frame moves its contract's counts and its trace, nothing of a port. -/
theorem markSent_eg (s : State) (p : Nat) (f : Frame) : (markSent s p f).eg = s.eg := by
  unfold markSent
  cases f.contract with
  | none => rfl
  | some c => exact (apply_ite State.eg _ _ _).trans (ite_self _)

/-- A frame that starts is the one on the wire, with the bytes that leave; what waits on the port stays. -/
theorem startFrame_port (s : State) (p : Nat) (f : Frame) (built : Bool) : ∃ g, ((startFrame s p f built).port p).current = some g
    ∧ g = { f with bytes := g.bytes } ∧ ((startFrame s p f built).port p).portQ = (s.port p).portQ
    ∧ ((startFrame s p f built).port p).class0 = (s.port p).class0 := by
  refine ⟨{ f with bytes := leavingBytes s p f }, ?_⟩
  simp only [startFrame, State.port, markSent_eg]
  rw [show ∀ g, mget {} (s.modPort p g).eg.ports p = g (s.port p) from fun g => (State.port_modPort s p g p).trans (if_pos rfl)]
  cases numbered f
  · exact ⟨rfl, trivial, rfl, rfl⟩
  · exact ⟨rfl, trivial, rfl, rfl⟩

theorem portGo_of_busy {s : State} {p : Nat} (h : (s.port p).current ≠ none ∨ (s.port p).linkUp = false) : portGo s p = s := by
  refine if_pos ?_
  rcases h with h | h
  · simp [Option.isSome_iff_ne_none.mpr h]
  · simp [h]

theorem portGo_of_built {s : State} {p : Nat} {f : Frame} {fs : List Frame} (hup : (s.port p).linkUp = true) (hidle : (s.port p).current = none)
    (hq : (s.port p).portQ = f :: fs) (hgo : f.first = true ∨ (s.port p).builtRun < 2 ∨ queuedReady s (s.port p) = false) :
    portGo s p = startFrame (s.modPort p fun y => { y with portQ := fs }) p f true := by
  simp only [portGo, hup, hidle, hq]
  exact (if_neg (by simp)).trans (if_pos (by simpa using hgo))

theorem portGo_of_class0 {s : State} {p : Nat} {g : Frame} {gs : List Frame} (hup : (s.port p).linkUp = true) (hidle : (s.port p).current = none)
    (hq : (s.port p).portQ = [] ∨ (2 ≤ (s.port p).builtRun ∧ ((s.port p).portQ.head?.all fun f => !f.first) = true))
    (h0 : (s.port p).class0 = g :: gs) : portGo s p = startFrame (s.modPort p fun y => { y with class0 := gs }) p g false := by
  have hready : queuedReady s (s.port p) = true := by simp [queuedReady, h0]
  unfold portGo
  simp only [hup, hidle, h0]
  refine (if_neg (by simp)).trans ?_
  cases hp : (s.port p).portQ with
  | nil => rfl
  | cons f fs =>
    obtain h | ⟨hrun, hfirst⟩ := hq
    · exact absurd (hp.symm.trans h) (by simp)
    · have hf : f.first = false := by simpa [hp] using hfirst
      exact if_neg (by simp [hf, hready]; omega)

/-- A port that holds nothing sends nothing. -/
theorem portGo_of_empty {s : State} {p : Nat} (hq : (s.port p).portQ = []) (h0 : (s.port p).class0 = []) (hqs : (s.port p).queues = []) :
    portGo s p = s := by
  have hnone : wfqChoice s (s.port p) = none := by simp [wfqChoice, eligibleHeads, hqs]
  simp only [portGo, hq, h0, hnone, ite_self]

theorem txEnd_of_port {s : State} {p : Nat} {f : Frame} (h : (s.port p).current = some f) (hsrc : f.src = .port) (hmsg : f.msg = none) (parity : Bool) :
    txEnd s p parity = portGo (traceSent (countSent (s.modPort p fun x => { x with current := none }) p f) f) p := by
  simp only [txEnd, h, asmParity, hsrc, releaseFrame, hmsg]

theorem execShaperTokensReady_of_head {p : Fin 32} {q : Fin 65536} {s : State} {f : Frame} {fs : List Frame}
    (h : (qstate (s.port p.val) q.val).frames = f :: fs) :
    exec (.shaperTokensReady p q) s = .next (if eligible s (s.port p.val) q.val f then portGo s p.val else s) := by
  simp only [exec, execShaperTokensReady, h]

/-- What R318 does to the head of a queue. -/
def agedHead (s : State) (p q : Nat) : State :=
  raiseFault (setStatus (portTally (s.modPort p fun x => modQueue x q fun y => tagHead s q y.f false { y with frames := y.frames.drop 1 }) p 5 1)
    Off.schedStatus 1) (16 * 12 + 1)

theorem dropAged_of_head {s : State} {p q : Nat} {f : Frame} {fs : List Frame} (h : (qstate (s.port p) q).frames = f :: fs) :
    dropAged s p q = if q % 4 ≠ 0 ∧ f.enq + ageLimit s (q % 4) < s.wt.now then portKick (dropFrame (agedHead s p q) p f .dropped) p else s := by
  unfold dropAged agedHead
  simp only [h, Bool.and_eq_true, bne_iff_ne, decide_eq_true_eq]

theorem tagHead_frames (s : State) (q : Nat) (v : BitVec 32) (idle : Bool) (x : QState) : (tagHead s q v idle x).frames = x.frames := by
  unfold tagHead
  split <;> rfl

theorem agedHead_frames {s : State} {p q : Nat} {f : Frame} {fs : List Frame} (h : (qstate (s.port p) q).frames = f :: fs) :
    (qstate ((agedHead s p q).port p) q).frames = fs := by
  simp only [agedHead, portTally, raiseFault_port, setStatus_port, tallyAdd_port, State.port_modPort, if_true, modQueue, qstate, mget_mmod, tagHead_frames]
  exact congrArg (List.drop 1) h

theorem agedHead_status (s : State) (p q : Nat) : bit ((agedHead s p q).reg Off.schedStatus) 0 = true := by
  rw [agedHead, raiseFault_reg (by decide)]
  exact setStatus_bit (by omega) (by decide) _ _

/-! ## Links of the ports (R258, R272) -/

theorem discardAll_of_empty {s : State} {p : Nat} (hq : (s.port p).portQ = []) (h0 : (s.port p).class0 = []) (hqs : (s.port p).queues = [])
    (hcur : (s.port p).current = none) : discardAll s p = s.modPort p fun y =>
      { y with current := none, portQ := [], class0 := [], builtRun := 0,
               queues := y.queues.foldl (fun m q => mset {} m q.1 { q.2 with frames := [] }) [] } := by
  simp only [discardAll, hq, h0, hqs, hcur, Option.toList_none, List.append_nil, List.flatMap_nil, List.foldl_nil]

theorem linkRise_of_empty {s : State} {p : Nat} (hmay : linkMayRise s p = true) (hq : (s.port p).portQ = []) (h0 : (s.port p).class0 = [])
    (hqs : (s.port p).queues = []) : linkRise s p =
      s.modPort p fun x => { x with linkUp := true, blockLock := true, fecAlign := fld (s.reg (Off.egPortCfg p)) 3 2 != 0, v := 0 } :=
  (if_pos hmay).trans (portGo_of_empty (by simp [hq]) (by simp [h0]) (by simp [hqs]))

theorem linkLost_of_empty {s : State} {p : Nat} (hup : (s.port p).linkUp = true) (hq : (s.port p).portQ = []) (h0 : (s.port p).class0 = [])
    (hqs : (s.port p).queues = []) (hcur : (s.port p).current = none) (lock align : Bool) : ((linkLost s p lock align).port p).linkUp = false
      ∧ bit ((linkLost s p lock align).reg (Off.egPortStatus p)) 0 = true ∧ (linkLost s p lock align).mem = s.mem
      ∧ (linkLost s p lock align).contracts = s.contracts := by
  unfold linkLost
  simp only [hup, if_true]
  rw [discardAll_of_empty (by simp [hq]) (by simp [h0]) (by simp [hqs]) (by simp [hcur])]
  refine ⟨by simp, setStatus_bit (by omega) (by decide) _ _, by simp, by simp⟩

theorem portCfgOp_of_ok {s : State} {p : Nat} {v : Word} (hok : portCfgOk v = true) (hfree : portUsed s p = false) : portCfgOp s p v =
    if fld (s.reg (Off.egPortCfg p)) 3 0 ≠ fld v 3 0 ∨ bit v 4 = false then
      linkFall (checkPairs (s.setReg (Off.egPortCfg p) (v &&& 0x7F1F#32)) p) p
    else checkPairs (s.setReg (Off.egPortCfg p) (v &&& 0x7F1F#32)) p := by
  unfold portCfgOp
  simp only [hok, hfree, Bool.not_false, Bool.and_self, if_true, Bool.not_eq_true']

theorem portCfgOp_of_bad {s : State} {p : Nat} {v : Word} (h : portCfgOk v = false ∨ portUsed s p = true) : portCfgOp s p v = s :=
  if_neg (by rcases h with h | h <;> simp [h])

/-- Settles O35: the pools, the scheduler's accesses, the order of a port's frames, and the links, each by its branch. -/
theorem poolsPortsAndScheduler : Obligations.PoolsPortsAndScheduler := by
  refine ⟨⟨fun p s => ?_, poolFor_of_size, fun s p b hrefs hp => ?_⟩, ⟨fun s => ⟨fun hgo => ?_, fun hgo => ?_⟩, fun s => ?_⟩,
    ⟨?_, fun s p h => portGo_of_busy h, ?_, ?_, ?_, fun _ _ _ _ _ => Nat.min_le_left _ _⟩, fun p s => ?_, fun p v s => ?_⟩
  · refine ⟨fun hlow hfree => ⟨_, rfl, ?_⟩, fun h => ?_, fun hhigh => ⟨_, rfl, ?_⟩, fun h => ?_⟩
    · rw [show refill s p.val = _ from if_pos ⟨hlow, hfree⟩]
      exact ⟨by simp, by simp, rfl, rfl⟩
    · exact congrArg Host.Outcome.next (if_neg (by omega))
    · rw [show spill s p.val = _ from if_pos hhigh]
      exact ⟨by simp, by simp, rfl, rfl⟩
    · exact congrArg Host.Outcome.next (if_neg (by omega))
  · rw [decRef_of_shared hrefs, State.pool_modPool s ⟨p, hp⟩]
    exact congrArg PBuf.refs (mget_mset_same _ _ _ _)
  · exact ⟨congrArg Host.Outcome.next (if_pos hgo), congrArg Host.Outcome.next (if_pos hgo), congrArg Host.Outcome.next (if_pos hgo)⟩
  · intro p hp
    simp only [List.mem_cons, List.not_mem_nil, or_false] at hp
    rcases hp with rfl | rfl | rfl
    · exact ⟨_, rfl, schedAccOp_of_idle hgo 0⟩
    · exact ⟨_, rfl, schedAccOp_of_idle hgo 1⟩
    · exact ⟨_, rfl, schedAccOp_of_idle hgo 2⟩
  · refine ⟨fun hgo => ?_, fun hgo hop => ⟨fun hq hok => ⟨_, rfl, ?_⟩, fun hbad => ⟨_, rfl, ?_⟩⟩, fun hgo hop hq => ⟨_, rfl, ?_⟩,
      fun hgo hop hdom => ⟨_, rfl, ?_⟩⟩
    · exact congrArg Host.Outcome.next (if_pos (by simp [hgo]))
    · rw [schedRun_of_write hgo hop]
      exact ⟨(schedWriteCfg_acc hq hok).1, (schedWriteCfg_acc hq hok).2, State.queueCfg_of_mset (schedWriteCfg_qcfg hq hok)⟩
    · rw [schedRun_of_write hgo hop, schedWriteCfg_of_bad hbad]
      exact ⟨(schedFail_acc s).1, (schedFail_acc s).2, schedFail_qcfg s⟩
    · rw [schedRun_of_read hgo hop]
      exact ⟨(schedEnd_acc _ _).1, schedReadCfg_data hq, schedReadCfg_qcfg s _⟩
    · rw [schedRun_of_state hgo hop, show schedReadState s _ _ = schedFail s from if_pos (by simp [hdom])]
      exact schedFail_acc s
  · refine fun s p hup hidle => ⟨fun f fs hq hgo => ?_, fun g gs hq h0 => ?_⟩
    · rw [portGo_of_built hup hidle hq hgo]
      simpa using startFrame_port (s.modPort p fun y => { y with portQ := fs }) p f true
    · rw [portGo_of_class0 hup hidle hq h0]
      obtain ⟨h, hcur, hh, hportQ, hclass⟩ := startFrame_port (s.modPort p fun y => { y with class0 := gs }) p g false
      exact ⟨h, hcur, hh, by simpa using hclass, by simpa using hportQ⟩
  · refine fun p parity s => ⟨fun hidle => ?_, fun f hcur hsrc hmsg => ?_⟩
    · simp only [exec, execFrameTxEnd, txEnd, hidle]
    · exact congrArg Host.Outcome.next (txEnd_of_port hcur hsrc hmsg parity)
  · refine fun p q s => ⟨fun hnil => ?_, fun f fs hcons => ⟨fun hel => ?_, fun hel => ?_, fun hyoung => ?_, fun hcls hold => ?_⟩⟩
    · constructor
      · simp only [exec, execShaperTokensReady, hnil]
      · simp only [exec, execAgeDrop, dropAged, hnil]
    · rw [execShaperTokensReady_of_head hcons, if_pos hel]
    · rw [execShaperTokensReady_of_head hcons, if_neg (by simp [hel])]
    · exact congrArg Host.Outcome.next ((dropAged_of_head hcons).trans (if_neg (by omega)))
    · exact ⟨agedHead s p.val q.val, congrArg Host.Outcome.next ((dropAged_of_head hcons).trans (if_pos ⟨hcls, hold⟩)),
        agedHead_frames hcons, agedHead_status s _ _⟩
  · intro s x q f hrate
    simp [eligible, hrate]
  · refine ⟨fun hno => congrArg Host.Outcome.next (if_neg (by simp [hno])), fun hmay hq h0 hqs _ => ⟨_, rfl, ?_⟩,
      fun hup hq h0 hqs hcur lock align => ⟨_, rfl, linkLost_of_empty hup hq h0 hqs hcur _ _⟩⟩
    rw [linkRise_of_empty hmay hq h0 hqs]
    exact ⟨by simp, by simp, fun q hq => by simp [hq], rfl, rfl⟩
  · refine ⟨fun h => congrArg Host.Outcome.next ?_, fun hon hok hfree => congrArg Host.Outcome.next ?_⟩
    · rcases h with h | h
      · exact gated_of_off h _
      · rw [portCfgOp_of_bad h]
        exact ite_self _
    · exact (gated_of_on hon _).trans (portCfgOp_of_ok hok hfree)

end Sys2Proof.Machine

/-! PROOFS. Received frames, BEACONs and stale endpoints (R39, R150, R267, R278, R279). -/

namespace Sys2Proof.Machine

theorem rxDiscard_of_neither {s : State} {p : Nat} {bs : List Byte} {ok fec : Bool}
    (h : ok = false ∨ fec = true ∨ (rxIs s p 5 bs = false ∧ rxIs s p 9 bs = false)) :
    (ok && !fec && (rxIs s p 5 bs || rxIs s p 9 bs)) = false := by
  rcases h with h | h | ⟨h, h'⟩
  · simp [h]
  · simp [h]
  · simp [h, h']

theorem telemetry_of_up {s : State} {p : Nat} (hup : (s.port p).linkUp = true) (bs : List Byte) : telemetry s p bs =
    if rxIs s p 9 bs = true then tlmHost (tlmLearn (noteTemp s (beAt bs 18 2) bs) p (beAt bs 18 2) bs) p (beAt bs 18 2) bs
    else rxDiscard s p bs true := by
  simp only [telemetry, hup, Bool.not_true, Bool.false_eq_true, if_false]
  cases rxIs s p 9 bs <;> rfl

theorem delayReq_of_bad {s : State} {p : Nat} {bs : List Byte} (hup : (s.port p).linkUp = true) (hrx : rxIs s p 5 bs = false) (age : Word) :
    delayReq s p bs age = rxDiscard s p bs true := by
  simp only [delayReq, hup, hrx, Bool.not_true, Bool.not_false, Bool.false_eq_true, if_false, if_true]

theorem delayReq_of_good {s : State} {p : Nat} {bs : List Byte} (hup : (s.port p).linkUp = true) (hrx : rxIs s p 5 bs = true) (age : Word) :
    delayReq s p bs age = if 4096 ≤ ((dreqWindow s p).port p).dreqCount then tallyAdd (setStatus (dreqWindow s p) (Off.egPortStatus p) 0x10) 1000 1
      else sendBuilt ((dreqWindow s p).modPort p fun x => { x with dreqCount := x.dreqCount + 1 }) p
        { bytes := delayResp s p bs, t2 := some ((s.wt.wall.toNat : Int) * 65536 + s.wt.frac.toNat - age.toNat) } := by
  simp only [delayReq, hup, hrx, Bool.not_true, Bool.false_eq_true, if_false]

/-- An endpoint is found stale where it stands in the slot, had a reading, is not yet stale, and its last valid one is old. -/
theorem driftStale_of_old {s : State} {slot : Nat} (hslot : (slotEndpoint s slot).isSome = true)
    (hread : (mget {} s.corr.eps slot).temp.isSome = true ∨ (mget {} s.corr.eps slot).newest.isSome = true)
    (hnew : (mget {} s.corr.eps slot).stale = false) (hold : (mget {} s.corr.eps slot).lastValid + staleAfter s ≤ s.wt.now) :
    driftStale s slot = setStatus { s with corr := { s.corr with eps := mset {} s.corr.eps slot { mget {} s.corr.eps slot with stale := true } } }
      Off.corrStatus 2 :=
  if_pos (by simp [hslot, hnew, hold]; simpa using hread)

theorem driftStale_of_not {s : State} {slot : Nat} (h : slotEndpoint s slot = none
      ∨ ((mget {} s.corr.eps slot).temp = none ∧ (mget {} s.corr.eps slot).newest = none)
      ∨ (mget {} s.corr.eps slot).stale = true ∨ s.wt.now < (mget {} s.corr.eps slot).lastValid + staleAfter s) : driftStale s slot = s := by
  refine if_neg ?_
  rcases h with h | ⟨h, h'⟩ | h | h
  · simp [h]
  · simp [h, h']
  · simp [h]
  · simp [show ¬ (mget {} s.corr.eps slot).lastValid + staleAfter s ≤ s.wt.now by omega]

/-- Settles O36: each kind of received frame, the window of a second, the BEACON interval, and the age of a reading. -/
theorem portsReceiveFrames : Obligations.PortsReceiveFrames := by
  refine ⟨fun p bs age ok fec s => ⟨fun hdown => ?_, fun hup => ⟨fun hrx => ?_, fun hrx => ?_, fun hrx => ?_, fun hbad => ?_, fun hrx =>
      ⟨fun hroom => ?_, fun hfull => ?_⟩⟩, fun hnew => ?_, fun hsame => ?_, fun hserv hdue => ?_, fun hearly => ?_⟩,
    fun slot s => ⟨fun h => congrArg Host.Outcome.next (driftStale_of_not h), fun hslot hread hnew hold => ⟨_, congrArg Host.Outcome.next
      (driftStale_of_old hslot hread hnew hold), ?_⟩⟩⟩
  · exact ⟨congrArg Host.Outcome.next (if_pos (by simp [hdown])), congrArg Host.Outcome.next (if_pos (by simp [hdown])),
      congrArg Host.Outcome.next (if_pos (by simp [hdown]))⟩
  · exact congrArg Host.Outcome.next (delayReq_of_bad hup hrx age)
  · exact congrArg Host.Outcome.next ((telemetry_of_up hup bs).trans (if_neg (by simp [hrx])))
  · exact congrArg Host.Outcome.next ((telemetry_of_up hup bs).trans (if_pos hrx))
  · exact congrArg Host.Outcome.next (if_neg (by rw [rxDiscard_of_neither hbad, hup]; simp))
  · exact congrArg Host.Outcome.next ((delayReq_of_good hup hrx age).trans (if_neg (by omega)))
  · exact congrArg Host.Outcome.next ((delayReq_of_good hup hrx age).trans (if_pos hfull))
  · exact congrArg Host.Outcome.next (if_neg hnew)
  · exact congrArg Host.Outcome.next (if_pos hsame)
  · exact congrArg Host.Outcome.next (if_pos ⟨hdue, hserv⟩)
  · exact congrArg Host.Outcome.next (if_neg fun hgo => Nat.not_le.mpr hearly hgo.1)
  · refine ⟨?_, ?_, setStatus_bit (by omega) (by decide) _ _, by simp, by simp⟩
    · simp only [setStatus_corr, mget_mset_same]
    · simp only [setStatus_corr, mget_mset_same]

end Sys2Proof.Machine

/-! PROOFS. The endpoint tables: waiting table commands, the stored prefixes and their lookups, the sweeper, notices and errors (chapter 13). -/

namespace Sys2Proof.Machine

/-! ## The commands (R326, R336) -/

theorem offerHeld_eq (t : State) (h : HeldTbl) : offerHeld t h = if heldReady t h = true ∧ t.tbl.held = [] then runHeld t h
    else t.modTbl fun x => { x with held := x.held ++ [h] } := by
  simp only [offerHeld, Bool.and_eq_true, List.isEmpty_iff]

theorem exec_tableLearn_of_fields {s t : State} {sq : Fin 1024} {d : Desc} {ref : CmdRef} (h : Starts s sq d ref t)
    (hhdr : hdrOk d 0x30 [(8, 9)] = true) (hslot : descFld d 14 2 < 16384) (hport : descFld d 16 1 < 32) : exec (.tableLearn sq d) s =
      .next (offerHeld t (.ev (.learn ref (descMac d) (descFld d 14 2) (descFld d 16 1)))) :=
  (runCmd_of_starts h _).trans (congrArg _ (check_of_true (by simp [hhdr, hslot, hport]) _ _ _ _))

theorem exec_tableRemove_of_fields {s t : State} {sq : Fin 1024} {d : Desc} {ref : CmdRef} (h : Starts s sq d ref t)
    (hhdr : hdrOk d 0x31 [(8, 6)] = true) : exec (.tableRemove sq d) s = .next (offerHeld t (.ev (.remove ref (descMac d)))) :=
  (runCmd_of_starts h _).trans (congrArg _ (check_of_true hhdr _ _ _ _))

theorem exec_lpmInsert_of_fields {s t : State} {sq : Fin 1024} {d : Desc} {ref : CmdRef} (h : Starts s sq d ref t)
    (hhdr : hdrOk d 0x32 [(8, 5), (16, 4)] = true) (hclean : prefixClean (descFld d 8 4) (descFld d 12 1) = true) :
    exec (.lpmInsert sq d) s = .next (offerHeld t (.lpm ref false ⟨descFld d 8 4, descFld d 12 1, BitVec.ofNat 32 (descFld d 16 4)⟩)) :=
  (runCmd_of_starts h _).trans (congrArg _ (check_of_true (by simp [hhdr, hclean]) _ _ _ _))

theorem exec_lpmDelete_of_fields {s t : State} {sq : Fin 1024} {d : Desc} {ref : CmdRef} (h : Starts s sq d ref t)
    (hhdr : hdrOk d 0x33 [(8, 5)] = true) (hclean : prefixClean (descFld d 8 4) (descFld d 12 1) = true) :
    exec (.lpmDelete sq d) s = .next (offerHeld t (.lpm ref true ⟨descFld d 8 4, descFld d 12 1, 0⟩)) :=
  (runCmd_of_starts h _).trans (congrArg _ (check_of_true (by simp [hhdr, hclean]) _ _ _ _))

/-! ## The stored prefixes (R333) -/

theorem mem_insertPrefix_self (ps : List Prefix) (p : Prefix) : p ∈ insertPrefix ps p := by
  unfold insertPrefix
  split
  next h =>
    obtain ⟨x, hx, hxp⟩ := List.any_eq_true.mp h
    exact List.mem_map.mpr ⟨x, hx, if_pos (by simpa using hxp)⟩
  next => exact List.mem_append_right _ (List.mem_singleton_self _)

/-- The inserted entry is the only one of its address and length. -/
theorem insertPrefix_unique {ps : List Prefix} {p q : Prefix} (hq : q ∈ insertPrefix ps p) (hw : q.wca = p.wca) (hl : q.len = p.len) : q = p := by
  unfold insertPrefix at hq
  split at hq
  next =>
    obtain ⟨x, -, hx⟩ := List.mem_map.mp hq
    split at hx
    next => exact hx.symm
    next hne => exact absurd ⟨hx ▸ hw, hx ▸ hl⟩ hne
  next hnone =>
    rcases List.mem_append.mp hq with h | h
    · exact absurd (List.any_eq_true.mpr ⟨q, h, by simp [hw, hl]⟩) hnone
    · exact List.mem_singleton.mp h

theorem mem_insertPrefix_other {ps : List Prefix} {p q : Prefix} (hne : q.wca ≠ p.wca ∨ q.len ≠ p.len) :
    q ∈ insertPrefix ps p ↔ q ∈ ps := by
  have hqp : q ≠ p := by
    rintro rfl
    rcases hne with h | h <;> exact h rfl
  unfold insertPrefix
  split
  next =>
    rw [List.mem_map]
    constructor
    · rintro ⟨x, hx, hxq⟩
      split at hxq
      next => exact absurd hxq.symm hqp
      next => exact hxq ▸ hx
    · exact fun hq => ⟨q, hq, if_neg fun h => hne.elim (· h.1) (· h.2)⟩
  next => simp [hqp]

theorem mem_deletePrefix (ps : List Prefix) (wca len : Nat) (q : Prefix) :
    q ∈ deletePrefix ps wca len ↔ q ∈ ps ∧ ¬(q.wca = wca ∧ q.len = len) := by
  simp [deletePrefix, imp_iff_not_or]

theorem runLpm_insert_of_fits {s : State} {p : Prefix} (h : trieFits (insertPrefix s.tbl.prefixes p) = true) (ref : CmdRef) :
    runLpm s ref false p = complete (setPrefixes s (insertPrefix s.tbl.prefixes p)) ref St.ok (insertPrefix s.tbl.prefixes p).length 0 0 :=
  if_pos (by simpa using h)

theorem runLpm_delete (s : State) (ref : CmdRef) (p : Prefix) : runLpm s ref true p =
    complete (setPrefixes s (deletePrefix s.tbl.prefixes p.wca p.len)) ref St.ok (deletePrefix s.tbl.prefixes p.wca p.len).length 0 0 := by
  unfold runLpm
  exact if_pos rfl

theorem runLpm_insert_of_full {s : State} {p : Prefix} (h : trieFits (insertPrefix s.tbl.prefixes p) = false) (ref : CmdRef) :
    runLpm s ref false p = completeWith s ref St.noResource :=
  if_neg (by simp [h])

/-! ## Lookups (R334, R338) -/

/-- The longer of the best match so far and a further one. -/
def longerOf (best : Option Prefix) (p : Prefix) : Option Prefix := match best with
  | some b => if b.len < p.len then some p else some b
  | none => some p

theorem lpmLookup_eq (t : Tables) (wca len : Nat) : lpmLookup t wca len = t.prefixes.foldl (fun best p =>
    if decide (p.len ≤ len) && contains_ p wca && reaches t wca (stageOf p.len) then longerOf best p else best) none := rfl

/-- What the best match of a set of prefixes is: one of them, and no shorter than any. -/
def IsLongest (fits : Prefix → Prop) : Option Prefix → Prop
  | some p => fits p ∧ ∀ q, fits q → q.len ≤ p.len
  | none => ∀ q, ¬ fits q

theorem isLongest_longerOf {fits : Prefix → Prop} {best : Option Prefix} (h : IsLongest fits best) (p : Prefix) :
    IsLongest (fun q => fits q ∨ q = p) (longerOf best p) := by
  cases best with
  | none => exact ⟨.inr rfl, fun q hq => hq.elim (fun hf => absurd hf (h q)) fun hqp => hqp ▸ le_refl _⟩
  | some b =>
    obtain ⟨hb, hmax⟩ := h
    unfold longerOf
    dsimp only
    split
    next hlt => exact ⟨.inr rfl, fun q hq => hq.elim (fun hf => le_of_lt (lt_of_le_of_lt (hmax q hf) hlt)) fun hqp => hqp ▸ le_refl _⟩
    next hge => exact ⟨.inl hb, fun q hq => hq.elim (hmax q) fun hqp => hqp ▸ Nat.not_lt.mp hge⟩

theorem IsLongest.congr {f g : Prefix → Prop} (h : ∀ p, f p ↔ g p) {best : Option Prefix} (hb : IsLongest f best) : IsLongest g best := by
  rwa [show g = f from funext fun p => propext (h p).symm]

/-- The scan keeps the longest of what it has seen. -/
theorem isLongest_foldl (ok : Prefix → Bool) (ps : List Prefix) : ∀ (fits : Prefix → Prop) (best : Option Prefix), IsLongest fits best →
    IsLongest (fun q => fits q ∨ (q ∈ ps ∧ ok q = true)) (ps.foldl (fun b p => if ok p then longerOf b p else b) best) := by
  induction ps with
  | nil => exact fun fits best h => h.congr (by simp)
  | cons p ps ih =>
    intro fits best h
    rw [List.foldl_cons]
    cases hp : ok p with
    | true => refine (ih _ _ (isLongest_longerOf h p)).congr fun q => ?_
              rw [List.mem_cons, or_and_right, or_assoc]
              exact or_congr_right (or_congr_left ⟨fun hq => ⟨hq, hq ▸ hp⟩, And.left⟩)
    | false => refine (ih _ _ h).congr fun q => ?_
               rw [List.mem_cons, or_and_right]
               refine or_congr_right ⟨.inr, fun hq => hq.resolve_left fun hqp => ?_⟩
               rw [hqp.1, hp] at hqp
               exact absurd hqp.2 (by simp)

theorem isLongest_lpmLookup (t : Tables) (wca len : Nat) : IsLongest (fun p => p ∈ t.prefixes ∧ p.len ≤ len ∧ contains_ p wca = true
    ∧ reaches t wca (stageOf p.len) = true) (lpmLookup t wca len) := by
  rw [lpmLookup_eq]
  refine (isLongest_foldl (fun p => decide (p.len ≤ len) && contains_ p wca && reaches t wca (stageOf p.len)) t.prefixes (fun _ => False) none
    fun _ => id).congr fun p => ?_
  simp [and_assoc]

/-! ## Entries, notices and the sweeper (R331, R335, R338) -/

@[simp] theorem peerSend_tbl (s : State) (e : Nat) (bs : List Byte) : (peerSend s e bs).tbl = s.tbl := by
  simp only [peerSend, apply_ite State.tbl, State.modPeer_tbl, ite_self]

@[simp] theorem peerSend_mem (s : State) (e : Nat) (bs : List Byte) : (peerSend s e bs).mem = s.mem := by
  simp only [peerSend, apply_ite State.mem, State.modPeer_mem, ite_self]

@[simp] theorem peerSend_contracts (s : State) (e : Nat) (bs : List Byte) : (peerSend s e bs).contracts = s.contracts := by
  simp only [peerSend, apply_ite State.contracts, State.modPeer_contracts, ite_self]

/-- A notice that leaves moves its sequence number, and no entry. -/
theorem sendNotice_tbl (s : State) (op : Nat) (e : TEntry) : ∃ n, (sendNotice s op e).tbl = { s.tbl with seqNotice := n } := by
  unfold sendNotice
  split
  · exact ⟨_, by rw [State.modTbl, peerSend_tbl, peerSend_tbl]⟩
  · exact ⟨_, rfl⟩

theorem sendNotice_entries (s : State) (op : Nat) (e : TEntry) : (sendNotice s op e).tbl.entries = s.tbl.entries := by
  obtain ⟨n, hn⟩ := sendNotice_tbl s op e
  rw [hn]

@[simp] theorem sendNotice_mem (s : State) (op : Nat) (e : TEntry) : (sendNotice s op e).mem = s.mem := by
  simp only [sendNotice, apply_ite State.mem, State.modTbl_mem, peerSend_mem, ite_self]

@[simp] theorem sendNotice_contracts (s : State) (op : Nat) (e : TEntry) : (sendNotice s op e).contracts = s.contracts := by
  simp only [sendNotice, apply_ite State.contracts, State.modTbl_contracts, peerSend_contracts, ite_self]

theorem putEntry_entry (s : State) (i : Nat) (e : TEntry) (n : Nat) :
    mget {} (putEntry s i e).tbl.entries n = if n = i then e else mget {} s.tbl.entries n := mget_mset _ _ _ _ _

theorem removeEntry_of_valid {s : State} {i : Nat} (hv : (mget {} s.tbl.entries i).valid = true) :
    removeEntry s i = sendNotice (putEntry s i {}) 2 (mget {} s.tbl.entries i) := if_pos hv

theorem removeEntry_of_invalid {s : State} {i : Nat} (hv : (mget {} s.tbl.entries i).valid = false) : removeEntry s i = s :=
  if_neg (by simp [hv])

theorem removeEntry_entry {s : State} {i : Nat} (hv : (mget {} s.tbl.entries i).valid = true) (n : Nat) :
    mget {} (removeEntry s i).tbl.entries n = if n = i then {} else mget {} s.tbl.entries n := by
  rw [removeEntry_of_valid hv, sendNotice_entries, putEntry_entry]

theorem removeEntry_invalid (s : State) (i : Nat) : (mget {} (removeEntry s i).tbl.entries i).valid = false := by
  cases hv : (mget {} s.tbl.entries i).valid with
  | true => rw [removeEntry_entry hv, if_pos rfl]
  | false => rwa [removeEntry_of_invalid hv]

theorem removeEntry_other {i n : Nat} (h : n ≠ i) (s : State) : mget {} (removeEntry s i).tbl.entries n = mget {} s.tbl.entries n := by
  cases hv : (mget {} s.tbl.entries i).valid with
  | true => rw [removeEntry_entry hv, if_neg h]
  | false => rw [removeEntry_of_invalid hv]

theorem removeEntry_frame (s : State) (i : Nat) : (removeEntry s i).tbl.sweep = s.tbl.sweep ∧ (removeEntry s i).tbl.visitAt = s.tbl.visitAt
    ∧ (removeEntry s i).mem = s.mem ∧ (removeEntry s i).contracts = s.contracts := by
  cases hv : (mget {} s.tbl.entries i).valid with
  | true =>
    obtain ⟨n, hn⟩ := sendNotice_tbl (putEntry s i {}) 2 (mget {} s.tbl.entries i)
    rw [removeEntry_of_valid hv, hn]
    exact ⟨rfl, rfl, sendNotice_mem _ _ _, sendNotice_contracts _ _ _⟩
  | false =>
    rw [removeEntry_of_invalid hv]
    exact ⟨rfl, rfl, rfl, rfl⟩

/-- The sweeper's place and time after a visit. -/
def sweepNext (s : State) : State :=
  s.modTbl fun t => { t with sweep := (t.sweep + 1) % 32768, visitAt := t.visitAt + sweepStep s }

theorem sweepOne_eq (s : State) : sweepOne s = if (!(mget {} s.tbl.entries s.tbl.sweep).valid || (mget {} s.tbl.entries s.tbl.sweep).kind != 0) = true
    then sweepNext s else if (mget {} s.tbl.entries s.tbl.sweep).hit = true
    then putEntry (sweepNext s) s.tbl.sweep { mget {} s.tbl.entries s.tbl.sweep with hit := false, seenClear := false }
    else if (!(mget {} s.tbl.entries s.tbl.sweep).seenClear) = true
    then putEntry (sweepNext s) s.tbl.sweep { mget {} s.tbl.entries s.tbl.sweep with seenClear := true }
    else tallyAdd (removeEntry (sweepNext s) s.tbl.sweep) 971 1 := rfl

/-- One visit goes on to the next entry at its time, and moves nothing but the tables. -/
theorem sweepOne_next (s : State) : (sweepOne s).tbl.sweep = (s.tbl.sweep + 1) % 32768 ∧ (sweepOne s).tbl.visitAt = s.tbl.visitAt + sweepStep s
    ∧ (sweepOne s).mem = s.mem ∧ (sweepOne s).contracts = s.contracts := by
  rw [sweepOne_eq]
  split
  · exact ⟨rfl, rfl, rfl, rfl⟩
  split
  · exact ⟨rfl, rfl, rfl, rfl⟩
  split
  · exact ⟨rfl, rfl, rfl, rfl⟩
  · exact removeEntry_frame (sweepNext s) s.tbl.sweep

theorem tblUe_tbl (s : State) : (tblUe s).tbl = s.tbl := by simp [tblUe]

theorem tblUe_status (s : State) : bit ((tblUe s).reg Off.tblStatus) 6 = true := by
  rw [tblUe, raiseFault_reg (by decide)]
  exact setStatus_bit (by omega) (by decide) _ _

/-- The latches of the words take nothing but latches. -/
theorem tblSelOp_frame (s : State) (a : Agent) (v : Word) : (tblSelOp s a v).sels = (s.setSel a Off.tblSel (v &&& 0x40007FFF#32)).sels
    ∧ (tblSelOp s a v).tbl = s.tbl ∧ (tblSelOp s a v).regs = s.regs ∧ (tblSelOp s a v).mem = s.mem := by
  have hfold := fun {β : Type} (view : State → β) h => foldl_leaves (view := view)
    (g := fun t i => t.setLatch a (Off.tblData i) (w32 ((tblWords (tblSelected s v)).getD i 0))) h (List.range 4)
    (s.setSel a Off.tblSel (v &&& 0x40007FFF#32))
  exact ⟨hfold State.sels fun _ _ => rfl, hfold State.tbl fun _ _ => rfl, hfold State.regs fun _ _ => rfl, hfold State.mem fun _ _ => rfl⟩

/-- Settles O37: table commands by whether they find their place, the store and its lookups as lists of prefixes, the sweeper by the entry it visits. -/
theorem tablesChangeInOrder : Obligations.TablesChangeInOrder := by
  refine ⟨⟨fun sq d s t ref h => ?_, fun s ref p => ⟨fun hfit => ?_, fun hfull => runLpm_insert_of_full hfull ref, ?_⟩⟩,
    ⟨fun s => ?_, fun s => ?_, fun e bs s => ?_, fun err j i a v s => ?_⟩, fun t wca len fit hfit => ?_⟩
  · refine ⟨fun hhdr hslot hport => ?_, fun hhdr => ?_, fun hhdr hclean => ?_, fun hhdr hclean => ?_⟩
    · rw [exec_tableLearn_of_fields h hhdr hslot hport, offerHeld_eq]
    · rw [exec_tableRemove_of_fields h hhdr, offerHeld_eq]
    · rw [exec_lpmInsert_of_fields h hhdr hclean, offerHeld_eq]
    · rw [exec_lpmDelete_of_fields h hhdr hclean, offerHeld_eq]
  · exact ⟨_, runLpm_insert_of_fits hfit ref, mem_insertPrefix_self _ _, fun q hq hw hl => insertPrefix_unique hq hw hl,
      fun q hne => mem_insertPrefix_other hne, rfl, rfl⟩
  · exact ⟨setPrefixes s (deletePrefix s.tbl.prefixes p.wca p.len), runLpm_delete s ref p, mem_deletePrefix _ _ _, rfl, rfl⟩
  · refine ⟨fun hnil => ?_, fun hoff => ?_, fun q qs hcons hon => ?_, fun hnil => ?_, fun i is hcons => ⟨_, rfl, ?_⟩⟩
    · simp only [exec, execLearnEventApply, learnApply, hnil]
    · simp only [exec, execLearnEventApply, learnApply, hoff]
      cases s.tbl.queue <;> rfl
    · simp only [exec, execLearnEventApply, learnApply, hcons, hon, if_true]
    · simp only [exec, execAddNoticeSpreadSend, spreadSend, hnil]
    · simp only [spreadSend, hcons]
      split
      · obtain ⟨n, hn⟩ := sendNotice_tbl (s.modTbl fun t => { t with spread := is }) 1 (mget {} s.tbl.entries i)
        rw [hn]
        exact ⟨rfl, rfl⟩
      · exact ⟨rfl, rfl⟩
  · refine ⟨fun hearly => congrArg Host.Outcome.next (if_neg (by omega)), fun hdue => ⟨sweepOne s, congrArg Host.Outcome.next (if_pos hdue), ?_⟩⟩
    obtain ⟨hsweep, hat, hmem, hcontracts⟩ := sweepOne_next s
    refine ⟨hsweep, hat, fun hv hk hhit => ?_, fun hv hk hhit hseen => ?_, fun hv hk hhit hseen => ?_, fun hskip => ?_, hmem, hcontracts⟩
    · rw [sweepOne_eq, if_neg (by simp [hv, hk]), if_pos hhit, putEntry_entry, if_pos rfl]
    · rw [sweepOne_eq, if_neg (by simp [hv, hk]), if_neg (by simp [hhit]), if_pos (by simp [hseen]), putEntry_entry, if_pos rfl]
    · rw [sweepOne_eq, if_neg (by simp [hv, hk]), if_neg (by simp [hhit]), if_neg (by simp [hseen]), tallyAdd_tbl]
      exact removeEntry_invalid _ _
    · rw [sweepOne_eq, if_pos (by rcases hskip with h | h <;> simp [h])]
      rfl
  · refine ⟨fun h => congrArg Host.Outcome.next (if_pos (by rcases h with h | h <;> simp [h])), fun hen hup hframe hok => ⟨fun hown => ?_, fun hother => ?_⟩⟩
    · exact congrArg Host.Outcome.next (by simp only [noticeReceive, hen, hup, hframe, hok, hown]; simp)
    · exact congrArg Host.Outcome.next (by simp only [noticeReceive, hen, hup, hframe, hok, hother]; simp)
  · refine ⟨fun hoff => ⟨congrArg Host.Outcome.next (if_neg (by simp [hoff])), congrArg Host.Outcome.next (gated_of_off hoff _)⟩, fun hon => ?_,
      fun k hon => ?_, fun hon => ?_, rfl, fun hon => ?_⟩
    · exact ⟨_, congrArg Host.Outcome.next (if_pos hon), setStatus_bit (by omega) (by decide) _ _, by simp [eccError]⟩
    · refine ⟨_, congrArg Host.Outcome.next (if_pos hon), ?_, fun n hn => ?_, tblUe_status _⟩
      · rw [eccError, tblUe_tbl]
        exact removeEntry_invalid _ _
      · rw [eccError, tblUe_tbl]
        exact removeEntry_other hn _
    · refine ⟨_, congrArg Host.Outcome.next (if_pos hon), ?_, tblUe_status _, by rw [eccError, tblUe_tbl]; rfl⟩
      rw [eccError, tblUe_tbl]
      show List.contains (ite _ _ _) _ = true
      split
      next h => exact h
      next => simp
    · obtain ⟨hsels, htbl, hregs, hmem⟩ := tblSelOp_frame s a v
      refine ⟨_, congrArg Host.Outcome.next (gated_of_on hon _), ?_, htbl, hregs, hmem⟩
      rw [State.sel, hsels]
      exact State.sel_setSel_same s a Off.tblSel _
  · have hlongest := isLongest_lpmLookup t wca len
    rw [show (fun p => p ∈ t.prefixes ∧ p.len ≤ len ∧ contains_ p wca = true ∧ reaches t wca (stageOf p.len) = true) = fit from
      funext fun p => propext (hfit p).symm] at hlongest
    exact ⟨fun p hp => by rwa [hp] at hlongest, fun hnone => by rwa [hnone] at hlongest⟩

end Sys2Proof.Machine

/-! PROOFS. Flits of the host link: what a slot sends, what a received flit does, and the two counts of slots (R343-R349, R362). -/

namespace Sys2Proof.Machine

/-! ## The bytes of a flit (R345) -/

@[simp] theorem length_leBytes (n : Nat) : ∀ v, (leBytes n v).length = n := by
  induction n with
  | zero => exact fun _ => rfl
  | succ n ih => exact fun v => congrArg Nat.succ (ih _)

/-- Little-endian bytes read back. -/
theorem leNat_leBytes (n : Nat) : ∀ v, leNat (leBytes n v) = v % 256 ^ n := by
  induction n with
  | zero => exact fun v => (Nat.mod_one v).symm
  | succ n ih =>
    intro v
    show (BitVec.ofNat 8 v).toNat + 256 * leNat (leBytes n (v / 256)) = _
    rw [ih, BitVec.toNat_ofNat, Nat.pow_succ' (n := n), Nat.mod_mul]

/-- The header and the payload of a flit. -/
def flitBody (h : Nat) (p : List Byte) : List Byte := leBytes 4 h ++ (p ++ zeros (244 - p.length))

theorem length_flitBody {p : List Byte} (hp : p.length ≤ 244) (h : Nat) : (flitBody h p).length = 248 := by
  simp only [flitBody, zeros, List.length_append, length_leBytes, List.length_replicate]
  omega

/-- 248 bytes with their CRC behind them are a good flit. -/
theorem flitGood_of_body {body : List Byte} (hlen : body.length = 248) : flitGood (body ++ leBytes 8 (crc64 body).toNat) = true := by
  have hcrc : leAt (body ++ leBytes 8 (crc64 body).toNat) 248 8 = (crc64 body).toNat := by
    rw [leAt, slice, List.drop_left' hlen, List.take_of_length_le (by simp), leNat_leBytes]
    exact Nat.mod_eq_of_lt (by simpa using (crc64 body).isLt)
  simp [flitGood, hlen, hcrc, List.take_left' hlen]

/-! ## What a slot sends (R343, R347) -/

theorem carriesData_iff (s : State) : carriesData s = true ↔ s.link.lstate = .active ∨ s.link.lstate = .degraded := by
  unfold carriesData
  cases s.link.lstate <;> simp

theorem flitStep_of_mgmt {s : State} (h : carriesData s = true) (hslot : s.link.slot % 72 = 71) : flitStep s = s.modLink (emitMgmt s) := by
  rcases (carriesData_iff s).mp h with h | h
  · simp only [flitStep, h, hslot, if_true]
  · simp only [flitStep, h, hslot, if_true]

theorem flitStep_of_resend {s : State} (h : carriesData s = true) (hslot : s.link.slot % 72 ≠ 71) {q : Nat} {p : List Byte}
    {rest : List (Nat × List Byte)} (hresend : s.link.resend = (q, p) :: rest) :
    flitStep s = s.modLink fun l => { emit l 0 q p with resend := rest } := by
  rcases (carriesData_iff s).mp h with h | h
  · simp only [flitStep, h, hslot, hresend, if_false]
  · simp only [flitStep, h, hslot, hresend, if_false]

/-- The link after a new DATA flit. -/
def dataSent (l : Link) : Link :=
  let r := packFlit 64 244 l
  let e := emit r.2 0 l.seq r.1
  { e with seq := (l.seq + 1) % 4096, replay := l.replay ++ [(l.seq, r.1)]
           ackSlot := if l.replay.isEmpty then e.slot else l.ackSlot }

theorem flitStep_of_new {s : State} (h : carriesData s = true) (hslot : s.link.slot % 72 ≠ 71) (hresend : s.link.resend = []) :
    flitStep s = if s.link.replay.length < 512 ∧ dataReady s.link = true then s.modLink dataSent else s.modLink fun l => emit l 1 l.seq [] := by
  rcases (carriesData_iff s).mp h with h | h
  · simp only [flitStep, h, hslot, hresend, if_false]
    rfl
  · simp only [flitStep, h, hslot, hresend, if_false]
    rfl

/-- Packing takes queued transactions and credits; it counts no slot. -/
theorem packFlit_slot (n : Nat) : ∀ (room : Nat) (l : Link), (packFlit n room l).2.slot = l.slot := by
  have hstart : ∀ (l : Link) (t : Txn), (startTxn l t).slot = l.slot := by
    intro l t
    cases t with
    | mrd => rfl
    | mwr => rfl
    | cpl tag st last off bs => cases last <;> rfl
  induction n with
  | zero => exact fun _ _ => rfl
  | succ n ih =>
    intro room l
    unfold packFlit
    split
    · exact ih _ _
    · split
      · rfl
      · split
        · exact (ih _ _).trans (hstart _ _)
        · rfl

theorem dataSent_slot (l : Link) : (dataSent l).slot = l.slot + 1 := congrArg (· + 1) (packFlit_slot 64 244 l)

/-! ## What a received flit does (R346-R348, R352, R363) -/

/-- The acknowledgement and the credits of a header move counts and what is to be sent again, nothing of what is received. -/
theorem applyAck_rx (l : Link) (ack : Nat) :
    (applyAck l ack).expect = l.expect ∧ (applyAck l ack).rxPart = l.rxPart ∧ (applyAck l ack).rxq = l.rxq := by
  unfold applyAck
  dsimp only
  split
  · exact ⟨rfl, rfl, rfl⟩
  · exact ⟨rfl, rfl, rfl⟩

theorem applyCredit_rx (l : Link) (c n : Nat) :
    (applyCredit l c n).expect = l.expect ∧ (applyCredit l c n).rxPart = l.rxPart ∧ (applyCredit l c n).rxq = l.rxq := by
  unfold applyCredit
  split
  · exact ⟨rfl, rfl, rfl⟩
  · exact ⟨rfl, rfl, rfl⟩
  · exact ⟨rfl, rfl, rfl⟩

/-- The state after the acknowledgement and the credits of a header. -/
def creditTaken (s : State) (h : BitVec 32) : State :=
  s.modLink fun l => applyCredit (applyAck l (fld h 17 6)) (fld h 4 3) (fld h 2 0)

theorem creditTaken_rx (s : State) (h : BitVec 32) : (creditTaken s h).link.expect = s.link.expect
    ∧ (creditTaken s h).link.rxPart = s.link.rxPart ∧ (creditTaken s h).link.rxq = s.link.rxq := by
  obtain ⟨he, hp, hq⟩ := applyAck_rx s.link (fld h 17 6)
  obtain ⟨he', hp', hq'⟩ := applyCredit_rx (applyAck s.link (fld h 17 6)) (fld h 4 3) (fld h 2 0)
  exact ⟨he'.trans he, hp'.trans hp, hq'.trans hq⟩

theorem flitTake_of_good {s : State} {f : List Byte} (hgood : flitGood f = true) (hnak : bit (BitVec.ofNat 32 (leAt f 0 4)) 5 = false) :
    (fld (BitVec.ofNat 32 (leAt f 0 4)) 31 30 = 0 → flitTake s f
        = takeData (creditTaken s (BitVec.ofNat 32 (leAt f 0 4))) (fld (BitVec.ofNat 32 (leAt f 0 4)) 29 18) (slice f 4 244))
    ∧ (fld (BitVec.ofNat 32 (leAt f 0 4)) 31 30 = 1 → flitTake s f = creditTaken s (BitVec.ofNat 32 (leAt f 0 4)))
    ∧ (fld (BitVec.ofNat 32 (leAt f 0 4)) 31 30 = 2 → flitTake s f = takeMgmt (creditTaken s (BitVec.ofNat 32 (leAt f 0 4))) (slice f 4 244)) := by
  unfold flitTake creditTaken
  simp only [hgood, hnak, Bool.not_true, Bool.false_eq_true, if_false]
  refine ⟨fun h => ?_, fun h => ?_, fun h => ?_⟩
  · simp only [h]
  · simp only [h]
  · simp only [h]

theorem takeData_of_next {s : State} {seq : Nat} {p part : List Byte} {q : List Txn} (hseq : seq = s.link.expect)
    (hunpack : unpackFlit 64 s.link.rxPart p [] = some (part, q)) : takeData s seq p = s.modLink fun l =>
      { l with expect := (l.expect + 1) % 4096, nakSent := false, rxPart := part, rxq := l.rxq ++ q } := by
  simp only [takeData, hseq, if_true, hunpack]

/-- A DATA flit out of sequence delivers nothing; at most it asks for a NAK. -/
theorem takeData_of_other {s : State} {seq : Nat} (hseq : seq ≠ s.link.expect) (p : List Byte) : ∃ l, takeData s seq p = s.modLink (fun _ => l)
    ∧ l.rxq = s.link.rxq ∧ l.expect = s.link.expect := by
  unfold takeData
  simp only [hseq, if_false]
  split
  · refine ⟨if s.link.nakSent then s.link else { s.link with nak := true }, rfl, ?_⟩
    split
    · exact ⟨rfl, rfl⟩
    · exact ⟨rfl, rfl⟩
  · exact ⟨s.link, rfl, rfl, rfl⟩

/-- What an uncorrectable codeword notes before its flit is taken. -/
def fecNoted (s : State) (fec : Bool) : State := if fec = true then flitUncorr s else s

theorem fecNoted_link (s : State) (fec : Bool) : (fecNoted s fec).link = s.link := by
  cases fec
  · rfl
  · exact setStatus_link _ _ _

theorem fecNoted_mem (s : State) (fec : Bool) : (fecNoted s fec).mem = s.mem := by
  cases fec
  · rfl
  · exact setStatus_mem _ _ _

theorem fecNoted_rings (s : State) (fec : Bool) : (fecNoted s fec).rings = s.rings := by
  cases fec
  · rfl
  · exact setStatus_rings _ _ _

theorem exec_flitReceive_of_down {s : State} (h : s.link.lstate = .down) (f : List Byte) (fec : Bool) : exec (.flitReceive f fec) s = .next s := by
  simp [exec, execFlitReceive, flitByState, h]

theorem exec_flitReceive_of_up {s : State} (h : s.link.lstate ≠ .down) (f : List Byte) (fec : Bool) :
    exec (.flitReceive f fec) s = .next (flitByState (fecNoted s fec) f) := by
  simp [exec, execFlitReceive, fecNoted, h]

theorem exec_flitReceive_of_train {s : State} (h : s.link.lstate = .train) (f : List Byte) (fec : Bool) :
    exec (.flitReceive f fec) s = .next (trainTake (fecNoted s fec) f) := by
  rw [exec_flitReceive_of_up (by simp [h])]
  simp only [flitByState, fecNoted_link, h]

theorem exec_flitReceive_of_other {s : State} (hdown : s.link.lstate ≠ .down) (htrain : s.link.lstate ≠ .train) (f : List Byte) (fec : Bool) :
    exec (.flitReceive f fec) s = .next (flitTake (fecNoted s fec) f) := by
  rw [exec_flitReceive_of_up hdown]
  unfold flitByState
  rw [fecNoted_link]
  revert hdown htrain
  cases s.link.lstate <;> simp

theorem trainTake_of_good {s : State} {f : List Byte} (hgood : flitGood f = true) :
    (fld (BitVec.ofNat 32 (leAt f 0 4)) 31 30 = 2 → trainTake s f = trainMgmt s (slice f 4 244))
    ∧ (fld (BitVec.ofNat 32 (leAt f 0 4)) 31 30 < 2 → trainTake s f = s) := by
  unfold trainTake
  simp only [hgood, Bool.not_true, Bool.false_eq_true, if_false]
  refine ⟨fun h => ?_, fun h => ?_⟩
  · simp only [h]
  · obtain h | h : fld (BitVec.ofNat 32 (leAt f 0 4)) 31 30 = 0 ∨ fld (BitVec.ofNat 32 (leAt f 0 4)) 31 30 = 1 := by omega
    · simp only [h]
    · simp only [h]

/-! ## Counts of slots (R349, R362) -/

theorem startReplay_of_some {s : State} (h : s.link.replay ≠ []) : startReplay s =
    tallyAdd (setStatus (s.modLink fun l => { l with resend := l.replay, resends := l.resends + 1, ackSlot := l.slot }) Off.linkStatus (2 ^ 3)) 997 1 :=
  if_neg (by simpa using h)

/-- Settles O39: the transmitter by the state and the slot, the receiver by the state, the CRC and the type of the flit, the two timeouts by their counts. -/
theorem flitsTravelInSequence : Obligations.FlitsTravelInSequence := by
  refine ⟨⟨fun s => ?_, fun ft seq ack cc cn nak p hp => flitGood_of_body (length_flitBody hp _)⟩, fun f fec s => ?_, fun s => ?_⟩
  · refine ⟨fun h => ?_, fun h => ?_, fun h hslot => congrArg _ (flitStep_of_mgmt h hslot),
      fun h hslot q p rest hresend => congrArg _ (flitStep_of_resend h hslot hresend), fun h hslot hresend hno => ?_,
      fun h hslot hresend hroom hready => ?_⟩
    · simp only [exec, execFlitSlot, flitStep, h]
    · rcases h with h | h
      · simp only [exec, execFlitSlot, flitStep, h]
      · simp only [exec, execFlitSlot, flitStep, h]
    · refine congrArg _ ((flitStep_of_new h hslot hresend).trans (if_neg fun hgo => ?_))
      rcases hno with hno | hno
      · omega
      · simp [hno] at hgo
    · refine ⟨s.modLink dataSent, (packFlit 64 244 s.link).1, congrArg Host.Outcome.next ((flitStep_of_new h hslot hresend).trans (if_pos ⟨hroom, hready⟩)), rfl, rfl, dataSent_slot s.link,
        rfl, rfl, rfl⟩
  · refine ⟨fun h => exec_flitReceive_of_down h f fec, fun h => ⟨fun hbad => ?_, fun hgood => ⟨fun hm => ?_, fun hd => ?_⟩⟩,
      fun hdown htrain => ⟨fun hbad => ?_, fun hgood hnak => ⟨fun hi => ?_, fun hm => ?_, fun hd hseq part q hq => ?_, fun hd hseq => ?_⟩⟩⟩
    · rw [exec_flitReceive_of_train h]
      exact congrArg _ (if_pos (by simp [hbad]))
    · rw [exec_flitReceive_of_train h, (trainTake_of_good hgood).1 hm]
      rfl
    · rw [exec_flitReceive_of_train h, (trainTake_of_good hgood).2 hd]
      rfl
    · rw [exec_flitReceive_of_other hdown htrain]
      exact congrArg _ (if_pos (by simp [hbad]))
    · rw [exec_flitReceive_of_other hdown htrain, (flitTake_of_good hgood hnak).2.1 hi]
      rfl
    · rw [exec_flitReceive_of_other hdown htrain, (flitTake_of_good hgood hnak).2.2 hm]
      rfl
    · obtain ⟨hexp, hpart, hrxq⟩ := creditTaken_rx (fecNoted s fec) (BitVec.ofNat 32 (leAt f 0 4))
      rw [fecNoted_link] at hexp hpart hrxq
      refine ⟨_, (exec_flitReceive_of_other hdown htrain f fec).trans (congrArg _ (((flitTake_of_good hgood hnak).1 hd).trans
        (takeData_of_next (hseq.trans hexp.symm) (by rw [hpart]; exact hq)))), ?_, ?_, rfl, rfl, fecNoted_mem s fec, fecNoted_rings s fec⟩
      · exact congrArg (fun n => (n + 1) % 4096) hexp
      · exact congrArg (· ++ q) hrxq
    · obtain ⟨hexp, -, hrxq⟩ := creditTaken_rx (fecNoted s fec) (BitVec.ofNat 32 (leAt f 0 4))
      rw [fecNoted_link] at hexp hrxq
      obtain ⟨l, hl, hlq, hle⟩ := takeData_of_other (fun h => hseq (h.trans hexp)) (slice f 4 244)
      exact ⟨_, (exec_flitReceive_of_other hdown htrain f fec).trans (congrArg _ (((flitTake_of_good hgood hnak).1 hd).trans hl)),
        hlq.trans hrxq, hle.trans hexp, rfl, fecNoted_mem s fec, fecNoted_rings s fec⟩
  · refine ⟨fun h hslot hne hfew => ?_, fun h hslot hne hmany => ?_, fun h => ?_, fun h hslot => ?_, fun h => ?_⟩
    · refine ⟨_, (if_pos (by simp [h, hslot])).trans (congrArg _ ((if_neg (by simp; omega)).trans (startReplay_of_some hne))), ?_, ?_,
        setStatus_bit (by omega) (by decide) _ _, ?_⟩
      · simp
      · simp
      · simp
    · exact (if_pos (by simp [h, hslot])).trans (congrArg _ (if_pos (by simp [hne, hmany])))
    · exact if_neg (by rcases h with h | h <;> simp [h])
    · exact if_pos (by simp [h, hslot])
    · exact if_neg (by rcases h with h | h <;> simp [h])

end Sys2Proof.Machine

/-! PROOFS. The host link's states, its reads and their tags, and `LINK_CFG` (R356-R370). -/

namespace Sys2Proof.Machine

/-! ## Reads that may be issued: what the engine's pump leaves (R428, R434) -/

/-- Reads and transfers move; what else a state holds does not. -/
def Pumped (s t : State) : Prop := ∃ d r q, t = { s with dma := d, link := { s.link with reads := r, txq := q } }

theorem Pumped.refl (s : State) : Pumped s s := ⟨s.dma, s.link.reads, s.link.txq, rfl⟩

theorem Pumped.trans {s t u : State} (h : Pumped s t) (k : Pumped t u) : Pumped s u := by
  obtain ⟨d, r, q, rfl⟩ := h
  obtain ⟨d', r', q', rfl⟩ := k
  exact ⟨d', r', q', rfl⟩

theorem pumped_pumpNext {n : Nat} {s t : State} (h : pumpNext n s = some t) : Pumped s t := by
  unfold pumpNext at h
  split at h
  next => cases h
  next =>
    split at h
    next =>
      split at h
      next => cases h
      next => exact ⟨_, _, _, (Option.some.inj h).symm⟩
    next => cases h

theorem pumped_flushNext {k : Nat} {s t : State} (h : flushNext k s = some t) : Pumped s t := by
  unfold flushNext at h
  split at h
  next => cases h
  next =>
    split at h
    next =>
      split at h
      next => cases h
      next => exact ⟨_, _, _, (Option.some.inj h).symm⟩
    next => cases h

theorem pumped_pumpChannel (f n : Nat) : ∀ s, Pumped s (pumpChannel f n s) := by
  induction f with
  | zero => exact Pumped.refl
  | succ f ih =>
    intro s
    unfold pumpChannel
    split
    next => exact Pumped.refl s
    next t ht => exact (pumped_pumpNext ht).trans (ih t)

theorem pumped_pumpFlush (f k : Nat) : ∀ s, Pumped s (pumpFlush f k s) := by
  induction f with
  | zero => exact Pumped.refl
  | succ f ih =>
    intro s
    unfold pumpFlush
    split
    next => exact Pumped.refl s
    next t ht => exact (pumped_flushNext ht).trans (ih t)

theorem pumped_foldl {α : Type} {g : State → α → State} (h : ∀ t x, Pumped t (g t x)) (xs : List α) : ∀ s, Pumped s (xs.foldl g s) := by
  induction xs with
  | nil => exact Pumped.refl
  | cons x xs ih => exact fun s => (h s x).trans (ih _)

theorem pumped_pump (s : State) : Pumped s (pump s) := by
  unfold pump
  split
  · exact (pumped_foldl (fun t n => pumped_pumpChannel 16 n t) _ s).trans (pumped_foldl (fun t k => pumped_pumpFlush 17 k t) _ _)
  · exact Pumped.refl s

/-! ## What the fall to DOWN leaves (R365) -/

/-- What a failing read must not move: the link's state, the bytes of device memory, the contracts, the ports and the cages. -/
def keptDown (s : State) : LState × Map Byte × Map Contract × Map Port × Map Cage :=
  (s.link.lstate, s.mem.dram, s.contracts, s.eg.ports, s.cages)

theorem keptDown_modStream (s : State) (n : Nat) (f : Stream → Stream) : keptDown (s.modStream n f) = keptDown s := rfl

theorem keptDown_pump (s : State) : keptDown (pump s) = keptDown s := by
  obtain ⟨d, r, q, h⟩ := pumped_pump s
  rw [h]
  rfl

theorem keptDown_setStatus (s : State) (off mask : Nat) : keptDown (setStatus s off mask) = keptDown s := by
  rw [keptDown, setStatus_link, setStatus_mem, setStatus_contracts, setStatus_eg, setStatus_cages]
  rfl

theorem putCpl_lstate (s : State) (c : Completion) : (putCpl s c).link.lstate = s.link.lstate := by
  unfold putCpl
  dsimp only
  rw [levelSample_link]
  cases c.ref <;> rfl

theorem keptDown_putCpl (s : State) (c : Completion) : keptDown (putCpl s c) = keptDown s := by
  have hl := putCpl_lstate s c
  obtain ⟨r, l, i, h⟩ := putCpl_frame s c
  rw [h] at hl ⊢
  exact Prod.ext hl rfl

/-- A completion that is written or waits. -/
theorem keptDown_offerCpl {c : Completion} (hc : c.defer = none) (s : State) : keptDown (offerCpl s c) = keptDown s := by
  unfold offerCpl
  split
  · have hput : writeCpl s c = putCpl s c := by simp [writeCpl, deferredOf, hc]
    rw [hput, keptDown_putCpl]
  · obtain ⟨r, g, i, h⟩ := markFull_frame (s.modRings fun x => { x with waiting := x.waiting ++ [c] }) c.cq
    rw [h]
    rfl

theorem keptDown_complete (s : State) (ref : CmdRef) (status r0 r1 r2 : Nat) : keptDown (complete s ref status r0 r1 r2) = keptDown s := by
  unfold complete
  split
  · exact keptDown_offerCpl rfl s
  · rfl

theorem keptDown_completeWith (s : State) (ref : CmdRef) (status : Nat) : keptDown (completeWith s ref status) = keptDown s :=
  keptDown_complete s ref status 0 0 0

theorem keptDown_pieceFailed (s : State) (k status : Nat) : keptDown (pieceFailed s k status) = keptDown s := by
  unfold pieceFailed dmaFail
  split
  · rfl
  · rw [keptDown_completeWith]
    split
    · rfl
    · rw [keptDown_setStatus]
      rfl

/-- What a read's end does with its channel, whatever it brought. -/
theorem keptDown_channelRead (s : State) (n : Nat) (c : Chan) : keptDown (if c.fail ≠ 0 ∧ c.inflight = 0
    then pump (pieceFailed (setChan s n (some c)) c.piece.xfer (failStatus c.fail)) else pump (setChan s n (some c))) = keptDown s := by
  split
  · rw [keptDown_pump, keptDown_pieceFailed]
    rfl
  · rw [keptDown_pump]
    rfl

theorem keptDown_pieceRead (s : State) (n idx skip take : Nat) (h : HostData) : keptDown (pieceRead s n idx skip take h) = keptDown s := by
  unfold pieceRead
  split
  · rfl
  · exact keptDown_channelRead s n _

theorem keptDown_barrierRead_error (s : State) (k : Nat) : keptDown (barrierRead s k .accessError) = keptDown s := by
  unfold barrierRead
  split
  · rfl
  · exact keptDown_pieceFailed s k _

theorem keptDown_failRead (s : State) (m : MRead) : keptDown (failRead s m) = keptDown s := by
  unfold failRead
  split
  · exact (keptDown_offerCpl rfl _).trans (keptDown_setStatus _ _ _)
  · exact keptDown_pieceRead _ _ _ _ _ _
  · exact keptDown_barrierRead_error _ _
  · rfl

theorem keptDown_failUnlinked (s : State) : keptDown (failUnlinked s) = keptDown s := by
  unfold failUnlinked
  split
  · rfl
  · refine foldl_leaves (fun t c => ?_) _ _
    dsimp only
    split
    · exact keptDown_pieceFailed _ _ _
    · rfl

theorem keptDown_tryClose (s : State) (n : Nat) : keptDown (tryClose s n) = keptDown s := by
  unfold tryClose
  dsimp only
  split
  · exact foldl_leaves (fun t r => keptDown_completeWith t r _) _ _
  · rfl

theorem keptDown_dropDead (n : Nat) (us : List Au) : ∀ s, keptDown (dropDead n us s) = keptDown s := by
  induction us with
  | nil => exact fun _ => rfl
  | cons u us ih =>
    intro s
    unfold dropDead
    dsimp only
    split
    · rw [ih, keptDown_complete]
      split
      · exact foldl_leaves (fun t c => keptDown_setStatus t _ _) _ _
      · rfl
    · rfl

theorem keptDown_startRaw (n k : Nat) : ∀ s, keptDown (startRaw n k s) = keptDown s := by
  have htake : ∀ (s : State) b tag sliced, keptDown (takeBuf s n b tag sliced) = keptDown s := by
    intro s b tag sliced
    unfold takeBuf
    dsimp only
    split <;> rfl
  induction k with
  | zero => exact fun _ => rfl
  | succ k ih =>
    intro s
    unfold startRaw
    split
    · rfl
    split
    · rfl
    split
    · exact (ih _).trans (keptDown_completeWith _ _ _)
    split
    · rfl
    split
    · rw [keptDown_modStream, htake]
    · rfl

theorem keptDown_rawFailed (s : State) (n : Nat) (r : RawSubmit) (b : Nat) : keptDown (rawDone n .accessError r b s) = keptDown s := by
  unfold rawDone rawGo
  rw [keptDown_tryClose, keptDown_startRaw, keptDown_completeWith]
  rfl

theorem keptDown_failFetches (s : State) (n : Nat) : keptDown (failFetches s n) = keptDown s := by
  have hfirst : keptDown (if (fetchingRef (s.stream n)).isSome then
      settle (s.modStream n fun x => { x with units := auFetched x.codec .accessError {} x.units }) n else s) = keptDown s := by
    split
    · unfold settle
      rw [keptDown_tryClose, keptDown_dropDead]
      rfl
    · rfl
  unfold failFetches
  dsimp only
  split
  · exact hfirst
  · split
    · rw [keptDown_rawFailed, hfirst]
    · exact hfirst

theorem keptDown_failReads (s : State) (ms : List MRead) : keptDown (failReads s ms) = keptDown s := by
  unfold failReads
  dsimp only
  rw [foldl_leaves (g := failFetches) keptDown_failFetches, keptDown_failUnlinked, foldl_leaves (g := failRead) keptDown_failRead]

theorem setLState_lstate (s : State) (st : LState) : (setLState s st).link.lstate = st := by
  unfold setLState
  split
  next h => exact h
  next => exact congrArg Link.lstate (pendSrc_link _ _)

theorem setLState_of_ne {s : State} {st : LState} (h : s.link.lstate ≠ st) :
    setLState s st = pendSrc (s.modLink fun l => { l with lstate := st, since := s.wt.now }) 705 := if_neg h

/-- A change of the link's state moves its state and its tick, and pends its source. -/
theorem setLState_frame (s : State) (st : LState) : ∃ p n, setLState s st = (s.modLink fun l => { l with lstate := st, since := n }).withPend p := by
  unfold setLState
  split
  next h => exact ⟨s.intc.pend, s.link.since, by rw [← h]; rfl⟩
  next => exact ⟨_, _, (pendSrc_eq_withPend _ _).choose_spec⟩

theorem enterDown_keeps_all (s : State) : (enterDown s).link.lstate = .down ∧ (enterDown s).mem.dram = s.mem.dram
    ∧ (enterDown s).contracts = s.contracts ∧ (enterDown s).eg.ports = s.eg.ports ∧ (enterDown s).cages = s.cages := by
  unfold enterDown
  split
  next h => exact ⟨h, rfl, rfl, rfl, rfl⟩
  next =>
    have hkept := keptDown_failReads (setLState (setStatus (s.modLink clearFlits) Off.linkStatus 1) .down) (s.link.reads.filterMap fun p => p.2)
    obtain ⟨p, n, hset⟩ := setLState_frame (setStatus (s.modLink clearFlits) Off.linkStatus 1) .down
    rw [hset] at hkept ⊢
    simp only [keptDown, Prod.mk.injEq] at hkept
    obtain ⟨hl, hd, hc, hp, hg⟩ := hkept
    refine ⟨hl, hd.trans ?_, hc.trans ?_, hp.trans ?_, hg.trans ?_⟩
    · exact congrArg Mem.dram (setStatus_mem _ _ _)
    · exact setStatus_contracts _ _ _
    · exact congrArg Egress.ports (setStatus_eg _ _ _)
    · exact setStatus_cages _ _ _

theorem enterDown_keeps (s : State) : (enterDown s).link.lstate = .down ∧ (enterDown s).mem.dram = s.mem.dram ∧ (enterDown s).contracts = s.contracts := by
  obtain ⟨hl, hd, hc, -, -⟩ := enterDown_keeps_all s
  exact ⟨hl, hd, hc⟩

/-! ## Link states (R362-R364) -/

theorem linkSignalDetect_of_signal {s : State} {signal locked : BitVec 4} (hdown : s.link.lstate = .down) (hon : s.domainOn 56 = true)
    (hcage : hostCage s = true) (hsig : signal &&& laneEn s ≠ 0) (hdue : s.link.since + 1600000 ≤ s.wt.now) : signalStep s signal locked =
      pendSrc (s.modLink fun l => { l with lanesMod := signal &&& locked &&& laneEn s, slot := 0, lstate := .train, since := s.wt.now }) 705 :=
  (if_pos ⟨hdown, hon, hcage, hsig, hdue⟩).trans (setLState_of_ne (by simp [hdown]))

theorem signalStep_of_not {s : State} {signal locked : BitVec 4} (h : s.link.lstate ≠ .down ∨ s.wt.now < s.link.since + 1600000
    ∨ signal &&& laneEn s = 0) : signalStep s signal locked = s := by
  refine if_neg fun hgo => ?_
  obtain ⟨hdown, -, -, hsig, hdue⟩ := hgo
  have hdue' : s.link.since + 1600000 ≤ s.wt.now := hdue
  rcases h with h | h | h
  · exact h hdown
  · omega
  · exact hsig h

theorem enterRecovery_of_up {s : State} (h : s.link.lstate = .active ∨ s.link.lstate = .degraded) :
    enterRecovery s = setLState (setStatus s Off.linkStatus (2 ^ 2)) .recovery := by
  rcases h with h | h
  · simp only [enterRecovery, h]
  · simp only [enterRecovery, h]

theorem enterRecovery_of_other {s : State} (ha : s.link.lstate ≠ .active) (hd : s.link.lstate ≠ .degraded) : enterRecovery s = s := by
  unfold enterRecovery
  split
  next h => exact absurd h ha
  next h => exact absurd h hd
  next => rfl

theorem raiseFault_of_frame {s t : State} {l : Link} {i : Intc} {g : Map Word} (h : t = { s with link := l, intc := i, regs := g }) (f : Nat) :
    ∃ i g x, raiseFault t f = { s with link := l, intc := i, regs := g, flt := x } := by
  subst h
  exact raiseFault_frame _ f

theorem setLState_of_frame {s t : State} {i : Intc} {g : Map Word} (h : t = { s with intc := i, regs := g }) (st : LState) :
    ∃ n i, setLState t st = { s with link := { s.link with lstate := st, since := n }, intc := i, regs := g } := by
  subst h
  obtain ⟨p, n, hset⟩ := setLState_frame { s with intc := i, regs := g } st
  exact ⟨n, _, hset⟩

/-- Entry to DEGRADED moves the link's state and its tick, a register and interrupt and fault state. -/
theorem enterDegraded_frame (s : State) : ∃ n i g x, enterDegraded s =
    { s with link := { s.link with lstate := .degraded, since := n }, intc := i, regs := g, flt := x } := by
  obtain ⟨p, hp⟩ := setStatus_frame s Off.linkStatus (2 ^ 1)
  obtain ⟨n, i, hset⟩ := setLState_of_frame hp .degraded
  exact ⟨n, raiseFault_of_frame hset 241⟩

/-- Entry to the state that a lane set gives moves that state and its tick, registers and interrupt and fault state. -/
theorem enterSet_frame (s : State) (set : BitVec 4) : ∃ n i g x, (if set = 0xF then setLState s .active else enterDegraded s) =
    { s with link := { s.link with lstate := if set = 0xF then .active else .degraded, since := n }, intc := i, regs := g, flt := x } := by
  split
  · obtain ⟨p, n, h⟩ := setLState_frame s .active
    exact ⟨n, _, _, _, h⟩
  · exact enterDegraded_frame s

theorem startReplay_link (s : State) : (startReplay s).link.lstate = s.link.lstate ∧ (startReplay s).link.slot = s.link.slot
    ∧ (startReplay s).mem = s.mem := by
  unfold startReplay
  split
  · exact ⟨rfl, rfl, rfl⟩
  · simp

theorem recoveryStep_of_lanes {s : State} {lanes : BitVec 4} (h : s.link.lstate = .recovery) (hset : laneSet (lanes &&& s.link.lanesUsed) ≠ 0)
    (htime : s.wt.now ≤ s.link.since + 1600000) : ∃ n i g x, recoveryStep s lanes = startReplay
      { s with link := { s.link with lanesUsed := laneSet (lanes &&& s.link.lanesUsed), slot := 0, lastMgmt := 0, ackSlot := 0, resends := 0,
                                     lstate := if laneSet (lanes &&& s.link.lanesUsed) = 0xF then .active else .degraded, since := n }
               intc := i, regs := g, flt := x } := by
  obtain ⟨n, i, g, x, hx⟩ := enterSet_frame (s.modLink fun l => { l with lanesUsed := laneSet (lanes &&& s.link.lanesUsed), slot := 0, lastMgmt := 0,
                                                                         ackSlot := 0, resends := 0 }) (laneSet (lanes &&& s.link.lanesUsed))
  have hlate : ¬ (laneSet (lanes &&& s.link.lanesUsed) = 0 ∨ s.link.since + msTicks 10 < s.wt.now) := by
    simp only [hset, false_or, msTicks]
    omega
  exact ⟨n, i, g, x, (if_pos h).trans ((if_neg hlate).trans (congrArg startReplay hx))⟩

theorem recoveryStep_of_none {s : State} {lanes : BitVec 4} (h : s.link.lstate = .recovery)
    (hno : laneSet (lanes &&& s.link.lanesUsed) = 0 ∨ s.link.since + 1600000 < s.wt.now) : recoveryStep s lanes = enterDown s :=
  (if_pos h).trans (if_pos hno)

/-! ## The end of TRAIN (R363, R365) -/

theorem trainStep_of_not {s : State} (h : s.link.lstate ≠ .train ∨ s.link.peer = none ∨ s.link.peerRun < 16) : trainStep s = s := by
  unfold trainStep
  split
  next p set hst hpeer hset =>
    rcases h with h | h | h
    · exact absurd hst h
    · exact absurd (hpeer.symm.trans h) (by simp)
    · exact if_pos h
  next => rfl

theorem trainStep_of_late {s : State} {p : PeerMgmt} {set : BitVec 4} (hst : s.link.lstate = .train) (hpeer : s.link.peer = some p)
    (hset : selectedSet s.link = some set) (hrun : 16 ≤ s.link.peerRun) (hlate : s.link.since + 16000000 < s.wt.now) :
    trainStep s = enterDown s := by
  simp only [trainStep, hst, hpeer, hset]
  exact (if_neg (by omega)).trans (if_pos hlate)

theorem trainStep_of_same {s : State} {p : PeerMgmt} {set : BitVec 4} (hst : s.link.lstate = .train) (hpeer : s.link.peer = some p)
    (hset : selectedSet s.link = some set) (hrun : 16 ≤ s.link.peerRun) (htime : s.wt.now ≤ s.link.since + 16000000)
    (hepoch : s.link.epochHeld = none ∨ s.link.epochHeld = some p.epoch) (hwait : s.rings.waiting = []) : ∃ n i g x d r q, trainStep s =
      { s with link := { trained s.link set p with lstate := if set = 0xF then .active else .degraded, since := n, reads := r, txq := q }
               rings := { s.rings with waiting := [] }, intc := i, regs := g, flt := x, dma := d } := by
  obtain ⟨n, i, g, x, hx⟩ := enterSet_frame (s.modLink fun l => trained l set p) set
  have hstep : trainStep s = pump (drainCpl [] [] (if set = 0xF then setLState (s.modLink fun l => trained l set p) .active
      else enterDegraded (s.modLink fun l => trained l set p))) := by
    have hsame : (match s.link.epochHeld with
        | some e => e != p.epoch
        | none => false) = false := by
      rcases hepoch with h | h <;> simp [h]
    unfold trainStep
    simp only [hst, hpeer, hset]
    rw [if_neg (by omega), if_neg (by simp only [msTicks]; omega), if_neg (by rw [Bool.not_eq_true]; exact hsame), hx]
    exact congrArg (fun w => pump (drainCpl w [] _)) hwait
  obtain ⟨d, r, q, hp⟩ := pumped_pump (drainCpl [] [] (if set = 0xF then setLState (s.modLink fun l => trained l set p) .active
      else enterDegraded (s.modLink fun l => trained l set p)))
  refine ⟨n, i, g, x, d, r, q, hstep.trans (hp.trans ?_)⟩
  rw [hx]
  rfl

/-! ## Reads and tags (R356, R357, R359) -/

/-- The receive queue without the transaction that is taken from it. -/
def rxTaken (s : State) (x : Txn) : State := s.modLink fun l => { l with rxq := l.rxq.erase x }

theorem exec_linkCplReceive_of_open {s : State} {tag : Fin 4096} {st : Fin 8} {last : Bool} {off : BitVec 16} {bs : List Byte}
    (hup : linkUp s = true) (hmay : mayApply s.link (.cpl tag.val st.val last off.toNat bs) = true) :
    exec (.linkCplReceive tag st last off bs) s
      = .next (cplTake (rxTaken s (.cpl tag.val st.val last off.toNat bs)) tag.val st.val last off.toNat bs) :=
  if_pos (by simp [hup, hmay])

theorem cplTake_of_fits {s : State} {tag st off : Nat} {last : Bool} {bs : List Byte} {m : MRead} (hq : mget none s.link.quarantine tag = none)
    (hm : mget none s.link.reads tag = some m) (hfit : cplFits m st last off bs = true) : cplTake s tag st last off bs = if last
      then deliverRead (s.modLink fun l => { l with reads := mset none l.reads tag none }) (cplAdded m st off bs)
      else s.modLink fun l => { l with reads := mset none l.reads tag (some (cplAdded m st off bs)) } := by
  simp only [cplTake, hq, hm, hfit, Option.isSome_none, Bool.false_eq_true, if_false, Bool.not_true]

theorem tagTimeout_of_due {s : State} {tag : Nat} {m : MRead} (hm : mget none s.link.reads tag = some m)
    (hdue : m.at_ + 160000 * fld (s.reg Off.linkCfg) 9 0 ≤ s.wt.now) : tagTimeout s tag = pump (failRead (s.modLink fun l =>
      { l with reads := mset none l.reads tag none, quarantine := mset none l.quarantine tag (some (s.wt.now + 160000000)) }) m) := by
  simp only [tagTimeout, hm]
  exact if_neg (Nat.not_lt.mpr hdue)

theorem tagTimeout_of_early {s : State} {tag : Nat} {m : MRead} (hm : mget none s.link.reads tag = some m)
    (hearly : s.wt.now < m.at_ + 160000 * fld (s.reg Off.linkCfg) 9 0) : tagTimeout s tag = s := by
  simp only [tagTimeout, hm]
  exact if_pos hearly

theorem tagFree_of_some {s : State} {tag t : Nat} (h : mget none s.link.quarantine tag = some t) :
    tagFree s tag = if s.wt.now < t then s else pump (s.modLink fun l => { l with quarantine := mset none l.quarantine tag none }) := by
  simp only [tagFree, h]

/-- The pump takes free tags for new reads; quarantined ones stay. -/
theorem pump_keeps (s : State) : (pump s).regs = s.regs ∧ (pump s).mem = s.mem ∧ (pump s).link.quarantine = s.link.quarantine := by
  obtain ⟨d, r, q, h⟩ := pumped_pump s
  rw [h]
  exact ⟨rfl, rfl, rfl⟩

/-- Settles O40: each state of the link by its conditions and its time, each tag by what it holds, `LINK_CFG` by its fields. -/
theorem linkStatesAndTags : Obligations.LinkStatesAndTags := by
  refine ⟨⟨fun s signal locked => ?_, fun lanes s => ?_, fun s => ?_, fun s => ?_⟩, fun tag st last off bs s => ?_, fun tag s => ?_, fun v s => ?_⟩
  · refine ⟨fun hdown hon hcage hsig hdue => ?_, fun h => congrArg Host.Outcome.next (signalStep_of_not h), fun hup => ?_,
      fun ha hd => congrArg Host.Outcome.next (enterRecovery_of_other ha hd), fun h hdue => congrArg Host.Outcome.next (if_pos ⟨h, hdue⟩), fun h => congrArg Host.Outcome.next (if_neg ?_),
      fun h hdue => congrArg Host.Outcome.next (if_pos ⟨h, hdue⟩), fun h => congrArg Host.Outcome.next (if_neg ?_), fun hon => congrArg Host.Outcome.next (if_pos hon),
      fun hoff => congrArg Host.Outcome.next (if_neg (by simp [hoff]))⟩
    · refine ⟨_, congrArg Host.Outcome.next (linkSignalDetect_of_signal hdown hon hcage hsig hdue), ?_, ?_, ?_, by simp, by simp⟩
      · rw [pendSrc_link]; rfl
      · rw [pendSrc_link]; rfl
      · rw [pendSrc_link]; rfl
    · refine ⟨_, congrArg Host.Outcome.next (enterRecovery_of_up hup), setLState_lstate _ _, ?_⟩
      obtain ⟨p, n, hset⟩ := setLState_frame (setStatus s Off.linkStatus (2 ^ 2)) .recovery
      rw [hset]
      exact ⟨setStatus_bit (by omega) (by decide) s _, setStatus_mem _ _ _, setStatus_contracts _ _ _⟩
    · rintro ⟨hst, hdue⟩
      have hdue' : s.link.since + 16000000 ≤ s.wt.now := hdue
      rcases h with h | h
      · exact h hst
      · omega
    · rintro ⟨hst, hdue⟩
      have hdue' : s.link.since + 1600000 ≤ s.wt.now := hdue
      rcases h with h | h
      · exact h hst
      · omega
  · refine ⟨fun h => congrArg Host.Outcome.next (if_neg h), fun h hset htime => ?_, fun h hno => congrArg Host.Outcome.next (recoveryStep_of_none h hno)⟩
    obtain ⟨n, i, g, x, hx⟩ := recoveryStep_of_lanes h hset htime
    refine ⟨_, congrArg Host.Outcome.next hx, ?_⟩
    generalize hs : ({ s with link := _, intc := i, regs := g, flt := x } : State) = u
    obtain ⟨hl, hslot, hmem⟩ := startReplay_link u
    refine ⟨hl.trans (by rw [← hs]), hslot.trans (by rw [← hs]), fun hne => ?_, hmem.trans (by rw [← hs])⟩
    have hne' : u.link.replay ≠ [] := by rw [← hs]; exact hne
    rw [startReplay_of_some hne']
    refine ⟨?_, setStatus_bit (by omega) (by decide) _ _⟩
    rw [tallyAdd_link, setStatus_link, ← hs]
    rfl
  · refine ⟨fun h => congrArg Host.Outcome.next (trainStep_of_not h), fun p set hst hpeer hset hrun =>
      ⟨fun htime hepoch hwait => ?_, fun hlate => congrArg Host.Outcome.next (trainStep_of_late hst hpeer hset hrun hlate)⟩⟩
    obtain ⟨n, i, g, x, d, r, q, hx⟩ := trainStep_of_same hst hpeer hset hrun htime hepoch hwait
    exact ⟨_, congrArg Host.Outcome.next hx, rfl, rfl, rfl, rfl, rfl, rfl, rfl, rfl, rfl⟩
  · obtain ⟨hl, hd, hc⟩ := enterDown_keeps s
    exact ⟨hl, fun a => by rw [memByte, hd, memByte], hc⟩
  · refine ⟨fun h => if_neg (by rcases h with h | h <;> simp [h]), fun hup hmay => ?_⟩
    rw [exec_linkCplReceive_of_open hup hmay]
    refine ⟨fun hq => congrArg Host.Outcome.next (if_pos hq), fun hq hm => ?_, fun m hq hm hfit => ⟨fun hlast => ?_, fun hlast => ?_⟩⟩
    · exact congrArg Host.Outcome.next ((if_neg (by simp [rxTaken, State.modLink, hq])).trans (by simp only [rxTaken, State.modLink, hm]))
    · refine ⟨_, cplAdded m st.val off.toNat bs, congrArg Host.Outcome.next ((cplTake_of_fits (s := rxTaken s _) hq hm hfit).trans (if_neg (by simp [hlast]))), ?_, rfl, rfl, rfl, rfl⟩
      simp only [State.modLink, mget_mset_same]
    · refine ⟨_, cplAdded m st.val off.toNat bs, congrArg Host.Outcome.next ((cplTake_of_fits (s := rxTaken s _) hq hm hfit).trans (if_pos hlast)), rfl, ?_⟩
      simp only [State.modLink, mget_mset_same]
  · refine ⟨fun hnone => ?_, fun m hm => ⟨fun hearly => congrArg Host.Outcome.next (tagTimeout_of_early hm hearly),
      fun hdue => ⟨_, congrArg Host.Outcome.next (tagTimeout_of_due hm hdue), by simp only [State.modLink, mget_mset_same], by simp only [State.modLink, mget_mset_same], rfl⟩⟩,
      fun t ht hearly => congrArg Host.Outcome.next ((tagFree_of_some ht).trans (if_pos hearly)),
      fun t ht hdue => ⟨_, congrArg Host.Outcome.next ((tagFree_of_some ht).trans (if_neg (by omega))), by simp only [State.modLink, mget_mset_same], rfl, rfl, rfl⟩⟩
    simp only [exec, execCplTimeout, tagTimeout, hnone]
  · refine ⟨fun h => congrArg Host.Outcome.next ?_, fun hon hok hsame => congrArg Host.Outcome.next ?_, fun hon hok hother => congrArg Host.Outcome.next ?_⟩
    · rcases h with h | h
      · exact if_neg (by simp [h])
      · split
        · exact if_neg h
        · rfl
    · exact (if_pos hon).trans ((if_pos hok).trans (if_pos hsame))
    · exact (if_pos hon).trans ((if_pos hok).trans (if_neg hother))

end Sys2Proof.Machine

/-! PROOFS. Host accesses to the control window (R356-R360). -/

namespace Sys2Proof.Machine

/-- Four bytes a word. -/
theorem length_readWords (n : Nat) : ∀ (off : Nat) (s : State), (readWords n off s).1.length = 4 * n := by
  induction n with
  | zero => exact fun _ _ => rfl
  | succ n ih =>
    intro off s
    simp only [readWords, List.length_append, length_leBytes, ih]
    omega

theorem mod_four_of_requestOk {limit addr n : Nat} (h : requestOk limit addr n = true) : n % 4 = 0 := by
  simp only [requestOk, Bool.and_eq_true, beq_iff_eq] at h
  exact h.1.1.2

/-- A bad request shows what it breaks, and changes nothing but status bits and what they pend. -/
theorem requestBad_spec (s : State) (limit addr n : Nat) :
    (requestOk limit addr n = false → bit ((requestBad s limit addr n).reg Off.linkStatus) 7 = true)
    ∧ (windowOk addr n = false → bit ((requestBad s limit addr n).reg Off.linkStatus) 6 = true)
    ∧ (requestBad s limit addr n).mem = s.mem ∧ (requestBad s limit addr n).rings = s.rings ∧ (requestBad s limit addr n).contracts = s.contracts := by
  have hproto : bit ((protoError s).reg Off.linkStatus) 7 = true := setStatus_bit (by omega) (by decide) _ _
  unfold requestBad
  cases requestOk limit addr n <;> cases windowOk addr n
  · exact ⟨fun _ => setStatus_bit_of_set hproto _ _, fun _ => setStatus_bit (by omega) (by decide) _ _, by simp [protoError, unsupported],
      by simp [protoError, unsupported], by simp [protoError, unsupported]⟩
  · exact ⟨fun _ => hproto, by simp, by simp [protoError], by simp [protoError], by simp [protoError]⟩
  · exact ⟨by simp, fun _ => setStatus_bit (by omega) (by decide) _ _, by simp [unsupported], by simp [unsupported], by simp [unsupported]⟩
  · exact ⟨by simp, by simp, rfl, rfl, rfl⟩

theorem mrdTake_of_free {s : State} {tag : Nat} (h : s.link.hostTags.contains tag = false) (addr n : Nat) : mrdTake s tag addr n =
    if requestOk 4096 addr n = false ∨ windowOk addr n = false then answer (requestBad s 4096 addr n) tag 1 []
    else answer (readWords (n / 4) addr s).2 tag 0 (readWords (n / 4) addr s).1 := by
  simp only [mrdTake, h, Bool.false_eq_true, if_false, Bool.or_eq_true, Bool.not_eq_true']

theorem mwrTake_of_good {s : State} {addr : Nat} {bs : List Byte} (hr : requestOk 512 addr bs.length = true) (hw : windowOk addr bs.length = true) :
    mwrTake s addr bs = writeWords (bs.length / 4) addr bs s := if_neg (by simp [hr, hw])

theorem mwrTake_of_bad {s : State} {addr : Nat} {bs : List Byte} (h : requestOk 512 addr bs.length = false ∨ windowOk addr bs.length = false) :
    mwrTake s addr bs = requestBad s 512 addr bs.length := if_pos (by rcases h with h | h <;> simp [h])

/-- Settles O41: a request waits, is answered or written, or is bad, by its tag, its shape and its place. -/
theorem hostAccessesTheWindow : Obligations.HostAccessesTheWindow := by
  intro tag addr len bs s x y r w
  refine ⟨fun h => if_neg ?_, fun h => if_neg ?_, fun hup hmay => ?_, fun hup hmay => ?_⟩
  · rw [Bool.and_eq_true]
    rintro ⟨hu, hm⟩
    rcases h with h | h
    · exact absurd (hu.symm.trans h) (by simp)
    · exact absurd (hm.symm.trans h) (by simp)
  · rw [Bool.and_eq_true]
    rintro ⟨hu, hm⟩
    rcases h with h | h
    · exact absurd (hu.symm.trans h) (by simp)
    · exact absurd (hm.symm.trans h) (by simp)
  · have htake : exec (.linkMrdReceive tag addr len) s = .next (mrdTake r tag.val addr.toNat len.toNat) :=
      if_pos (Bool.and_eq_true_iff.mpr ⟨hup, hmay⟩)
    rw [htake]
    refine ⟨fun hbusy => congrArg Host.Outcome.next (if_pos hbusy), fun hfree hreq hwin => ⟨_, _, rfl, ?_, congrArg Host.Outcome.next
      ((mrdTake_of_free (s := r) hfree _ _).trans (if_neg (by simp [hreq, hwin])))⟩,
      fun hfree hbad => congrArg Host.Outcome.next ((mrdTake_of_free (s := r) hfree _ _).trans (if_pos hbad))⟩
    have := mod_four_of_requestOk hreq
    rw [length_readWords]
    omega
  · have htake : exec (.linkMwrReceive addr bs) s = .next (mwrTake w addr.toNat bs) :=
      if_pos (Bool.and_eq_true_iff.mpr ⟨hup, hmay⟩)
    rw [htake]
    refine ⟨fun hreq hwin => congrArg Host.Outcome.next (mwrTake_of_good hreq hwin),
      fun hbad => ⟨_, congrArg Host.Outcome.next (mwrTake_of_bad hbad), ?_⟩⟩
    exact requestBad_spec w 512 addr.toNat bs.length

end Sys2Proof.Machine

/-! PROOFS. Rings: doorbells, set-up, fetch turns, held and fenced commands (R373-R387). -/

namespace Sys2Proof.Machine

/-! ## Doorbells (R375, R376, R378) -/

theorem sqTailOp_of_on {s : State} {r : Nat} (h : bit (s.sq r).cfg 31 = true) (v : Word) : sqTailOp s r v =
    if ringDist (ringSize (s.sq r).cfg) (s.sq r).fetch (fld v 15 0 % ringSize (s.sq r).cfg) < ringDist (ringSize (s.sq r).cfg) (s.sq r).fetch (s.sq r).tail
    then dbRegress s else s.modSq r fun q => { q with tail := fld v 15 0 % ringSize (s.sq r).cfg, err := false } := by
  simp only [sqTailOp, h, Bool.not_true, Bool.false_eq_true, if_false]

theorem cqHeadOp_of_on {s : State} {r : Nat} (h : bit (s.cq r).cfg 31 = true) (v : Word) : cqHeadOp s r v =
    if headRegress (s.cq r) (fld v 15 0 % ringSize (s.cq r).cfg) = true then dbRegress s
    else (prxFreed (tlmFreed s r (fld v 15 0 % ringSize (s.cq r).cfg)) r (fld v 15 0 % ringSize (s.cq r).cfg)).modCq r fun c =>
      { c with head := fld v 15 0 % ringSize (s.cq r).cfg, pend := pendAfter c (fld v 15 0 % ringSize (s.cq r).cfg) } := by
  simp only [cqHeadOp, h, Bool.not_true, Bool.false_eq_true, if_false]

theorem tlmFreed_frame (s : State) (r h : Nat) : ∃ u, tlmFreed s r h = { s with rings := { s.rings with tlmUsed := u } } := by
  unfold tlmFreed
  dsimp only
  split
  · exact ⟨_, rfl⟩
  · exact ⟨s.rings.tlmUsed, rfl⟩

theorem prxFreed_frame (s : State) (r h : Nat) : ∃ p, prxFreed s r h = { s with prx := p } := by
  unfold prxFreed
  dsimp only
  split
  · exact ⟨_, rfl⟩
  · exact ⟨s.prx, rfl⟩

/-- What a head frees is telemetry and proxy bytes. -/
theorem headFreed_frame (s : State) (r h : Nat) : ∃ u p, prxFreed (tlmFreed s r h) r h = { s with rings := { s.rings with tlmUsed := u }, prx := p } := by
  obtain ⟨u, hu⟩ := tlmFreed_frame s r h
  obtain ⟨p, hp⟩ := prxFreed_frame (tlmFreed s r h) r h
  exact ⟨u, p, by rw [hp, hu]⟩

/-! ## Set-up (R373) -/

theorem forgetReads_frame (s : State) (r : Nat) : ∃ l, forgetReads s r = { s with link := l } := ⟨_, rfl⟩

theorem sqCfgOp_of_enable {s : State} {r : Nat} {v : Word} (hoff : bit (s.sq r).cfg 31 = false) (hen : bit v 31 = true) : sqCfgOp s r v =
    if (log2Ok (v &&& sqCfgMask) && bit (s.cq (fld (v &&& sqCfgMask) 21 12)).cfg 31) = true then
      forgetReads (s.modSq r fun q => { q with cfg := v &&& sqCfgMask, fetch := 0, tail := 0, err := false }) r
    else cfgReject s := by
  simp only [sqCfgOp, hoff, hen, Bool.false_eq_true, if_false, if_true]

theorem cqCfgOp_of_enable {s : State} {r : Nat} {v : Word} (hoff : bit (s.cq r).cfg 31 = false) (hen : bit v 31 = true) : cqCfgOp s r v =
    if log2Ok (v &&& cqCfgMask) = true then
      s.modCq r fun c => { c with cfg := v &&& cqCfgMask, tail := 0, head := 0, phase := true, full := false, pend := [] }
    else cfgReject s := by
  simp only [cqCfgOp, hoff, hen, Bool.false_eq_true, if_false, if_true]

theorem exec_nop_of_header {s t : State} {sq : Fin 1024} {d : Desc} {ref : CmdRef} (h : Starts s sq d ref t) (hhdr : hdrOk d 0x01 [] = true) :
    exec (.nop sq d) s = .next (completeWith t ref St.ok) :=
  (runCmd_of_starts h _).trans (congrArg _ (check_of_true hhdr _ _ _ _))

/-! ## Fetch turns (R380, R383) -/

theorem fetchTurn_of_turn {s : State} {r cyc : Nat} (hserv : s.serving = true) (hup : linkUp s = true) (hturn : turn s = some (r, cyc)) :
    (placesLeft s = 0 → fetchTurn s = setStatus s Off.ringStatus (2 ^ 5))
    ∧ (placesLeft s ≠ 0 → 32 ≤ (readsOut s).length → fetchTurn s = s)
    ∧ (∀ tag, placesLeft s ≠ 0 → (readsOut s).length < 32 → freeTag s = some tag →
        fetchTurn s = issueTurn s r cyc tag (turnCount (s.sq r) (placesLeft s))) := by
  simp only [fetchTurn, hserv, hup, hturn, Bool.and_self, Bool.not_true, Bool.false_eq_true, if_false]
  refine ⟨fun h => if_pos h, fun h hmany => (if_neg h).trans (if_pos hmany), fun tag h hfew htag => (if_neg h).trans ((if_neg (by omega)).trans ?_)⟩
  simp only [htag]

theorem turnCount_bounds (q : Sq) (room : Nat) : turnCount q room ≤ 8 ∧ turnCount q room ≤ room
    ∧ (q.fetch < ringSize q.cfg → q.fetch + turnCount q room ≤ ringSize q.cfg ∧ (q.fetch % 64 + turnCount q room) * 64 ≤ 4096) := by
  unfold turnCount
  generalize ringSize q.cfg = n
  generalize ringDist n q.fetch q.tail = d
  dsimp only
  omega

/-! ## Held and fenced commands, completions that waited (R381, R382, R386) -/

theorem releaseHold_of_held {s : State} {r : Nat} {d : Desc} (h : (s.sq r).held = some d) : releaseHold s r =
    if (s.serving && submitFits s d) = true then (s.modSq r fun q => { q with held := none }).modRings fun x =>
        { x with inflight := x.inflight ++ [cmdRef r (sqCqOf (s.sq r)) s.wt.now d], fetched := ⟨r, sqCqOf (s.sq r), d, s.wt.now⟩ :: x.fetched }
    else s := by
  simp only [releaseHold, h]

theorem releaseFence_of_blocked {s : State} {r : Nat} {d : Desc} (h : (s.sq r).fenced = some d) (hblock : fenceBlocked s r d = true) :
    releaseFence s r = s := by
  simp [releaseFence, h, hblock]

theorem releaseFence_of_free {s : State} {r : Nat} {d : Desc} {ref : CmdRef} (h : (s.sq r).fenced = some d) (hserv : s.serving = true)
    (hfree : fenceBlocked s r d = false) (href : fencedRef s r d = some ref) : releaseFence s r =
      (s.modSq r fun q => { q with fenced := none }).modRings fun x => { x with fetched := ⟨r, ref.cq, d, ref.at_⟩ :: x.fetched } := by
  simp only [releaseFence, h, hserv, hfree, Bool.not_false, Bool.and_self, if_true, href]

theorem drainRing_of_none {cs : List Completion} {r : Nat} (h : ∀ c ∈ cs, c.cq ≠ r) (s : State) : drainRing cs r s = s := by
  induction cs with
  | nil => rfl
  | cons c cs ih => exact (if_neg (h c (List.mem_cons_self ..))).trans (ih fun x hx => h x (List.mem_cons_of_mem _ hx))

theorem waitEnd_of_none {s : State} {r : Nat} (h : ∀ c ∈ s.rings.waiting, c.cq ≠ r) : waitEnd s r = s.modCq r fun q => { q with full := false } := by
  unfold waitEnd
  rw [drainRing_of_none h]
  exact if_neg fun hany => by
    obtain ⟨c, hc, hcr⟩ := List.any_eq_true.mp hany
    exact h c hc (beq_iff_eq.mp hcr)

/-- Settles O42: a doorbell by its ring and its distance, a set-up by its size, a turn by what is left, held and fenced commands by their place. -/
theorem ringsAreSetUpAndFetched : Obligations.RingsAreSetUpAndFetched := by
  refine ⟨⟨fun r v s => ?_, fun a v s => ?_, fun sq d s t ref h hhdr => exec_nop_of_header h hhdr⟩, fun s => ?_, turnCount_bounds, fun r s => ?_⟩
  · refine ⟨fun hoff => congrArg Host.Outcome.next (if_pos (by simp [hoff])), fun hoff => congrArg Host.Outcome.next (if_pos (by simp [hoff])),
      fun hon => ⟨fun hback => ?_, fun hfwd => ?_⟩, fun hon => ⟨fun hback => ?_, fun hfwd => ?_⟩⟩
    · exact congrArg Host.Outcome.next ((sqTailOp_of_on hon v).trans (if_pos hback))
    · refine ⟨_, congrArg Host.Outcome.next ((sqTailOp_of_on hon v).trans (if_neg (Nat.not_lt.mpr hfwd))), ?_, fun q hq => ?_, rfl, rfl, rfl, rfl⟩
      · rw [State.sq_modSq, if_pos rfl]
        rfl
      · rw [State.sq_modSq, if_neg hq]
    · exact congrArg Host.Outcome.next ((cqHeadOp_of_on hon v).trans (if_pos hback))
    · refine ⟨_, congrArg Host.Outcome.next ((cqHeadOp_of_on hon v).trans (if_neg (by simp [hfwd]))), ?_⟩
      obtain ⟨u, p, hframe⟩ := headFreed_frame s r.val (fld v 15 0 % ringSize (s.cq r.val).cfg)
      rw [hframe]
      refine ⟨by simp, ?_, fun q hq => ?_, rfl, rfl, rfl⟩
      · rw [State.cq_modCq, if_pos rfl]
        rfl
      · rw [State.cq_modCq, if_neg hq]
        rfl
  · refine ⟨fun hoff hen => ⟨fun hlog hcq => ?_, fun hbad => ?_⟩, fun hon hen => ?_, fun hoff hen => ⟨fun hlog => ?_, fun hbad => ?_⟩⟩
    · refine ⟨_, congrArg Host.Outcome.next ((sqCfgOp_of_enable hoff hen).trans (if_pos (by simp [hlog, hcq]))), ?_⟩
      obtain ⟨l, hl⟩ := forgetReads_frame (s.modSq (s.sel a Off.ringSel).toNat fun q => { q with cfg := v &&& sqCfgMask, fetch := 0, tail := 0, err := false })
        (s.sel a Off.ringSel).toNat
      have hsq := (State.sq_modSq s (s.sel a Off.ringSel).toNat (fun q => { q with cfg := v &&& sqCfgMask, fetch := 0, tail := 0, err := false })
        (s.sel a Off.ringSel).toNat).trans (if_pos rfl)
      rw [hl]
      exact ⟨congrArg Sq.cfg hsq, congrArg Sq.fetch hsq, congrArg Sq.tail hsq, congrArg Sq.err hsq, rfl, rfl⟩
    · exact congrArg Host.Outcome.next ((sqCfgOp_of_enable hoff hen).trans (if_neg (by rcases hbad with h | h <;> simp [h])))
    · exact congrArg Host.Outcome.next ((if_pos hon).trans (if_pos hen))
    · exact ⟨_, congrArg Host.Outcome.next ((cqCfgOp_of_enable hoff hen).trans (if_pos hlog)), by simp, by simp, by simp, by simp, by simp, rfl, rfl⟩
    · exact congrArg Host.Outcome.next ((cqCfgOp_of_enable hoff hen).trans (if_neg (by simp [hbad])))
  · refine ⟨fun h => ?_, fun r cyc hserv hup hturn => ?_⟩
    · by_cases hlive : (!(s.serving && linkUp s)) = true
      · exact congrArg Host.Outcome.next (if_pos hlive)
      · have hnone : turn s = none := by
          rcases h with h | h | h
          · simp [h] at hlive
          · simp [h] at hlive
          · exact h
        simp only [exec, execDescriptorFetch, fetchTurn, hnone, ite_self]
    · obtain ⟨hfull, hmany, hgo⟩ := fetchTurn_of_turn hserv hup hturn
      refine ⟨fun h => congrArg Host.Outcome.next (hfull h), fun h hn => congrArg Host.Outcome.next (hmany h hn), fun tag h hn htag => ?_⟩
      exact ⟨_, { for_ := .descriptors r (s.sq r).fetch (turnCount (s.sq r) (placesLeft s)),
                  addr := ringBase (s.sq r).baseLo (s.sq r).baseHi + 64 * (s.sq r).fetch,
                  len := 64 * turnCount (s.sq r) (placesLeft s), at_ := s.wt.now }, congrArg Host.Outcome.next (hgo tag h hn htag),
        by simp only [issueTurn, issueRead, State.modRings, State.modLink, mget_mset_same], rfl, rfl, rfl, rfl, rfl, rfl⟩
  · refine ⟨fun hnone => ?_, fun hnone => ?_, fun d hd hno => ?_, fun d hd hserv hfit => ?_, fun d ref hd hserv hfree href => ?_,
      fun d hd hblock => congrArg Host.Outcome.next (releaseFence_of_blocked hd hblock), fun h => congrArg Host.Outcome.next (waitEnd_of_none h),
      ⟨_, rfl, rfl, by simp, by simp⟩⟩
    · simp only [exec, execSubmitHoldRelease, releaseHold, hnone]
    · simp only [exec, execFenceRelease, releaseFence, hnone]
    · exact congrArg Host.Outcome.next ((releaseHold_of_held hd).trans (if_neg (by rcases hno with h | h <;> simp [h])))
    · refine ⟨_, congrArg Host.Outcome.next ((releaseHold_of_held hd).trans (if_pos (by simp [hserv, hfit]))), ?_, rfl, ⟨_, _, rfl, rfl, rfl, rfl⟩, rfl, rfl⟩
      exact congrArg Sq.held ((State.sq_modSq s r.val (fun q => { q with held := none }) r.val).trans (if_pos rfl))
    · refine ⟨_, congrArg Host.Outcome.next (releaseFence_of_free hd hserv hfree href), ?_, ⟨_, _, rfl, rfl, rfl, rfl⟩, rfl, rfl⟩
      exact congrArg Sq.fenced ((State.sq_modSq s r.val (fun q => { q with fenced := none }) r.val).trans (if_pos rfl))

end Sys2Proof.Machine

/-! PROOFS. Device memory: the address map, bursts, training, refresh and patrol (chapter 16). -/

namespace Sys2Proof.Machine

/-! ## The address map (R402) -/

/-- The channel of an address is the low bits of its block number, folded with the bits above them. -/
theorem block_low_of_channel {g h : Nat} (hhigh : g / 32 = h / 32) (hch : (g ^^^ (g >>> 5) ^^^ (g >>> 10)) % 32 = (h ^^^ (h >>> 5) ^^^ (h >>> 10)) % 32) :
    g % 32 = h % 32 := by
  have hfold : g >>> 5 ^^^ g >>> 10 = h >>> 5 ^^^ h >>> 10 := by
    rw [show g >>> 10 = g >>> 5 >>> 5 from Nat.shiftRight_add g 5 5, show h >>> 10 = h >>> 5 >>> 5 from Nat.shiftRight_add h 5 5,
      Nat.shiftRight_eq_div_pow g, Nat.shiftRight_eq_div_pow h, show (2 : Nat) ^ 5 = 32 from rfl, hhigh]
  rw [Nat.xor_assoc, Nat.xor_assoc, hfold, show (32 : Nat) = 2 ^ 5 from rfl, Nat.xor_mod_two_pow (a := g),
    Nat.xor_mod_two_pow (a := h)] at hch
  exact Nat.xor_left_injective hch

theorem memOffset_eq (a : Nat) : memOffset a = a / 8192 * 256 + a % 256 := by
  have hlt : a % 256 < 2 ^ 8 := Nat.mod_lt _ (by decide)
  rw [memOffset, ← Nat.shiftLeft_add_eq_or_of_lt hlt, ← Nat.shiftRight_add, Nat.shiftRight_eq_div_pow, Nat.shiftLeft_eq]

theorem address_of_channel_offset {a b : Nat} (hch : memChannel a = memChannel b) (hoff : memOffset a = memOffset b) : a = b := by
  rw [memOffset_eq, memOffset_eq] at hoff
  have hrow : a / 8192 = b / 8192 := by omega
  have hlow : a % 256 = b % 256 := by omega
  have hblock : (a >>> 8) % 32 = (b >>> 8) % 32 := by
    refine block_low_of_channel ?_ hch
    rw [Nat.shiftRight_eq_div_pow, Nat.shiftRight_eq_div_pow]
    omega
  rw [Nat.shiftRight_eq_div_pow, Nat.shiftRight_eq_div_pow] at hblock
  omega

/-! ## Bursts (R408-R416) -/

/-- What a burst does before its bytes move is a change of its channel alone. -/
theorem burstOn_frame (s : State) (ch o : Nat) (ecc : Bool) : ∃ f, burstOn s ch o ecc = s.modChannel ch f ∧
    ∀ c, (f c).pins = c.pins ∧ (f c).cache = c.cache := by
  refine ⟨_, rfl, fun c => ?_⟩
  unfold activate
  split
  · split
    · exact ⟨rfl, rfl⟩
    · exact ⟨rfl, rfl⟩
  · split
    · exact ⟨rfl, rfl⟩
    · exact ⟨rfl, rfl⟩

/-- What a burst leaves: bytes, the marks of bad codewords, registers and contracts. -/
def burstKept (s : State) : Map Byte × List Nat × Map Word × Map Contract := (s.mem.dram, s.mem.bad, s.regs, s.contracts)

theorem burstKept_modChannel (s : State) (ch : Nat) (f : Channel → Channel) : burstKept (s.modChannel ch f) = burstKept s := rfl

theorem burstKept_burstOn (s : State) (ch o : Nat) (ecc : Bool) : burstKept (burstOn s ch o ecc) = burstKept s := rfl

/-- The state in which the bytes of a write move. -/
def writeReady (s : State) (ch a : Nat) (ecc : Bool) : State := (burstOn s ch (memOffset a) ecc).modChannel ch (touchLine (memOffset a))

theorem burstWrite_of_good {s : State} {ch a : Nat} {bs : List Byte} (hlen : bs.length = 64) (hok : memBad s a 64 = false ∨ a % 64 = 0) (ecc : Bool) :
    (∀ b, memByte (burstWrite s ch a ecc bs false) b = if a ≤ b ∧ b < a + bs.length then bs.getD (b - a) 0 else memByte s b)
    ∧ (burstWrite s ch a ecc bs false).regs = s.regs ∧ (burstWrite s ch a ecc bs false).contracts = s.contracts := by
  have hbad : (writeReady s ch a ecc).mem.bad = s.mem.bad := rfl
  have hspan : writeSpan (writeReady s ch a ecc).mem.bad a (a + bs.length) = (a, a + bs.length) := by
    rw [hbad, hlen]
    rcases hok with h | h
    · exact writeSpan_of_good h
    · exact writeSpan_of_codeword _ h
  have hwrite : burstWrite s ch a ecc bs false = memWrite (writeReady s ch a ecc) a bs := rfl
  refine ⟨fun b => ?_, ?_, ?_⟩
  · rw [hwrite, memByte_memWrite_of_span hspan]
    rfl
  · rw [hwrite, memWrite_of_span hspan]
    rfl
  · rw [hwrite, memWrite_of_span hspan]
    rfl

theorem outerDecode_frame (s : State) (ch a : Nat) (errs : List (Fin 72)) :
    (outerDecode s ch a errs).mem.dram = s.mem.dram ∧ (outerDecode s ch a errs).contracts = s.contracts := by
  unfold outerDecode
  split
  · exact ⟨rfl, rfl⟩
  split
  · unfold corrected
    dsimp only
    split
    · rw [setStatus_mem, setStatus_contracts]
      exact ⟨rfl, rfl⟩
    · rw [raiseFault_mem, raiseFault_contracts, setStatus_mem, setStatus_contracts, setStatus_mem, setStatus_contracts]
      exact ⟨rfl, rfl⟩
  · unfold uncorrectable
    dsimp only
    rw [raiseFault_mem, raiseFault_contracts, setStatus_mem, setStatus_contracts]
    exact ⟨rfl, rfl⟩

/-- An uncorrectable word shows in `MEM_STATUS`, and its address is kept. -/
theorem outerDecode_of_uncorrectable {s : State} {ch a : Nat} {errs : List (Fin 72)} (hne : errs ≠ []) (hbad : correctable (s.channel ch) errs = false) :
    bit ((outerDecode s ch a errs).reg Off.memStatus) 1 = true ∧ (outerDecode s ch a errs).mem.lastUe = a / 64 * 64 := by
  have hdecode : outerDecode s ch a errs = uncorrectable s ch a := (if_neg (by simpa using hne)).trans (if_neg (by simp [hbad]))
  rw [hdecode]
  unfold uncorrectable
  dsimp only
  rw [raiseFault_reg (by decide), raiseFault_mem, setStatus_mem]
  exact ⟨setStatus_bit (by omega) (by decide) _ _, rfl⟩

theorem burstRead_frame (s : State) (ch a : Nat) (ecc : Bool) (errs : List (Fin 72)) :
    (burstRead s ch a ecc errs).mem.dram = s.mem.dram ∧ (burstRead s ch a ecc errs).contracts = s.contracts := by
  unfold burstRead
  dsimp only
  split
  · exact outerDecode_frame _ _ _ _
  · exact ⟨rfl, rfl⟩

theorem burstRead_of_uncorrectable {s : State} {ch a : Nat} {ecc : Bool} {errs : List (Fin 72)}
    (hfetch : fetchesCheck (s.channel ch) (memOffset a) ecc = true) (hne : errs ≠ []) (hbad : correctable (s.channel ch) errs = false) :
    bit ((burstRead s ch a ecc errs).reg Off.memStatus) 1 = true ∧ (burstRead s ch a ecc errs).mem.lastUe = a / 64 * 64 := by
  obtain ⟨f, hf, hpins⟩ := burstOn_frame s ch (memOffset a) ecc
  obtain ⟨hp, hc⟩ := hpins (s.channel ch)
  have hch : (burstOn s ch (memOffset a) ecc).channel ch = f (s.channel ch) := by rw [hf, State.channel_modChannel, if_pos rfl]
  have hread : burstRead s ch a ecc errs = outerDecode (writeReady s ch a ecc) ch a errs := by
    refine if_pos ?_
    rw [hch, fetchesCheck, hp, hc]
    exact hfetch
  rw [hread]
  refine outerDecode_of_uncorrectable hne ?_
  have hch' : ((writeReady s ch a ecc).channel ch).pins = (s.channel ch).pins := by
    rw [writeReady, State.channel_modChannel, if_pos rfl, hch]
    exact hp
  rw [← hbad]
  unfold correctable freeErrors markedPins
  rw [hch']

/-! ## Training (R404, R405) -/

theorem trainChannel_of_trained {c : Channel} (h : c.trained = true) (now : Nat) (x : Sweep × Sweep) : trainChannel now x c = c :=
  if_pos (by simp [h])

theorem trainChannel_trained_iff {c : Channel} (h : c.trained = false) (now : Nat) (x : Sweep × Sweep) :
    (trainChannel now x c).trained = true ↔ (24 ≤ eyeWidth x.1 ∧ 24 ≤ eyeWidth x.2) := by
  unfold trainChannel
  split
  next hfail =>
    simp only [h, Bool.false_or, lanePass, Bool.not_eq_true', Bool.and_eq_false_iff, decide_eq_false_iff_not] at hfail
    simp only [h, Bool.false_eq_true, false_iff]
    omega
  next hpass =>
    simp only [h, Bool.false_or, lanePass, Bool.not_eq_true', Bool.not_eq_false, Bool.and_eq_true, decide_eq_true_eq] at hpass
    exact iff_of_true rfl hpass

/-- The training of a list of channels changes channels alone. -/
theorem trainAll_frame (xs : List (Sweep × Sweep)) : ∀ (ch : Nat) (s : State), ∃ c, trainAll xs ch s = { s with mem := { s.mem with channels := c } } := by
  induction xs with
  | nil => exact fun _ s => ⟨s.mem.channels, rfl⟩
  | cons x xs ih =>
    intro ch s
    obtain ⟨c, hc⟩ := ih (ch + 1) (s.modChannel ch (trainChannel s.wt.now x))
    exact ⟨c, hc⟩

theorem trained_trainChannel_of_pass {x : Sweep × Sweep} (h : lanePass x.1 = true ∧ lanePass x.2 = true) (now : Nat) (c : Channel) :
    (trainChannel now x c).trained = true := by
  cases hc : c.trained with
  | true => rw [trainChannel_of_trained hc, hc]
  | false => exact (trainChannel_trained_iff hc now x).mpr (by simpa [lanePass] using h)

/-- Channels that passed, or were trained before, stay trained. -/
theorem trained_trainAll (xs : List (Sweep × Sweep)) (hpass : ∀ x ∈ xs, lanePass x.1 = true ∧ lanePass x.2 = true) :
    ∀ (ch : Nat) (s : State) (n : Nat), ((s.channel n).trained = true ∨ (ch ≤ n ∧ n < ch + xs.length)) → ((trainAll xs ch s).channel n).trained = true := by
  induction xs with
  | nil =>
    intro ch s n h
    exact h.resolve_right fun hn => by simp only [List.length_nil] at hn; omega
  | cons x xs ih =>
    intro ch s n h
    refine ih (fun y hy => hpass y (List.mem_cons_of_mem _ hy)) (ch + 1) _ n ?_
    rw [State.channel_modChannel]
    by_cases hn : n = ch
    · rw [if_pos hn]
      exact .inl (trained_trainChannel_of_pass (hpass x (List.mem_cons_self ..)) _ _)
    · rw [if_neg hn]
      refine h.imp_right fun hin => ?_
      rw [List.length_cons] at hin
      omega

theorem allTrained_of_pass {ws : List (Sweep × Sweep)} (hlen : ws.length = 32) (hpass : ∀ x ∈ ws, lanePass x.1 = true ∧ lanePass x.2 = true)
    (s : State) : allTrained (trainAll (ws.take 32) 0 s) = true := by
  rw [List.take_of_length_le (Nat.le_of_eq hlen)]
  refine List.all_eq_true.mpr fun n hn => trained_trainAll ws hpass 0 s n (.inr ⟨Nat.zero_le n, ?_⟩)
  have := List.mem_range.mp hn
  omega

theorem trainingDone_of_training {s : State} (hph : s.pwr.phase = .training) (htr : s.mem.trained = false) (ws : List (Sweep × Sweep)) :
    trainingDone s ws = if allTrained (trainAll (ws.take 32) 0 s) = true then (trainAll (ws.take 32) 0 s).modMem fun m => { m with trained := true }
      else if s.mem.attempts < 3 then (trainAll (ws.take 32) 0 s).modMem fun m => { m with attempts := m.attempts + 1 }
      else stopModule ((raiseFault ((trainAll (ws.take 32) 0 s).modMem fun m => { m with trainFail := true }) 256).modPwr fun p =>
        { p with bootStatus := p.bootStatus ||| 0x10#32 }) :=
  if_neg (by simp [hph, htr])

theorem stopModule_power (s : State) : (stopModule s).pwr = { s.pwr with phase := .stopped, domains := stoppedDomains s.pwr, stopAt := none } := by
  obtain ⟨p, hp, -⟩ := devEvent_eq_withPend s { s with
    pwr := { s.pwr with phase := .stopped, domains := stoppedDomains s.pwr, stopAt := none }
    wt := { s.wt with slots := s.wt.slots.map fun p => (p.1, { p.2 with armed := false }) }
    eg := { s.eg with ports := s.eg.ports.map fun p => (p.1, { p.2 with linkUp := false }) }
    peerE := { s.peerE with linkUp := false }
    peerW := { s.peerW with linkUp := false } }
  rw [stopModule, hp]
  rfl

theorem stopModule_mem (s : State) : (stopModule s).mem = s.mem := by
  obtain ⟨p, hp, -⟩ := devEvent_eq_withPend s { s with
    pwr := { s.pwr with phase := .stopped, domains := stoppedDomains s.pwr, stopAt := none }
    wt := { s.wt with slots := s.wt.slots.map fun p => (p.1, { p.2 with armed := false }) }
    eg := { s.eg with ports := s.eg.ports.map fun p => (p.1, { p.2 with linkUp := false }) }
    peerE := { s.peerE with linkUp := false }
    peerW := { s.peerW with linkUp := false } }
  rw [stopModule, hp]
  rfl

/-! ## Refresh and patrol (R406-R410, R417) -/

/-- The channels after a refresh, before a lane at its limit is reported. -/
def refreshed (s : State) (ch : Nat) (a b : Int) : State := s.modChannel ch fun c => { refreshedChannel a b c with refAt := s.wt.now }

theorem refreshStep_mem (s : State) (ch : Nat) (a b : Int) : (refreshStep s ch a b).mem = (refreshed s ch a b).mem := by
  unfold refreshStep
  dsimp only
  split
  · exact (raiseFault_mem _ _).trans (setStatus_mem _ _ _)
  · rfl

theorem State.channel_of_mem {s t : State} (h : s.mem = t.mem) (n : Nat) : s.channel n = t.channel n := by
  rw [State.channel, h, State.channel]

theorem patrolStep_of_clean {s : State} (hserv : s.serving = true) (hon : bit (s.reg Off.memCfg) 0 = true) (hrun : s.mem.patrolRun = true)
    (hmore : s.mem.patrolPos + 1 < patrolWords) : ∃ c, patrolStep s false [] = { s with mem := { s.mem with channels := c, patrolPos := s.mem.patrolPos + 1 } } := by
  let u := writeReady s (memChannel (64 * s.mem.patrolPos)) (64 * s.mem.patrolPos) false
  have hread : patrolStep s false [] = u.modMem fun m => if m.patrolPos + 1 < patrolWords then { m with patrolPos := m.patrolPos + 1 }
      else { m with patrolPos := 0, patrolRun := false } := if_pos (by simp [hserv, hon, hrun])
  have hmore' : u.mem.patrolPos + 1 < patrolWords := hmore
  refine ⟨u.mem.channels, hread.trans ?_⟩
  unfold State.modMem
  beta_reduce
  rw [if_pos hmore']
  rfl

theorem mr4Due_iff (s : State) (ch : Nat) : (s.mem.trained && decide ((s.channel ch).mr4At + msTicks 16 ≤ s.wt.now)) = true
    ↔ s.mem.trained = true ∧ (s.channel ch).mr4At + 2560000 ≤ s.wt.now := by
  rw [Bool.and_eq_true, decide_eq_true_eq]
  rfl

/-- Settles O43: bursts by their kind, training by what passed and how often, refresh, polls and patrol by their time. -/
theorem burstsReachKeptMemory : Obligations.BurstsReachKeptMemory := by
  refine ⟨⟨fun a b _ _ hch hoff => address_of_channel_offset hch hoff, fun ch a bs ecc errs s => ?_⟩, fun ws s => ?_, fun now x c =>
    ⟨fun h => trainChannel_of_trained h now x, fun h => trainChannel_trained_iff h now x⟩, fun ch a b hot s => ?_, fun s => ?_⟩
  · refine ⟨fun hne => ⟨if_pos hne, if_pos hne⟩, fun he hlen hok => ⟨_, if_neg (not_not.mpr he), ?_⟩, fun he => ⟨_, if_neg (not_not.mpr he), ?_⟩,
      fun he => ⟨_, if_neg (not_not.mpr he), ?_⟩⟩
    · exact burstWrite_of_good hlen hok ecc
    · refine ⟨fun b => ?_, setStatus_bit (by omega) (by decide) _ _, setStatus_contracts _ _ _⟩
      exact memByte_congr (setStatus_mem _ _ _) b
    · obtain ⟨hd, hc⟩ := burstRead_frame s ch.val a ecc errs
      exact ⟨fun b => by rw [memByte, hd, memByte], hc, fun hf hne hbad => burstRead_of_uncorrectable hf hne hbad⟩
  · refine ⟨fun h => congrArg Host.Outcome.next (if_pos h), fun hph htr => ?_⟩
    intro u
    have hdone := trainingDone_of_training hph htr ws
    obtain ⟨c, hc⟩ := trainAll_frame (ws.take 32) 0 s
    refine ⟨fun hlen hpass => allTrained_of_pass hlen hpass s, fun hall => ⟨_, congrArg Host.Outcome.next (hdone.trans (if_pos hall)), rfl, ?_, ?_, fun ch => rfl⟩,
      fun hall hfew => congrArg Host.Outcome.next (hdone.trans ((if_neg (by simp [u] at hall; simp [hall])).trans (if_pos hfew))),
      fun hall hmany => ⟨_, congrArg Host.Outcome.next (hdone.trans ((if_neg (by simp [u] at hall; simp [hall])).trans (if_neg (by omega)))), ?_, ?_, ?_⟩⟩
    · show (trainAll (ws.take 32) 0 s).mem.dram = _
      rw [hc]
    · show (trainAll (ws.take 32) 0 s).regs = _
      rw [hc]
    · rw [stopModule_power]
    · rw [stopModule_power]
      simp [bit, State.modPwr]
    · rw [stopModule_mem]
      show (raiseFault _ 256).mem.dram = _
      rw [raiseFault_mem, hc]
      rfl
  · refine ⟨fun hno => if_neg (by simp [hno]), fun hdue => ⟨_, if_pos hdue, ?_⟩, fun hno => if_neg ?_, fun htr hdue => ⟨_, if_pos ?_, ?_⟩⟩
    · have hm := refreshStep_mem s ch.val a b
      have hch (n : Nat) := (State.channel_of_mem hm n).trans (State.channel_modChannel s ch.val _ n)
      refine ⟨?_, ?_, ?_, fun c hc => ?_, by rw [hm]; rfl⟩
      · rw [hch, if_pos rfl]; rfl
      · rw [hch, if_pos rfl]; rfl
      · rw [hch, if_pos rfl]
      · rw [hch, if_neg hc]
    · rw [mr4Due_iff]
      rcases hno with h | h
      · simp [h]
      · omega
    · exact (mr4Due_iff s ch.val).mpr ⟨htr, hdue⟩
    · exact ⟨by simp, fun c hc => by simp [hc], rfl, rfl⟩
  · refine ⟨fun h => ⟨fun ecc errs => congrArg Host.Outcome.next (if_neg ?_), congrArg Host.Outcome.next (if_neg ?_)⟩, fun hserv hon hrun hmore => ?_,
      fun hserv hon hdue hrun => ?_⟩
    · rcases h with h | h <;> simp [h]
    · rcases h with h | h <;> simp [h]
    · obtain ⟨c, hc⟩ := patrolStep_of_clean hserv hon hrun hmore
      exact ⟨_, congrArg Host.Outcome.next hc, rfl, hrun, rfl, rfl⟩
    · exact congrArg Host.Outcome.next ((if_pos (by simp [hserv, hon, hdue])).trans (if_neg (by simp [hrun])))

end Sys2Proof.Machine

/-! PROOFS. The memory arbiter and the DMA engine (R419-R435). -/

namespace Sys2Proof.Machine

/-! ## Decisions (R419) -/

/-- What a scan for the smallest rank has found. -/
def IsTop (s : State) (seen : List MemReq) : Option Nat → Prop
  | some r => (∃ q ∈ seen, rankOf s q = r) ∧ ∀ q ∈ seen, r ≤ rankOf s q
  | none => seen = []

/-- The smaller of the best rank so far and a further request's. -/
def betterRank (s : State) (best : Option Nat) (q : MemReq) : Option Nat := match best with
  | none => some (rankOf s q)
  | some b => some (min b (rankOf s q))

theorem topRank_eq (s : State) (qs : List MemReq) : topRank s qs = qs.foldl (betterRank s) none := rfl

theorem isTop_betterRank {s : State} {seen : List MemReq} {best : Option Nat} (h : IsTop s seen best) (q : MemReq) :
    IsTop s (seen ++ [q]) (betterRank s best q) := by
  cases best with
  | none =>
    have hnil : seen = [] := h
    subst hnil
    exact ⟨⟨q, by simp, rfl⟩, by simp⟩
  | some b =>
    obtain ⟨⟨x, hx, hxb⟩, hmin⟩ := h
    refine ⟨?_, fun y hy => ?_⟩
    · rcases Nat.le_total b (rankOf s q) with hle | hle
      · exact ⟨x, List.mem_append_left _ hx, by rw [hxb, Nat.min_eq_left hle]⟩
      · exact ⟨q, by simp, (Nat.min_eq_right hle).symm⟩
    · rcases List.mem_append.mp hy with hy | hy
      · exact Nat.le_trans (Nat.min_le_left _ _) (hmin y hy)
      · rw [List.mem_singleton.mp hy]
        exact Nat.min_le_right _ _

theorem isTop_foldl (s : State) (qs : List MemReq) : ∀ (seen : List MemReq) (best : Option Nat), IsTop s seen best →
    IsTop s (seen ++ qs) (qs.foldl (betterRank s) best) := by
  induction qs with
  | nil =>
    intro seen best h
    rwa [List.append_nil]
  | cons q qs ih =>
    intro seen best h
    rw [List.append_cons]
    exact ih _ _ (isTop_betterRank h q)

/-- The rank that a decision serves is that of some request and of none a higher one. -/
theorem isTop_topRank (s : State) (qs : List MemReq) : IsTop s qs (topRank s qs) := isTop_foldl s qs [] none rfl

theorem topRank_of_nonempty {s : State} {qs : List MemReq} (h : qs ≠ []) :
    ∃ r, topRank s qs = some r ∧ (∃ q ∈ qs, rankOf s q = r) ∧ ∀ q ∈ qs, r ≤ rankOf s q := by
  have htop := isTop_topRank s qs
  cases hr : topRank s qs with
  | none =>
    rw [hr] at htop
    exact absurd htop h
  | some r =>
    rw [hr] at htop
    exact ⟨r, rfl, htop⟩

/-- The nearer of two ports after the one last granted. -/
def nextPort (last : Option Nat) (best : Option Nat) (p : Nat) : Option Nat :=
  let key := fun (p : Nat) => match last with
    | some l => (p + 47 - l) % 48
    | none => p
  match best with
  | none => some p
  | some b => if key p < key b then some p else some b

theorem rrPort_eq (last : Option Nat) (ports : List Nat) : rrPort last ports = ports.foldl (nextPort last) none := rfl

/-- Round robin takes a port wherever one asks. -/
theorem rrPort_mem (last : Option Nat) {ports : List Nat} (h : ports ≠ []) : ∃ p, rrPort last ports = some p ∧ p ∈ ports := by
  have hscan : ∀ (ps : List Nat) (b : Nat) (f : Option Nat → Nat → Option Nat), (∀ b p, f (some b) p = some p ∨ f (some b) p = some b) →
      ∃ p, ps.foldl f (some b) = some p ∧ (p = b ∨ p ∈ ps) := by
    intro ps
    induction ps with
    | nil => exact fun b f _ => ⟨b, rfl, .inl rfl⟩
    | cons x xs ih =>
      intro b f hf
      rcases hf b x with hx | hx
      · obtain ⟨p, hp, hmem⟩ := ih x f hf
        exact ⟨p, by rw [List.foldl_cons, hx, hp], .inr (List.mem_cons.mpr hmem)⟩
      · obtain ⟨p, hp, hmem⟩ := ih b f hf
        exact ⟨p, by rw [List.foldl_cons, hx, hp], hmem.imp_right (List.mem_cons_of_mem x)⟩
  cases ports with
  | nil => exact absurd rfl h
  | cons x xs =>
    rw [rrPort_eq, List.foldl_cons]
    obtain ⟨p, hp, hmem⟩ := hscan xs x (nextPort last) fun b p => ite_eq_or_eq _ _ _
    exact ⟨p, hp, List.mem_cons.mpr hmem⟩

theorem decide1_of_nonempty {s : State} {c : Channel} (h : c.queue ≠ []) : ∃ p r, decide1 s c = some (p, r)
    ∧ (∃ q ∈ c.queue, q.port.val = p ∧ rankOf s q = r) ∧ ∀ q ∈ c.queue, r ≤ rankOf s q := by
  obtain ⟨r, hr, ⟨q, hq, hqr⟩, hmin⟩ := topRank_of_nonempty (s := s) h
  have hask : ∀ p ∈ (c.queue.filter fun q => rankOf s q == r).map (fun q => q.port.val), ∃ q ∈ c.queue, q.port.val = p ∧ rankOf s q = r := by
    intro p hp
    obtain ⟨x, hx, hxp⟩ := List.mem_map.mp hp
    obtain ⟨hxq, hxr⟩ := List.mem_filter.mp hx
    exact ⟨x, hxq, hxp, beq_iff_eq.mp hxr⟩
  have hne : (c.queue.filter fun q => rankOf s q == r).map (fun q => q.port.val) ≠ [] :=
    List.ne_nil_of_mem (List.mem_map.mpr ⟨q, List.mem_filter.mpr ⟨hq, beq_iff_eq.mpr hqr⟩, rfl⟩)
  unfold decide1
  simp only [hr]
  split
  next p hp => exact ⟨p, r, rfl, hask p (List.contains_iff_mem.mp (List.find?_some hp)), hmin⟩
  next =>
    obtain ⟨p, hp, hmem⟩ := rrPort_mem (mfind c.lastPort r) hne
    exact ⟨p, r, by rw [hp]; rfl, hask p hmem, hmin⟩

theorem takeBursts_le (s : State) (p r : Nat) (qs : List MemReq) : ∀ n, (takeBursts s p r n qs).1 ≤ n := by
  induction qs with
  | nil => exact fun n => Nat.zero_le n
  | cons q qs ih =>
    intro n
    unfold takeBursts
    dsimp only
    split
    · have := ih (n - min n q.bursts)
      simp only
      omega
    · exact ih n

theorem takeReq_of_asked {s : State} {qs : List MemReq} {p r : Nat} (h : ∃ q ∈ qs, q.port.val = p ∧ rankOf s q = r) :
    ∃ g rest, takeReq s qs p r = some (g, rest) ∧ g.bursts ≤ 8 ∧ rankOf s g = r := by
  obtain ⟨q, hq, hp, hr⟩ := h
  obtain ⟨x, hx⟩ := Option.isSome_iff_exists.mp (List.find?_isSome (p := fun q : MemReq => q.port.val == p && rankOf s q == r).mpr
    ⟨q, hq, by simp [hp, hr]⟩)
  have hok := List.find?_some hx
  simp only [Bool.and_eq_true, beq_iff_eq] at hok
  exact ⟨{ x with bursts := (takeBursts s p r 8 qs).1 }, (takeBursts s p r 8 qs).2, by rw [takeReq, hx]; rfl, takeBursts_le s p r qs 8, hok.2⟩

theorem foldl_view {σ α β : Type} {g : σ → α → σ} {view : σ → β} (h : ∀ t x, view (g t x) = view t) (xs : List α) (s : σ) :
    view (xs.foldl g s) = view s := by
  induction xs generalizing s with
  | nil => rfl
  | cons x xs ih => exact (ih _).trans (h s x)

/-- Hints say how long a port waits; who holds the channel they leave. -/
theorem giveHints_holder (s : State) (c : Channel) : (giveHints s c).holder = c.holder ∧ (giveHints s c).left = c.left := by
  unfold giveHints
  constructor
  · refine foldl_view (view := Channel.holder) (fun c' q => ?_) _ _
    split <;> rfl
  · refine foldl_view (view := Channel.left) (fun c' q => ?_) _ _
    split <;> rfl

/-- The state once new requests have joined a channel. -/
def joined (s : State) (ch : Nat) (reqs : List MemReq) : State := s.modChannel ch (arrive s.wt.now reqs)

theorem arbDecision_of_busy {s : State} {ch : Nat} {reqs : List MemReq} (h : ((joined s ch reqs).channel ch).holder.isSome = true) :
    arbDecision s ch reqs = joined s ch reqs := if_pos h

/-- The state of a channel whose decision has taken a transfer: its grant, the longest wait of its port, and the tallies. -/
def decided (u : State) (ch p r : Nat) (g : MemReq) (rest : List MemReq) (w : Nat → Nat) : State :=
  tallyAdd (tallyAdd ((u.modChannel ch fun c => giveHints u (granted c g r rest)).modMem fun m => { m with waits := mmod 0 m.waits p w })
    (982 + r) g.bursts) (990 + r) (256 * g.bursts)

/-- How long the port of a grant has waited. -/
def waitSince (u : State) (c : Channel) (p : Nat) : Nat := match c.arrived.find? fun x => x.1 == p with
  | some x => u.wt.now - x.2
  | none => 0

theorem arbDecision_of_taken {s : State} {ch p r : Nat} {reqs rest : List MemReq} {g : MemReq} (hfree : ((joined s ch reqs).channel ch).holder = none)
    (hdec : decide1 (joined s ch reqs) ((joined s ch reqs).channel ch) = some (p, r))
    (htake : takeReq (joined s ch reqs) ((joined s ch reqs).channel ch).queue p r = some (g, rest)) :
    arbDecision s ch reqs = decided (joined s ch reqs) ch p r g rest fun w =>
      max w (waitNs (waitSince (joined s ch reqs) ((joined s ch reqs).channel ch) p)) := by
  unfold joined at hfree hdec htake ⊢
  unfold arbDecision
  simp only [hfree, hdec, htake, Option.isSome_none, Bool.false_eq_true, if_false]
  rfl

theorem decided_channel (u : State) (ch p r : Nat) (g : MemReq) (rest : List MemReq) (w : Nat → Nat) :
    ((decided u ch p r g rest w).channel ch).holder = some g ∧ ((decided u ch p r g rest w).channel ch).left = g.bursts := by
  have hmem : (decided u ch p r g rest w).mem.channels = (u.modChannel ch fun c => giveHints u (granted c g r rest)).mem.channels := rfl
  have hch : (decided u ch p r g rest w).channel ch = giveHints u (granted (u.channel ch) g r rest) := by
    rw [State.channel, hmem]
    exact (State.channel_modChannel u ch (fun c => giveHints u (granted c g r rest)) ch).trans (if_pos rfl)
  obtain ⟨hh, hl⟩ := giveHints_holder u (granted (u.channel ch) g r rest)
  rw [hch]
  exact ⟨hh, hl⟩

theorem arbDecision_of_free {s : State} {ch : Nat} {reqs : List MemReq} (hfree : ((joined s ch reqs).channel ch).holder = none)
    (hne : ((joined s ch reqs).channel ch).queue ≠ []) : ∃ g, ((arbDecision s ch reqs).channel ch).holder = some g
      ∧ ((arbDecision s ch reqs).channel ch).left = g.bursts ∧ g.bursts ≤ 8
      ∧ (∀ q ∈ ((joined s ch reqs).channel ch).queue, rankOf s g ≤ rankOf s q) ∧ (arbDecision s ch reqs).mem.dram = s.mem.dram := by
  obtain ⟨p, r, hdec, hask, hmin⟩ := decide1_of_nonempty (s := joined s ch reqs) hne
  obtain ⟨g, rest, htake, hle, hrank⟩ := takeReq_of_asked hask
  obtain ⟨hh, hl⟩ := decided_channel (joined s ch reqs) ch p r g rest fun w =>
    max w (waitNs (waitSince (joined s ch reqs) ((joined s ch reqs).channel ch) p))
  rw [arbDecision_of_taken hfree hdec htake]
  exact ⟨g, hh, hl, hle, fun q hq => Nat.le_trans (Nat.le_of_eq hrank) (hmin q hq), rfl⟩

/-! ## Break points (R420, R424) -/

theorem breakPoint_of_free {s : State} {ch : Nat} {reqs : List MemReq} (h : ((joined s ch reqs).channel ch).holder = none) :
    breakPoint s ch reqs = joined s ch reqs := by
  unfold joined at h ⊢
  simp only [breakPoint, h]

theorem breakPoint_of_last {s : State} {ch : Nat} {reqs : List MemReq} {h : MemReq} (hh : ((joined s ch reqs).channel ch).holder = some h)
    (hlast : ((joined s ch reqs).channel ch).left ≤ 1) :
    breakPoint s ch reqs = (joined s ch reqs).modChannel ch fun c => { c with holder := none, left := 0 } := by
  unfold joined at hh hlast ⊢
  simp only [breakPoint, hh, hlast, if_true]

/-- A port of higher rank waits. -/
def outranked (s : State) (c : Channel) (h : MemReq) : Bool := match topRank s c.queue with
  | some r => decide (r < rankOf s h)
  | none => false

theorem outranked_iff (s : State) (c : Channel) (h : MemReq) : outranked s c h = true ↔ ∃ q ∈ c.queue, rankOf s q < rankOf s h := by
  have htop := isTop_topRank s c.queue
  unfold outranked
  cases hr : topRank s c.queue with
  | none =>
    rw [hr] at htop
    have hnil : c.queue = [] := htop
    simp [hnil]
  | some r =>
    rw [hr] at htop
    obtain ⟨⟨x, hx, hxr⟩, hmin⟩ := htop
    simp only [decide_eq_true_eq]
    exact ⟨fun hlt => ⟨x, hx, by omega⟩, fun ⟨q, hq, hlt⟩ => Nat.lt_of_le_of_lt (hmin q hq) hlt⟩

theorem breakPoint_of_more {s : State} {ch : Nat} {reqs : List MemReq} {h : MemReq} (hh : ((joined s ch reqs).channel ch).holder = some h)
    (hmore : 1 < ((joined s ch reqs).channel ch).left) : breakPoint s ch reqs =
      if outranked (joined s ch reqs) ((joined s ch reqs).channel ch) h = true then (joined s ch reqs).modChannel ch fun c =>
        { c with holder := none, left := 0, preempted := c.preempted ++ [h.port.val]
                 queue := { h with bursts := c.left - 1 } :: c.queue
                 arrived := if c.arrived.any (fun x => x.1 == h.port.val) then c.arrived
                   else c.arrived ++ [(h.port.val, (joined s ch reqs).wt.now)] }
      else (joined s ch reqs).modChannel ch fun c => { c with left := c.left - 1 } := by
  have hnot : ¬ ((joined s ch reqs).channel ch).left ≤ 1 := by omega
  unfold joined at hh hnot ⊢
  simp only [breakPoint, hh, hnot, if_false]
  rfl

/-! ## Copies (R427-R435) -/

theorem exec_dmaCopy_of_fields {s t : State} {sq : Fin 1024} {d : Desc} {ref : CmdRef} (h : Starts s sq d ref t) (hf : dmaFields d = true)
    (hs : dmaSrcSgl d = false) (hd : dmaDstSgl d = false) (x y : HostData) : exec (.dmaCopy sq d x y) s =
      .next (dmaRanges ref d [(descFld d 16 8, dmaBytes d)] [(descFld d 24 8, dmaBytes d)] t) := by
  refine (runCmd_of_starts h _).trans (congrArg _ ((check_of_true hf _ _ _ _).trans ?_))
  simp only [dmaRun, endRanges, hs, hd, Bool.not_false, if_true]

/-- The end of a piece that moved one range to device memory, the last of its transfer. -/
def lastPieceDone (s : State) (k a : Nat) (bs : List Byte) : State := setXfer (memWrite s a bs) k none

theorem endPiece_of_last {s : State} {n a : Nat} {c : Chan} {x : Xfer} {bs : List Byte} (hx : mget none s.dma.xfers c.piece.xfer = some x)
    (hdata : pieceData s x c = .ok bs) (hlen : bs.length = c.piece.len) (hp : x.pieces = 1) (hf : x.flush = []) (hg : x.flushing = 0)
    (hhost : x.dstHost = false) (hcut : cutRanges x.dst c.piece.off c.piece.len = [(a, c.piece.len)]) :
    endPiece s n c = completeWith (lastPieceDone s c.piece.xfer a bs) x.ref St.ok := by
  have htake : bs.take c.piece.len = bs := List.take_of_length_le (Nat.le_of_eq hlen)
  simp only [endPiece, hx, hdata, pieceDone, xferEnd, writeRanges, hcut, hhost, htake, hp, hf, hg, Bool.and_false, Bool.false_eq_true, if_false,
    Nat.sub_self, and_self, if_true, lastPieceDone]

theorem pieceFailed_of_some {s : State} {k : Nat} {x : Xfer} (h : mget none s.dma.xfers k = some x) (st : Nat) : pieceFailed s k st =
    dmaFail (s.modDma fun d => { d with xfers := mset none d.xfers k none, waiting := d.waiting.filter fun p => p.xfer != k
                                        channels := d.channels.map fun c => (c.1, c.2.map (dropTodo k)) }) x.ref st := by
  simp only [pieceFailed, h]

/-- The first n pieces cover the first n × 64 KiB, as far as there are so many bytes. -/
theorem sum_pieceLens (total : Nat) : ∀ n, ((List.range n).map fun i => min pieceBytes (total - pieceBytes * i)).sum = min total (pieceBytes * n) := by
  intro n
  induction n with
  | zero => simp
  | succ n ih =>
    rw [List.range_succ, List.map_append, List.sum_append, ih]
    simp only [pieceBytes, List.map_cons, List.map_nil, List.sum_cons, List.sum_nil]
    omega

theorem piecesOf_sum (k total : Nat) : ((piecesOf k total).map fun p => p.len).sum = total := by
  unfold piecesOf
  rw [List.map_map]
  refine (sum_pieceLens total _).trans ?_
  simp only [ceilDiv, pieceBytes]
  omega

theorem piecesOf_bounds {k total : Nat} {p : Piece} (h : p ∈ piecesOf k total) : 1 ≤ p.len ∧ p.len ≤ 65536 ∧ p.off + p.len ≤ total := by
  obtain ⟨i, hi, rfl⟩ := List.mem_map.mp h
  have hlt := List.mem_range.mp hi
  simp only [ceilDiv, pieceBytes] at hlt ⊢
  omega

/-- Settles O44: a decision and a break point by who holds the channel, a copy by its ranges, a free channel by its piece. -/
theorem arbiterGrantsAndCopies : Obligations.ArbiterGrantsAndCopies := by
  refine ⟨⟨fun ch reqs s => ?_, fun a v s => ?_⟩, fun sq d x y s t ref h hf hs hd => ?_, fun n s => ?_, fun s k st x hx => ?_,
    fun k total => ⟨piecesOf_sum k total, fun p hp => piecesOf_bounds hp⟩⟩
  · intro u
    refine ⟨fun hb => congrArg Host.Outcome.next (arbDecision_of_busy hb), fun hfree hne => ?_, fun hfree => congrArg Host.Outcome.next (breakPoint_of_free hfree),
      fun h hh hlast => ⟨_, congrArg Host.Outcome.next (breakPoint_of_last hh hlast), ?_, ?_, rfl⟩,
      fun h hh hmore hhigh => ⟨_, congrArg Host.Outcome.next ((breakPoint_of_more hh hmore).trans (if_pos ((outranked_iff _ _ _).mpr hhigh))), ?_, ?_⟩,
      fun h hh hmore hlow => ⟨_, congrArg Host.Outcome.next ((breakPoint_of_more hh hmore).trans (if_neg fun hout => ?_)), ?_, ?_⟩⟩
    · obtain ⟨g, hg⟩ := arbDecision_of_free hfree hne
      exact ⟨_, g, rfl, hg⟩
    · rw [State.channel_modChannel, if_pos rfl]
    · rw [State.channel_modChannel, if_pos rfl]
      rfl
    · rw [State.channel_modChannel, if_pos rfl]
    · rw [State.channel_modChannel, if_pos rfl]
      rfl
    · obtain ⟨q, hq, hlt⟩ := (outranked_iff _ _ _).mp hout
      exact absurd hlt (Nat.not_lt.mpr (hlow q hq))
    · rw [State.channel_modChannel, if_pos rfl]
      exact hh
    · rw [State.channel_modChannel, if_pos rfl]
      rfl
  · intro p
    refine ⟨fun h => congrArg Host.Outcome.next ?_, fun hv hp => congrArg Host.Outcome.next ((if_neg hv).trans (if_pos hp)),
      fun hv hp => congrArg Host.Outcome.next ((if_neg hv).trans ((if_neg (by omega)).trans (if_pos hp))),
      ⟨_, rfl, by simp only [p, State.modMem, mget_mset_same],
        fun q hq => ?_, rfl, rfl⟩⟩
    case refine_2 =>
      simp only [State.modMem]
      exact mget_mset_ne hq _ _ _ _
    by_cases hv : fld v 1 0 = 0
    · exact if_pos hv
    · obtain ⟨h45, h46⟩ := h.resolve_left hv
      exact (if_neg hv).trans ((if_neg h45).trans (if_neg h46))
  · rw [exec_dmaCopy_of_fields h hf hs hd]
    refine ⟨fun hranges => ⟨fun hdst => congrArg Host.Outcome.next ((if_pos ?_).trans (check_of_true ?_ _ _ _ _)),
      fun hhost hdst => congrArg Host.Outcome.next ((if_pos ?_).trans (check_of_false ?_ _ _ _ _))⟩, fun hbad => congrArg Host.Outcome.next (if_neg ?_)⟩
    · simpa only [Bool.and_eq_true, Bool.or_eq_true] using hranges
    · rcases hdst with h | h <;> simp [h]
    · simpa only [Bool.and_eq_true, Bool.or_eq_true] using hranges
    · simp [hhost, hdst]
    · rcases hbad with ⟨h, h'⟩ | ⟨h, h'⟩ <;> simp [h, h']
  · refine ⟨fun hnone => by simp only [exec, execDmaChannelFree, channelFree, hnone], fun c hc => ?_⟩
    intro v
    have hend : c.todo = [] → c.inflight = 0 → exec (.dmaChannelFree n) s = .next (dealPieces (endPiece v n.val c)) := by
      intro htodo hin
      simp only [exec, execDmaChannelFree, channelFree, hc, htodo, hin, and_self, if_true, v]
    refine ⟨fun h => ?_, fun htodo hin hx => ?_, fun x htodo hin hx => ⟨fun hdata => ?_, fun bs a hdata hlen hp hf hg hhost hcut hgood => ?_⟩⟩
    · simp only [exec, execDmaChannelFree, channelFree, hc]
      exact congrArg Host.Outcome.next (if_neg (by rintro ⟨h1, h2⟩; exact h.elim (· h1) (· h2)))
    · rw [hend htodo hin, show endPiece v n.val c = v by simp only [endPiece, show mget none v.dma.xfers c.piece.xfer = none from hx]]
    · rw [hend htodo hin, show endPiece v n.val c = pieceFailed v c.piece.xfer St.poisonedData by
        simp only [endPiece, show mget none v.dma.xfers c.piece.xfer = some x from hx, show pieceData v x c = .poisoned from hdata]]
    · have hgood' : memBad v a bs.length = false := by rw [hlen]; exact hgood
      have hw := memWrite_of_good hgood'
      refine ⟨lastPieceDone v c.piece.xfer a bs, ?_, ?_, ?_, fun b => ?_, ?_, ?_, ?_⟩
      · rw [hend htodo hin, endPiece_of_last (s := v) hx hdata hlen hp hf hg hhost hcut]
      · simp only [lastPieceDone, setXfer, State.modDma, mget_mset_same]
      · show mget none (memWrite v a bs).dma.channels n.val = none
        rw [hw]
        simp only [v, setChan, State.modDma, State.modMem, mget_mset_same]
      · show memByte (memWrite v a bs) b = _
        rw [memByte_memWrite_of_good hgood', hlen]
        rfl
      · show (memWrite v a bs).regs = _
        rw [hw]
        rfl
      · show (memWrite v a bs).rings = _
        rw [hw]
        rfl
      · show (memWrite v a bs).contracts = _
        rw [hw]
        rfl
  · refine ⟨_, pieceFailed_of_some hx st, by simp only [State.modDma, mget_mset_same], fun q hq => ?_, rfl, rfl⟩
    have hq' := (List.mem_filter.mp hq).2
    simpa using hq'

end Sys2Proof.Machine

/-! PROOFS. Register reads and writes (chapters 0 and 22) and the registers of the interrupt controller (chapter 18). -/

namespace Sys2Proof.Machine

/-! ## Writes of the window -/

theorem writeReg_of_none {s : State} {off : Nat} (a : Agent) (v : Word) (h : regAt off = none) : writeReg s a off v = s := by
  unfold writeReg
  rw [h]

theorem writeReg_of_unreachable {s : State} {a : Agent} {off : Nat} (v : Word) (h : reachable s a off = false) :
    writeReg s a off v = s := by
  unfold writeReg
  cases regAt off with
  | none => rfl
  | some r => simp only [h, Bool.not_false, if_true]

theorem readValue_of_silent {s : State} {a : Agent} {off : Nat} (h : regAt off = none ∨ reachable s a off = false) :
    readValue s a off = 0 := by
  unfold readValue
  cases hreg : regAt off with
  | none => rfl
  | some r =>
    rcases h with hnone | hreach
    · rw [hreg] at hnone; cases hnone
    · simp only [hreach, Bool.not_false, Bool.true_or, if_true]

theorem readState_of_silent {s : State} {a : Agent} {off : Nat} (h : regAt off = none ∨ reachable s a off = false) :
    readState s a off = s := by
  unfold readState
  rcases h with hnone | hreach
  · rw [hnone]; rfl
  · rw [hreach, Bool.and_false]; rfl

/-- The registers that take no write of the host: neither the control store nor a launch slot is the host's (R24, R254). -/
theorem writeReg_ro {s : State} {off : Nat} {r : RegRow} (v : Word) (hreg : regAt off = some r) (hty : r.ty = .ro) :
    writeReg s .host off v = s := by
  unfold writeReg
  rw [hreg]
  simp only [hty]
  split
  · rfl
  · split
    · rfl
    · split <;> rfl

theorem writeReg_rc {s : State} {a : Agent} {off : Nat} {r : RegRow} (v : Word) (hreg : regAt off = some r) (hty : r.ty = .rc) :
    writeReg s a off v = s := by
  unfold writeReg
  rw [hreg]
  simp only [hty]
  split <;> rfl

theorem writeReg_w1c {s : State} {a : Agent} {off : Nat} {r : RegRow} (v : Word) (hreg : regAt off = some r)
    (hreach : reachable s a off = true) (hty : r.ty = .w1c) : writeReg s a off v = clearBits s off (v &&& w32 r.mask) := by
  unfold writeReg
  rw [hreg]
  simp only [hreach, hty, Bool.not_true, Bool.false_eq_true, if_false]

theorem writeReg_rw {s : State} {a : Agent} {off : Nat} {r : RegRow} (v : Word) (hreg : regAt off = some r)
    (hreach : reachable s a off = true) (hty : r.ty = .rw) (hsel : isSelector off = false) :
    writeReg s a off v = writeBlock s a off r.mask v := by
  unfold writeReg
  rw [hreg]
  simp only [hreach, hty, hsel, Bool.not_true, Bool.false_eq_true, if_false]

/-- Storing one register with its level source sampled again moves that register and pending bits alone. -/
theorem resample_setReg (s : State) (off : Nat) (v : Word) :
    (resample (s.setReg off v) off).reg off = v ∧ (∀ x, x ≠ off → (resample (s.setReg off v) off).reg x = s.reg x)
      ∧ (resample (s.setReg off v) off).mem = s.mem ∧ (resample (s.setReg off v) off).contracts = s.contracts
      ∧ (resample (s.setReg off v) off).rings = s.rings := by
  obtain ⟨p, hp⟩ := levelSample_frame (s.setReg off v) (srcOfStatus off)
  rw [resample, hp]
  exact ⟨State.reg_setReg_same s off v, fun x hx => State.reg_setReg_ne hx s v, rfl, rfl, rfl⟩

/-- The interrupt enables of the blocks with one enable register. -/
def blockIntEnables : List Nat :=
  [Off.linkIntEn, Off.ringIntEn, Off.compIntEn, Off.corrIntEn, Off.prxIntEn, Off.poolIntEn, Off.schedIntEn, Off.tblIntEn,
    Off.dmaIntEn, Off.memIntEn]

theorem writeBlock_intEnable {s : State} {a : Agent} {off : Nat} {r : RegRow} (v : Word) (h : off ∈ blockIntEnables)
    (hreg : regAt off = some r) : r.ty = .rw ∧ isSelector off = false ∧ writeBlock s a off r.mask v = storeReg s off r.mask v := by
  simp only [blockIntEnables, List.mem_cons, List.not_mem_nil, or_false] at h
  rcases h with rfl | rfl | rfl | rfl | rfl | rfl | rfl | rfl | rfl | rfl <;>
    (cases Option.some.inj hreg; exact ⟨rfl, rfl, rfl⟩)

theorem exec_registerWrite (a : Agent) (addr : BitVec 26) (v : Word) (s : State) :
    exec (.registerWrite a addr v) s = .next (writeReg s a addr.toNat v) := rfl

/-! ## The latch of `WALLTIME` -/

theorem State.latch_setLatch_same (s : State) (a : Agent) (off : Nat) (v : Word) : (s.setLatch a off v).latch a off = v :=
  mget_mset_same _ _ _ _

theorem State.latch_setLatch_ne {s : State} {a b : Agent} {off off' : Nat} (v : Word)
    (h : 0x4000000 * agentNo b + off' ≠ 0x4000000 * agentNo a + off) : (s.setLatch a off v).latch b off' = s.latch b off' :=
  mget_mset_ne h _ _ _ _

theorem agentNo_inj {a b : Agent} (h : agentNo a = agentNo b) : a = b := by
  cases a <;> cases b <;> simp only [agentNo] at h
  · rfl
  · omega
  · omega
  · exact congrArg Agent.cc (Fin.ext (by omega))

/-- What a read of `WT_NOW_LO` latches for its agent (R513). -/
theorem readState_wtNowLo (s : State) (a : Agent) :
    readState s a 0x50000 = (s.setLatch a 0x50004 (w32 (s.wt.wall.toNat >>> 32))).setLatch a 0x50008 (s.wt.frac.setWidth 32) := by
  rw [readState_of_regAt (r := ⟨0x50000, 4, 5, .ro, 0, 0⟩) rfl (reachable_of_always_on s a (.inl (by decide)) rfl)]
  rfl

theorem readValue_latched {s : State} (a : Agent) {off : Nat} (hoff : off = 0x50004 ∨ off = 0x50008) :
    readValue s a off = s.latch a off := by
  rcases hoff with rfl | rfl
  · rw [readValue_of_regAt (r := ⟨0x50000, 4, 5, .ro, 0, 0⟩) rfl (by decide) (reachable_of_always_on s a (.inl (by decide)) rfl)]
    rfl
  · rw [readValue_of_regAt (r := ⟨0x50000, 4, 5, .ro, 0, 0⟩) rfl (by decide) (reachable_of_always_on s a (.inl (by decide)) rfl)]
    rfl

/-! ## Words of pending bits -/

/-- A change of `DEVSTATE` clears no pending bit. -/
theorem devEvent_grows (s0 s1 : State) : ∃ p, devEvent s0 s1 = s1.withPend p
    ∧ (∀ m, srcBit s1.intc.pend m = true → srcBit p m = true) ∧ (∀ m, m ≠ 1 → srcBit p m = srcBit s1.intc.pend m) := by
  unfold devEvent
  split
  · exact ⟨s1.intc.pend, rfl, fun _ h => h, fun _ _ => rfl⟩
  · refine ⟨srcSet s1.intc.pend 1, rfl, fun m h => ?_, fun _ hm => srcBit_srcSet_ne hm _⟩
    rcases eq_or_ne m 1 with rfl | hm
    · exact srcBit_srcSet_same (by decide) _
    · rwa [srcBit_srcSet_ne hm]

/-- One state follows another by pending sources: no bit is cleared, and a bit that is set is that of source 1 or of a level source
whose cause holds. -/
def Sampled (s t : State) : Prop := ∃ p, t = s.withPend p ∧ (∀ m, srcBit s.intc.pend m = true → srcBit p m = true)
  ∧ (∀ m, m ≠ 1 → levelCause s m = false → srcBit p m = srcBit s.intc.pend m)

theorem Sampled.refl (s : State) : Sampled s s := ⟨s.intc.pend, rfl, fun _ h => h, fun _ _ _ => rfl⟩

theorem Sampled.trans {s t u : State} (h : Sampled s t) (h' : Sampled t u) : Sampled s u := by
  obtain ⟨p, rfl, hgrow, hsame⟩ := h
  obtain ⟨q, rfl, hgrow', hsame'⟩ := h'
  exact ⟨q, rfl, fun m hm => hgrow' m (hgrow m hm), fun m h1 hc => (hsame' m h1 hc).trans (hsame m h1 hc)⟩

theorem sampled_levelSample (s : State) (n : Nat) : Sampled s (levelSample s n) := by
  unfold levelSample
  split
  next hcause =>
    unfold pendSrc
    split
    next hpend =>
      obtain ⟨p, hp, hgrow, hsame⟩ := devEvent_grows s (pendRaw s n)
      have hn : n < 2048 := by
        have hreal := srcReal_of_levelCause hcause
        simp only [srcReal, Bool.and_eq_true, decide_eq_true_eq] at hreal
        omega
      have hset : ∀ m, srcBit s.intc.pend m = true → srcBit (srcSet s.intc.pend n) m = true := fun m hm => by
        rcases eq_or_ne m n with rfl | hne
        · exact srcBit_srcSet_same hn _
        · rwa [srcBit_srcSet_ne hne]
      refine ⟨p, hp, fun m hm => hgrow m (hset m hm), fun m h1 hc => (hsame m h1).trans ?_⟩
      refine srcBit_srcSet_ne (fun hmn => ?_) _
      rw [hmn, hcause] at hc
      cases hc
    · exact Sampled.refl s
  · exact Sampled.refl s

theorem sampled_foldl (k : Nat) : ∀ (l : List Nat) (s : State), Sampled s (l.foldl (fun t j => levelSample t (32 * k + j)) s)
  | [], s => Sampled.refl s
  | j :: l, s => (sampled_levelSample s (32 * k + j)).trans (sampled_foldl k l _)

theorem sampled_sampleWord (s : State) (k : Nat) : Sampled s (sampleWord s k) := sampled_foldl k _ s

theorem testBit_srcWordMask {k j : Nat} (hj : j < 32) (hreal : srcReal (32 * k + j) = true) : (srcWordMask k).testBit j = true := by
  simp only [srcReal, Bool.and_eq_true, decide_eq_true_eq] at hreal
  unfold srcWordMask
  split
  · interval_cases j
    · omega
    all_goals rfl
  · rw [if_pos (by omega), show (0xFFFFFFFF : Nat) = 2 ^ 32 - 1 from rfl, Nat.testBit_two_pow_sub_one, decide_eq_true hj]

theorem srcBit_srcPutWord (x : BitVec 2048) (v : Word) {k j : Nat} (hk : k < 64) (hj : j < 32) :
    srcBit (srcPutWord x k v) (32 * k + j) = (bit v j && (srcWordMask k).testBit j) := by
  have hlt : 32 * k + j < 2048 := by omega
  have hge : 32 * k ≤ 32 * k + j := by omega
  have hsub : 32 * k + j - 32 * k = j := by omega
  simp only [srcBit, srcPutWord, BitVec.getLsbD_or, BitVec.getLsbD_and, BitVec.getLsbD_not, BitVec.getLsbD_ofNat, Nat.testBit_shiftLeft,
    decide_eq_true hlt, decide_eq_true hge, hsub, Nat.testBit_two_pow_sub_one, decide_eq_true hj, Bool.true_and, Bool.and_self,
    Bool.not_true, Bool.and_false, Bool.false_or, Nat.testBit_and]
  rfl

/-- A write of an `INTPEND` word (R446). -/
theorem intPendOp_stores {s : State} {k : Nat} (v : Word) (hk : k < 64) : ∃ p, intPendOp s k v = s.withPend p
    ∧ (∀ j < 32, bit v j = true → srcReal (32 * k + j) = true → srcBit p (32 * k + j) = true)
    ∧ (∀ j < 32, bit v j = false → 32 * k + j ≠ 1 → levelCause s (32 * k + j) = false → srcBit p (32 * k + j) = false) := by
  obtain ⟨q, hq, hgrow, hsame⟩ := devEvent_grows s (s.withPend (srcPutWord s.intc.pend k v))
  obtain ⟨p, hp, hgrow', hsame'⟩ := sampled_sampleWord (devEvent s (s.withPend (srcPutWord s.intc.pend k v))) k
  rw [hq] at hp hgrow' hsame'
  refine ⟨p, (congrArg (sampleWord · k) hq).trans hp, fun j hj hv hreal => ?_, fun j hj hv h1 hc => ?_⟩
  · refine hgrow' _ (hgrow _ ((srcBit_srcPutWord _ v hk hj).trans ?_))
    rw [hv, testBit_srcWordMask hj hreal]; rfl
  · refine (hsame' _ h1 hc).trans ((hsame _ h1).trans ((srcBit_srcPutWord _ v hk hj).trans ?_))
    rw [hv]; rfl

/-- A write of `SRC_CFG` of a source that exists (Table 18-10). -/
theorem srcCfgOp_stores {s : State} {n : Nat} {v : Word} (hreal : srcReal n = true) (htarget : fld v 6 4 < 5) :
    ∃ p, srcCfgOp s n v = (s.setReg (Off.srcCfg n) (v &&& 0x27F#32)).withPend p := by
  obtain ⟨p, hp, -⟩ := devEvent_eq_withPend s (s.setReg (Off.srcCfg n) (v &&& 0x27F#32))
  refine ⟨p, ?_⟩
  unfold srcCfgOp
  rw [hreal, decide_eq_true htarget]
  exact hp

theorem srcCfgOp_ignored {s : State} {n : Nat} {v : Word} (h : srcReal n = false ∨ 5 ≤ fld v 6 4) : srcCfgOp s n v = s := by
  refine if_neg ?_
  rw [Bool.and_eq_true, decide_eq_true_eq]
  rintro ⟨hreal, hlt⟩
  rcases h with hfalse | hge
  · rw [hreal] at hfalse; cases hfalse
  · omega

/-- Settles O47, by what the writes of the window come to for each register type, the latch of a read, and the growth of the pending
bits that sampling causes. -/
theorem registersAreWrittenAndRead : Obligations.RegistersAreWrittenAndRead := by
  unfold Obligations.RegistersAreWrittenAndRead
  refine ⟨⟨?_, ?_⟩, ?_, ?_⟩
  · intro a addr v s o only
    refine ⟨fun h => ⟨congrArg Host.Outcome.next ?_, readValue_of_silent h, congrArg Host.Outcome.next (readState_of_silent h)⟩,
      fun r hreg hreach => ⟨?_, ?_, ?_, ?_⟩⟩
    · exact h.elim (writeReg_of_none a v) (writeReg_of_unreachable v)
    · rintro rfl hty
      exact congrArg Host.Outcome.next (writeReg_ro v hreg hty)
    · intro hty
      exact congrArg Host.Outcome.next (writeReg_rc v hreg hty)
    · intro hty
      exact ⟨_, congrArg Host.Outcome.next (writeReg_w1c v hreg hreach hty), resample_setReg s o _⟩
    · intro hmem
      obtain ⟨hty, hsel, hblock⟩ := writeBlock_intEnable (s := s) (a := a) v hmem hreg
      exact ⟨_, congrArg Host.Outcome.next ((writeReg_rw v hreg hreach hty hsel).trans hblock), resample_setReg s o _⟩
  · intro a s
    refine ⟨_, congrArg Host.Outcome.next (readState_wtNowLo s a), rfl, rfl, ?_, ?_, fun b hb => ?_⟩
    · rw [readValue_latched a (.inl rfl), State.latch_setLatch_ne _ (by omega), State.latch_setLatch_same, w32,
        Nat.shiftRight_eq_div_pow]
    · rw [readValue_latched a (.inr rfl), State.latch_setLatch_same]
    · have hno : agentNo b ≠ agentNo a := fun h => hb (agentNo_inj h)
      rw [readValue_latched b (.inl rfl), readValue_latched b (.inl rfl), State.latch_setLatch_ne _ (by omega),
        State.latch_setLatch_ne _ (by omega)]
  · intro src v s
    refine ⟨fun h => congrArg Host.Outcome.next (srcCfgOp_ignored h), fun hreal htarget => ?_⟩
    obtain ⟨p, hp⟩ := srcCfgOp_stores (s := s) hreal htarget
    exact ⟨_, congrArg Host.Outcome.next hp, State.reg_setReg_same s _ _, rfl, rfl, rfl⟩
  · intro k v s
    obtain ⟨p, hp, hset, hclear⟩ := intPendOp_stores (s := s) v k.isLt
    exact ⟨_, congrArg Host.Outcome.next hp, rfl, rfl, rfl, rfl, hset, hclear⟩

end Sys2Proof.Machine

/-! PROOFS. Power-up, restarts and start-up (R458, R469-R476). -/

namespace Sys2Proof.Machine

/-! ## Power-up and restarts -/

/-- What power-up and every restart have in common: everything at reset but NVM's banks and slots, the cages and what waits. -/
def Cleared (s t : State) (p : Phase) : Prop :=
  t.pwr.phase = p ∧ t.regs = [] ∧ t.rings = State.reset.rings ∧ t.streams = []
    ∧ t.contracts = [] ∧ t.nvm = nvmCut s.nvm ∧ t.cages = s.cages ∧ t.pending = s.pending ∧ t.wt.now = s.wt.now

theorem cleared_resetBase (s : State) (p : Phase) (m : Mem) : Cleared s (resetBase s p m) p :=
  ⟨rfl, rfl, rfl, rfl, rfl, rfl, rfl, rfl, rfl⟩

/-- `RESTART_CAUSE` fits its fields (Table 18-9). -/
theorem toNat_causeWord (old : Word) {cause f : Nat} (hcause : cause < 256) (hf : f < 512) :
    (causeWord old cause f).toNat = f * 65536 + min 15 (fld old 11 8 + 1) * 256 + cause := by
  have hcount : min 15 (fld old 11 8 + 1) ≤ 15 := Nat.min_le_left _ _
  rw [causeWord, BitVec.toNat_ofNat]
  omega

/-- What a restart leaves (R458). -/
theorem restart_leaves (s : State) {cause f : Nat} (hcause : cause < 256) (hf : f < 512) :
    Cleared s (restart s cause f) .restarting ∧ (restart s cause f).mem.dram = s.mem.dram
      ∧ (restart s cause f).flt.restartTick = s.wt.wall
      ∧ (restart s cause f).flt.restartCause.toNat = f * 65536 + min 15 (fld s.flt.restartCause 11 8 + 1) * 256 + cause :=
  ⟨⟨rfl, rfl, rfl, rfl, rfl, rfl, rfl, rfl, rfl⟩, rfl, rfl, toNat_causeWord _ hcause hf⟩

theorem moduleRestart_l4 {s : State} {f : Fin 512} (h : l4Due s f.val = true) : moduleRestart s (.l4 f) = restart s 1 f.val := if_pos h

theorem moduleRestart_l4_idle {s : State} {f : Fin 512} (h : l4Due s f.val = false) : moduleRestart s (.l4 f) = s :=
  if_neg (by rw [h]; decide)

theorem moduleRestart_activate {s : State} (h : activateDue s = true) : moduleRestart s .activate = restart s 2 0 := if_pos h

theorem moduleRestart_activate_idle {s : State} (h : activateDue s = false) : moduleRestart s .activate = s :=
  if_neg (by rw [h]; decide)

theorem moduleRestart_resetn {s : State} (hclk : s.pwr.clkin = false) (hphase : s.pwr.phase = .running) :
    moduleRestart s .resetn = restart s 3 0 :=
  if_pos (by rw [hclk, hphase, Bool.not_false, Bool.or_true]; rfl)

/-- `RESETN_LOW` of a module with power restarts it from the state with the pin low. -/
theorem resetnDown_of_powered {s : State} (h : s.pwr.phase ≠ .off) :
    resetnDown s = restart (s.modPwr fun p => { p with resetLow := some s.wt.now }) 3 0 := if_neg h

/-- The loss of `CLKIN` restarts a module with power from the state without the clock. -/
theorem clkinDown_of_powered {s : State} (hphase : s.pwr.phase ≠ .off) (hclk : s.pwr.clkin = true) :
    clkinDown s = restart (s.modPwr fun p => { p with clkin := false, clkinSince := s.wt.now }) 3 0 := by
  unfold clkinDown
  rw [if_pos hclk]
  exact if_neg hphase

theorem clkinUp_of_due {s : State} (hclk : s.pwr.clkin = false) (hdue : s.pwr.clkinSince + 1600 ≤ s.wt.now) :
    clkinUp s = s.modPwr fun p => { p with clkin := true, clkinSince := s.wt.now } := by
  refine if_pos ?_
  rw [hclk, Bool.not_false, Bool.true_and, decide_eq_true_eq]
  exact hdue

theorem clkinUp_of_clkin {s : State} (hclk : s.pwr.clkin = true) : clkinUp s = s :=
  if_neg (by rw [hclk]; exact Bool.false_ne_true)

theorem powerUp_of_off {s : State} (hoff : s.pwr.phase = .off) (hmains : s.pwr.mainsLost = none) :
    powerUp s = (resetBase s .reset {}).modPwr fun p => { p with goodAt := some s.wt.now } := if_pos ⟨hoff, hmains⟩

theorem powerUp_idle {s : State} (h : s.pwr.phase ≠ .off ∨ s.pwr.mainsLost ≠ none) : powerUp s = s :=
  if_neg fun ⟨hoff, hmains⟩ => h.elim (· hoff) (· hmains)

theorem powerDown_of_due {s : State} {m : Nat} (hm : s.pwr.mainsLost = some m) (hoff : s.pwr.phase ≠ .off)
    (hdue : m + 3200000 ≤ s.wt.now) : powerDown s = resetBase s .off {} := by
  unfold powerDown
  rw [hm]
  exact if_pos ⟨hoff, hdue⟩

theorem powerDown_early {s : State} {m : Nat} (hm : s.pwr.mainsLost = some m) (hearly : s.wt.now < m + 3200000) :
    powerDown s = s := by
  unfold powerDown
  rw [hm]
  refine if_neg fun h => ?_
  have hdue : m + 3200000 ≤ s.wt.now := h.2
  omega

/-- Settles O49: each row is the reset base, or a restart whose cause word fits its fields. -/
theorem powerUpAndRestartsClearTheModule : Obligations.PowerUpAndRestartsClearTheModule := by
  unfold Obligations.PowerUpAndRestartsClearTheModule
  intro cleared restarted
  refine ⟨fun s => ⟨fun hoff hmains => ?_, fun h => ?_, fun m hm hoff hdue => ?_, fun m hm hearly => ?_⟩,
    fun s f => ⟨fun hdue => ?_, fun hidle => ?_⟩,
    fun s => ⟨fun hdue => ?_, fun hidle => ?_, fun hclk hphase => ?_, fun hphase => ?_, fun hlow => ?_, fun hphase hclk => ?_,
      fun hclk hdue => ?_, fun hclk => ?_⟩⟩
  · exact ⟨_, congrArg Host.Outcome.next (powerUp_of_off hoff hmains), ⟨rfl, rfl, rfl, rfl, rfl, rfl, rfl, rfl, rfl⟩, rfl, rfl⟩
  · exact congrArg Host.Outcome.next (powerUp_idle h)
  · exact ⟨_, congrArg Host.Outcome.next (powerDown_of_due hm hoff hdue), cleared_resetBase s .off {}, rfl, rfl⟩
  · exact congrArg Host.Outcome.next (powerDown_early hm hearly)
  · exact ⟨_, congrArg Host.Outcome.next (moduleRestart_l4 hdue), restart_leaves s (by decide) f.isLt⟩
  · exact congrArg Host.Outcome.next (moduleRestart_l4_idle hidle)
  · exact ⟨_, congrArg Host.Outcome.next (moduleRestart_activate hdue), restart_leaves s (by decide) (by decide)⟩
  · exact congrArg Host.Outcome.next (moduleRestart_activate_idle hidle)
  · exact ⟨_, congrArg Host.Outcome.next (moduleRestart_resetn hclk hphase), restart_leaves s (by decide) (by decide)⟩
  · exact ⟨_, congrArg Host.Outcome.next (resetnDown_of_powered hphase), restart_leaves (s.modPwr _) (by decide) (by decide), rfl⟩
  · exact ⟨_, congrArg Host.Outcome.next (if_pos (Option.isSome_iff_ne_none.mpr hlow)), rfl⟩
  · exact ⟨_, congrArg Host.Outcome.next (clkinDown_of_powered hphase hclk), restart_leaves (s.modPwr _) (by decide) (by decide), rfl⟩
  · exact ⟨_, congrArg Host.Outcome.next (clkinUp_of_due hclk hdue), rfl, rfl, rfl, rfl⟩
  · exact congrArg Host.Outcome.next (clkinUp_of_clkin hclk)

end Sys2Proof.Machine

/-! PROOFS. Start-up (R469, R472-R474, R483). -/

namespace Sys2Proof.Machine

/-! ## The clock count -/

theorem countEnd_of_due {s : State} (b : Bool) (hstart : starting s = true) (hcount : s.pwr.clkCounted = false)
    (hdue : s.pwr.clkinSince + 6710887 ≤ s.wt.now) :
    countEnd s b = (s.modPwr fun p => { p with clkCounted := true }).modFlt fun f => { f with factory := b } :=
  if_pos (by rw [hstart, hcount, decide_eq_true hdue]; rfl)

theorem countEnd_early {s : State} (b : Bool) (h : s.wt.now < s.pwr.clkinSince + 6710887) : countEnd s b = s :=
  if_neg (by rw [decide_eq_false (Nat.not_le.mpr h), Bool.and_false]; exact Bool.false_ne_true)

/-! ## What the firmware's first actions leave as it is -/

/-- The parts of the state that neither an election nor a fault that it raises moves. -/
def bootView (s : State) : Power × Nvm × Compose × Proxy × Mem := (s.pwr, s.nvm, s.comp, s.prx, s.mem)

theorem bootView_setStatus (s : State) (off mask : Nat) : bootView (setStatus s off mask) = bootView s := by
  simp only [bootView, setStatus_pwr, setStatus_nvm, setStatus_comp, setStatus_prx, setStatus_mem]

theorem bootView_raiseFault (s : State) (f : Nat) : bootView (raiseFault s f) = bootView s := by
  simp only [bootView, raiseFault_pwr, raiseFault_nvm, raiseFault_comp, raiseFault_prx, raiseFault_mem]

theorem bootView_enterTime (s : State) (st : TState) : bootView (enterTime s st) = bootView s := by
  unfold enterTime
  dsimp only
  split
  · rfl
  · split
    · rw [bootView_raiseFault, bootView_setStatus]; rfl
    · split <;> rfl

theorem bootView_takeRole (s : State) (own : Bool) : bootView (takeRole s own) = bootView s := by
  unfold takeRole
  dsimp only
  split
  · exact bootView_enterTime _ _
  · split
    · rfl
    · split
      · rfl
      · exact bootView_enterTime _ _

theorem bootView_elect (s : State) : bootView (elect s) = bootView s := by
  unfold elect
  dsimp only
  split
  · rfl
  · rw [bootView_takeRole]
    split
    · rfl
    · exact bootView_setStatus _ _ _

theorem bootView_joinFold (s : State) : bootView (joinFold s) = bootView s := by
  unfold joinFold
  dsimp only
  rw [bootView_elect]
  split
  · rfl
  · exact bootView_enterTime _ _

theorem bootView_devEvent (s t : State) : bootView (devEvent s t) = bootView t := by
  obtain ⟨p, hp, -⟩ := devEvent_eq_withPend s t
  rw [hp]
  rfl

/-- Staging the trims of the factory moves the trims alone. -/
theorem stageTrims_frame (s : State) (is : List Nat) :
    (stageTrims s is).pwr = s.pwr ∧ (stageTrims s is).comp = s.comp ∧ (stageTrims s is).prx = s.prx ∧ (stageTrims s is).mem = s.mem
      ∧ (stageTrims s is).nvm.bankA = s.nvm.bankA ∧ (stageTrims s is).nvm.bankB = s.nvm.bankB := by
  unfold stageTrims
  dsimp only
  split <;> exact ⟨rfl, rfl, rfl, rfl, rfl, rfl⟩

/-- The settings at start-up (R483): those of the bank in force, or of bank A where none is. -/
theorem bootSettings_applies (s : State) :
    (bootSettings s).pwr = s.pwr ∧ (bootSettings s).nvm = s.nvm ∧ (bootSettings s).mem = s.mem
      ∧ (forceB s.nvm = true → (bootSettings s).comp.taps = s.nvm.bankB.settings.taps ∧ (bootSettings s).prx.lut = s.nvm.bankB.settings.lut)
      ∧ (forceB s.nvm = false → s.nvm.bankA.valid = true →
        (bootSettings s).comp.taps = s.nvm.bankA.settings.taps ∧ (bootSettings s).prx.lut = s.nvm.bankA.settings.lut) := by
  have hview : ∀ c : Bool, bootView (if c then setStatus s Off.nvmStatus 1 else s) = bootView s := fun c => by
    cases c
    · rfl
    · exact bootView_setStatus _ _ _
  unfold bootSettings
  dsimp only
  generalize hs1 : (if bankBad s.nvm.bankA || bankBad s.nvm.bankB then setStatus s Off.nvmStatus 1 else s) = s1
  have hs1view : bootView s1 = bootView s := by rw [← hs1]; exact hview _
  simp only [bootView, Prod.mk.injEq] at hs1view
  obtain ⟨hpwr, hnvm, -, -, hmem⟩ := hs1view
  split
  next hB => exact ⟨hpwr, hnvm, hmem, fun _ => ⟨rfl, rfl⟩, fun hA => absurd hB (by rw [hA]; exact Bool.false_ne_true)⟩
  next hB =>
    split
    next => exact ⟨hpwr, hnvm, hmem, fun h => absurd h hB, fun _ _ => ⟨rfl, rfl⟩⟩
    next hA => exact ⟨hpwr, hnvm, hmem, fun h => absurd h hB, fun _ h => absurd h hA⟩

theorem bootNvm_banks (n : Nvm) (ok : Bool) : (bootNvm n ok).bankA = n.bankA ∧ (bootNvm n ok).bankB = n.bankB := by
  unfold bootNvm
  dsimp only
  constructor <;> (split <;> split <;> rfl)

theorem forceB_bootNvm (n : Nvm) (ok : Bool) : forceB (bootNvm n ok) = forceB n := by
  obtain ⟨hA, hB⟩ := bootNvm_banks n ok
  rw [forceB, forceB, hA, hB]

theorem bootWord_bits (n : Nvm) (ok : Bool) :
    bit (bootWord n ok) 1 = !ok ∧ bit (bootWord n ok) 0 = (!n.bankA.valid && !n.bankB.valid) := by
  unfold bootWord
  cases ok <;> cases n.bankA.valid <;> cases n.bankB.valid <;> exact ⟨rfl, rfl⟩

/-- The state in which the firmware starts, before it reads the settings. -/
def lockedState (s : State) (ok : Bool) : State :=
  { s with
    pwr := { s.pwr with phase := .training, pllLocked := true, domains := bootDomains, bootStatus := bootWord s.nvm ok }
    nvm := bootNvm s.nvm ok }

/-- The state with the settings read and the trims staged. -/
def settledState (s : State) (ok : Bool) : State := stageTrims (bootSettings (bootDraws (lockedState s ok))) (List.range 524)

theorem pllLock_of_counted {s : State} (ok : Bool) (hstart : starting s = true) (hcount : s.pwr.clkCounted = true) :
    pllLock s ok = devEvent s (if foldEn (settledState s ok) then joinFold (settledState s ok) else settledState s ok) :=
  if_pos (by rw [hstart, hcount]; rfl)

theorem pllLock_idle {s : State} (ok : Bool) (h : starting s = false ∨ s.pwr.clkCounted = false) : pllLock s ok = s :=
  if_neg (by rw [Bool.and_eq_true]; rintro ⟨hs, hc⟩; rcases h with h | h <;> simp_all)

theorem bootView_pllLock {s : State} (ok : Bool) (hstart : starting s = true) (hcount : s.pwr.clkCounted = true) :
    bootView (pllLock s ok) = bootView (settledState s ok) := by
  rw [pllLock_of_counted ok hstart hcount, bootView_devEvent]
  split
  · exact bootView_joinFold _
  · rfl

/-- What the lock of the PLLs leaves in the power state, the settings and NVM. -/
theorem pllLock_leaves {s : State} (ok : Bool) (hstart : starting s = true) (hcount : s.pwr.clkCounted = true) :
    (pllLock s ok).pwr = (lockedState s ok).pwr ∧ (pllLock s ok).mem = s.mem
      ∧ (forceB s.nvm = true →
        (pllLock s ok).comp.taps = s.nvm.bankB.settings.taps ∧ (pllLock s ok).prx.lut = s.nvm.bankB.settings.lut)
      ∧ (forceB s.nvm = false → s.nvm.bankA.valid = true →
        (pllLock s ok).comp.taps = s.nvm.bankA.settings.taps ∧ (pllLock s ok).prx.lut = s.nvm.bankA.settings.lut)
      ∧ (pllLock s ok).nvm.bankA = s.nvm.bankA ∧ (pllLock s ok).nvm.bankB = s.nvm.bankB := by
  have hview := bootView_pllLock ok hstart hcount
  simp only [bootView, Prod.mk.injEq] at hview
  obtain ⟨hpwr, hnvm, hcomp, hprx, hmem⟩ := hview
  obtain ⟨tpwr, tcomp, tprx, tmem, tA, tB⟩ := stageTrims_frame (bootSettings (bootDraws (lockedState s ok))) (List.range 524)
  obtain ⟨bpwr, bnvm, bmem, bB, bA⟩ := bootSettings_applies (bootDraws (lockedState s ok))
  have hforce : forceB (bootDraws (lockedState s ok)).nvm = forceB s.nvm := forceB_bootNvm s.nvm ok
  obtain ⟨nA, nB⟩ := bootNvm_banks s.nvm ok
  have hbankA : (bootDraws (lockedState s ok)).nvm.bankA = s.nvm.bankA := nA
  have hbankB : (bootDraws (lockedState s ok)).nvm.bankB = s.nvm.bankB := nB
  rw [hforce, hbankB] at bB
  rw [hforce, hbankA] at bA
  refine ⟨hpwr.trans (tpwr.trans bpwr), hmem.trans (tmem.trans bmem), ?_, ?_, ?_, ?_⟩
  · rw [hcomp, hprx, settledState, tcomp, tprx]; exact bB
  · rw [hcomp, hprx, settledState, tcomp, tprx]; exact bA
  · rw [hnvm, settledState, tA, bnvm, hbankA]
  · rw [hnvm, settledState, tB, bnvm, hbankB]

/-! ## The self-tests -/

/-- The parts of the state that the rings' marks leave as they are. -/
def runView (s : State) : Power × Map Contract × Map DecCore := (s.pwr, s.contracts, s.decs)

theorem runView_markMismatch (s : State) (p : Nat) : runView (markMismatch s p) = runView s := by
  unfold markMismatch
  split
  · simp only [runView, setStatus_pwr, setStatus_contracts, setStatus_decs]
  · rfl

theorem runView_checkPairs (s : State) (p : Nat) : runView (checkPairs s p) = runView s :=
  foldl_leaves (view := runView) (fun t q => (runView_markMismatch _ q).trans (runView_markMismatch t p)) _ s

theorem retireAtBoot_frame (s : State) (f : SelfTest) :
    (retireAtBoot s f).pwr = s.pwr ∧ (retireAtBoot s f).contracts = s.contracts := by
  cases f with
  | decode n => unfold retireAtBoot; dsimp only; split <;> exact ⟨rfl, rfl⟩
  | encode n => unfold retireAtBoot; dsimp only; split <;> exact ⟨rfl, rfl⟩
  | slice n | correction | dma | tables | drover _ | cage _ => exact ⟨rfl, rfl⟩

/-- A decode core that failed its test is retired, whatever role it had. -/
theorem retireAtBoot_retires (s : State) (n : Fin 16) : ((retireAtBoot s (.decode n)).dec n.val).role = .retired := by
  unfold retireAtBoot
  dsimp only
  rw [State.dec_modDec, if_pos rfl]

/-- The spare takes no other core's place once it is retired itself: a retired core stays so. -/
theorem retireAtBoot_keeps_retired {s : State} {k : Nat} (f : SelfTest) (h : (s.dec k).role = .retired) :
    ((retireAtBoot s f).dec k).role = .retired := by
  have hspare : ((s.modDec 15 fun x => if x.role = .spare then { x with role := .active } else x).dec k).role = .retired := by
    rw [State.dec_modDec]
    split
    next hk =>
      rw [hk] at h
      rw [if_neg (by rw [h]; decide), h]
    · exact h
  cases f with
  | decode n =>
    unfold retireAtBoot
    dsimp only
    rw [State.dec_modDec]
    split
    · rfl
    · split
      · exact hspare
      · exact h
  | encode n =>
    unfold retireAtBoot
    dsimp only
    split <;> exact h
  | slice n | correction | dma | tables | drover _ | cage _ => exact h

theorem retire_foldl_keeps {k : Nat} (fs : List SelfTest) :
    ∀ {s : State}, (s.dec k).role = .retired → ((fs.foldl retireAtBoot s).dec k).role = .retired := by
  induction fs with
  | nil => exact fun h => h
  | cons f fs ih => exact fun h => ih (retireAtBoot_keeps_retired f h)

theorem retire_foldl_retires {n : Fin 16} (fs : List SelfTest) :
    ∀ s : State, .decode n ∈ fs → ((fs.foldl retireAtBoot s).dec n.val).role = .retired := by
  induction fs with
  | nil => intro s h; cases h
  | cons f fs ih =>
    intro s h
    rcases List.mem_cons.mp h with rfl | h
    · exact retire_foldl_keeps fs (retireAtBoot_retires s n)
    · exact ih _ h

theorem retire_foldl_frame (fs : List SelfTest) (s : State) :
    (fs.foldl retireAtBoot s).pwr = s.pwr ∧ (fs.foldl retireAtBoot s).contracts = s.contracts :=
  ⟨foldl_leaves (view := State.pwr) (fun t f => (retireAtBoot_frame t f).1) fs s,
    foldl_leaves (view := State.contracts) (fun t f => (retireAtBoot_frame t f).2) fs s⟩

theorem runView_place (s : State) (n : Nat) : runView (place s n).2 = runView s := rfl

/-- What the firmware places moves none of them either. -/
theorem runView_placeBoot (s : State) : runView (placeBoot s) = runView s := by
  have hsnd : ∀ {t u : State} {k a : Nat}, place t k = (a, u) → runView u = runView t :=
    fun {t _ k _} h => (congrArg (fun r => runView r.2) h).symm.trans (runView_place t k)
  unfold placeBoot
  generalize canvasW s * fld (s.reg Off.canvasSize) 21 16 * 393216 = n
  rcases h1 : place s scratchBytes with ⟨a, s1⟩
  dsimp only
  rcases h2 : place s1 n with ⟨b, s2⟩
  dsimp only
  rcases h3 : place s2 n with ⟨c, s3⟩
  dsimp only
  have h4 : runView ([0, 1, 2].foldl (fun t p => (place t (4 * poolCount p)).2) s3) = runView s3 :=
    foldl_leaves (view := runView) (fun t p => runView_place t (4 * poolCount p)) _ _
  exact h4.trans ((hsnd h3).trans ((hsnd h2).trans (hsnd h1)))

theorem domainOn_allOn {d : Nat} (h : d < 64) : (mget ({} : Domain) allOn d).state == .on := by
  revert d
  decide

/-- The power state once the module runs. -/
def runningPower (p : Power) (fs : List SelfTest) : Power :=
  { p with phase := .running, domains := allOn, bootStatus := p.bootStatus ||| BitVec.ofNat 32 (4 * b2n (!fs.isEmpty)) }

/-- The state in which the module runs, before its rings are compared. -/
def tested (s : State) (fs : List SelfTest) : State := (fs.foldl retireAtBoot (placeBoot s)).modPwr (runningPower · fs)

theorem tested_pwr {s : State} {fs : List SelfTest} (h : (placeBoot s).pwr = s.pwr) : (tested s fs).pwr = runningPower s.pwr fs := by
  rw [tested, State.modPwr_pwr, (retire_foldl_frame fs (placeBoot s)).1, h]

theorem startupDone_of_training {s : State} (fs : List SelfTest) (hphase : s.pwr.phase = .training) (htrained : s.mem.trained = true)
    (hfatal : fs.filterMap fatalTest = []) : startupDone s fs = devEvent s ((List.range 32).foldl checkPairs (tested s fs)) := by
  unfold startupDone
  rw [if_neg (by simp [hphase, htrained]), hfatal]
  rfl

theorem startupDone_of_fatal {s : State} {fs : List SelfTest} {u : Nat} {us : List Nat} (hphase : s.pwr.phase = .training)
    (htrained : s.mem.trained = true) (hfatal : fs.filterMap fatalTest = u :: us) :
    startupDone s fs = stopModule (s.modPwr fun p => { p with bootStatus := p.bootStatus ||| BitVec.ofNat 32 (u * 2 ^ 24 + 8) }) := by
  unfold startupDone
  rw [if_neg (by simp [hphase, htrained]), hfatal]

theorem startupDone_idle {s : State} (fs : List SelfTest) (h : s.pwr.phase ≠ .training ∨ s.mem.trained = false) :
    startupDone s fs = s := by
  unfold startupDone
  refine if_pos (h.imp id fun h => ?_)
  rw [h]
  rfl

theorem runView_startupDone {s : State} (fs : List SelfTest) (hphase : s.pwr.phase = .training) (htrained : s.mem.trained = true)
    (hfatal : fs.filterMap fatalTest = []) : runView (startupDone s fs) = runView (tested s fs) := by
  obtain ⟨p, hp, -⟩ := devEvent_eq_withPend s ((List.range 32).foldl checkPairs (tested s fs))
  rw [startupDone_of_training fs hphase htrained hfatal, hp]
  exact foldl_leaves (view := runView) runView_checkPairs _ (tested s fs)

/-- `SELFTEST_STOP` is bit 3 of what a fatal failure adds to `BOOT_STATUS` (Table 19-14). -/
theorem bit_selftestStop (w : Word) (u : Nat) : bit (w ||| BitVec.ofNat 32 (u * 2 ^ 24 + 8)) 3 = true := by
  have hbit : (u * 2 ^ 24 + 8).testBit 3 = true := by
    rw [Nat.testBit_eq_decide_div_mod_eq, decide_eq_true_eq]
    omega
  rw [bit, BitVec.getLsbD_or, BitVec.getLsbD_ofNat, hbit]
  exact Bool.or_true _

/-- A module that has stopped is not READY: `DEVSTATE` is STOPPED. -/
theorem readyWant_of_stopped {s : State} (h : s.pwr.phase = .stopped) : readyWant s = false := by
  have hdev : devState s = 6 := by unfold devState; rw [h]
  rw [readyWant, hdev]
  exact (congrArg (· && _) (Bool.and_false _)).trans (Bool.false_and _)

/-- Settles O50, by what the count, the lock and the self-tests leave; a retired core stays retired through the tests after its own. -/
theorem startUpRuns : Obligations.StartUpRuns := by
  unfold Obligations.StartUpRuns
  refine ⟨fun b s => ⟨fun hstart hcount hdue => ?_, fun hearly => ?_, fun hstart hcount => ?_, fun h => ?_⟩,
    fun fs s => ⟨fun h => ?_, fun hphase htrained hfine => ?_, fun f u hphase htrained hf hu => ?_⟩⟩
  · exact ⟨_, congrArg Host.Outcome.next (countEnd_of_due b hstart hcount hdue), rfl, rfl, rfl, rfl, rfl, rfl⟩
  · exact congrArg Host.Outcome.next (countEnd_early b hearly)
  · obtain ⟨hpwr, hmem, hB, hA, hbankA, hbankB⟩ := pllLock_leaves b hstart hcount
    obtain ⟨hfall, hdefault⟩ := bootWord_bits s.nvm b
    refine ⟨pllLock s b, rfl, ?_, ?_, ?_, ?_, ?_, ?_, hB, hA, hbankA, hbankB, hmem⟩
    · rw [hpwr]; rfl
    · rw [hpwr]; rfl
    · rw [State.domainOn, State.domain, hpwr]; rfl
    · rw [State.domainOn, State.domain, hpwr]; rfl
    · rw [hpwr]; exact hfall
    · rw [hpwr]; exact hdefault
  · exact congrArg Host.Outcome.next (pllLock_idle b h)
  · exact congrArg Host.Outcome.next (startupDone_idle fs h)
  · have hview := runView_startupDone fs hphase htrained (List.filterMap_eq_nil_iff.mpr hfine)
    simp only [runView, Prod.mk.injEq] at hview
    obtain ⟨hpwr, hcontracts, hdecs⟩ := hview
    have hplace := runView_placeBoot s
    simp only [runView, Prod.mk.injEq] at hplace
    obtain ⟨hpwr0, hcontracts0, -⟩ := hplace
    have hpower : (tested s fs).pwr = runningPower s.pwr fs := tested_pwr hpwr0
    refine ⟨startupDone s fs, rfl, ?_, fun d hd => ?_, hcontracts.trans ((retire_foldl_frame fs (placeBoot s)).2.trans hcontracts0), fun n hn => ?_, fun hnil => ?_⟩
    · rw [hpwr, hpower]; rfl
    · rw [State.domainOn, State.domain, hpwr, hpower]
      exact domainOn_allOn hd
    · rw [State.dec, hdecs]
      exact retire_foldl_retires fs (placeBoot s) hn
    · subst hnil
      rw [hpwr, hpower]
      exact BitVec.or_zero
  · have hne : fs.filterMap fatalTest ≠ [] := fun hnil => by
      rw [List.filterMap_eq_nil_iff.mp hnil f hf] at hu
      cases hu
    obtain ⟨u', us, hus⟩ := List.exists_cons_of_ne_nil hne
    have hphase' : (startupDone s fs).pwr.phase = .stopped := by
      rw [startupDone_of_fatal hphase htrained hus, stopModule_power]
    refine ⟨startupDone s fs, rfl, hphase', ?_, readyWant_of_stopped hphase'⟩
    rw [startupDone_of_fatal hphase htrained hus, stopModule_power]
    exact bit_selftestStop _ _

end Sys2Proof.Machine

/-! PROOFS. Power domains: gaps, wakes and forcing (R463-R467). -/

namespace Sys2Proof.Machine

/-! ## One domain at a time -/

/-- A filter by number that keeps a number keeps what is found there. -/
theorem mget_filter {α : Type} (d : α) {p : Nat × α → Bool} {i : Nat} (h : ∀ v, p (i, v) = true) :
    ∀ m : Map α, mget d (m.filter p) i = mget d m i
  | [] => rfl
  | (k, v) :: m => by
    by_cases hik : i = k
    · subst hik
      rw [List.filter_cons_of_pos (h v)]
      simp only [mget, if_true]
    · by_cases hp : p (k, v) = true
      · rw [List.filter_cons_of_pos hp, mget, mget, if_neg hik, if_neg hik, mget_filter d h m]
      · rw [List.filter_cons_of_neg hp, mget, if_neg hik, mget_filter d h m]

/-- R517 reaches the registers of the domain alone. -/
theorem reg_clearW1c {s : State} {d o : Nat} (h : regDomain o ≠ some d) : (clearW1c s d).reg o = s.reg o := by
  refine mget_filter _ (fun v => ?_) s.regs
  rw [w1cOf, beq_false_of_ne h]
  rfl

/-- What a change of domain d leaves: the other domains, device memory, the contracts and the registers outside the domain. -/
def DomainKept (s : State) (d : Nat) (t : State) : Prop := (∀ e, e ≠ d → t.domain e = s.domain e) ∧ t.mem = s.mem
  ∧ t.contracts = s.contracts ∧ (∀ o, regDomain o ≠ some d → t.reg o = s.reg o)

theorem domainKept_modDomain (s : State) (d : Nat) (f : Domain → Domain) : DomainKept s d (s.modDomain d f) :=
  ⟨fun e he => by rw [State.domain_modDomain, if_neg he], rfl, rfl, fun _ _ => rfl⟩

theorem DomainKept.refl (s : State) (d : Nat) : DomainKept s d s := ⟨fun _ _ => rfl, rfl, rfl, fun _ _ => rfl⟩

theorem DomainKept.trans {s t u : State} {d : Nat} (h : DomainKept s d t) (h' : DomainKept t d u) : DomainKept s d u := by
  obtain ⟨hdom, hmem, hcon, hreg⟩ := h
  obtain ⟨hdom', hmem', hcon', hreg'⟩ := h'
  exact ⟨fun e he => (hdom' e he).trans (hdom e he), hmem'.trans hmem, hcon'.trans hcon, fun o ho => (hreg' o ho).trans (hreg o ho)⟩

theorem domain_modDomain_same (s : State) (d : Nat) (f : Domain → Domain) : (s.modDomain d f).domain d = f (s.domain d) := by
  rw [State.domain_modDomain, if_pos rfl]

theorem startEntry_enters (s : State) (d : Nat) (t : DState) :
    (startEntry s d t).domain d = { s.domain d with state := t, entering := some (t, s.wt.now + entryTicks t) }
      ∧ DomainKept s d (startEntry s d t) := by
  unfold startEntry
  dsimp only
  split
  · refine ⟨domain_modDomain_same s d _, (domainKept_modDomain s d _).trans ⟨fun _ _ => rfl, rfl, rfl, fun o ho => reg_clearW1c ho⟩⟩
  · exact ⟨domain_modDomain_same s d _, domainKept_modDomain s d _⟩

theorem gapEntry_of_idle {s : State} {d : Nat} (hserve : s.serving = true) (hon : (s.domain d).state = .on)
    (hwake : (s.domain d).waking = none) (hrestart : (s.domain d).restarting = false) (hbusy : domainBusy s d = false)
    (hchosen : chosenState s d ≠ .on) : gapEntry s d = startEntry s d (chosenState s d) := by
  refine if_pos ?_
  have hbeq : (DState.on == DState.on) = true := rfl
  simp only [hserve, hon, hwake, hrestart, hbusy, hbeq, Option.isNone_none, Bool.not_false, Bool.and_self, Bool.true_and, bne_iff_ne]
  exact hchosen

theorem gapEntry_idle {s : State} {d : Nat} (h : domainBusy s d = true ∨ chosenState s d = .on) : gapEntry s d = s := by
  refine if_neg ?_
  rcases h with h | h
  · rw [h, Bool.not_true, Bool.and_false, Bool.false_and]; exact Bool.false_ne_true
  · rw [h, show (DState.on != DState.on) = false from rfl, Bool.and_false]; exact Bool.false_ne_true

/-! ## Wakes -/

/-- A domain after a wake was asked for (R463). -/
def wokenDomain (now : Nat) (x : Domain) : Domain :=
  if x.state == .on || x.waking.isSome || x.restarting then x
  else if x.entering.isSome then { x with wakeReq := true }
  else { x with waking := some (now + wakeTicks x.state) }

theorem startWake_domain (s : State) (d : Nat) : (startWake s d).domain d = wokenDomain s.wt.now (s.domain d) := by
  unfold startWake wokenDomain
  dsimp only
  split
  · rfl
  · split <;> exact domain_modDomain_same s d _

theorem domainKept_startWake (s : State) (d : Nat) : DomainKept s d (startWake s d) := by
  unfold startWake
  dsimp only
  split
  · exact DomainKept.refl s d
  · split <;> exact domainKept_modDomain s d _

theorem wokenDomain_sleeping {x : Domain} (now : Nat) (hstate : x.state ≠ .on) (hwake : x.waking = none) (hrestart : x.restarting = false) :
    wokenDomain now x = if x.entering.isSome then { x with wakeReq := true } else { x with waking := some (now + wakeTicks x.state) } := by
  refine if_neg ?_
  rw [hwake, hrestart, beq_false_of_ne hstate]
  exact Bool.false_ne_true

theorem wokenDomain_state (now : Nat) (x : Domain) : (wokenDomain now x).state = x.state ∧ (wokenDomain now x).entering = x.entering := by
  unfold wokenDomain
  split
  · exact ⟨rfl, rfl⟩
  · split <;> exact ⟨rfl, rfl⟩

theorem wakeStart_of_due {s : State} {d : Nat} (hserve : s.serving = true) (hdue : wakeDue s d = true) : wakeStart s d = startWake s d :=
  if_pos (by rw [hserve, hdue]; rfl)

theorem entryDone_early {s : State} {d : Nat} {e : DState} {k : Nat} (h : (s.domain d).entering = some (e, k)) (hearly : s.wt.now < k) :
    entryDone s d = s := by
  unfold entryDone
  rw [h]
  exact if_pos hearly

theorem entryDone_of_due {s : State} {d : Nat} {e : DState} {k : Nat} (h : (s.domain d).entering = some (e, k)) (hdue : k ≤ s.wt.now) :
    entryDone s d = if (s.domain d).wakeReq then startWake (s.modDomain d fun x => { x with entering := none, wakeReq := false }) d
      else s.modDomain d fun x => { x with entering := none } := by
  unfold entryDone
  rw [h]
  exact if_neg (Nat.not_lt.mpr hdue)

/-- The end of an entry; a wake that was asked for begins (R463). -/
theorem entryDone_ends {s : State} {d : Nat} {e : DState} {k : Nat} (h : (s.domain d).entering = some (e, k)) (hdue : k ≤ s.wt.now) :
    ((entryDone s d).domain d).entering = none ∧ DomainKept s d (entryDone s d)
      ∧ ((s.domain d).wakeReq = true → (s.domain d).state ≠ .on → (s.domain d).waking = none → (s.domain d).restarting = false →
        ((entryDone s d).domain d).waking = some (s.wt.now + wakeTicks (s.domain d).state)) := by
  rw [entryDone_of_due h hdue]
  split
  next hreq =>
    have hdom := startWake_domain (s.modDomain d fun x => { x with entering := none, wakeReq := false }) d
    rw [domain_modDomain_same] at hdom
    refine ⟨?_, (domainKept_modDomain s d _).trans (domainKept_startWake _ d), fun _ hstate hwake hrestart => ?_⟩
    · rw [hdom, (wokenDomain_state _ _).2]
    · rw [hdom]
      exact congrArg Domain.waking (wokenDomain_sleeping (x := { s.domain d with entering := none, wakeReq := false }) _ hstate hwake hrestart)
  next hreq =>
    exact ⟨by rw [domain_modDomain_same], domainKept_modDomain s d _, fun hr => absurd hr hreq⟩

theorem wakeDone_early {s : State} {d k : Nat} (h : (s.domain d).waking = some k) (hearly : s.wt.now < k) : wakeDone s d = s := by
  unfold wakeDone
  rw [h]
  exact if_pos hearly

/-- The state with a domain's wake ended. -/
def woken (s : State) (d : Nat) : State := s.modDomain d fun x => { x with state := .on, waking := none }

theorem wakeDone_of_due {s : State} {d k : Nat} (h : (s.domain d).waking = some k) (hdue : k ≤ s.wt.now) :
    wakeDone s d = if d = 62 then dealPieces (woken s d) else woken s d := by
  unfold wakeDone
  rw [h]
  exact if_neg (Nat.not_lt.mpr hdue)

/-! ## What the copies that PD62 takes up leave of the power state -/

theorem pieceFailed_pwr (s : State) (k status : Nat) : (pieceFailed s k status).pwr = s.pwr := by
  unfold pieceFailed
  split
  · rfl
  · dsimp only
    rw [dmaFail, completeWith_pwr]
    split
    · rfl
    · exact setStatus_pwr _ _ _

theorem failUnlinked_pwr (s : State) : (failUnlinked s).pwr = s.pwr := by
  unfold failUnlinked
  split
  · rfl
  · refine foldl_leaves (view := State.pwr) (fun t c => ?_) _ s
    dsimp only
    split
    · exact pieceFailed_pwr _ _ _
    · rfl

theorem pump_pwr (s : State) : (pump s).pwr = s.pwr := by
  obtain ⟨d, r, q, h⟩ := pumped_pump s
  rw [h]

theorem dealPieces_pwr (s : State) : (dealPieces s).pwr = s.pwr := by
  unfold dealPieces
  split
  · rfl
  · rw [pump_pwr, failUnlinked_pwr]
    refine foldl_leaves (view := State.pwr) (fun t p => ?_) _ s
    split <;> rfl

theorem wakeDone_domain {s : State} {d k : Nat} (h : (s.domain d).waking = some k) (hdue : k ≤ s.wt.now) :
    (wakeDone s d).domain d = { s.domain d with state := .on, waking := none } := by
  have hpwr : (wakeDone s d).pwr = (woken s d).pwr := by
    rw [wakeDone_of_due h hdue]
    split
    · exact dealPieces_pwr _
    · rfl
  rw [State.domain, hpwr]
  exact domain_modDomain_same s d _

/-! ## Forcing (R467) -/

/-- One domain's part of a write of `PD_FORCE_ON`. -/
def forceWake (t : State) (d : Nat) : State := if domainForced t d then startWake t d else t

theorem forceWake_frame (t : State) (d : Nat) :
    (forceWake t d).regs = t.regs ∧ (forceWake t d).wt = t.wt ∧ (forceWake t d).mem = t.mem := by
  unfold forceWake
  split
  · unfold startWake
    dsimp only
    split
    · exact ⟨rfl, rfl, rfl⟩
    · split <;> exact ⟨rfl, rfl, rfl⟩
  · exact ⟨rfl, rfl, rfl⟩

theorem domainForced_of_regs {s t : State} (h : t.regs = s.regs) (d : Nat) : domainForced t d = domainForced s d := by
  rw [domainForced, domainForced, State.reg, State.reg, State.reg, State.reg, h]

theorem forceWake_domain_ne (t : State) {d e : Nat} (h : e ≠ d) : (forceWake t d).domain e = t.domain e := by
  unfold forceWake
  split
  · exact (domainKept_startWake t d).1 e h
  · rfl

theorem forceWake_domain (t : State) (d : Nat) :
    (forceWake t d).domain d = if domainForced t d then wokenDomain t.wt.now (t.domain d) else t.domain d := by
  unfold forceWake
  split
  · exact startWake_domain t d
  · rfl

theorem forceAll_frame (l : List Nat) (s : State) :
    (l.foldl forceWake s).regs = s.regs ∧ (l.foldl forceWake s).wt = s.wt ∧ (l.foldl forceWake s).mem = s.mem :=
  ⟨foldl_leaves (view := State.regs) (fun t d => (forceWake_frame t d).1) l s,
    foldl_leaves (view := State.wt) (fun t d => (forceWake_frame t d).2.1) l s,
    foldl_leaves (view := State.mem) (fun t d => (forceWake_frame t d).2.2) l s⟩

theorem forceAll_domain_notMem {d : Nat} (l : List Nat) : ∀ s : State, d ∉ l → (l.foldl forceWake s).domain d = s.domain d := by
  induction l with
  | nil => exact fun _ _ => rfl
  | cons e l ih =>
    intro s h
    obtain ⟨hne, hl⟩ := not_or.mp (mt List.mem_cons.mpr h)
    exact (ih _ hl).trans (forceWake_domain_ne s hne)

/-- Each domain is forced once, by itself. -/
theorem forceAll_domain {d : Nat} (l : List Nat) :
    ∀ s : State, l.Nodup → d ∈ l →
      (l.foldl forceWake s).domain d = if domainForced s d then wokenDomain s.wt.now (s.domain d) else s.domain d := by
  induction l with
  | nil => intro s _ h; cases h
  | cons e l ih =>
    intro s hnodup h
    obtain ⟨hnot, hnodup'⟩ := List.nodup_cons.mp hnodup
    rcases eq_or_ne d e with rfl | hne
    · exact (forceAll_domain_notMem l _ hnot).trans (forceWake_domain s d)
    · have hl : d ∈ l := (List.mem_cons.mp h).resolve_left hne
      obtain ⟨hregs, hwt, -⟩ := forceWake_frame s e
      rw [List.foldl_cons, ih _ hnodup' hl, domainForced_of_regs hregs, hwt, forceWake_domain_ne s hne]

theorem pdForceOp_serving {s : State} (hi : Bool) (v : Word) (h : s.serving = true) :
    pdForceOp s hi v = (List.range 64).foldl forceWake (s.setReg (if hi then Off.pdForceHi else Off.pdForceLo) v) := if_pos h

theorem pdForceOp_idle {s : State} (hi : Bool) (v : Word) (h : s.serving = false) :
    pdForceOp s hi v = s.setReg (if hi then Off.pdForceHi else Off.pdForceLo) v := if_neg (by rw [h]; exact Bool.false_ne_true)

/-- What a write of `PD_FORCE_ON` does to one domain. -/
theorem pdForceOp_domain (s : State) (hi : Bool) (v : Word) {d : Nat} (hd : d < 64) :
    (pdForceOp s hi v).regs = (s.setReg (if hi then Off.pdForceHi else Off.pdForceLo) v).regs ∧ (pdForceOp s hi v).mem = s.mem
      ∧ (pdForceOp s hi v).domain d =
        if s.serving = true ∧ domainForced (pdForceOp s hi v) d = true then wokenDomain s.wt.now (s.domain d) else s.domain d := by
  cases hserve : s.serving with
  | false =>
    rw [pdForceOp_idle hi v hserve]
    exact ⟨rfl, rfl, (if_neg fun h => Bool.false_ne_true h.1).symm⟩
  | true =>
    rw [pdForceOp_serving hi v hserve]
    obtain ⟨hregs, -, hmem⟩ := forceAll_frame (List.range 64) (s.setReg (if hi then Off.pdForceHi else Off.pdForceLo) v)
    refine ⟨hregs, hmem, ?_⟩
    rw [forceAll_domain _ _ List.nodup_range (List.mem_range.mpr hd), domainForced_of_regs hregs]
    simp only [true_and]
    rfl

/-- Settles O51, by what each step does to its own domain; a write of `PD_FORCE_ON` visits each domain once. -/
theorem domainsSleepAndWake : Obligations.DomainsSleepAndWake := by
  unfold Obligations.DomainsSleepAndWake
  intro pd s d x kept
  refine ⟨fun hserve hon hwake hrestart hbusy hchosen => ?_, fun h => congrArg Host.Outcome.next (gapEntry_idle h),
    fun hserve hdue hstate hwake hrestart => ?_, fun e k hentry => ⟨fun hearly => ?_, fun hdue => ?_⟩,
    fun k hwake => ⟨fun hearly => ?_, fun hdue => ?_⟩, fun hi v => ?_⟩
  · obtain ⟨hdom, hkept⟩ := startEntry_enters s d (chosenState s d)
    refine ⟨_, congrArg Host.Outcome.next (gapEntry_of_idle hserve hon hwake hrestart hbusy hchosen), ?_, ?_, hkept⟩
    · rw [hdom]
    · rw [hdom]
  · refine ⟨_, congrArg Host.Outcome.next (wakeStart_of_due hserve hdue), domainKept_startWake s d, ?_, fun hentry => ?_, fun hentry => ?_⟩
    · rw [startWake_domain, (wokenDomain_state _ _).1]
    · rw [startWake_domain, wokenDomain_sleeping _ hstate hwake hrestart, hentry]
      rfl
    · rw [startWake_domain, wokenDomain_sleeping _ hstate hwake hrestart, if_pos (Option.isSome_iff_ne_none.mpr hentry)]
      exact ⟨hwake, rfl⟩
  · exact congrArg Host.Outcome.next (entryDone_early hentry hearly)
  · exact ⟨_, rfl, entryDone_ends hentry hdue⟩
  · exact congrArg Host.Outcome.next (wakeDone_early hwake hearly)
  · have hdom := wakeDone_domain hwake hdue
    have hop := wakeDone_of_due hwake hdue
    refine ⟨wakeDone s d, rfl, ?_, ?_, fun h62 => ?_, fun h62 => ?_⟩
    · rw [State.domainOn, hdom]; rfl
    · rw [hdom]
    · rw [hop, if_neg h62]
      exact domainKept_modDomain s d _
    · rw [hop, if_pos h62, h62]
      rfl
  · obtain ⟨hregs, hmem, hdom⟩ := pdForceOp_domain s hi v pd.isLt
    refine ⟨pdForceOp s hi v, rfl, ?_, hmem, fun hforced => ?_, fun hforced hserve hstate hwake hrestart hentry => ?_⟩
    · rw [State.reg, hregs]
      exact State.reg_setReg_same s _ v
    · rw [hdom, if_neg (by rw [hforced]; exact fun h => Bool.false_ne_true h.2)]
    · rw [hdom, if_pos ⟨hserve, hforced⟩, wokenDomain_sleeping _ hstate hwake hrestart, hentry]
      rfl

end Sys2Proof.Machine

/-! PROOFS. Temperature, fans and the peak allowance (R68, R477-R480). -/

namespace Sys2Proof.Machine

/-! ## What a frame that leaves does not touch -/

/-- The parts of the state that the ports and the copies leave alone. -/
def heatView (s : State) : Power × Mem × WallTime := (s.pwr, s.mem, s.wt)

theorem heatView_traceMark (s : State) (sel : Traced → Bool) (f : Traced → Traced) : heatView (traceMark s sel f) = heatView s := rfl

theorem heatView_startFrame (s : State) (p : Nat) (f : Frame) (built : Bool) : heatView (startFrame s p f built) = heatView s := by
  unfold startFrame markSent
  dsimp only
  split
  · rfl
  · split
    · rw [heatView_traceMark]; rfl
    · rfl

/-- A port goes on as it is, or starts one frame. -/
theorem portGo_cases (s : State) (p : Nat) :
    portGo s p = s ∨ ∃ g f b, portGo s p = startFrame (s.modPort p g) p f b := by
  unfold portGo
  dsimp only
  split
  · exact .inl rfl
  · split
    · split
      · exact .inr ⟨_, _, _, rfl⟩
      · split
        · exact .inr ⟨_, _, _, rfl⟩
        · split
          · split
            · exact .inr ⟨_, _, _, rfl⟩
            · exact .inl rfl
          · exact .inl rfl
    · split
      · exact .inr ⟨_, _, _, rfl⟩
      · split
        · split
          · exact .inr ⟨_, _, _, rfl⟩
          · exact .inl rfl
        · exact .inl rfl

theorem heatView_portGo (s : State) (p : Nat) : heatView (portGo s p) = heatView s := by
  rcases portGo_cases s p with h | ⟨g, f, b, h⟩
  · rw [h]
  · rw [h, heatView_startFrame]
    rfl

theorem heatView_sendBuilt {s : State} {p : Nat} (f : Frame) (hup : (s.port p).linkUp = true) :
    heatView (sendBuilt s p f) = heatView s := by
  unfold sendBuilt portKick
  rw [if_pos (by rw [State.port_modPort, if_pos rfl]; exact hup)]
  exact heatView_portGo _ p

theorem heatView_raiseFault (s : State) (f : Nat) : heatView (raiseFault s f) = heatView s := by
  rw [heatView, raiseFault_pwr, raiseFault_mem, raiseFault_wt]
  rfl

theorem heatView_pendSrc (s : State) (n : Nat) : heatView (pendSrc s n) = heatView s := by
  rw [heatView, pendSrc_pwr, pendSrc_mem, pendSrc_wt]
  rfl

theorem heatView_pieceFailed (s : State) (k status : Nat) : heatView (pieceFailed s k status) = heatView s := by
  unfold pieceFailed
  split
  · rfl
  · dsimp only
    rw [dmaFail, heatView, completeWith_pwr, completeWith_mem, completeWith_wt]
    split
    · rfl
    · rw [setStatus_pwr, setStatus_mem, setStatus_wt]
      rfl

theorem heatView_failUnlinked (s : State) : heatView (failUnlinked s) = heatView s := by
  unfold failUnlinked
  split
  · rfl
  · refine foldl_leaves (view := heatView) (fun t c => ?_) _ s
    dsimp only
    split
    · exact heatView_pieceFailed _ _ _
    · rfl

theorem heatView_pump (s : State) : heatView (pump s) = heatView s := by
  obtain ⟨d, r, q, h⟩ := pumped_pump s
  rw [h]
  rfl

theorem heatView_dealPieces (s : State) : heatView (dealPieces s) = heatView s := by
  unfold dealPieces
  split
  · rfl
  · rw [heatView_pump, heatView_failUnlinked]
    refine foldl_leaves (view := heatView) (fun t p => ?_) _ s
    split <;> rfl

/-! ## Samples -/

theorem setFans_power (s : State) : (setFans s).mem = s.mem ∧ (setFans s).wt = s.wt ∧ (setFans s).regs = s.regs ∧ ∃ v, (setFans s).pwr = { s.pwr with fanSpeed := v } := by
  unfold setFans
  split <;> exact ⟨rfl, rfl, rfl, _, rfl⟩

theorem setFans_full {s : State} (h : s.pwr.fansFailed ≠ 0) : setFans s = s.modPwr fun p => { p with fanSpeed := 100 } := if_pos h

/-- What the warnings at 100 °C and 105 °C leave. -/
theorem heatView_warnStep (s : State) (w t : Bool) : heatView (warnStep s w t) = ({ s.pwr with over100 := w, over105 := t }, s.mem, s.wt) := by
  have hraise : ∀ (c : Bool) (u : State) (f : Nat), heatView (if c then raiseFault u f else u) = heatView u := fun c u f => by
    cases c
    · rfl
    · exact heatView_raiseFault u f
  have hset : ∀ u : State, heatView u = heatView s →
      heatView (u.modPwr fun p => { p with over100 := w, over105 := t }) = ({ s.pwr with over100 := w, over105 := t }, s.mem, s.wt) := fun u hu => by
    simp only [heatView, Prod.mk.injEq] at hu
    obtain ⟨hpwr, hmem, hwt⟩ := hu
    rw [heatView, State.modPwr_pwr, State.modPwr_mem, State.modPwr_wt, hpwr, hmem, hwt]
  unfold warnStep
  dsimp only
  split
  · rw [heatView_pendSrc, heatView_dealPieces]
    exact hset _ ((hraise _ _ _).trans (hraise _ _ _))
  · rw [heatView_dealPieces]
    exact hset _ ((hraise _ _ _).trans (hraise _ _ _))

/-- What the begin of the stop at 120 °C leaves. -/
theorem heatView_tempStopBegin (s : State) :
    heatView (tempStopBegin s) = ({ s.pwr with tempStop := true, stopAt := some (s.wt.now + 1600) }, s.mem, s.wt) := by
  unfold tempStopBegin
  refine (foldl_leaves (view := heatView) (fun t p => ?_) _ _).trans (heatView_raiseFault _ _)
  split
  next hup => exact heatView_sendBuilt _ hup
  next => rfl

/-- The thresholds after a sample whose hottest die is at h (Table 19-8). -/
def sampledPower (p : Power) (ts : List (BitVec 16)) (fan : Nat) : Power :=
  { p with temps := ts, fanSpeed := fan, over100 := above p.over100 (tempOf (hottest ts).2) 100 97
           over105 := above p.over105 (tempOf (hottest ts).2) 105 100 }

/-- The hottest die has reached 120 °C in a module that is not stopping. -/
def stopDue (s : State) (ts : List (BitVec 16)) : Bool :=
  decide (120 * 16 ≤ tempOf (hottest ts).2) && !s.pwr.tempStop && s.pwr.phase != .stopped

/-- The state after a sample, but for the stop that it may begin. -/
def warned (s : State) (ts : List (BitVec 16)) : State :=
  warnStep (setFans (s.modPwr fun p => { p with temps := ts })) (above s.pwr.over100 (tempOf (hottest ts).2) 100 97)
    (above s.pwr.over105 (tempOf (hottest ts).2) 105 100)

theorem dieSample_of_locked {s : State} {ts : List (BitVec 16)} (hlen : ts.length = 24) (hlock : s.pwr.pllLocked = true) :
    dieSample s ts = if stopDue s ts then pendSrc (tempStopBegin (warned s ts)) 2 else warned s ts :=
  if_neg (by simp [hlen, hlock])

theorem dieSample_idle {s : State} {ts : List (BitVec 16)} (h : ts.length ≠ 24 ∨ s.pwr.pllLocked = false) : dieSample s ts = s :=
  if_pos (h.imp id fun h => by rw [h]; rfl)

theorem heatView_warned (s : State) (ts : List (BitVec 16)) : ∃ fan, heatView (warned s ts) = (sampledPower s.pwr ts fan, s.mem, s.wt) := by
  obtain ⟨hmem, hwt, -, fan, hpwr⟩ := setFans_power (s.modPwr fun p => { p with temps := ts })
  refine ⟨fan, ?_⟩
  rw [warned, heatView_warnStep, hpwr, hmem, hwt]
  rfl

theorem above_iff (was : Bool) (t up release : Int) :
    above was t up release = true ↔ (if was then release * 16 ≤ t else up * 16 ≤ t) := by
  unfold above
  split <;> exact decide_eq_true_iff

/-- What a sample leaves (R477, R479). -/
theorem dieSample_leaves {s : State} {ts : List (BitVec 16)} (hlen : ts.length = 24) (hlock : s.pwr.pllLocked = true) :
    ∃ fan, (dieSample s ts).mem = s.mem ∧ (dieSample s ts).pwr =
      if stopDue s ts then { sampledPower s.pwr ts fan with tempStop := true, stopAt := some (s.wt.now + 1600) }
      else sampledPower s.pwr ts fan := by
  obtain ⟨fan, hwarned⟩ := heatView_warned s ts
  simp only [heatView, Prod.mk.injEq] at hwarned
  obtain ⟨hpwr, hmem, hwt⟩ := hwarned
  refine ⟨fan, ?_⟩
  rw [dieSample_of_locked hlen hlock]
  split
  · have hstop := (heatView_pendSrc (tempStopBegin (warned s ts)) 2).trans (heatView_tempStopBegin (warned s ts))
    simp only [heatView, Prod.mk.injEq] at hstop
    obtain ⟨hpwr', hmem', -⟩ := hstop
    exact ⟨hmem'.trans hmem, by rw [hpwr', hpwr, hwt]⟩
  · exact ⟨hmem, hpwr⟩

/-! ## The stop, the fans and the allowance -/

/-- A property of the default and of every value that f gives holds of what a map that applies f shows. -/
theorem mget_map {α β : Type} {P : β → Prop} {f : α → β} (e : β) (he : P e) (hf : ∀ v, P (f v)) (k : Nat) :
    ∀ m : Map α, P (mget e (m.map fun p => (p.1, f p.2)) k)
  | [] => he
  | (i, v) :: m => by
    rw [List.map_cons, mget]
    split
    · exact hf v
    · exact mget_map e he hf k m

/-- A module that has stopped has no launch slot armed and no port or peer link up (R479). -/
theorem stopModule_quiet (s : State) : (∀ n, ((stopModule s).slot n).armed = false) ∧ (∀ p, ((stopModule s).port p).linkUp = false)
    ∧ (stopModule s).peerE.linkUp = false ∧ (stopModule s).peerW.linkUp = false := by
  obtain ⟨p, hp, -⟩ := devEvent_eq_withPend s { s with
    pwr := { s.pwr with phase := .stopped, domains := stoppedDomains s.pwr, stopAt := none }
    wt := { s.wt with slots := s.wt.slots.map fun p => (p.1, { p.2 with armed := false }) }
    eg := { s.eg with ports := s.eg.ports.map fun p => (p.1, { p.2 with linkUp := false }) }
    peerE := { s.peerE with linkUp := false }
    peerW := { s.peerW with linkUp := false } }
  rw [stopModule, hp]
  refine ⟨fun n => ?_, fun n => ?_, rfl, rfl⟩
  · exact mget_map (P := fun l : LSlot => l.armed = false) (f := fun l : LSlot => { l with armed := false }) {} rfl (fun _ => rfl) n s.wt.slots
  · exact mget_map (P := fun x : Port => x.linkUp = false) (f := fun x : Port => { x with linkUp := false }) {} rfl (fun _ => rfl) n s.eg.ports

theorem tempHalt_of_due {s : State} {k : Nat} (h : s.pwr.stopAt = some k) (hdue : k ≤ s.wt.now) :
    tempHalt s = stopModule ((List.range 64).foldl stopBreach s) := by
  unfold tempHalt
  rw [h]
  exact if_pos hdue

theorem tempHalt_early {s : State} {k : Nat} (h : s.pwr.stopAt = some k) (hearly : s.wt.now < k) : tempHalt s = s := by
  unfold tempHalt
  rw [h]
  exact if_neg (Nat.not_le.mpr hearly)

theorem tempHalt_idle {s : State} (h : s.pwr.stopAt = none) : tempHalt s = s := by
  unfold tempHalt
  rw [h]

theorem fanFail_of_locked {s : State} (i : Nat) (h : s.pwr.pllLocked = true) :
    fanFail s i = setFans (raiseFault (s.modPwr fun p => { p with fansFailed := p.fansFailed ||| BitVec.ofNat 4 (2 ^ i) }) 275) := if_pos h

theorem getLsbD_or_twoPow (x : BitVec 4) (i : Fin 4) : (x ||| BitVec.ofNat 4 (2 ^ i.val)).getLsbD i.val = true := by
  rw [BitVec.getLsbD_or, BitVec.getLsbD_ofNat, Nat.testBit_two_pow_self, decide_eq_true i.isLt]
  exact Bool.or_true _

/-- The allowance stays within 120 s and shrinks only where the pixel path is above 55 °C (R68). -/
theorem allowance_bounds {left : Nat} (sustain pdie : Nat) (tref : Int) (h : left ≤ 120000000) :
    allowance left sustain pdie tref ≤ 120000000 ∧ (tref ≤ 55 * 16 → left ≤ allowance left sustain pdie tref) := by
  unfold allowance
  split
  next hhot => exact ⟨by omega, fun hcool => by omega⟩
  · split
    · exact ⟨Nat.min_le_left _ _, fun _ => Nat.le_min.mpr ⟨h, by omega⟩⟩
    · exact ⟨h, fun _ => Nat.le_refl _⟩

/-- The allowance that an update leaves. -/
def nextAllowance (s : State) : Nat :=
  allowance s.pwr.peakLeft (fld (s.reg Off.admitSustain) 15 0) (Config.freeNat s.free) (tempOf s.pwr.tref)

/-- The state of an update before work that is held no longer goes on. -/
def peaked (s : State) : State :=
  { s with
    free := s.free + 1
    pwr := { s.pwr with
      peakLeft := nextAllowance s, throttled := nextAllowance s == 0 || (s.pwr.throttled && decide (nextAllowance s < 12000000))
      peakAt := s.wt.now + msTicks 10 } }

theorem peakUpdate_of_due {s : State} (hserve : s.serving = true) (hdue : s.pwr.peakAt ≤ s.wt.now) : peakUpdate s = dealPieces (peaked s) :=
  if_pos (by rw [hserve, decide_eq_true hdue]; rfl)

theorem peakUpdate_idle {s : State} (h : s.serving = false ∨ s.wt.now < s.pwr.peakAt) : peakUpdate s = s := by
  refine if_neg ?_
  rw [Bool.and_eq_true, decide_eq_true_eq]
  rintro ⟨hserve, hdue⟩
  rcases h with h | h
  · rw [hserve] at h; cases h
  · omega

/-- Settles O52, by the power state that a sample leaves, what a stopped module shows, and the bounds of the allowance. -/
theorem temperatureAndPeakAllowance : Obligations.TemperatureAndPeakAllowance := by
  unfold Obligations.TemperatureAndPeakAllowance
  refine ⟨?_, fun s => ⟨fun k hk hdue => ?_, fun k hk hearly => congrArg Host.Outcome.next (tempHalt_early hk hearly),
    fun hnone => congrArg Host.Outcome.next (tempHalt_idle hnone), fun v hlock => ?_, fun v hlock => ?_, fun i hlock => ?_,
    fun h => congrArg Host.Outcome.next (peakUpdate_idle h), fun hserve hdue hleft => ?_⟩⟩
  · intro ts s h
    refine ⟨fun hidle => congrArg Host.Outcome.next (dieSample_idle hidle), fun hlen hlock => ?_⟩
    obtain ⟨fan, hmem, hpwr⟩ := dieSample_leaves hlen hlock
    have hcold : h < 120 * 16 → stopDue s ts = false := fun hlt => by
      rw [stopDue, decide_eq_false (Int.not_le.mpr hlt)]
      rfl
    refine ⟨dieSample s ts, rfl, ?_, ?_, ?_, fun hhot hstop hphase => ?_, fun hlt => ?_, ?_, by rw [hmem]⟩
    · rw [hpwr]; split <;> rfl
    · rw [← above_iff, hpwr]; split <;> exact Iff.rfl
    · rw [← above_iff, hpwr]; split <;> exact Iff.rfl
    · have hdue : stopDue s ts = true := by
        rw [stopDue, decide_eq_true hhot, hstop, Bool.not_false, Bool.true_and, Bool.true_and, bne_iff_ne]
        exact hphase
      rw [hpwr, if_pos hdue]
      exact ⟨rfl, rfl⟩
    · rw [hpwr, if_neg (by rw [hcold hlt]; exact Bool.false_ne_true)]
      rfl
    · rw [hpwr]; split <;> rfl
  · exact ⟨_, congrArg Host.Outcome.next (tempHalt_of_due hk hdue), by rw [stopModule_power], stopModule_quiet _⟩
  · obtain ⟨-, -, hregs, fan, hpwr⟩ := setFans_power (s.modPwr fun p => { p with tref := v })
    refine ⟨_, congrArg Host.Outcome.next (if_pos hlock), ?_, ?_, hregs⟩
    · rw [hpwr]; rfl
    · rw [hpwr]; rfl
  · exact congrArg Host.Outcome.next (if_neg (by rw [hlock]; exact Bool.false_ne_true))
  · have hfailed := getLsbD_or_twoPow s.pwr.fansFailed i
    have hraised : (raiseFault (s.modPwr fun p => { p with fansFailed := p.fansFailed ||| BitVec.ofNat 4 (2 ^ i.val) }) 275).pwr
        = { s.pwr with fansFailed := s.pwr.fansFailed ||| BitVec.ofNat 4 (2 ^ i.val) } := raiseFault_pwr _ _
    have hne : s.pwr.fansFailed ||| BitVec.ofNat 4 (2 ^ i.val) ≠ 0 := fun hzero => by
      rw [hzero] at hfailed
      simp at hfailed
    have hop := (fanFail_of_locked i.val hlock).trans (setFans_full (by rw [hraised]; exact hne))
    refine ⟨_, congrArg Host.Outcome.next hop, ?_, rfl, ?_⟩
    · rw [State.modPwr_pwr, hraised]
      exact hfailed
    · exact raiseFault_bit (f := 275) (l := 0) rfl _
  · obtain ⟨hbound, hcool⟩ := allowance_bounds (fld (s.reg Off.admitSustain) 15 0) (Config.freeNat s.free) (tempOf s.pwr.tref) hleft
    refine ⟨peaked s, congrArg Host.Outcome.next (peakUpdate_of_due hserve hdue), rfl, hbound, hcool, fun hgone => ?_, fun hback => ?_, rfl, rfl, rfl⟩
    · have hzero : nextAllowance s = 0 := hgone
      simp only [peaked, hzero, beq_self_eq_true, Bool.true_or]
    · have hge : 12000000 ≤ nextAllowance s := hback
      simp only [peaked, decide_eq_false (Nat.not_lt.mpr hge), Bool.and_false, Bool.or_false]
      exact beq_false_of_ne (by omega)

end Sys2Proof.Machine

/-! PROOFS. Non-volatile memory: stores, firmware images and trims (R481-R485). -/

namespace Sys2Proof.Machine

/-! ## Starting and ending jobs (R481) -/

theorem exec_nvmStore_of_fields {s t : State} {sq : Fin 1024} {d : Desc} {ref : CmdRef} (h : Starts s sq d ref t)
    (hf : hdrOk d 0x58 [] = true) :
    exec (.nvmStore sq d) s = .next (check (!storing t) St.stateConflict ref t fun s => offerNvm s (.store ref {})) :=
  (runCmd_of_starts h _).trans (congrArg _ (check_of_true hf _ _ _ _))

theorem offerNvm_of_busy {s : State} (h : s.nvm.writing.isSome = true) (k : NvmJob) :
    offerNvm s k = s.modNvm fun n => { n with waiting := n.waiting ++ [k] } := if_pos h

theorem offerNvm_of_free {s : State} (h : s.nvm.writing = none) (j : NvmJob) : offerNvm s j = startNvm s j :=
  if_neg (by rw [h]; exact Bool.false_ne_true)

/-- The state of NVM while a store writes. -/
def storingNvm (s : State) (ref : CmdRef) : Nvm :=
  { modSpareBank s.nvm (storeToB s.nvm) writtenBank with writing := some (.store ref (snapSettings s)) }

/-- A store that starts changes NVM and pending bits alone. -/
theorem startStore_frame (s : State) (ref : CmdRef) : ∃ p, startStore s ref = ({ s with nvm := storingNvm s ref }).withPend p := by
  obtain ⟨p, hp, -⟩ := devEvent_eq_withPend s ({ s with nvm := storingNvm s ref })
  exact ⟨p, hp⟩

theorem modSpareBank_toB (n : Nvm) (f : Bank → Bank) :
    (modSpareBank n true f).bankA = n.bankA ∧ (modSpareBank n true f).bankB = f n.bankB := ⟨rfl, rfl⟩

theorem modSpareBank_toA (n : Nvm) (f : Bank → Bank) :
    (modSpareBank n false f).bankB = n.bankB ∧ (modSpareBank n false f).bankA = f n.bankA := ⟨rfl, rfl⟩

/-- The end of a job with nothing waiting moves NVM and pending bits alone. -/
theorem endNvm_frame {s : State} (h : s.nvm.waiting = []) :
    ∃ p, endNvm s = ({ s with nvm := { s.nvm with writing := none, waiting := [] } }).withPend p := by
  obtain ⟨p, hp, -⟩ := devEvent_eq_withPend s (s.modNvm fun n => { n with writing := none })
  refine ⟨p, ?_⟩
  have hwait : (devEvent s (s.modNvm fun n => { n with writing := none })).nvm.waiting = [] := by rw [hp]; exact h
  unfold endNvm
  dsimp only
  rw [hwait, hp]
  rfl

/-! ## Stores (R482) -/

theorem storeDone_of_serving {s : State} {ref : CmdRef} {x : Settings} (h : s.nvm.writing = some (.store ref x)) (hserve : s.serving = true)
    (ok : Bool) : storeDone s ok = storeEnd s ref x ok := by
  unfold storeDone
  rw [h]
  exact if_pos hserve

theorem storeDone_idle {s : State} {ref : CmdRef} {x : Settings} (h : s.nvm.writing = some (.store ref x)) (hserve : s.serving = false)
    (ok : Bool) : storeDone s ok = s := by
  unfold storeDone
  rw [h]
  exact if_neg (by rw [hserve]; exact Bool.false_ne_true)

/-- The bank that a store has written, once its read-back is good. -/
def storedNvm (n : Nvm) (x : Settings) : Nvm :=
  modSpareBank n (storeToB n) fun b => { b with valid := true, seq := nextSeq n, settings := x }

theorem modSpareBank_waiting (n : Nvm) (b : Bool) (f : Bank → Bank) : (modSpareBank n b f).waiting = n.waiting := by
  cases b <;> rfl

/-- A good read-back makes the bank valid. -/
theorem storeEnd_good {s : State} (ref : CmdRef) (x : Settings) (h : s.nvm.waiting = []) :
    (storeEnd s ref x true).nvm = { storedNvm s.nvm x with writing := none, waiting := [] } := by
  have hnvm : (complete (s.modNvm fun n => modSpareBank n (storeToB n) fun b => { b with valid := true, seq := nextSeq s.nvm, settings := x })
      ref St.ok (nextSeq s.nvm) 0 0).nvm = storedNvm s.nvm x := complete_nvm _ _ _ _ _ _
  obtain ⟨p, hp⟩ := endNvm_frame (s := complete (s.modNvm fun n => modSpareBank n (storeToB n) fun b =>
    { b with valid := true, seq := nextSeq s.nvm, settings := x }) ref St.ok (nextSeq s.nvm) 0 0)
    (by rw [hnvm, storedNvm, modSpareBank_waiting, h])
  have hend : storeEnd s ref x true = pendSrc (endNvm (complete (s.modNvm fun n => modSpareBank n (storeToB n) fun b =>
    { b with valid := true, seq := nextSeq s.nvm, settings := x }) ref St.ok (nextSeq s.nvm) 0 0)) 3 := rfl
  rw [hend, pendSrc_nvm, hp, ← hnvm]
  rfl

/-- A bad read-back sets bit 1 of `NVM_STATUS` and leaves the banks. -/
theorem failedWrite_leaves {s : State} (ref : CmdRef) (h : s.nvm.waiting = []) :
    (endNvm (completeWith (setStatus s Off.nvmStatus 2) ref St.nvmFailed)).nvm = { s.nvm with writing := none, waiting := [] }
      ∧ bit ((endNvm (completeWith (setStatus s Off.nvmStatus 2) ref St.nvmFailed)).reg Off.nvmStatus) 1 = true := by
  have hnvm : (completeWith (setStatus s Off.nvmStatus 2) ref St.nvmFailed).nvm = s.nvm := by
    rw [completeWith_nvm, setStatus_nvm]
  obtain ⟨p, hp⟩ := endNvm_frame (s := completeWith (setStatus s Off.nvmStatus 2) ref St.nvmFailed) (by rw [hnvm, h])
  rw [hp]
  refine ⟨by rw [← hnvm]; rfl, ?_⟩
  have hbit : bit ((completeWith (setStatus s Off.nvmStatus 2) ref St.nvmFailed).reg Off.nvmStatus) 1 = true := by
    rw [completeWith_reg (by decide)]
    exact setStatus_bit (by decide) rfl s _
  exact hbit

theorem storeEnd_bad {s : State} (ref : CmdRef) (x : Settings) (h : s.nvm.waiting = []) :
    (storeEnd s ref x false).nvm = { s.nvm with writing := none, waiting := [] }
      ∧ bit ((storeEnd s ref x false).reg Off.nvmStatus) 1 = true := by
  have hend : storeEnd s ref x false = pendSrc (endNvm (completeWith (setStatus s Off.nvmStatus 2) ref St.nvmFailed)) 3 := rfl
  rw [hend, pendSrc_nvm, pendSrc_reg]
  exact failedWrite_leaves ref h

/-! ## Firmware images (R484) -/

/-- The slot that runs. -/
def runningSlot (n : Nvm) : FwSlot := if n.running1 then n.slot1 else n.slot0

theorem setSpareSlot_spare (n : Nvm) (f : FwSlot) : spareSlot (setSpareSlot n f) = f ∧ runningSlot (setSpareSlot n f) = runningSlot n
    ∧ (setSpareSlot n f).bankA = n.bankA ∧ (setSpareSlot n f).bankB = n.bankB ∧ (setSpareSlot n f).waiting = n.waiting
    ∧ (setSpareSlot n f).writing = n.writing := by
  cases h : n.running1 with
  | false => simp [setSpareSlot, spareSlot, runningSlot, h]
  | true => simp [setSpareSlot, spareSlot, runningSlot, h]

theorem exec_firmwareStage_of_fields {s t : State} {sq : Fin 1024} {d : Desc} {ref : CmdRef} (h : Starts s sq d ref t)
    (hf : hdrOk d 0x59 [(9, 1), (16, 12)] = true) (hkind : descFld d 9 1 = 0 ∨ descFld d 9 1 = 2) (hup : linkUp t = true) (bs : List Byte) :
    exec (.firmwareStage sq d (.ok bs)) s =
      .next (offerNvm t (.stage ref (if bs.length = descFld d 24 4 then imageRelease bs else none))) := by
  have hok : (hdrOk d 0x59 [(9, 1), (16, 12)] && (descFld d 9 1 == 0 || descFld d 9 1 == 2)) = true := by
    rw [hf, Bool.true_and, Bool.or_eq_true, beq_iff_eq, beq_iff_eq]
    exact hkind
  exact (runCmd_of_starts h _).trans (congrArg _ ((check_of_true hok _ _ _ _).trans (fetchOf_ok hup _ _ _)))

/-- A stage that starts empties the slot that does not run; a bad image ends it at once (R484). -/
theorem startStage_leaves {s : State} (h : s.nvm.writing = none) (ref : CmdRef) (rel : Option Nat) :
    runningSlot (startStage s ref rel).nvm = runningSlot s.nvm ∧ (spareSlot (startStage s ref rel).nvm).empty = true
      ∧ (startStage s ref rel).nvm.staged = false ∧ (startStage s ref rel).mem = s.mem
      ∧ (startStage s ref rel).nvm.writing = rel.map fun k => NvmJob.stage ref (some k) := by
  obtain ⟨hspare, hrun, -, -, -, hwriting⟩ := setSpareSlot_spare s.nvm {}
  cases rel with
  | some k => exact ⟨hrun, congrArg FwSlot.empty hspare, rfl, rfl, rfl⟩
  | none =>
    have hop : startStage s ref none = completeWith (s.modNvm fun n => { setSpareSlot n {} with staged := false }) ref St.invalidField := rfl
    rw [hop, completeWith_nvm, completeWith_mem]
    exact ⟨hrun, congrArg FwSlot.empty hspare, rfl, rfl, hwriting.trans h⟩

theorem exec_firmwareActivate_of_fields {s t : State} {sq : Fin 1024} {d : Desc} {ref : CmdRef} (h : Starts s sq d ref t)
    (hf : hdrOk d 0x5A [] = true) : exec (.firmwareActivate sq d) s = .next (check t.nvm.staged St.stateConflict ref t fun s =>
      completeWith (s.modNvm fun n => { n with activated := some ref }) ref St.ok) :=
  (runCmd_of_starts h _).trans (congrArg _ (check_of_true hf _ _ _ _))

theorem stageDone_of_serving {s : State} {ref : CmdRef} {k : Nat} (h : s.nvm.writing = some (.stage ref (some k)))
    (hserve : s.serving = true) (ok : Bool) : stageDone s ok = stageEnd s ref k ok := by
  unfold stageDone
  rw [h]
  exact if_pos hserve

/-- The state of NVM with an image staged. -/
def stagedNvm (n : Nvm) (k : Nat) : Nvm := { setSpareSlot n ⟨false, k⟩ with staged := true }

theorem stageEnd_good {s : State} (ref : CmdRef) (k : Nat) (h : s.nvm.waiting = []) :
    (stageEnd s ref k true).nvm = { stagedNvm s.nvm k with writing := none, waiting := [] } := by
  obtain ⟨-, -, -, -, hwait, -⟩ := setSpareSlot_spare s.nvm ⟨false, k⟩
  have hnvm : (completeWith (s.modNvm fun n => stagedNvm n k) ref St.ok).nvm = stagedNvm s.nvm k := completeWith_nvm _ _ _
  obtain ⟨p, hp⟩ := endNvm_frame (s := completeWith (s.modNvm fun n => stagedNvm n k) ref St.ok) (by rw [hnvm]; exact hwait.trans h)
  have hend : stageEnd s ref k true = endNvm (completeWith (s.modNvm fun n => stagedNvm n k) ref St.ok) := rfl
  rw [hend, hp, ← hnvm]
  rfl

theorem stageEnd_bad {s : State} (ref : CmdRef) (k : Nat) (h : s.nvm.waiting = []) :
    (stageEnd s ref k false).nvm = { s.nvm with writing := none, waiting := [] }
      ∧ bit ((stageEnd s ref k false).reg Off.nvmStatus) 1 = true := failedWrite_leaves ref h

/-! ## Trims (R485) -/

theorem pixelTrim_of_startTrim {i : Nat} (h : startTrim i = true) : pixelTrim i = false := by
  simp only [startTrim, Bool.or_eq_true, Bool.and_eq_true, decide_eq_true_eq] at h
  simp only [pixelTrim, Bool.and_eq_false_iff, decide_eq_false_iff_not]
  omega

theorem trimDue_iff (s : State) (i : Nat) : trimDue s i = true
    ↔ (startTrim i = true → s.pwr.phase = .training) ∧ (pixelTrim i = true → someRunning s = false) := by
  unfold trimDue
  split
  next hstart =>
    rw [pixelTrim_of_startTrim hstart, beq_iff_eq]
    exact ⟨fun h => ⟨fun _ => h, fun h => absurd h Bool.false_ne_true⟩, fun h => h.1 hstart⟩
  next hstart =>
    split
    next hpixel =>
      rw [Bool.not_eq_true']
      exact ⟨fun h => ⟨fun h => absurd h hstart, fun _ => h⟩, fun h => h.2 hpixel⟩
    next hpixel => exact ⟨fun _ => ⟨fun h => absurd h hstart, fun h => absurd h hpixel⟩, fun _ => rfl⟩

theorem trimStep_of_due {s : State} {i : Nat} (h : trimDue s i = true) :
    trimStep s i = s.modNvm fun n => { n with trims := mset {} n.trims i (inForceTrim (mget {} n.trims i)) } := if_pos h

/-- Settles O53, by what starting and ending a job leaves in NVM, and the two kinds of trims. -/
theorem storesAndImages : Obligations.StoresAndImages := by
  unfold Obligations.StoresAndImages
  refine ⟨⟨fun sq d s t ref h hf => ⟨fun hstoring => ?_, fun r k hstage => ?_, fun hfree => ?_⟩,
    fun ok s ref x hwriting hwait => ⟨fun hserve => ?_, fun hserve => ?_⟩⟩, ?_⟩
  · exact (exec_nvmStore_of_fields h hf).trans (congrArg _ (check_of_false (by rw [hstoring]; rfl) _ _ _ _))
  · have hstoring : storing t = false := by rw [storing, hstage]
    refine (exec_nvmStore_of_fields h hf).trans (congrArg _ ((check_of_true (by rw [hstoring]; rfl) _ _ _ _).trans ?_))
    exact offerNvm_of_busy (by rw [hstage]; rfl) _
  · have hstoring : storing t = false := by rw [storing, hfree]
    obtain ⟨p, hp⟩ := startStore_frame t ref
    have hop : offerNvm t (.store ref {}) = ({ t with nvm := storingNvm t ref } : State).withPend p :=
      (offerNvm_of_free hfree _).trans hp
    refine ⟨_, (exec_nvmStore_of_fields h hf).trans (congrArg Host.Outcome.next
      ((check_of_true (by rw [hstoring]; rfl) _ _ _ _).trans hop)), rfl, fun hB => ?_, fun hA => ?_, rfl, rfl, rfl⟩
    · dsimp only [State.withPend, State.withIntc, storingNvm]
      rw [hB]
      exact ⟨rfl, rfl, rfl⟩
    · dsimp only [State.withPend, State.withIntc, storingNvm]
      rw [hA]
      exact ⟨rfl, rfl, rfl⟩
  · exact congrArg Host.Outcome.next (storeDone_idle hwriting hserve ok)
  · have hop := storeDone_of_serving hwriting hserve ok
    cases ok with
    | true =>
      have hnvm := storeEnd_good ref x hwait
      refine ⟨_, congrArg Host.Outcome.next hop, ?_, fun hB => ?_, fun hA => ?_, fun _ hB => ?_, fun _ hA => ?_, fun hbad => by cases hbad⟩
      · rw [hnvm]
      · rw [hnvm, storedNvm, hB]; rfl
      · rw [hnvm, storedNvm, hA]; rfl
      · rw [hnvm, storedNvm, hB]; exact ⟨rfl, rfl, rfl⟩
      · rw [hnvm, storedNvm, hA]; exact ⟨rfl, rfl, rfl⟩
    | false =>
      obtain ⟨hnvm, hbit⟩ := storeEnd_bad ref x hwait
      refine ⟨_, congrArg Host.Outcome.next hop, ?_, fun _ => ?_, fun _ => ?_, fun hgood => absurd hgood Bool.false_ne_true, fun hgood => absurd hgood Bool.false_ne_true,
        fun _ => ⟨?_, ?_, hbit⟩⟩ <;> rw [hnvm]
  · intro runs
    refine ⟨fun sq d bs s t ref h => ⟨fun hup hf hkind hfree => ?_, fun hf hstaged => ?_, fun hf hstaged => ?_⟩,
      fun ok s ref k hserve hwriting hwait => ?_, fun i s => ?_⟩
    · obtain ⟨hrun, hspare, hstaged, hmem, hwriting⟩ :=
        startStage_leaves hfree ref (if bs.length = descFld d 24 4 then imageRelease bs else none)
      refine ⟨_, (exec_firmwareStage_of_fields h hf hkind hup bs).trans (congrArg Host.Outcome.next (offerNvm_of_free hfree _)),
        hrun, hspare, hstaged, hmem, fun k hlen hrel => ?_, fun hbad => ?_⟩
      · refine hwriting.trans ?_
        rw [if_pos hlen, hrel]
        rfl
      · refine hwriting.trans ?_
        rcases hbad with hlen | hrel
        · rw [if_neg hlen]; rfl
        · rw [hrel, ite_self]; rfl
    · exact (exec_firmwareActivate_of_fields h hf).trans (congrArg _ (check_of_false hstaged _ _ _ _))
    · refine ⟨_, (exec_firmwareActivate_of_fields h hf).trans (congrArg Host.Outcome.next (check_of_true hstaged _ _ _ _)), ?_, ?_⟩
      · rw [completeWith_nvm]; rfl
      · rw [completeWith_nvm]; rfl
    · have hop := stageDone_of_serving hwriting hserve ok
      obtain ⟨hspare, hrun, hA, hB, -, -⟩ := setSpareSlot_spare s.nvm ⟨false, k⟩
      cases ok with
      | true =>
        have hnvm := stageEnd_good ref k hwait
        refine ⟨_, congrArg Host.Outcome.next hop, ?_, ?_, ?_, ?_, fun _ => ⟨?_, ?_⟩, fun hbad => by cases hbad⟩
        · rw [hnvm]
        · rw [hnvm]; exact hrun
        · rw [hnvm]; exact hA
        · rw [hnvm]; exact hB
        · rw [hnvm]; rfl
        · rw [hnvm]; exact hspare
      | false =>
        obtain ⟨hnvm, hbit⟩ := stageEnd_bad ref k hwait
        refine ⟨_, congrArg Host.Outcome.next hop, ?_, ?_, ?_, ?_, fun hgood => absurd hgood Bool.false_ne_true, fun _ => ⟨?_, ?_, hbit⟩⟩
        · rw [hnvm]
        · rw [hnvm]
        · rw [hnvm]
        · rw [hnvm]
        · rw [hnvm]
        · rw [hnvm]; rfl
    · intro due
      refine ⟨fun hnot => ?_, fun hdue => ?_, fun v x => rfl⟩
      · exact congrArg Host.Outcome.next (if_neg (mt (trimDue_iff s i.val).mp hnot))
      · refine ⟨_, congrArg Host.Outcome.next (trimStep_of_due ((trimDue_iff s i.val).mpr hdue)), mget_mset_same _ _ _ _, fun j hj => ?_, rfl, rfl⟩
        exact mget_mset_ne hj _ _ _ _

end Sys2Proof.Machine

/-! PROOFS. Mains, plug-in modules, tally snapshots and tracing (R471, R489-R493, R500, R507). -/

namespace Sys2Proof.Machine

/-! ## What a link that falls leaves -/

/-- What stands in the cages, and which ports' links are up. -/
def plugView (s : State) : Map Cage × (Nat → Bool) := (s.cages, fun q => (s.port q).linkUp)

theorem plugView_of_ports {s t : State} (hports : t.eg.ports = s.eg.ports) (hcages : t.cages = s.cages) : plugView t = plugView s := by
  have hport : ∀ q, t.port q = s.port q := fun q => by rw [State.port, hports, State.port]
  simp only [plugView, hcages, hport]

theorem plugView_of_eg {s t : State} (heg : t.eg = s.eg) (hcages : t.cages = s.cages) : plugView t = plugView s :=
  plugView_of_ports (congrArg Egress.ports heg) hcages

theorem plugView_modPort (s : State) (p : Nat) {f : Port → Port} (h : ∀ x, (f x).linkUp = x.linkUp) :
    plugView (s.modPort p f) = plugView s := by
  refine Prod.ext rfl (funext fun q => ?_)
  change ((s.modPort p f).port q).linkUp = (s.port q).linkUp
  rw [State.port_modPort]
  split
  next hq => rw [h, hq]
  · rfl

theorem plugView_setStatus (s : State) (off mask : Nat) : plugView (setStatus s off mask) = plugView s :=
  plugView_of_eg (setStatus_eg _ _ _) (setStatus_cages _ _ _)

theorem plugView_modPool (s : State) (p : Nat) (f : Pool → Pool) : plugView (s.modPool p f) = plugView s := rfl

theorem plugView_freeBuf (s : State) (p h : Nat) : plugView (freeBuf s p h) = plugView s := by
  have hlevel : ∀ t : State, plugView (relevel t) = plugView t := fun t => by
    unfold relevel
    dsimp only
    split
    · exact plugView_setStatus _ _ _
    · rfl
  exact (hlevel _).trans rfl

theorem plugView_decRef (s : State) (pool h : Nat) : plugView (decRef s pool h) = plugView s := by
  unfold decRef
  dsimp only
  split
  · exact (plugView_of_eg (raiseFault_eg _ _) (raiseFault_cages _ _)).trans (plugView_setStatus _ _ _)
  · split
    · exact plugView_freeBuf _ _ _
    · exact plugView_modPool _ _ _

theorem plugView_releaseFrame (s : State) (p : Nat) (f : Frame) : plugView (releaseFrame s p f) = plugView s := by
  unfold releaseFrame
  split
  · rfl
  · exact plugView_modPort s p fun _ => rfl
  · exact plugView_decRef _ _ _

theorem plugView_copyFate (s : State) (i p : Nat) (fate : Fate) : plugView (copyFate s i p fate) = plugView s := by
  have hdone : ∀ (t : State) (ref : CmdRef) (st r0 r1 : Nat),
      plugView (if st = St.ok then complete t ref St.ok r0 r1 0 else completeWith t ref st) = plugView t := fun t ref st r0 r1 => by
    split
    · exact plugView_of_eg (complete_eg _ _ _ _ _ _) (complete_cages _ _ _ _ _ _)
    · exact plugView_of_eg (completeWith_eg _ _ _) (completeWith_cages _ _ _)
  unfold copyFate
  dsimp only
  split
  · exact hdone _ _ _ _ _
  · rfl

theorem plugView_discardFrame (s : State) (p : Nat) (f : Frame) : plugView (discardFrame s p f) = plugView s := by
  have hlost : ∀ t : State, plugView (markLost t p f) = plugView t := fun t => by
    unfold markLost
    split <;> rfl
  unfold discardFrame dropFrame
  dsimp only
  split
  · rw [plugView_copyFate, hlost, plugView_releaseFrame]; rfl
  · rw [hlost, plugView_releaseFrame]; rfl

theorem plugView_discardAll (s : State) (p : Nat) : plugView (discardAll s p) = plugView s := by
  unfold discardAll
  dsimp only
  rw [foldl_leaves (view := plugView) (fun t f => plugView_discardFrame t p f)]
  exact plugView_modPort s p fun _ => rfl

/-- A link that falls is down; the other ports and the cages stay. -/
theorem plugView_linkFall (s : State) (p : Nat) :
    plugView (linkFall s p) = (s.cages, fun q => if q = p then false else (s.port q).linkUp) := by
  have hdown : plugView (s.modPort p fun x => { x with linkUp := false, blockLock := false, fecAlign := false })
      = (s.cages, fun q => if q = p then false else (s.port q).linkUp) := by
    refine Prod.ext rfl (funext fun q => ?_)
    change ((s.modPort p _).port q).linkUp = if q = p then false else (s.port q).linkUp
    rw [State.port_modPort]
    split <;> rfl
  unfold linkFall linkLost
  dsimp only
  split
  · rw [plugView_discardAll, plugView_setStatus, hdown]
  · exact hdown

/-- The four ports of a cage fall with its module. -/
theorem plugView_fallAll (c : Nat) (s : State) : plugView ([0, 1, 2, 3].foldl (fun t j => linkFall t (4 * c + j)) s)
    = (s.cages, fun q => if q / 4 = c then false else (s.port q).linkUp) := by
  have hone : ∀ (t : State) (j : Nat), (linkFall t j).cages = t.cages ∧ ∀ q, ((linkFall t j).port q).linkUp
      = if q = j then false else (t.port q).linkUp := fun t j =>
    ⟨congrArg Prod.fst (plugView_linkFall t j), fun q => congrFun (congrArg Prod.snd (plugView_linkFall t j)) q⟩
  refine Prod.ext ?_ (funext fun q => ?_)
  · change (linkFall (linkFall (linkFall (linkFall s (4 * c + 0)) (4 * c + 1)) (4 * c + 2)) (4 * c + 3)).cages = s.cages
    rw [(hone _ _).1, (hone _ _).1, (hone _ _).1, (hone _ _).1]
  · change ((linkFall (linkFall (linkFall (linkFall s (4 * c + 0)) (4 * c + 1)) (4 * c + 2)) (4 * c + 3)).port q).linkUp
      = if q / 4 = c then false else (s.port q).linkUp
    rw [(hone _ _).2, (hone _ _).2, (hone _ _).2, (hone _ _).2]
    by_cases hq : q / 4 = c
    · have hcase : q = 4 * c + 0 ∨ q = 4 * c + 1 ∨ q = 4 * c + 2 ∨ q = 4 * c + 3 := by omega
      rw [if_pos hq]
      rcases hcase with h | h | h | h <;> simp [h]
    · rw [if_neg hq, if_neg (by omega), if_neg (by omega), if_neg (by omega), if_neg (by omega)]

theorem plugView_peerFall (s : State) (e : Nat) : plugView (peerFall s e) = plugView s := by
  unfold peerFall peerFallTo
  split
  · rw [plugView_setStatus]
    exact plugView_of_eg (State.modPeer_eg _ _ _) (State.modPeer_cages _ _ _)
  · rfl

theorem peerFall_down (s : State) (e : Nat) : ((peerFall s e).peer e).linkUp = false := by
  unfold peerFall peerFallTo
  split
  · rw [setStatus_peer, State.peer_modPeer]
  next h => exact Bool.eq_false_of_not_eq_true h

theorem plugView_enterDown (s : State) : plugView (enterDown s) = plugView s := by
  obtain ⟨-, -, -, hports, hcages⟩ := enterDown_keeps_all s
  exact plugView_of_ports hports hcages

/-- The state with a cage emptied. -/
def emptied (s : State) (c : Nat) : State := { s with cages := mset {} s.cages c {} }

theorem unplug_port {c : Nat} (h : c < 8) (s : State) :
    unplug s c = [0, 1, 2, 3].foldl (fun t j => linkFall t (4 * c + j)) (emptied s c) := if_pos h

theorem unplug_peer {c : Nat} (h8 : 8 ≤ c) (h10 : c < 10) (s : State) : unplug s c = peerFall (emptied s c) (c - 8) := by
  unfold unplug
  dsimp only
  rw [if_neg (by omega), if_pos h10]
  rfl

theorem unplug_host {c : Nat} (h : 10 ≤ c) (s : State) : unplug s c = enterDown (emptied s c) := by
  unfold unplug
  dsimp only
  rw [if_neg (by omega), if_neg (by omega)]
  rfl

/-- A plug-in module in its cage (R500). -/
def pluggedCage (c mw : Nat) : Cage := { present := true, classMw := mw, lowPower := decide (cageLimit c < mw) }

/-- What a removed module takes with it (R500). -/
theorem plugView_unplug (s : State) (c : Nat) :
    plugView (unplug s c) = (mset {} s.cages c {}, fun q => if q / 4 = c ∧ c < 8 then false else (s.port q).linkUp) := by
  by_cases h8 : c < 8
  · rw [unplug_port h8, plugView_fallAll]
    simp only [h8, and_true]
    rfl
  · have hsame : plugView (emptied s c) = (mset {} s.cages c {}, fun q => if q / 4 = c ∧ c < 8 then false else (s.port q).linkUp) := by
      simp only [h8, and_false, if_false]
      rfl
    by_cases h10 : c < 10
    · rw [unplug_peer (Nat.not_lt.mp h8) h10, plugView_peerFall, hsame]
    · rw [unplug_host (Nat.not_lt.mp h10), plugView_enterDown, hsame]

/-! ## Mains -/

theorem powerDown_idle {s : State} (h : s.pwr.mainsLost = none) : powerDown s = s := by
  unfold powerDown
  rw [h]

theorem exec_mainsLoss (s : State) :
    exec .mainsLoss s = .next (if s.pwr.mainsLost.isSome then s else s.modPwr fun p => { p with mainsLost := some s.wt.now }) := rfl

/-! ## Snapshots and tracing -/

theorem snapOf_capture (s : State) (b c : Nat) :
    snapOf (capture s b) c = if c = b then { tick := some s.wallNow, values := s.tly.counts } else snapOf s c := by
  change mget {} (mset {} s.tly.snaps b { tick := some s.wallNow, values := s.tly.counts }) c = _
  rw [mget_mset]
  rfl

/-- The state whose buffers a `TALLY_SNAPSHOT` writes to the host. -/
def snapped (d : Desc) (s : State) : State := if descFld d 9 1 = 1 then s else capture s (descFld d 8 1)

theorem snapRun_leaves (ref : CmdRef) (d : Desc) (s : State) :
    (snapRun ref d s).tly = (snapped d s).tly ∧ (snapRun ref d s).mem = s.mem ∧ (snapRun ref d s).contracts = s.contracts := by
  have hsnap : (snapped d s).mem = s.mem ∧ (snapped d s).contracts = s.contracts := by
    unfold snapped
    split <;> exact ⟨rfl, rfl⟩
  exact ⟨complete_tly _ _ _ _ _ _, (complete_mem _ _ _ _ _ _).trans hsnap.1, (complete_contracts _ _ _ _ _ _).trans hsnap.2⟩

theorem snapOf_snapRun (ref : CmdRef) (d : Desc) (s : State) (b : Nat) : snapOf (snapRun ref d s) b = snapOf (snapped d s) b := by
  rw [snapOf, (snapRun_leaves ref d s).1, snapOf]

theorem exec_traceConfig_of_fields {s t : State} {sq : Fin 1024} {d : Desc} {ref : CmdRef} (h : Starts s sq d ref t)
    (hf : traceFields d = true) : exec (.traceConfig sq d) s = .next (check (!(t.tly.traceEn && descFld d 8 1 == 1)) St.stateConflict ref t
      fun s => completeWith (traceSet s d) ref St.ok) :=
  (runCmd_of_starts h _).trans (congrArg _ (check_of_true hf _ _ _ _))

/-- Records that wait go to the host; device memory is not touched. -/
theorem traceFlush_mem (s : State) : (traceFlush s).mem = s.mem := by
  unfold traceFlush
  split
  · rfl
  · refine foldl_leaves (view := State.mem) (fun t r => ?_) _ _
    rfl

theorem traceSet_on {d : Desc} (h : descFld d 8 1 = 1) (s : State) : traceSet s d = s.modTly fun t =>
    { t with traceEn := true, interval := descFld d 12 4, ringAddr := descFld d 16 8, ringBytes := descFld d 24 4, wptr := 0, traceSeq := 0
             drop := 0, lfsr := s.link.epochMod, items := [], staged := [] } := if_pos h

theorem traceSet_off {d : Desc} (h : descFld d 8 1 = 0) (s : State) :
    traceSet s d = (traceFlush s).modTly fun t => { t with traceEn := false, items := [] } := if_neg (by omega)

/-- Settles O54, by the links that fall with their module, the buffer that a snapshot captures and the settings of tracing. -/
theorem cagesSnapshotsAndTracing : Obligations.CagesSnapshotsAndTracing := by
  unfold Obligations.CagesSnapshotsAndTracing
  refine ⟨⟨fun s => ⟨fun hnone => ?_, fun hlost => ?_, ?_, fun v => ?_⟩, fun c mw s => ⟨?_, ?_⟩⟩,
    fun sq d s t ref h => ⟨fun hf => ?_, fun hf => ?_, fun hf => ?_, fun hf hon hen => ?_, fun hf hon hen => ?_, fun hf hoff => ?_⟩⟩
  · rw [exec_mainsLoss, hnone]
    exact ⟨_, rfl, rfl, rfl, rfl⟩
  · rw [exec_mainsLoss, if_pos (Option.isSome_iff_ne_none.mpr hlost)]
  · exact ⟨_, rfl, rfl, congrArg Host.Outcome.next (powerDown_idle rfl), rfl, rfl⟩
  · exact ⟨_, rfl, State.reg_setReg_same s _ _, fun o ho => State.reg_setReg_ne ho s _, rfl, rfl⟩
  · exact ⟨{ s with cages := mset {} s.cages c.val (pluggedCage c.val mw) }, rfl, mget_mset_same {} s.cages c.val (pluggedCage c.val mw), fun e he => (mget_mset_ne he {} {} s.cages (pluggedCage c.val mw)), rfl, rfl⟩
  · have hview := plugView_unplug s c.val
    have hcages : (unplug s c.val).cages = mset {} s.cages c.val {} := congrArg Prod.fst hview
    have hport : ∀ q, ((unplug s c.val).port q).linkUp = if q / 4 = c.val ∧ c.val < 8 then false else (s.port q).linkUp :=
      fun q => congrFun (congrArg Prod.snd hview) q
    refine ⟨unplug s c.val, rfl, ?_, fun e he => ?_, fun p hp h8 => ?_, fun p hp => ?_, fun h8 => ?_, fun h9 => ?_, fun h10 => ?_⟩
    · rw [hcages, mget_mset_same]
    · rw [hcages, mget_mset_ne he]
    · rw [hport, if_pos ⟨hp, h8⟩]
    · rw [hport, if_neg fun h => hp h.1]
    · rw [unplug_peer (by omega) (by omega), h8]
      exact peerFall_down _ 0
    · rw [unplug_peer (by omega) (by omega), h9]
      exact peerFall_down _ 1
    · rw [unplug_host (by omega)]
      exact (enterDown_keeps_all _).1
  · exact (runCmd_of_starts h _).trans (congrArg _ (check_of_false hf _ _ _ _))
  · obtain ⟨-, hmem, hcon⟩ := snapRun_leaves ref d t
    refine ⟨snapRun ref d t, (runCmd_of_starts h _).trans (congrArg Host.Outcome.next (check_of_true hf _ _ _ _)), hmem, hcon,
      fun b hb => ?_, fun hheld => ?_, fun hfresh => ?_⟩
    · rw [snapOf_snapRun, snapped]
      split
      · rfl
      · rw [snapOf_capture, if_neg hb]
    · rw [snapOf_snapRun, snapped, if_pos hheld]
    · rw [snapOf_snapRun, snapped, if_neg (by omega), snapOf_capture, if_pos rfl]
      exact ⟨rfl, rfl⟩
  · exact (runCmd_of_starts h _).trans (congrArg _ (check_of_false hf _ _ _ _))
  · exact (exec_traceConfig_of_fields h hf).trans (congrArg _ (check_of_false (by rw [hon, hen]; rfl) _ _ _ _))
  · refine ⟨_, (exec_traceConfig_of_fields h hf).trans (congrArg Host.Outcome.next
      ((check_of_true (by rw [hen]; rfl) _ _ _ _).trans (by rw [traceSet_on hon]))), ?_⟩
    rw [completeWith_tly, completeWith_mem]
    exact ⟨rfl, rfl, rfl, rfl, rfl, rfl, rfl, rfl, rfl, rfl⟩
  · refine ⟨_, (exec_traceConfig_of_fields h hf).trans (congrArg Host.Outcome.next
      ((check_of_true (by rw [hoff, show ((0 : Nat) == 1) = false from rfl, Bool.and_false]; rfl) _ _ _ _).trans (by rw [traceSet_off hoff]))), ?_⟩
    rw [completeWith_tly, completeWith_mem]
    exact ⟨rfl, rfl, traceFlush_mem t⟩

end Sys2Proof.Machine

/-! PROOFS. The commands of chapters 2 and 3 complete. -/

namespace Sys2Proof.Machine

/-! ## Messages of the fold -/

theorem sendBoth_keeps (s : State) (bs : List Byte) :
    (sendBoth s bs).wt = s.wt ∧ (sendBoth s bs).mem = s.mem ∧ (sendBoth s bs).contracts = s.contracts := by
  unfold sendBoth
  rw [peerSend_wt, peerSend_wt, peerSend_mem, peerSend_mem, peerSend_contracts, peerSend_contracts]
  exact ⟨rfl, rfl, rfl⟩

/-- A change of `WALLTIME` that leaves the peer ports' times leaves them. -/
theorem peerTime_modWt {s : State} {f : WallTime → WallTime} (hE : (f s.wt).peerE = s.wt.peerE) (hW : (f s.wt).peerW = s.wt.peerW) (e : Nat) :
    peerTime (s.modWt f) e = peerTime s e := by
  unfold peerTime
  rw [State.modWt_wt, hE, hW]

theorem delayReqNow_sends {s : State} {e : Nat} (hfold : foldEn s = true) (hdue : (peerTime s e).lastReq + 160000 ≤ s.wt.now) :
    (peerTime (delayReqNow s e) e).t1 = some (wall16 s) ∧ (delayReqNow s e).wt.seqReq = (s.wt.seqReq + 1) % 65536
      ∧ (delayReqNow s e).mem = s.mem := by
  rw [delayReqNow_eq, if_pos ⟨hfold, hdue⟩]
  refine ⟨?_, ?_, peerSend_mem _ _ _⟩
  · rw [peerTime_modWt rfl rfl, peerTime_modPeerTime]
  · have hseq : ∀ (t : State) (f : PeerTime → PeerTime), (modPeerTime t e f).wt.seqReq = t.wt.seqReq := fun t f => by
      unfold modPeerTime
      by_cases h : e = 0 <;> simp [h]
    rw [State.modWt_wt, hseq, peerSend_wt]

theorem silence_sets {s : State} {e a : Nat} (he : e < 2) (hfold : foldEn s = true) (hh : (peerTime s e).lastHeard = some a)
    (hdue : a + 480000 ≤ s.wt.now) :
    bit ((silence s e).reg Off.wtStatus) (6 + e) = true ∧ (silence s e).wt.lostAt = some s.wt.now ∧ (silence s e).mem = s.mem := by
  rw [silence_of_heard hh, if_pos ⟨hfold, hdue⟩]
  refine ⟨setStatus_bit (by omega) Nat.testBit_two_pow_self _ _, ?_, ?_⟩
  · have hnow : (modPeerTime s e fun p => { p with lastHeard := none }).wt.now = s.wt.now := by
      unfold modPeerTime
      by_cases h : e = 0 <;> simp [h]
    rw [setStatus_wt, State.modWt_wt, hnow]
  · rw [setStatus_mem]
    rfl

theorem peerFallTo_down {s : State} {e : Nat} (h : (s.peer e).linkUp = true) (lanes : BitVec 4) (fec : Bool) :
    ((peerFallTo s e lanes fec).peer e).linkUp = false := by
  rw [peerFallTo_of_up h, setStatus_peer, State.peer_modPeer]

theorem foldCfgOp_of_alone {s : State} (h : anyActive s = false) {v : Word} (hv : bit v 4 = false) (hfold : foldEn s = false) :
    foldCfgOp s v = s.setReg Off.foldCfg (v &&& 0x00FF001F#32) := by
  have hop := Host.Outcome.next.inj (exec_foldCfgWrite_of_idle h v)
  rw [hv, hfold] at hop
  exact hop

theorem exec_releaseBlank_of_due {s : State} {c : Fin 64} (hserve : s.serving = true) (hdue : blankDue s (s.contract c.val) = true) :
    exec (.releaseBlank c) s = .next ((contractPorts s (s.contract c.val)).foldl (fun t p => emitBlank t p 0xFFFF
      (launchTick (s.contract c.val) ((s.contract c.val).nLast.getD 0 + 1)) c.val)
      (s.modContract c.val fun x => { x with blankSent := true })) :=
  congrArg Host.Outcome.next (if_pos (by rw [hdue, hserve]; rfl))

/-- Settles O55, from the equations of the commands of chapters 2 and 3. -/
theorem timeAndContractCommandsComplete : Obligations.TimeAndContractCommandsComplete := by
  unfold Obligations.TimeAndContractCommandsComplete
  refine ⟨⟨fun sq d s t ref h => ⟨fun hf hfree => ?_, fun k hf hops hnow hslot => ?_⟩, fun e s hfold hdup => ⟨fun hdue => ?_, fun hrole hdue => ?_, fun hdue => ?_⟩,
      ?_, fun e m s h a => ⟨fun hh hold => ?_, fun hrole hst hdue => ?_, fun hst hdue => ?_, fun hfold hh hdue => ?_, fun hrise => ?_,
        fun hup lanes fec => ?_, fun hidle v => ?_⟩⟩,
    ?_, ?_, fun c s ref a f hserve => ⟨fun hc hb => ?_, fun hdue => exec_releaseBlank_of_due hserve hdue, ?_⟩⟩
  · rw [exec_timeSet_of_fields h hf, hfree]
    rfl
  · rw [exec_launchAt_of_operands h hf hops, check_of_true (decide_eq_true hnow), armLowestFree_of_some hslot]
  · obtain ⟨hwt, hmem, hcon⟩ := sendBoth_keeps s (timeMsg s 1 s.wt.seqAnnounce false 0 0 0 s.wt.nonce)
    refine ⟨_, congrArg Host.Outcome.next ((announceNow_eq s).trans (if_pos ⟨hfold, hdup, hdue⟩)), ?_, ?_, hmem, hcon⟩
    · rw [State.modWt_wt, hwt]
    · rw [State.modWt_wt, hwt]
  · obtain ⟨hwt, hmem, -⟩ := sendBoth_keeps s (timeMsg s 2 s.wt.seqSync s.wt.timeStep (wall16 s) 0 0 0)
    refine ⟨_, congrArg Host.Outcome.next ((syncNow_eq s).trans (if_pos ⟨hfold, hdup, hrole, hdue⟩)), ?_, ?_, rfl, hmem⟩
    · rw [State.modWt_wt, hwt]
    · rw [State.modWt_wt, hwt]
  · exact ⟨_, rfl, delayReqNow_sends hfold hdue⟩
  · intro e bs s r s1
    exact ⟨fun hok => exec_announceReceive_of_ok hok, fun hok => exec_syncReceive_of_ok hok r,
      fun hok => exec_peerDelayReqReceive_of_ok hok r, fun hok => exec_peerDelayRespReceive_of_ok hok⟩
  · exact congrArg Host.Outcome.next ((ageOut_of_heard hh).trans (if_neg (Nat.not_le.mpr hold)))
  · exact congrArg Host.Outcome.next (if_pos (by simp [hrole, hst, usTicks, hdue]))
  · exact congrArg Host.Outcome.next (if_pos (by simp [hst, msTicks, hdue]))
  · exact ⟨_, rfl, silence_sets e.isLt hfold hh hdue⟩
  · exact congrArg Host.Outcome.next (if_pos hrise)
  · exact ⟨exec_peerLinkDown_of_corrected e lanes fec s, peerFallTo_down hup lanes fec⟩
  · refine ⟨rfl, fun hv hfold => ?_⟩
    rw [foldCfgOp_of_alone hidle hv hfold, State.reg_setReg_same]
  · intro sq d bs s t ref h hup n
    refine ⟨fun hf hfree hlen hok hst hfits => ?_, fun hf hst hok hopen => ?_⟩
    · rw [exec_contractPropose_of_fields h hf, check_of_true (beq_iff_eq.mpr hfree), fetchOf_ok hup, proposeBlock_of_good hlen hok hst hfits]
    · rw [exec_layoutUpdate_of_fields h hf, check_of_true hst, fetchOf_ok hup, check_of_true hok, check_of_true hopen]
  · intro sq d s t ref h n
    refine ⟨fun hf hst => ?_, fun hf hn hb => exec_contractRelease_of_fields h hf hn hb, fun hf hle => ?_⟩
    · rw [exec_contractCommit_of_fields h hf, check_of_true hst]
    · exact (runCmd_of_starts h _).trans (congrArg _ (check_of_true (by rw [hf, decide_eq_true hle]; rfl) _ _ _ _))
  · simp only [exec, execContractCommitAccept, hc, hserve, hb, Bool.and_self, if_true]
  · exact congrArg Host.Outcome.next (if_pos hserve)

end Sys2Proof.Machine

/-! PROOFS. The stream, raw, load, pixel, encoder, drover and proxy commands complete. -/

namespace Sys2Proof.Machine

/-! ## Streams -/

theorem openParsed_of_good {t : State} {d : Desc} {c : Codec} {r : StreamRec} {bs : List Byte} (hfmt : recordFormat c bs = true)
    (hseq : seqSupported c r = true) (ref : CmdRef) : openParsed ref d c (.ok r) bs t = openCoded ref d c r bs t := by
  rw [openParsed, check_of_true hfmt]
  exact check_of_true hseq _ _ _ _

theorem streamCloseRun_of_closed {t : State} {n : Nat} (h : (t.stream n).state = .closed) (ref : CmdRef) :
    streamCloseRun ref n t = completeWith t ref St.ok := by
  unfold streamCloseRun
  rw [h]

theorem streamCloseRun_of_open {t : State} {n : Nat} (h : (t.stream n).state = .open_) (ref : CmdRef) :
    streamCloseRun ref n t = flushStream t n ref := by
  unfold streamCloseRun
  rw [h]

/-- A stream that was opened is OPEN. -/
theorem stream_opened (s : State) (n : Nat) (c : Codec) (d : Desc) (r : StreamRec) (cfgs : List (List Byte)) (a b : Nat) :
    ((s.modStream n fun _ => openStream c d r cfgs a b).stream n).state = .open_ := by
  rw [State.stream_modStream, if_pos rfl]
  rfl

/-- A good plane of coefficients of a contract that takes loads is stored where there is room. -/
theorem exec_coefLoad_stores {s t : State} {sq : Fin 1024} {d : Desc} {ref : CmdRef} {bs : List Byte} {e : Endpoint} {r : CorrRec}
    (h : Starts s sq d ref t) (hhdr : hdrOk d 0x18 [(8, 1), (16, 12)] = true) (hn : descFld d 8 1 < 64)
    (hst : loadState (t.contract (descFld d 8 1)) = true) (hup : linkUp t = true) (hlen : bs.length = descFld d 24 4) (h64 : 64 ≤ bs.length)
    (he : endpointAt (t.contract (descFld d 8 1)) (leAt bs 0 2) = some e) (hr : parseCoef e bs = some r) :
    exec (.coefLoad sq d (.ok bs)) s = .next (coefStoreRec ref (descFld d 8 1) e r (bs.drop 64) t) := by
  refine (runCmd_of_starts h _).trans (congrArg Host.Outcome.next ?_)
  rw [check_of_true (by simp [hhdr, loadContract, hn, ← hlen, h64])]
  simp only [loadContract]
  rw [check_of_true hst, fetchOf_ok hup]
  simp only [he, hlen, if_true, hr]

/-! ## Cores, rows and steps -/

theorem exec_auFetchComplete_of_fetching {s : State} {st : Fin 256} {ref : CmdRef} (h : fetchingRef (s.stream st.val) = some ref)
    (x : HostData) (info : UnitInfo) : exec (.auFetchComplete st x info) s = .next (settle (markIngest (s.modStream st.val fun y =>
      { y with units := auFetched y.codec (hostSays s x) info y.units }) ref) st.val) := by
  simp only [exec, execAuFetchComplete, h]

theorem exec_pictureDecodeDone_of_decoding {s : State} {st : Fin 256} {u : Au}
    (h : (s.stream st.val).units.find? (fun u => u.phase == .decoding) = some u) (o : DecOutcome) :
    exec (.pictureDecodeDone st o) s = .next (pictureDone s st.val u o) := by
  simp only [exec, execPictureDecodeDone, h]

/-- The end of a repair frees its core and moves no byte of device memory. -/
theorem exec_repairDone_of_repair {s : State} {core : Fin 16} {n : Nat} (h : (s.dec core.val).repair = some n) :
    ∃ t, exec (.repairDone core) s = .next t ∧ (t.dec core.val).repair = none ∧ (t.dec core.val).act = 0 ∧ t.mem = s.mem := by
  have hop : exec (.repairDone core) s = .next (pendSrc ((s.modStream n repaired).modDec core.val fun d =>
      { d with repair := none, act := 0, stream := none }) (130 + 8 * core.val)) := by
    simp only [exec, execRepairDone, h]
  have hdec : (pendSrc ((s.modStream n repaired).modDec core.val fun d => { d with repair := none, act := 0, stream := none })
      (130 + 8 * core.val)).dec core.val = { s.dec core.val with repair := none, act := 0, stream := none } := by
    rw [State.dec, pendSrc_decs]
    exact (State.dec_modDec _ _ _ _).trans (if_pos rfl)
  exact ⟨_, hop, by rw [hdec], by rw [hdec], pendSrc_mem _ _⟩

theorem overrunBegin_of_ready {s : State} {k : Nat} {l : LSlot} (h : s.comp.waits.find? (fun w => w.1 == k) = some (k, l))
    (hready : waitReady s l = true) (hserve : s.serving = true) :
    overrunBegin s k = waitBody { s with comp := { s.comp with waits := s.comp.waits.erase (k, l) } } k l := by
  unfold overrunBegin
  rw [h]
  exact if_pos (by rw [hready, hserve]; rfl)

theorem prxStopDone_of_empty {s : State} (hst : s.prx.state = .stopping) (hc : s.prx.captures = []) : prxStopDone s = prxStopped (prxEnd s) := by
  unfold prxStopDone
  rw [if_pos hst, hc]

/-- Settles O56, from the equations of the commands of chapters 4 to 9. -/
theorem streamAndPixelCommandsComplete : Obligations.StreamAndPixelCommandsComplete := by
  unfold Obligations.StreamAndPixelCommandsComplete
  refine ⟨?_, ?_, fun st h info o s ref u r rs b => ⟨rfl, fun hf => exec_auFetchComplete_of_fetching hf h info,
      fun hd => exec_pictureDecodeDone_of_decoding hd o, rfl, fun hq hb => exec_rawFetchDone_of_some hq hb h⟩,
    fun core n s hn => exec_repairDone_of_repair hn, fun c row p j s hj hw hserve hon => ?_,
    fun k l s hw hready hserve => congrArg Host.Outcome.next (overrunBegin_of_ready hw hready hserve),
    fun e bs s hfold hup hok htype hlo hhi => congrArg Host.Outcome.next (seamReceive_of_good hfold hup hok htype hlo hhi),
    fun core cols s hserve => ⟨fun hact => ?_, fun j js e hj hact he => ?_, fun hc => ?_⟩,
    fun dr l m s => ⟨fun hlive => ⟨fun hact => ?_, fun hact => ?_, fun e hrun hlk hlook => ?_⟩, fun hact hon => ?_⟩,
    fun a v n ns x xs s => ⟨fun hd hhot hthr hlen => ?_, fun hc hst hthr => ?_, fun hst hc => ?_, fun hst hon => ?_, fun hon => ⟨?_, ?_⟩⟩⟩
  · intro sq d h cfg s t ref hs n x raw
    refine ⟨fun hf hst hc hfits => ?_, fun c r bs hf hst hc hraw hup hh hcfg hfmt hseq hfits => ?_, fun hhdr hn => ⟨fun hst => ?_, fun hst => ?_⟩,
      fun hhdr hb hst hraw hlen => ?_, fun hb hst hraw => ⟨fun hhdr hlen => ?_, fun hhdr hi hlen => ?_⟩, fun hf hst hfits => ?_, fun hhdr hst => ?_⟩
    · exact ⟨_, by rw [exec_streamOpen_raw hs hf hst hc, openRaw_of_fits hfits], stream_opened _ _ _ _ _ _ _ _⟩
    · subst hh hcfg
      exact ⟨_, by rw [exec_streamOpen_coded hs hf hst hc hraw hup, openParsed_of_good hfmt hseq, openCoded_of_fits hfits],
        stream_opened _ _ _ _ _ _ _ _⟩
    · rw [exec_streamClose_of_unnamed hs hhdr hn, streamCloseRun_of_closed hst]
    · rw [exec_streamClose_of_unnamed hs hhdr hn, streamCloseRun_of_open hst]
    · rw [exec_auSubmit_of_fields hs hhdr hb, check_of_true (beq_iff_eq.mpr hst),
        check_of_true (by rw [bne_iff_ne.mpr hraw, decide_eq_true hlen]; rfl)]
    · rw [exec_rawFrameSubmit_of_fields hs hhdr hb, check_of_true (beq_iff_eq.mpr hst),
        check_of_true (by rw [beq_iff_eq.mpr hraw, beq_iff_eq.mpr hlen]; rfl)]
    · rw [exec_rawSliceSubmit_of_fields hs hhdr hb, check_of_true (beq_iff_eq.mpr hst),
        check_of_true (by rw [beq_iff_eq.mpr hraw, decide_eq_true hi, beq_iff_eq.mpr hlen]; rfl)]
    · rw [exec_proxyStart_of_fields hs hf, check_of_true hst, check_of_true hfits]
    · rw [exec_proxyStop_of_hdr hs hhdr, prxStop, hst]
  · intro sq d bs mm bw s t ref hs hup n i
    refine ⟨fun hn hst => ?_, fun hhdr hfree hlen => exec_ucodeLoad_of_free hs hhdr hup hfree hlen mm bw⟩
    have hload : loadState (t.contract n) = true := (loadState_iff _).mpr (.inl hst)
    refine ⟨fun e r hhdr hlen h64 he hr => exec_coefLoad_stores hs hhdr hn hload hup hlen h64 he hr, fun hhdr hi hok hfree => ?_,
      fun hhdr hi hlen hfree => ?_, fun hhdr halign hlen hok hfits => exec_mapLoad_of_good hs hhdr hn halign hup hload hlen hok hfits⟩
    · rw [exec_driftTableLoad_of_good hs hhdr hn hi hload hup hok hfree, atOnceOr_of_proposed hst]
    · rw [exec_curveLoad_of_good hs hhdr hn hi hload hup hlen hfree, atOnceOr_of_proposed hst]
  · exact (exec_paddockRowWritten_of_some hj p).trans (if_neg (by rw [hw, hserve, hon]; exact Bool.false_ne_true))
  · exact congrArg Host.Outcome.next (if_pos ⟨hact, hserve⟩)
  · exact congrArg Host.Outcome.next (stripeDone_of_coding hj hact hserve he cols)
  · exact ⟨_, rfl, (copyDone_of_copying hc hserve).1⟩
  · exact congrArg Host.Outcome.next ((microword_none_of_live hlive).trans (if_neg hact))
  · exact congrArg Host.Outcome.next (if_pos (by rw [hlive, hact]; rfl))
  · exact congrArg Host.Outcome.next ((if_pos hlive).trans (lookupReturn_of_hit hrun hlk hlook))
  · exact congrArg Host.Outcome.next (if_pos ⟨hact, hon⟩)
  · exact congrArg Host.Outcome.next (prxCapture_of_room hd hhot hthr hlen)
  · exact congrArg Host.Outcome.next (prxAuDone_of_capture hc hst hthr)
  · exact congrArg Host.Outcome.next (prxStopDone_of_empty hst hc)
  · exact congrArg Host.Outcome.next (lutWrite_of_open hst hon a v)
  · intro hy hy' hx hx' hc
    rw [exec_canvasSizeWrite, gated_of_on hon, canvasSizeOp_of_good hy hy' hx hx' hc]
  · intro sel w hfree hset hok
    rw [exec_sclData3Write, gated_of_on hon, sclDataOp_commits hfree hset hok]
    exact ⟨_, rfl, rfl, rfl⟩

end Sys2Proof.Machine

/-! PROOFS. The message, port, pool, scheduler and table commands complete. -/

namespace Sys2Proof.Machine

theorem exec_shadowAudit_of_good {s t : State} {sq : Fin 1024} {d : Desc} {ref : CmdRef} {bs : List Byte} (h : Starts s sq d ref t)
    (hup : linkUp t = true) (hf : auditFields d = true) (hidle : t.tbl.audit = none) (hlen : bs.length = 16 * descFld d 24 4)
    (hok : (auditOf ref d bs).records.all shadowOk = true) :
    exec (.shadowAudit sq d (.ok bs)) s = .next (t.modTbl fun x => { x with audit := some (auditOf ref d bs) }) := by
  refine (runCmd_of_starts h _).trans (congrArg Host.Outcome.next ?_)
  rw [check_of_true hf, check_of_true (Option.isNone_iff_eq_none.mpr hidle), fetchOf_ok hup,
    check_of_true (by rw [beq_iff_eq.mpr hlen, hok]; rfl)]

/-- A link that was up and falls loses what the port holds (R258). -/
theorem linkLost_of_up {s : State} {p : Nat} (hup : (s.port p).linkUp = true) (lock align : Bool) :
    linkLost s p lock align = discardAll (setStatus (s.modPort p fun x =>
      { x with linkUp := false, blockLock := lock, fecAlign := align }) (Off.egPortStatus p) 1) p := if_pos hup

theorem auditEnd_of_free {s : State} {a : Audit} (ha : s.tbl.audit = some a) (hhot : s.pwr.over105 = false) (hthr : s.pwr.throttled = false)
    (hon : s.domainOn 61 = true) : exec .shadowAuditDone s = .next (auditEnd s a) := by
  simp only [exec, execShadowAuditDone, ha, extraHeld, hhot, hthr, hon, Bool.or_self, Bool.not_true, Bool.false_eq_true, if_false]

theorem learnApply_of_queued {s : State} {q : QLearn} {qs : List QLearn} (hq : s.tbl.queue = q :: qs) (hon : s.domainOn 61 = true) :
    learnApply s = drainHeld (applyEvent (s.modTbl fun t => { t with queue := qs }) q.ev) := by
  simp only [learnApply, hq, hon, if_true]

theorem spreadSend_spread {s : State} {i : Nat} {is : List Nat} (h : s.tbl.spread = i :: is) : (spreadSend s).tbl.spread = is := by
  simp only [spreadSend, h]
  split
  · obtain ⟨n, hn⟩ := sendNotice_tbl (s.modTbl fun t => { t with spread := is }) 1 (mget {} s.tbl.entries i)
    rw [hn]
    rfl
  · rfl

theorem schedAccOp_of_free {s : State} (h : schedGo s = false) (v : Word) :
    schedAccOp s v = s.setReg Off.schedAcc ((s.reg Off.schedAcc &&& 0x40000000#32) ||| (v &&& 0x80000003#32)) :=
  if_neg (by rw [h]; exact Bool.false_ne_true)

/-- Settles O57, from the equations of the commands of chapters 10 to 13. -/
theorem egressAndTableCommandsComplete : Obligations.EgressAndTableCommandsComplete := by
  unfold Obligations.EgressAndTableCommandsComplete
  refine ⟨?_, fun sq cid h m p k s => ⟨fun hm hdue hb => congrArg Host.Outcome.next (heldTimeout_of_due hm hb hdue), fun hm => ?_⟩,
    fun p s => ⟨fun hlow hfree => congrArg Host.Outcome.next (if_pos ⟨hlow, hfree⟩), fun hhigh => congrArg Host.Outcome.next (if_pos hhigh)⟩,
    fun p q f fs s => ⟨fun hcur hsrc hmsg parity => congrArg Host.Outcome.next (txEnd_of_port hcur hsrc hmsg parity),
      fun hcons => ⟨fun hel => ?_, fun hcls hold => ?_⟩⟩,
    fun p lock align v s => ⟨fun hmay => congrArg Host.Outcome.next (if_pos hmay),
      fun hup => ⟨_, _, congrArg Host.Outcome.next (linkLost_of_up hup _ _)⟩, fun hon hok hfree hen hsame => ?_, fun hserve hdue => ?_⟩,
    fun p bs age ok fec s hup => ⟨?_, fun hnew => congrArg Host.Outcome.next (if_neg hnew), fun hrx => ?_, fun hbad => ?_⟩,
    ?_, fun s => ⟨?_, ?_⟩,
    fun a q qs i is s => ⟨fun ha hhot hthr hon => auditEnd_of_free ha hhot hthr hon, fun hq hon => congrArg Host.Outcome.next (learnApply_of_queued hq hon),
      fun hdue => ⟨_, congrArg Host.Outcome.next (if_pos hdue), (sweepOne_next s).1⟩, fun hspread => ⟨_, rfl, spreadSend_spread hspread⟩⟩,
    fun e bs s hfold hup hframe hok hother => ?_,
    fun err j i a v s => ⟨fun hon => ⟨congrArg Host.Outcome.next (if_pos hon), ?_⟩, rfl⟩⟩
  · intro sq d bs s t ref h u id
    refine ⟨fun hhdr hmsg hslot hfree => ?_, fun hhdr hmsg hlen hslot hfree => ?_,
      fun hhdr hslot hport => exec_tableLearn_of_fields h hhdr hslot hport, fun hhdr => exec_tableRemove_of_fields h hhdr,
      fun hhdr hclean => exec_lpmInsert_of_fields h hhdr hclean, fun hhdr hclean => exec_lpmDelete_of_fields h hhdr hclean,
      fun hup hf hidle hlen hok => exec_shadowAudit_of_good h hup hf hidle hlen hok⟩
    · rw [exec_endpointSend_of_fields h hhdr hmsg hslot, msgRun_of_free (.inr hfree) (by simp)]
    · rw [exec_regionSend_of_fields h hhdr hmsg hlen hslot, msgRun_of_free (.inr hfree) (by simp)]
  · simp only [exec, execPoolAllocGrant, allocGrant, hm]
  · rw [execShaperTokensReady_of_head hcons, if_pos hel]
  · exact ⟨agedHead s p.val q.val, congrArg Host.Outcome.next ((dropAged_of_head hcons).trans (if_pos ⟨hcls, hold⟩)), agedHead_status s _ _⟩
  · refine congrArg Host.Outcome.next ((gated_of_on hon _).trans ((portCfgOp_of_ok hok hfree).trans (if_neg ?_)))
    rw [hsame, hen]
    simp
  · exact congrArg Host.Outcome.next (if_pos ⟨hdue, hserve⟩)
  · intro hrx w hroom
    exact congrArg Host.Outcome.next ((delayReq_of_good hup hrx age).trans (if_neg (Nat.not_le.mpr hroom)))
  · exact congrArg Host.Outcome.next ((telemetry_of_up hup bs).trans (if_pos hrx))
  · exact congrArg Host.Outcome.next (if_neg (by rw [rxDiscard_of_neither hbad, hup]; simp))
  · intro slot s hslot e hread hnew hold
    exact congrArg Host.Outcome.next (driftStale_of_old hslot hread hnew hold)
  · intro hgo acc
    exact ⟨congrArg Host.Outcome.next (schedAccOp_of_free hgo _), congrArg Host.Outcome.next (schedAccOp_of_free hgo _),
      congrArg Host.Outcome.next (schedAccOp_of_free hgo _)⟩
  · intro hgo q
    exact ⟨fun hop => congrArg Host.Outcome.next (schedRun_of_read hgo hop), fun hop => congrArg Host.Outcome.next (schedRun_of_write hgo hop),
      fun hop => congrArg Host.Outcome.next (schedRun_of_state hgo hop)⟩
  · exact congrArg Host.Outcome.next (by simp only [noticeReceive, hfold, hup, hframe, hok, hother]; simp)
  · obtain ⟨hsels, htbl, -, -⟩ := tblSelOp_frame s a v
    refine ⟨_, congrArg Host.Outcome.next (gated_of_on hon _), ?_, htbl⟩
    rw [State.sel, hsels]
    exact State.sel_setSel_same s a Off.tblSel _

end Sys2Proof.Machine

/-! PROOFS. The host-link, window, ring and register commands complete. -/

namespace Sys2Proof.Machine

/-! ## What the end of TRAIN does not move: the state it has chosen -/

theorem lstate_of_keptDown {s t : State} (h : keptDown t = keptDown s) : t.link.lstate = s.link.lstate := congrArg Prod.fst h

theorem lstate_runLpm (s : State) (ref : CmdRef) (delete : Bool) (p : Prefix) : (runLpm s ref delete p).link.lstate = s.link.lstate := by
  have hend : ∀ ps : List Prefix, (if delete || trieFits ps then complete (setPrefixes s ps) ref St.ok ps.length 0 0
      else completeWith s ref St.noResource).link.lstate = s.link.lstate := fun ps => by
    split
    · exact lstate_of_keptDown (keptDown_complete _ _ _ _ _ _)
    · exact lstate_of_keptDown (keptDown_completeWith _ _ _)
  exact hend _

theorem lstate_runHeld (s : State) (h : HeldTbl) : (runHeld s h).link.lstate = s.link.lstate := by
  cases h with
  | ev e => rfl
  | lpm ref delete p => exact lstate_runLpm s ref delete p

theorem lstate_drainHeld (s : State) : (drainHeld s).link.lstate = s.link.lstate := by
  refine foldl_leaves (view := fun t => t.link.lstate) (fun t h => ?_) _ _
  split
  · exact lstate_runHeld t h
  · rfl

theorem lstate_endStreams (s : State) : (endStreams s).link.lstate = s.link.lstate :=
  foldl_leaves (g := fun t (p : Nat × Stream) => tryClose t p.1) (view := fun t => t.link.lstate)
    (fun t p => lstate_of_keptDown (keptDown_tryClose t p.1)) _ _

theorem lstate_freeBuf (s : State) (p h : Nat) : (freeBuf s p h).link.lstate = s.link.lstate := by
  have hlevel : ∀ t : State, (relevel t).link = t.link := fun t => by
    unfold relevel
    dsimp only
    split
    · exact setStatus_link _ _ _
    · rfl
  exact congrArg Link.lstate (hlevel _)

theorem lstate_endMessages (s : State) : (endMessages s).link.lstate = s.link.lstate := by
  refine foldl_leaves (view := fun t => t.link.lstate) (fun t m => ?_) _ _
  split
  · exact lstate_freeBuf _ _ _
  · rfl

/-- A new epoch of the host ends its transactions; the link stays as it has come up (R365). -/
theorem lstate_epochChange (s : State) : (epochChange s).link.lstate = s.link.lstate := by
  unfold epochChange
  dsimp only
  rw [lstate_drainHeld, lstate_endStreams, lstate_endMessages]
  change (setStatus s Off.linkStatus (2 ^ 8)).link.lstate = s.link.lstate
  rw [setStatus_link]

theorem lstate_writeCpl (s : State) (c : Completion) : (writeCpl s c).link.lstate = s.link.lstate := by
  unfold writeCpl
  split
  · exact putCpl_lstate _ _
  · exact putCpl_lstate _ _

theorem lstate_drainCpl (cs : List Completion) :
    ∀ (kept : List Completion) (s : State), (drainCpl cs kept s).link.lstate = s.link.lstate := by
  induction cs with
  | nil => exact fun _ _ => rfl
  | cons c cs ih =>
    intro kept s
    unfold drainCpl
    split
    · exact (ih _ _).trans (lstate_writeCpl s c)
    · exact ih _ _

/-- Whatever epoch the host shows, TRAIN ends in the state of its lanes (R363, R365). -/
theorem trainStep_lstate {s : State} {p : PeerMgmt} {set : BitVec 4} (hst : s.link.lstate = .train) (hpeer : s.link.peer = some p)
    (hset : selectedSet s.link = some set) (hrun : 16 ≤ s.link.peerRun) (htime : s.wt.now ≤ s.link.since + 16000000) :
    (trainStep s).link.lstate = if set = 0xF then .active else .degraded := by
  obtain ⟨n, i, g, x, hx⟩ := enterSet_frame (s.modLink fun l => trained l set p) set
  have hentered : (if set = 0xF then setLState (s.modLink fun l => trained l set p) .active
      else enterDegraded (s.modLink fun l => trained l set p)).link.lstate = if set = 0xF then .active else .degraded := by rw [hx]
  have hdrained : ∀ (u : State) (c : Bool), (if c then epochChange u else pump (drainCpl u.rings.waiting [] u)).link.lstate = u.link.lstate :=
    fun u c => by
      cases c
      · exact (lstate_of_keptDown (keptDown_pump _)).trans (lstate_drainCpl _ _ _)
      · exact lstate_epochChange u
  unfold trainStep
  simp only [hst, hpeer, hset]
  rw [if_neg (by omega), if_neg (by simp only [msTicks]; omega)]
  exact (hdrained _ _).trans hentered

/-! ## Requests of the host -/

theorem exec_linkMrdReceive_of_open {s : State} {tag : Fin 4096} {addr : Dword} {len : BitVec 16} (hup : linkUp s = true)
    (hmay : mayApply s.link (.mrd tag.val addr.toNat len.toNat) = true) : exec (.linkMrdReceive tag addr len) s =
      .next (mrdTake (mrdFreed s (.mrd tag.val addr.toNat len.toNat)) tag.val addr.toNat len.toNat) :=
  if_pos (Bool.and_eq_true_iff.mpr ⟨hup, hmay⟩)

theorem exec_linkMwrReceive_of_open {s : State} {addr : Dword} {bs : List Byte} (hup : linkUp s = true)
    (hmay : mayApply s.link (.mwr addr.toNat bs) = true) : exec (.linkMwrReceive addr bs) s =
      .next (mwrTake (mwrFreed s (.mwr addr.toNat bs) bs.length) addr.toNat bs) :=
  if_pos (Bool.and_eq_true_iff.mpr ⟨hup, hmay⟩)

theorem requestOk_window_good {s : State} {tag addr n : Nat} (hfree : s.link.hostTags.contains tag = false) (hreq : requestOk 4096 addr n = true)
    (hwin : windowOk addr n = true) : mrdTake s tag addr n = answer (readWords (n / 4) addr s).2 tag 0 (readWords (n / 4) addr s).1 :=
  (mrdTake_of_free hfree _ _).trans (if_neg (by rw [hreq, hwin]; simp))

/-- Settles O58, from the equations of the commands of chapters 14, 15 and 22. -/
theorem linkAndRingCommandsComplete : Obligations.LinkAndRingCommandsComplete := by
  unfold Obligations.LinkAndRingCommandsComplete
  refine ⟨fun sq d s t ref h hhdr => exec_nop_of_header h hhdr, fun r v s => ⟨?_, ?_, rfl, rfl⟩,
    fun r cyc tag s hserve hup hturn hplace hfew htag => ?_, fun r d ref s hserve => ⟨fun hd hfit => ?_, fun hd hfree href => ?_⟩, ?_,
    fun f s => ⟨fun hst => ?_, ?_, fun hcarry => ⟨fun hslot hne hfew => ?_, fun hslot => ?_, rfl, ?_⟩⟩,
    fun signal locked lanes p set s => ⟨fun hdown hon hcage hsig hdue => ?_, fun hst hpeer hset hrun htime => ⟨_, rfl, trainStep_lstate hst hpeer hset hrun htime⟩,
      fun hst hdue => congrArg Host.Outcome.next (if_pos ⟨hst, hdue⟩),
      fun hst => ⟨fun hset htime => ?_, fun hdue => congrArg Host.Outcome.next (if_pos ⟨hst, hdue⟩)⟩,
      fun hon => congrArg Host.Outcome.next (if_pos hon), fun v hon hlo hhi hlane hsame => ?_⟩,
    ?_, fun tag m k s => ⟨fun hm hdue => ?_, fun hk hdue => ?_⟩, fun a v s => ⟨?_, fun addr r hreg hreach hty => ?_⟩⟩
  · intro hon n t hfwd
    exact congrArg Host.Outcome.next ((sqTailOp_of_on hon v).trans (if_neg (Nat.not_lt.mpr hfwd)))
  · intro hon h hfwd
    refine ⟨_, congrArg Host.Outcome.next ((cqHeadOp_of_on hon v).trans (if_neg (by rw [show headRegress (s.cq r.val) _ = false from hfwd]; exact Bool.false_ne_true))), ?_⟩
    rw [State.cq_modCq, if_pos rfl]
  · obtain ⟨-, -, hgo⟩ := fetchTurn_of_turn hserve hup hturn
    exact congrArg Host.Outcome.next (hgo tag hplace hfew htag)
  · refine ⟨_, congrArg Host.Outcome.next ((releaseHold_of_held hd).trans (if_pos (by rw [hserve, hfit]; rfl))), ?_, rfl⟩
    exact congrArg Sq.held ((State.sq_modSq s r.val (fun q => { q with held := none }) r.val).trans (if_pos rfl))
  · refine ⟨_, congrArg Host.Outcome.next (releaseFence_of_free hd hserve hfree href), ?_, rfl⟩
    exact congrArg Sq.fenced ((State.sq_modSq s r.val (fun q => { q with fenced := none }) r.val).trans (if_pos rfl))
  · intro a v s r hen
    refine ⟨fun hoff hlog hcq => ?_, fun hoff hlog => ?_⟩
    · exact congrArg Host.Outcome.next ((sqCfgOp_of_enable hoff hen).trans (if_pos (by rw [hlog, hcq]; rfl)))
    · exact congrArg Host.Outcome.next ((cqCfgOp_of_enable hoff hen).trans (if_pos hlog))
  · rcases hst with hst | hst
    · simp only [exec, execFlitSlot, flitStep, hst]
    · simp only [exec, execFlitSlot, flitStep, hst]
  · intro hst hgood h hnak hidle
    have hdown : s.link.lstate ≠ .down := by rcases hst with h | h <;> rw [h] <;> decide
    have htrain : s.link.lstate ≠ .train := by rcases hst with h | h <;> rw [h] <;> decide
    obtain ⟨-, htake, -⟩ := flitTake_of_good (s := fecNoted s false) hgood hnak
    exact (exec_flitReceive_of_other hdown htrain f false).trans (congrArg Host.Outcome.next (htake hidle))
  · refine ⟨_, (if_pos (by rw [hcarry, decide_eq_true hslot]; rfl)).trans (congrArg Host.Outcome.next
      ((if_neg (by simp; omega)).trans (startReplay_of_some hne))), ?_, setStatus_bit (by decide) rfl _ _⟩
    rw [tallyAdd_link, setStatus_link]
    rfl
  · exact if_pos (by rw [hcarry, decide_eq_true hslot]; rfl)
  · rw [enterRecovery_of_up ((carriesData_iff s).mp hcarry)]
    exact setLState_lstate _ _
  · refine ⟨_, congrArg Host.Outcome.next (linkSignalDetect_of_signal hdown hon hcage hsig hdue), ?_⟩
    rw [pendSrc_link]
    rfl
  · obtain ⟨n, i, g, x, hx⟩ := recoveryStep_of_lanes hst hset htime
    refine ⟨_, congrArg Host.Outcome.next hx, ?_⟩
    obtain ⟨hl, -, -⟩ := startReplay_link { s with link := _, intc := i, regs := g, flt := x }
    exact hl
  · exact congrArg Host.Outcome.next ((if_pos hon).trans ((if_pos ⟨hlo, hhi, hlane⟩).trans (if_pos hsame)))
  · intro tag addr len bs st last off s x y z r hup
    refine ⟨fun hmay hfree hreq hwin => ?_, fun hmay hreq hwin => ?_, fun m hmay hq hm hfit hlast => ?_⟩
    · exact (exec_linkMrdReceive_of_open hup hmay).trans (congrArg Host.Outcome.next (requestOk_window_good (s := mrdFreed s x) hfree hreq hwin))
    · exact (exec_linkMwrReceive_of_open hup hmay).trans (congrArg Host.Outcome.next (mwrTake_of_good hreq hwin))
    · refine ⟨_, (exec_linkCplReceive_of_open hup hmay).trans (congrArg Host.Outcome.next
        ((cplTake_of_fits (s := rxTaken s _) hq hm hfit).trans (if_neg (by rw [hlast]; exact Bool.false_ne_true)))), ?_⟩
      simp only [State.modLink, mget_mset_same]
  · exact ⟨_, congrArg Host.Outcome.next (tagTimeout_of_due hm hdue), by simp only [State.modLink, mget_mset_same],
      by simp only [State.modLink, mget_mset_same]⟩
  · exact ⟨_, congrArg Host.Outcome.next ((tagFree_of_some hk).trans (if_neg (Nat.not_lt.mpr hdue))), by simp only [State.modLink, mget_mset_same]⟩
  · refine ⟨_, congrArg Host.Outcome.next (readState_wtNowLo s a), ?_⟩
    rw [readValue_latched a (.inl rfl), State.latch_setLatch_ne _ (by omega), State.latch_setLatch_same, w32, Nat.shiftRight_eq_div_pow]
  · exact ⟨_, congrArg Host.Outcome.next (writeReg_w1c v hreg hreach hty), (resample_setReg s _ _).1⟩

end Sys2Proof.Machine

/-! PROOFS. O59: the memory, copy, interrupt and fault commands complete with their effect. -/

namespace Sys2Proof.Machine

/-! ## Faults: detection, injection, the sheepdogs and the end of a domain's restart -/

@[simp] theorem faultEdge_reg (s : State) (f j : Nat) : (faultEdge s f).reg j = s.reg j := by
  unfold faultEdge
  split
  · exact pendSrc_reg s 289 j
  · split
    · exact pendSrc_reg s 385 j
    · rfl

/-- Every fault that a unit detects has a level in Table 18-5. -/
theorem fltLevel_of_unitFault (f : Fin 512) (hf : unitFault f.val = true) : (fltLevel f.val).isSome = true := by
  have hall : ∀ (g : Fin 32) (i : Fin 16), unitFault (16 * g.val + i.val) = true → (fltLevel (16 * g.val + i.val)).isSome = true := by decide
  have hsplit : 16 * (f.val / 16) + f.val % 16 = f.val := Nat.div_add_mod f.val 16
  have hf' := hall ⟨f.val / 16, by omega⟩ ⟨f.val % 16, by omega⟩
  simp only [hsplit] at hf'
  exact hf' hf

theorem unitDetect_of_unitFault {s : State} {f : Nat} (hlock : s.pwr.pllLocked = true) (hph : s.pwr.phase ≠ .stopped)
    (hf : unitFault f = true) : unitDetect s f = faultEdge (raiseFault s f) f := by
  have hnvm : f ≠ 320 := by
    rintro rfl
    exact absurd hf (by decide)
  exact (if_neg (by simp [hlock, hph])).trans ((if_neg hnvm).trans (if_pos hf))

theorem unitDetect_bit {s : State} (f : Fin 512) (hlock : s.pwr.pllLocked = true) (hph : s.pwr.phase ≠ .stopped)
    (hf : unitFault f.val = true) : bit ((unitDetect s f.val).reg (Off.fltStat (f.val / 16))) (f.val % 16) = true := by
  obtain ⟨l, hl⟩ := Option.isSome_iff_exists.mp (fltLevel_of_unitFault f hf)
  rw [unitDetect_of_unitFault hlock hph hf, faultEdge_reg]
  exact raiseFault_bit hl s

theorem dogStep_of_due {s : State} {g dl : Nat} (hdl : (mget ({} : Dog) s.flt.dogs g).deadline = some dl) (hdue : dl ≤ s.wt.now)
    (hph : s.pwr.phase ≠ .stopped) : dogStep s g = dogExpire s g := by
  simp only [dogStep, hdl, if_pos (And.intro hdue hph)]

/-- An acknowledgement of a group without an armed source stops its timer and repairs nothing. -/
theorem fltAckOp_of_unarmed {s : State} {g : Nat} (h : armedOf s g = []) :
    fltAckOp s g = s.modFlt fun x => { x with dogs := mset {} x.dogs g {} } := by
  rw [fltAckOp, h]
  rfl

/-- Fault 1, a retired decoder, is injected as it is detected. -/
theorem injectOp_of_decoder {s : State} {v : Word} (hfac : s.flt.factory = true) (hact : bit v 31 = true) (hf : fld v 8 0 = 1) :
    bit ((injectOp s v).reg (Off.fltStat 0)) 1 = true := by
  have hop : ∃ u, injectOp s v = raiseFault u 1 := by
    unfold injectOp
    rw [hfac, hact, hf]
    exact ⟨_, rfl⟩
  obtain ⟨u, hu⟩ := hop
  rw [hu]
  exact raiseFault_bit (f := 1) (l := 1) (by decide) u

/-- A domain other than those of the tables and the copies is ON again, with its trims staged, and nothing follows (R457). -/
theorem restartDone_of_plain {s : State} {d : Nat} (hre : (s.domain d).restarting = true) (hph : s.pwr.phase ≠ .stopped) (h61 : d ≠ 61)
    (h62 : d ≠ 62) : restartDone s d = stageTrims (s.modDomain d fun _ => { state := .on }) (domainTrims d) :=
  (if_pos (by simp [hre, hph])).trans ((if_neg h61).trans (if_neg h62))

theorem restartDone_domain {s : State} {d : Nat} (hre : (s.domain d).restarting = true) (hph : s.pwr.phase ≠ .stopped) (h61 : d ≠ 61)
    (h62 : d ≠ 62) : (restartDone s d).domain d = { state := .on } := by
  obtain ⟨hpwr, -⟩ := stageTrims_frame (s.modDomain d fun _ => { state := .on }) (domainTrims d)
  rw [restartDone_of_plain hre hph h61 h62, State.domain, hpwr]
  exact (State.domain_modDomain s d _ d).trans (if_pos rfl)

/-! ## The obligation -/

/-- Settles O59, clause by clause from the rules on memory, copies, interrupts, faults and restarts. -/
theorem memoryAndFaultCommandsComplete : Obligations.MemoryAndFaultCommandsComplete := by
  obtain ⟨⟨-, hburst⟩, -, -, hrefresh, hpatrol⟩ := burstsReachKeptMemory
  obtain ⟨⟨harbiter, hrank⟩, hcopy, hfree, -, -⟩ := arbiterGrantsAndCopies
  refine ⟨fun ws s hph htr hall => congrArg Host.Outcome.next ((trainingDone_of_training hph htr ws).trans (if_pos hall)),
    fun ch a b hot s => ⟨fun hdue => ?_, fun htr hdue => if_pos ((mr4Due_iff s ch.val).mpr ⟨htr, hdue⟩)⟩,
    fun ch reqs s => ?_, fun ch a bs ecc errs s hch => ⟨fun hlen hok => ?_, ?_⟩, fun s hserv hon => ⟨fun hrun hmore => ?_, ?_⟩,
    fun a v s => ⟨(hrank a v s).2.1, rfl⟩, fun sq d h h2 s t ref hst hf hs hd => ?_,
    fun n c x bs a s hc htodo hin hx hdata hlen hp hfl hg hhost hcut hgood => ?_, fun t m v s => ⟨fun hm => ?_, fun hsvc hcl => ?_⟩,
    fun k src v s => ⟨?_, fun hreal ht => ?_⟩, fun f i g v s hph => ⟨fun hlock => ⟨fun hf => ?_, ?_⟩, fun dl hdl hdue => ?_, fun hno => ?_, fun hfac hact hf => ?_⟩,
    fun pd f s => ⟨fun hre hph h61 h62 => ?_, fun hdue => ?_⟩⟩
  · obtain ⟨-, href, -, -⟩ := hrefresh ch a b hot s
    obtain ⟨t, ht, hrows, hrfm, hat, -, -⟩ := href hdue
    exact ⟨t, ht, hrows, hrfm, hat⟩
  · obtain ⟨-, hgrant, -, hend, -, -⟩ := harbiter ch reqs s
    refine ⟨fun hnone hne => ?_, fun h hh hlast => ?_⟩
    · obtain ⟨t, g, ht, hholder, hleft, hle, htop, -⟩ := hgrant hnone hne
      exact ⟨t, g, ht, hholder, hleft, hle, htop⟩
    · obtain ⟨t, ht, hholder, -, -⟩ := hend h hh hlast
      exact ⟨t, ht, hholder⟩
  · obtain ⟨-, hwrite, -, -⟩ := hburst ch a bs ecc errs s
    obtain ⟨t, ht, hbytes, -, -⟩ := hwrite hch hlen hok
    exact ⟨t, ht, hbytes⟩
  · obtain ⟨-, -, -, hread⟩ := hburst ch a bs ecc errs s
    obtain ⟨t, ht, hbytes, -, -⟩ := hread hch
    exact ⟨t, ht, hbytes⟩
  · obtain ⟨-, hread, -⟩ := hpatrol s
    obtain ⟨t, ht, hpos, -⟩ := hread hserv hon hrun hmore
    exact ⟨t, ht, hpos⟩
  · exact (hpatrol s).2.2 hserv hon
  · intro src dst hsrc hdst
    exact ((hcopy sq d h h2 s t ref hst hf hs hd).1 ⟨hsrc, hdst⟩).1
  · obtain ⟨-, hchan⟩ := hfree n s
    obtain ⟨-, -, hdone⟩ := hchan c hc
    obtain ⟨u, hu, -, hn, hbytes, -⟩ := (hdone x htodo hin hx).2 bs a hdata hlen hp hfl hg hhost hcut hgood
    exact ⟨u, hu, hn, hbytes⟩
  · obtain ⟨hwin, hall⟩ := claimWinner_spec s t.val
    have h0 : claimWinner s t.val ≠ 0 := (hall m hm).1
    obtain ⟨p, hop, hclear, -⟩ := claimOp_of_winner (s := s) (t := t.val) rfl h0
    refine ⟨claimWinner s t.val, claimOp s t.val, rfl, hwin h0, ?_, claimOp_svc_winner h0, ?_⟩
    · rw [hop]
      exact hclear
    · rw [hop]
      exact (mget_mset none s.intc.claimer _ (some t.val) _).trans (if_pos rfl)
  · obtain ⟨p, hop, -, -⟩ := completeOp_of_mayComplete (s := s) (t := t.val) (v := v) rfl ((mayComplete_iff s.intc t.val _).mpr ⟨hsvc, hcl⟩)
    refine ⟨completeOp s t.val v, rfl, ?_, ?_⟩
    · rw [hop]
      exact srcBit_srcClear_same s.intc.svc _
    · rw [hop]
      exact (mget_mset none s.intc.claimer _ none _).trans (if_pos rfl)
  · obtain ⟨p, hop, hset, -⟩ := intPendOp_stores (s := s) v k.isLt
    exact ⟨_, congrArg Host.Outcome.next hop, hset⟩
  · obtain ⟨p, hop⟩ := srcCfgOp_stores (s := s) hreal ht
    exact ⟨_, congrArg Host.Outcome.next hop, State.reg_setReg_same s _ _⟩
  · exact ⟨_, rfl, unitDetect_bit f hlock hph hf⟩
  · exact congrArg Host.Outcome.next (if_pos (by simp [hlock, hph]))
  · exact congrArg Host.Outcome.next (dogStep_of_due hdl hdue hph)
  · refine ⟨_, congrArg Host.Outcome.next (fltAckOp_of_unarmed hno), ?_⟩
    simp only [State.modFlt, mget_mset_same]
  · exact ⟨_, rfl, injectOp_of_decoder hfac hact hf⟩
  · have hd := restartDone_domain hre hph h61 h62
    exact ⟨_, rfl, congrArg Domain.state hd, congrArg Domain.restarting hd⟩
  · obtain ⟨⟨hphase, -, -, hstreams, hcontracts, -⟩, -⟩ := restart_leaves s (cause := 1) (by decide) f.isLt
    exact ⟨_, congrArg Host.Outcome.next (moduleRestart_l4 hdue), hphase, hcontracts, hstreams⟩

end Sys2Proof.Machine

/-! PROOFS. O60: the power, domain, sensor, NVM and tally commands complete with their effect. -/

namespace Sys2Proof.Machine

/-- A trace configuration turns tracing off, or on where it was off. -/
theorem traceAllowed {s : State} {d : Desc} (h : descFld d 8 1 = 0 ∨ s.tly.traceEn = false) :
    (!(s.tly.traceEn && descFld d 8 1 == 1)) = true := by
  rcases h with h | h
  · rw [h, show ((0 : Nat) == 1) = false from rfl, Bool.and_false]
    rfl
  · rw [h]
    rfl

/-- Settles O60, clause by clause from the rules on power, start-up, domains, sensors, the stores, the modules and the tallies. -/
theorem powerAndTallyCommandsComplete : Obligations.PowerAndTallyCommandsComplete := by
  obtain ⟨hpower, -, hrestart⟩ := powerUpAndRestartsClearTheModule
  obtain ⟨hstart, hself⟩ := startUpRuns
  obtain ⟨hdies, hheat⟩ := temperatureAndPeakAllowance
  obtain ⟨⟨hstore, hstored⟩, himage, hstaged, htrim⟩ := storesAndImages
  obtain ⟨⟨hmains, hcage⟩, htally⟩ := cagesSnapshotsAndTracing
  refine ⟨fun b s => ?_, fun pd hi v s => ?_, fun ts v i s => ?_, fun sq d bs k s t ref h => ?_, fun ok i ref x k s => ?_, fun c mw v s => ?_⟩
  · obtain ⟨hup, -, hdown, -⟩ := hpower s
    obtain ⟨-, -, -, hlow, -, hloss, hreturn, -⟩ := hrestart s
    obtain ⟨hcount, -, hlock, -⟩ := hstart b s
    obtain ⟨-, hdone, -⟩ := hself [] s
    refine ⟨fun hoff hnone => ?_, fun m hm hoff hdue => ?_, fun hoff => ?_, fun hset => congrArg Host.Outcome.next (if_pos (Option.isSome_iff_ne_none.mpr hset)),
      fun hoff hclk => ?_, fun hclk hdue => ?_, fun hs hc hdue => ?_, fun hs hc => ?_, fun hph htr => ?_⟩
    · obtain ⟨t, ht, ⟨hphase, hregs, -⟩, -⟩ := hup hoff hnone
      exact ⟨t, ht, hphase, hregs⟩
    · obtain ⟨t, ht, ⟨hphase, -⟩, -⟩ := hdown m hm hoff hdue
      exact ⟨t, ht, hphase⟩
    · obtain ⟨t, ht, ⟨⟨hphase, -⟩, -⟩, hlow'⟩ := hlow hoff
      exact ⟨t, ht, hphase, hlow'⟩
    · obtain ⟨t, ht, ⟨⟨hphase, -⟩, -⟩, hclk'⟩ := hloss hoff hclk
      exact ⟨t, ht, hphase, hclk'⟩
    · obtain ⟨t, ht, hclk', -⟩ := hreturn hclk hdue
      exact ⟨t, ht, hclk'⟩
    · obtain ⟨t, ht, hcounted, hfac, -⟩ := hcount hs hc hdue
      exact ⟨t, ht, hcounted, hfac⟩
    · obtain ⟨t, ht, hphase, hlocked, -⟩ := hlock hs hc
      exact ⟨t, ht, hphase, hlocked⟩
    · obtain ⟨t, ht, hphase, -⟩ := hdone hph htr (fun f hf => absurd hf List.not_mem_nil)
      exact ⟨t, ht, hphase⟩
  · intro d y
    obtain ⟨hgap, -, hwake, hentry, hwaking, hforce⟩ := domainsSleepAndWake pd s
    refine ⟨fun hserve hon hnw hnr hidle hch => ?_, fun hserve hdue hoff hnw hnr hne => ?_, fun e k he hdue => ?_, fun k hk hdue => ?_, ?_⟩
    · obtain ⟨t, ht, hstate, -⟩ := hgap hserve hon hnw hnr hidle hch
      exact ⟨t, ht, hstate⟩
    · obtain ⟨t, ht, -, -, hw, -⟩ := hwake hserve hdue hoff hnw hnr
      exact ⟨t, ht, hw hne⟩
    · obtain ⟨t, ht, hnone, -⟩ := (hentry e k he).2 hdue
      exact ⟨t, ht, hnone⟩
    · obtain ⟨t, ht, hon, -⟩ := (hwaking k hk).2 hdue
      exact ⟨t, ht, hon⟩
    · obtain ⟨t, ht, hreg, -⟩ := hforce hi v
      exact ⟨t, ht, hreg⟩
  · obtain ⟨-, hsample⟩ := hdies ts s
    obtain ⟨hhalt, -, -, htref, -, hfan, -, hpeak⟩ := hheat s
    refine ⟨fun hlock => ⟨fun hlen => ?_, ?_, ?_⟩, fun k hk hdue => ?_, fun hserve hdue hleft => ?_⟩
    · obtain ⟨t, ht, htemps, -⟩ := hsample hlen hlock
      exact ⟨t, ht, htemps⟩
    · obtain ⟨t, ht, hv, -⟩ := htref v hlock
      exact ⟨t, ht, hv⟩
    · obtain ⟨t, ht, hfailed, hspeed, -⟩ := hfan i hlock
      exact ⟨t, ht, hfailed, hspeed⟩
    · obtain ⟨t, ht, hphase, -⟩ := hhalt k hk hdue
      exact ⟨t, ht, hphase⟩
    · obtain ⟨t, ht, hat, -⟩ := hpeak hserve hdue hleft
      exact ⟨t, ht, hat⟩
  · obtain ⟨hstage, -, -⟩ := himage sq d bs s t ref h
    obtain ⟨-, hsnap, -⟩ := htally sq d s t ref h
    refine ⟨fun hf hfree => ?_, fun hup hf hkind hfree hlen hrel => ?_, fun hf hst => ?_, fun hf hheld => ?_, fun hf hallow => ?_⟩
    · obtain ⟨-, -, hgo⟩ := hstore sq d s t ref h hf
      obtain ⟨u, hu, hwriting, -⟩ := hgo hfree
      exact ⟨u, hu, hwriting⟩
    · obtain ⟨u, hu, -, -, -, -, hwriting, -⟩ := hstage hup hf hkind hfree
      exact ⟨u, hu, hwriting k hlen hrel⟩
    · exact (exec_firmwareActivate_of_fields h hf).trans (congrArg Host.Outcome.next (check_of_true hst _ _ _ _))
    · obtain ⟨u, hu, -, -, -, -, hcapture⟩ := hsnap hf
      exact ⟨u, hu, hcapture hheld⟩
    · exact (exec_traceConfig_of_fields h hf).trans (congrArg Host.Outcome.next (check_of_true (traceAllowed hallow) _ _ _ _))
  · refine ⟨fun hserve hwait => ⟨fun hw => ?_, fun hw => ?_⟩, fun hearly hpixel => ?_⟩
    · obtain ⟨t, ht, hnone, -⟩ := (hstored ok s ref x hw hwait).2 hserve
      exact ⟨t, ht, hnone⟩
    · obtain ⟨t, ht, hnone, -, -, -, hgood, -⟩ := hstaged true s ref k hserve hw hwait
      exact ⟨t, ht, hnone, (hgood rfl).1⟩
    · obtain ⟨-, hdo, -⟩ := htrim i s
      obtain ⟨t, ht, hforce, -⟩ := hdo ⟨fun hbad => absurd (hearly.symm.trans hbad) Bool.false_ne_true, hpixel⟩
      exact ⟨t, ht, hforce⟩
  · obtain ⟨⟨t, ht, hcage', -⟩, u, hu, habsent, -⟩ := hcage c mw s
    refine ⟨fun hnone => ?_, rfl, ⟨t, ht, by rw [hcage']⟩, ⟨u, hu, habsent⟩, rfl⟩
    rw [exec_mainsLoss, hnone]
    rfl

end Sys2Proof.Machine

/-! PROOFS. The queue of waiting commands and the model's clock through the operations on registers, completions, traces, streams, decoders and
contracts: none of them moves either. -/

namespace Sys2Proof.Machine

/-- The queue of waiting commands and the model's clock: what no command moves. -/
def clock (s : State) : List Instr × Nat := (s.pending, s.wt.now)

/-! The simp set reads both through `clock`, whatever else an operation writes. -/

@[simp] theorem pending_eq_clock (s : State) : s.pending = (clock s).1 := rfl
@[simp] theorem now_eq_clock (s : State) : s.wt.now = (clock s).2 := rfl

/-- A record update writes a state out field by field; the clock reads two of the fields. -/
@[simp] theorem clock_mk (w : WallTime) x2 x3 x4 x5 x6 x7 x8 x9 x10 x11 x12 x13 x14 x15 x16 x17 m y1 y2 y3 y4 y5 y6 y7 y8 y9 y10 y11 p :
    clock ⟨w, x2, x3, x4, x5, x6, x7, x8, x9, x10, x11, x12, x13, x14, x15, x16, x17, m, y1, y2, y3, y4, y5, y6, y7, y8, y9, y10, y11, p⟩ = (p, w.now) := rfl

@[simp] theorem clock_ite (c : Prop) [Decidable c] (s t : State) : clock (if c then s else t) = if c then clock s else clock t := apply_ite clock c s t

/-- A fold of steps that keep the clock keeps it. -/
@[simp] theorem clock_foldl {α : Type} {g : State → α → State} (h : ∀ t x, clock (g t x) = clock t) (l : List α) (s : State) :
    clock (l.foldl g s) = clock s := foldl_view h l s

/-! ### The accessors -/

@[simp] theorem clock_setReg (s : State) (off : Nat) (v : Word) : clock (s.setReg off v) = clock s := by rfl
@[simp] theorem clock_setSel (s : State) (a : Agent) (off : Nat) (v : Word) : clock (s.setSel a off v) = clock s := by rfl
@[simp] theorem clock_setLatch (s : State) (a : Agent) (off : Nat) (v : Word) : clock (s.setLatch a off v) = clock s := by rfl
@[simp] theorem clock_modLink (s : State) (f : Link → Link) : clock (s.modLink f) = clock s := by rfl
@[simp] theorem clock_modRings (s : State) (f : Rings → Rings) : clock (s.modRings f) = clock s := by rfl
@[simp] theorem clock_modDma (s : State) (f : Dma → Dma) : clock (s.modDma f) = clock s := by rfl
@[simp] theorem clock_modPwr (s : State) (f : Power → Power) : clock (s.modPwr f) = clock s := by rfl
@[simp] theorem clock_modNvm (s : State) (f : Nvm → Nvm) : clock (s.modNvm f) = clock s := by rfl
@[simp] theorem clock_modTbl (s : State) (f : Tables → Tables) : clock (s.modTbl f) = clock s := by rfl
@[simp] theorem clock_modEg (s : State) (f : Egress → Egress) : clock (s.modEg f) = clock s := by rfl
@[simp] theorem clock_modBuf (s : State) (f : Buffers → Buffers) : clock (s.modBuf f) = clock s := by rfl
@[simp] theorem clock_modTly (s : State) (f : Tally → Tally) : clock (s.modTly f) = clock s := by rfl
@[simp] theorem clock_modFlt (s : State) (f : Faults → Faults) : clock (s.modFlt f) = clock s := by rfl
@[simp] theorem clock_modContract (s : State) (c : Nat) (f : Contract → Contract) : clock (s.modContract c f) = clock s := by rfl
@[simp] theorem clock_modStream (s : State) (n : Nat) (f : Stream → Stream) : clock (s.modStream n f) = clock s := by rfl
@[simp] theorem clock_modDec (s : State) (n : Nat) (f : DecCore → DecCore) : clock (s.modDec n f) = clock s := by rfl
@[simp] theorem clock_modEncCore (s : State) (n : Nat) (f : EncCore → EncCore) : clock (s.modEncCore n f) = clock s := by rfl
@[simp] theorem clock_modDrover (s : State) (n : Nat) (f : Drover → Drover) : clock (s.modDrover n f) = clock s := by rfl
@[simp] theorem clock_modPort (s : State) (p : Nat) (f : Port → Port) : clock (s.modPort p f) = clock s := by rfl
@[simp] theorem clock_modChannel (s : State) (c : Nat) (f : Channel → Channel) : clock (s.modChannel c f) = clock s := by rfl
@[simp] theorem clock_modMem (s : State) (f : Mem → Mem) : clock (s.modMem f) = clock s := by rfl
@[simp] theorem clock_modDomain (s : State) (d : Nat) (f : Domain → Domain) : clock (s.modDomain d f) = clock s := by rfl
@[simp] theorem clock_modCq (s : State) (r : Nat) (f : Cq → Cq) : clock (s.modCq r f) = clock s := by rfl
@[simp] theorem clock_modPeer (s : State) (e : Nat) (f : Peer → Peer) : clock (s.modPeer e f) = clock s := by simp [State.modPeer]
@[simp] theorem clock_modSlot (s : State) (k : Nat) (f : LSlot → LSlot) : clock (s.modSlot k f) = clock s := by rfl
@[simp] theorem clock_modSlice (s : State) (k : Nat) (f : Slice → Slice) : clock (s.modSlice k f) = clock s := by rfl

/-! ### Interrupts, status, device memory and what is sent -/

@[simp] theorem clock_pendRaw (s : State) (n : Nat) : clock (pendRaw s n) = clock s := by rfl
@[simp] theorem clock_devEvent (s0 s : State) : clock (devEvent s0 s) = clock s := by simp [devEvent]
@[simp] theorem clock_pendSrc (s : State) (n : Nat) : clock (pendSrc s n) = clock s := by simp [pendSrc]
@[simp] theorem clock_levelSample (s : State) (n : Nat) : clock (levelSample s n) = clock s := by simp [levelSample]
@[simp] theorem clock_setStatus (s : State) (off mask : Nat) : clock (setStatus s off mask) = clock s := by simp [setStatus]
@[simp] theorem clock_tallyAdd (s : State) (i n : Nat) : clock (tallyAdd s i n) = clock s := by rfl
@[simp] theorem clock_drawFree (s : State) : clock (drawFree s).2 = clock s := by rfl

@[simp] theorem clock_raiseFault (s : State) (f : Nat) : clock (raiseFault s f) = clock s := by
  unfold raiseFault
  split <;> simp

@[simp] theorem clock_memWrite (s : State) (a : Nat) (bs : List Byte) : clock (memWrite s a bs) = clock s := by simp [memWrite]
@[simp] theorem clock_place (s : State) (n : Nat) : clock (place s n).2 = clock s := by rfl
@[simp] theorem clock_unplace (s : State) (a : Nat) : clock (unplace s a) = clock s := by rfl
@[simp] theorem clock_peerSend (s : State) (e : Nat) (bs : List Byte) : clock (peerSend s e bs) = clock s := by simp [peerSend]
@[simp] theorem clock_markMismatch (s : State) (p : Nat) : clock (markMismatch s p) = clock s := by simp [markMismatch]
@[simp] theorem clock_checkPairs (s : State) (p : Nat) : clock (checkPairs s p) = clock s := by simp [checkPairs]
@[simp] theorem clock_sendTxn (s : State) (t : Txn) : clock (sendTxn s t) = clock s := by rfl
@[simp] theorem clock_hostWrite (s : State) (a : Nat) (bs : List Byte) : clock (hostWrite s a bs) = clock s := by rfl

@[simp] theorem clock_modWt {f : WallTime → WallTime} (h : ∀ w, (f w).now = w.now) (s : State) : clock (s.modWt f) = clock s :=
  congrArg (Prod.mk s.pending) (h s.wt)

/-! ### Completions and the start of a command -/

@[simp] theorem clock_fixDeferred (s : State) (n f : Nat) (x : Deferred) : clock (fixDeferred s n f x) = clock s := by rfl

@[simp] theorem clock_putCpl (s : State) (c : Completion) : clock (putCpl s c) = clock s := by
  unfold putCpl
  repeat' split
  all_goals simp

@[simp] theorem clock_writeCpl (s : State) (c : Completion) : clock (writeCpl s c) = clock s := by
  unfold writeCpl
  split <;> simp

@[simp] theorem clock_drainCpl : ∀ (cs kept : List Completion) (s : State), clock (drainCpl cs kept s) = clock s
  | [], _, _ => rfl
  | c :: cs, kept, s => by
    unfold drainCpl
    split <;> simp [clock_drainCpl cs]

@[simp] theorem clock_markFull (s : State) (r : Nat) : clock (markFull s r) = clock s := by simp [markFull]
@[simp] theorem clock_offerCpl (s : State) (c : Completion) : clock (offerCpl s c) = clock s := by simp [offerCpl]
@[simp] theorem clock_complete (s : State) (ref : CmdRef) (status r0 r1 r2 : Nat) : clock (complete s ref status r0 r1 r2) = clock s := by simp [complete]
@[simp] theorem clock_completeDeferred (s : State) (ref : CmdRef) (n : Nat) : clock (completeDeferred s ref n) = clock s := by simp [completeDeferred]
@[simp] theorem clock_completeWith (s : State) (ref : CmdRef) (status : Nat) : clock (completeWith s ref status) = clock s := by simp [completeWith]

@[simp] theorem clock_offerOrDrop (s : State) (c : Completion) : clock (offerOrDrop s c).2 = clock s := by
  unfold offerOrDrop
  split <;> simp

@[simp] theorem clock_fireSlot (s : State) (k : Nat) : clock (fireSlot s k) = clock s := by
  unfold fireSlot
  dsimp only
  repeat' split
  all_goals simp

@[simp] theorem clock_modSq (s : State) (r : Nat) (f : Sq → Sq) : clock (s.modSq r f) = clock s := by rfl
@[simp] theorem clock_holdSubmit (s : State) (r : Nat) (d : Desc) : clock (holdSubmit s r d) = clock s := by simp [holdSubmit]

@[simp] theorem clock_check {k : State → State} {ok : Bool} {st : Nat} {ref : CmdRef} {s : State} (hk : ∀ t, clock (k t) = clock t) :
    clock (check ok st ref s k) = clock s := by
  unfold check
  split <;> simp [hk]

@[simp] theorem clock_fetchOf {k : List Byte → State → State} {h : HostData} {ref : CmdRef} {s : State} (hk : ∀ bs t, clock (k bs t) = clock t) :
    clock (fetchOf h ref s k) = clock s := by
  unfold fetchOf
  split <;> simp [hk]

/-! ### Tallies and traces -/

@[simp] theorem clock_capture (s : State) (b : Nat) : clock (capture s b) = clock s := by rfl
@[simp] theorem clock_snapRun (ref : CmdRef) (d : Desc) (s : State) : clock (snapRun ref d s) = clock s := by simp [snapRun]
@[simp] theorem clock_modAvail (s : State) (c : Nat) (f : Avail → Avail) : clock (s.modAvail c f) = clock s := by rfl
@[simp] theorem clock_lateInput (s : State) (c n : Nat) : clock (lateInput s c n) = clock s := by rfl

@[simp] theorem clock_traceTag (s : State) (kind stream : Nat) (owner : Option Nat) (ref : CmdRef) (key : Option Nat) :
    clock (traceTag s kind stream owner ref key) = clock s := by
  unfold traceTag
  split <;> simp

@[simp] theorem clock_traceMark (s : State) (p : Traced → Bool) (f : Traced → Traced) : clock (traceMark s p f) = clock s := by rfl
@[simp] theorem clock_traceFlush (s : State) : clock (traceFlush s) = clock s := by simp [traceFlush]

@[simp] theorem clock_traceWrite (s : State) (x : Traced) (launch : Option Nat) (frame : Nat) (late breach : Bool) :
    clock (traceWrite s x launch frame late breach) = clock s := by
  simp [traceWrite]

@[simp] theorem clock_traceSet (s : State) (d : Desc) : clock (traceSet s d) = clock s := by simp [traceSet]

/-! ### Streams, units and raw frames -/

@[simp] theorem clock_openRaw (ref : CmdRef) (d : Desc) (s : State) : clock (openRaw ref d s) = clock s := by simp [openRaw]

@[simp] theorem clock_openCoded (ref : CmdRef) (d : Desc) (codec : Codec) (r : StreamRec) (bs : List Byte) (s : State) :
    clock (openCoded ref d codec r bs s) = clock s := by
  simp [openCoded]

@[simp] theorem clock_openParsed (ref : CmdRef) (d : Desc) (codec : Codec) (cfg : CfgParse) (bs : List Byte) (s : State) :
    clock (openParsed ref d codec cfg bs s) = clock s := by
  unfold openParsed
  split <;> simp

@[simp] theorem clock_closedStream (s : State) (n : Nat) : clock (closedStream s n) = clock s := by rfl
@[simp] theorem clock_tryClose (s : State) (n : Nat) : clock (tryClose s n) = clock s := by simp [tryClose]
@[simp] theorem clock_flushStream (s : State) (n : Nat) (ref : CmdRef) : clock (flushStream s n ref) = clock s := by simp [flushStream]

@[simp] theorem clock_streamCloseRun (ref : CmdRef) (n : Nat) (s : State) : clock (streamCloseRun ref n s) = clock s := by
  unfold streamCloseRun
  split <;> simp

@[simp] theorem clock_tagSubmit (s : State) (kind n : Nat) (ref : CmdRef) (key : Option Nat) : clock (tagSubmit s kind n ref key) = clock s := by
  simp [tagSubmit]

@[simp] theorem clock_auAccept (ref : CmdRef) (d : Desc) (s : State) : clock (auAccept ref d s) = clock s := by simp [auAccept]

@[simp] theorem clock_dropDead (n : Nat) : ∀ (us : List Au) (s : State), clock (dropDead n us s) = clock s
  | [], _ => rfl
  | u :: us, s => by
    unfold dropDead
    dsimp only
    repeat' split
    all_goals simp [clock_dropDead n us]

@[simp] theorem clock_settle (s : State) (n : Nat) : clock (settle s n) = clock s := by simp [settle]
@[simp] theorem clock_markIngest (s : State) (ref : CmdRef) : clock (markIngest s ref) = clock s := by rfl
@[simp] theorem clock_takeBuf (s : State) (n b : Nat) (tag : Nat) (sliced : Bool) : clock (takeBuf s n b tag sliced) = clock s := by simp [takeBuf]

@[simp] theorem clock_startRaw (n : Nat) : ∀ (k : Nat) (s : State), clock (startRaw n k s) = clock s
  | 0, _ => rfl
  | k + 1, s => by
    unfold startRaw
    repeat' split
    all_goals simp [clock_startRaw n k]

@[simp] theorem clock_rawGo (s : State) (n : Nat) : clock (rawGo s n) = clock s := by simp [rawGo]

@[simp] theorem clock_rawAccept (ref : CmdRef) (d : Desc) (slice : Option Nat) (s : State) : clock (rawAccept ref d slice s) = clock s := by
  simp [rawAccept]

@[simp] theorem clock_rawDone (n : Nat) (h : HostData) (r : RawSubmit) (b : Nat) (s : State) : clock (rawDone n h r b s) = clock s := by
  unfold rawDone
  split <;> simp

/-! ### Decoders -/

@[simp] theorem clock_applyBacklog (s : State) (n core m reorder : Nat) : clock (applyBacklog s n core m reorder) = clock s := by simp [applyBacklog]
@[simp] theorem clock_markDecStart (s : State) (us : List Au) : clock (markDecStart s us) = clock s := by simp [markDecStart]
@[simp] theorem clock_refreshCores (s : State) (n : Nat) : clock (refreshCores s n) = clock s := by simp [refreshCores]

@[simp] theorem clock_streamDecodeStart (s : State) (c n core frame : Nat) : clock (streamDecodeStart s c n core frame) = clock s := by
  simp [streamDecodeStart]

@[simp] theorem clock_abandonRepair (s : State) (core : Nat) : clock (abandonRepair s core) = clock s := by simp [abandonRepair]
@[simp] theorem clock_decodeStartOp (s : State) (k : Nat) (l : LSlot) : clock (decodeStartOp s k l) = clock s := by simp [decodeStartOp]
@[simp] theorem clock_addPicture (s : State) (n : Nat) (u : Au) (make : Nat → Picture) : clock (addPicture s n u make) = clock s := by rfl

@[simp] theorem clock_storePicture (s : State) (n : Nat) (u : Au) (o : DecOutcome) : clock (storePicture s n u o) = clock s := by
  unfold storePicture
  split <;> simp

@[simp] theorem clock_reportCores (s : State) (x : Stream) (u : Au) (o : DecOutcome) : clock (reportCores s x u o) = clock s := by simp [reportCores]

@[simp] theorem clock_markDecDone (s : State) (u : Au) (made : Option Picture) (concealed : Bool) :
    clock (markDecDone s u made concealed) = clock s := by rfl

@[simp] theorem clock_pictureDone (s : State) (n : Nat) (u : Au) (o : DecOutcome) : clock (pictureDone s n u o) = clock s := by simp [pictureDone]

/-! ### Buffers and contracts -/

@[simp] theorem clock_writeReport (s : State) (addr : Nat) (v : Verdict) : clock (writeReport s addr v) = clock s := by simp [writeReport]
@[simp] theorem clock_modPool (s : State) (p : Nat) (f : Pool → Pool) : clock (s.modPool p f) = clock s := by rfl
@[simp] theorem clock_relevel (s : State) : clock (relevel s) = clock s := by simp [relevel]
@[simp] theorem clock_allocBuf (s : State) (p o refs : Nat) : clock (allocBuf s p o refs).2 = clock s := by simp [allocBuf]
@[simp] theorem clock_doubleFree (s : State) : clock (doubleFree s) = clock s := by simp [doubleFree]
@[simp] theorem clock_freeBuf (s : State) (p h : Nat) : clock (freeBuf s p h) = clock s := by simp [freeBuf]
@[simp] theorem clock_refill (s : State) (p : Nat) : clock (refill s p) = clock s := by simp [refill]
@[simp] theorem clock_spill (s : State) (p : Nat) : clock (spill s p) = clock s := by simp [spill]
@[simp] theorem clock_modRing (s : State) (c p : Nat) (f : CRing → CRing) : clock (s.modRing c p f) = clock s := by rfl
@[simp] theorem clock_reserveRing (c : Nat) (s : State) (p z : Nat) : clock (reserveRing c s p z) = clock s := by simp [reserveRing]
@[simp] theorem clock_planRings (s : State) (c : Nat) : clock (planRings s c) = clock s := by simp [planRings]
@[simp] theorem clock_buildRings (s : State) (c : Nat) : clock (buildRings s c) = clock s := by rfl
@[simp] theorem clock_freeRings (s : State) (c : Nat) : clock (freeRings s c) = clock s := by simp [freeRings]
@[simp] theorem clock_addSlots (s : State) (ls : List LSlot) : clock (addSlots s ls) = clock s := by rfl
@[simp] theorem clock_armSlots (s : State) (n n0 : Nat) : clock (armSlots s n n0) = clock s := by rfl
@[simp] theorem clock_dropSlots (s : State) (n : Nat) : clock (dropSlots s n) = clock s := by rfl
@[simp] theorem clock_placeEndpoint (s : State) (e : Endpoint) : clock (placeEndpoint s e) = clock s := by simp [placeEndpoint]
@[simp] theorem clock_placeStat (s : State) (n : Nat) (c : Contract) : clock (placeStat s n c) = clock s := by simp [placeStat]
@[simp] theorem clock_ownStreams (s : State) (n : Nat) (xs : List Source) : clock (ownStreams s n xs) = clock s := by simp [ownStreams]

@[simp] theorem clock_acceptProposal (s : State) (n : Nat) (c : Contract) (v : Verdict) : clock (acceptProposal s n c v) = clock s := by
  simp [acceptProposal]

@[simp] theorem clock_proposeAdmit (ref : CmdRef) (d : Desc) (c : Contract) (s : State) : clock (proposeAdmit ref d c s) = clock s := by
  simp [proposeAdmit]

@[simp] theorem clock_proposeBlock (ref : CmdRef) (d : Desc) (bs : List Byte) (s : State) : clock (proposeBlock ref d bs s) = clock s :=
  clock_check fun _ => clock_check fun _ => clock_check (clock_proposeAdmit ref d _)

@[simp] theorem clock_commitAccept (s : State) (n : Nat) (ref : CmdRef) (n0 : Nat) : clock (commitAccept s n ref n0) = clock s := by simp [commitAccept]

@[simp] theorem clock_commitDecide (s : State) (n : Nat) (ref : CmdRef) (atFrame : Bool) (first : Nat) :
    clock (commitDecide s n ref atFrame first) = clock s := by
  simp [commitDecide]

@[simp] theorem clock_commitTry (s : State) (n : Nat) (ref : CmdRef) (atFrame : Bool) (first : Nat) :
    clock (commitTry s n ref atFrame first) = clock s := by
  simp [commitTry]

@[simp] theorem clock_freeCoefs (s : State) (n : Nat) : clock (freeCoefs s n) = clock s := by simp [freeCoefs]
@[simp] theorem clock_freeCodes (s : State) (n : Nat) (c : Contract) : clock (freeCodes s n c) = clock s := by simp [freeCodes]
@[simp] theorem clock_stopProxyOf (s : State) (n : Nat) : clock (stopProxyOf s n) = clock s := by simp [stopProxyOf]
@[simp] theorem clock_disownStreams (s : State) (n : Nat) : clock (disownStreams s n) = clock s := by rfl
@[simp] theorem clock_freeContract (s : State) (n : Nat) : clock (freeContract s n) = clock s := by simp [freeContract]
@[simp] theorem clock_completeReleases (s : State) (rs : List CmdRef) (r0 : Nat) : clock (completeReleases s rs r0) = clock s := by simp [completeReleases]

@[simp] theorem clock_releaseIdle (s : State) (n : Nat) (ref : CmdRef) : clock (releaseIdle s n ref) = clock s := by
  unfold releaseIdle
  split <;> simp

@[simp] theorem clock_drainEnd (s : State) (n : Nat) : clock (drainEnd s n) = clock s := by simp [drainEnd]
@[simp] theorem clock_beginDrain (s : State) (n : Nat) (ref : CmdRef) (blank : Bool) : clock (beginDrain s n ref blank) = clock s := by rfl

@[simp] theorem clock_releaseRun (s : State) (n : Nat) (ref : CmdRef) (blank : Bool) : clock (releaseRun s n ref blank) = clock s := by
  unfold releaseRun
  split <;> simp

@[simp] theorem clock_deferStep (s : State) (n : Nat) (x : Deferred) : clock (defer_ s n x) = clock s := by rfl

@[simp] theorem clock_acceptLayout (s : State) (n : Nat) (ref : CmdRef) (ch : Change) (xs : List Source) (v : Verdict) :
    clock (acceptLayout s n ref ch xs v) = clock s := by
  simp [acceptLayout]

@[simp] theorem clock_layoutAdmit (ref : CmdRef) (d : Desc) (bs : List Byte) (s : State) : clock (layoutAdmit ref d bs s) = clock s := by
  simp [layoutAdmit]

end Sys2Proof.Machine

/-! PROOFS. The queue and the clock through the tables, the egress ports, the messages, the proxy, the composition and the loads. -/

namespace Sys2Proof.Machine

/-! ### Endpoint tables -/

@[simp] theorem clock_putEntry (s : State) (i : Nat) (e : TEntry) : clock (putEntry s i e) = clock s := by rfl
@[simp] theorem clock_sendNotice (s : State) (op : Nat) (e : TEntry) : clock (sendNotice s op e) = clock s := by simp [sendNotice]
@[simp] theorem clock_putAnnounce (s : State) (i : Nat) (e : TEntry) : clock (putAnnounce s i e) = clock s := by simp [putAnnounce]
@[simp] theorem clock_removeEntry (s : State) (i : Nat) : clock (removeEntry s i) = clock s := by simp [removeEntry]
@[simp] theorem clock_fullBucket (s : State) : clock (fullBucket s) = clock s := by simp [fullBucket]
@[simp] theorem clock_loopSuspect (s : State) (bits : Nat) : clock (loopSuspect s bits) = clock s := by simp [loopSuspect]
@[simp] theorem clock_foldConflict (s : State) (i j r : Nat) : clock (foldConflict s i j r) = clock s := by simp [foldConflict]
@[simp] theorem clock_conflictsNew (s : State) (i mac : Nat) : clock (conflictsNew s i mac) = clock s := by simp [conflictsNew]
@[simp] theorem clock_slotConflict (s : State) : clock (slotConflict s) = clock s := by simp [slotConflict]

@[simp] theorem clock_unbindSlot (s : State) (slot : Nat) : clock (unbindSlot s slot) = clock s := by
  unfold unbindSlot
  split <;> simp

@[simp] theorem clock_bindDynamic (s : State) (i slot : Nat) : clock (bindDynamic s i slot) = clock s := by
  unfold bindDynamic
  repeat' split
  all_goals simp

@[simp] theorem clock_bindLearn (s : State) (i slot : Nat) : clock (bindLearn s i slot) = clock s := by simp [bindLearn]
@[simp] theorem clock_applied (s : State) : clock (applied s) = clock s := by rfl
@[simp] theorem clock_refused (s : State) : clock (refused s) = clock s := by rfl
@[simp] theorem clock_applyMove (s : State) (i : Nat) (e : TEntry) (slot p now : Nat) : clock (applyMove s i e slot p now) = clock s := by simp [applyMove]

@[simp] theorem clock_applyTelemetry (s : State) (mac slot p now : Nat) : clock (applyTelemetry s mac slot p now) = clock s := by
  unfold applyTelemetry
  repeat' split
  all_goals simp

@[simp] theorem clock_fwLearn (s : State) (mac slot port : Nat) : clock (fwLearn s mac slot port) = clock s := by rfl
@[simp] theorem clock_fwForget (s : State) (mac : Nat) : clock (fwForget s mac) = clock s := by rfl
@[simp] theorem clock_writeStatic (s : State) (i mac slot p : Nat) : clock (writeStatic s i mac slot p) = clock s := by simp [writeStatic]

@[simp] theorem clock_learnStatic (s : State) (mac slot p : Nat) : clock (learnStatic s mac slot p).2 = clock s := by
  unfold learnStatic
  repeat' split
  all_goals simp

@[simp] theorem clock_removeMac (s : State) (mac : Nat) : clock (removeMac s mac) = clock s := by
  unfold removeMac
  split <;> simp

@[simp] theorem clock_applyAdd (s : State) (mac j port : Nat) : clock (applyAdd s mac j port) = clock s := by
  unfold applyAdd
  repeat' split
  all_goals simp

@[simp] theorem clock_undefer (s : State) (mac : Nat) : clock (undefer s mac) = clock s := by
  unfold undefer
  split <;> simp

@[simp] theorem clock_applyRemove (s : State) (mac j : Nat) : clock (applyRemove s mac j) = clock s := by
  unfold applyRemove
  split <;> simp

@[simp] theorem clock_dropModule (s : State) (j : Nat) : clock (dropModule s j) = clock s := by simp [dropModule]

@[simp] theorem clock_applyEvent (s : State) (e : LearnEv) : clock (applyEvent s e) = clock s := by
  have hlearn : ∀ mac slot p r, learnStatic s mac slot p = r → clock r.2 = clock s := fun mac slot p _ h => h ▸ clock_learnStatic s mac slot p
  unfold applyEvent
  split
  · simp
  · split <;> simp
  · split
    next heq => simpa using hlearn _ _ _ _ heq
    next heq => simpa using hlearn _ _ _ _ heq
  · simp

@[simp] theorem clock_lostEvent (s : State) : clock (lostEvent s) = clock s := by rfl
@[simp] theorem clock_offerEvent (s : State) (rank : Nat) (e : LearnEv) : clock (offerEvent s rank e) = clock s := by simp [offerEvent]
@[simp] theorem clock_setPrefixes (s : State) (ps : List Prefix) : clock (setPrefixes s ps) = clock s := by rfl
@[simp] theorem clock_runLpm (s : State) (ref : CmdRef) (delete : Bool) (p : Prefix) : clock (runLpm s ref delete p) = clock s := by simp [runLpm]

@[simp] theorem clock_runHeld (s : State) (e : HeldTbl) : clock (runHeld s e) = clock s := by
  unfold runHeld
  split <;> simp

@[simp] theorem clock_drainHeld (s : State) : clock (drainHeld s) = clock s := by simp [drainHeld]
@[simp] theorem clock_offerHeld (s : State) (h : HeldTbl) : clock (offerHeld s h) = clock s := by simp [offerHeld]

@[simp] theorem clock_learnApply (s : State) : clock (learnApply s) = clock s := by
  unfold learnApply
  split <;> simp

@[simp] theorem clock_sweepOne (s : State) : clock (sweepOne s) = clock s := by simp [sweepOne]

@[simp] theorem clock_sweepVisit (s : State) : clock (sweepVisit s) = clock s := by
  unfold sweepVisit
  split <;> simp

@[simp] theorem clock_forwardFold (s : State) (e : Nat) (bs : List Byte) (own : Bool) : clock (forwardFold s e bs own) = clock s := by simp [forwardFold]
@[simp] theorem clock_foldDiscard (s : State) (e t : Nat) : clock (foldDiscard s e t) = clock s := by simp [foldDiscard]
@[simp] theorem clock_noticeReceive (s : State) (e : Nat) (bs : List Byte) : clock (noticeReceive s e bs) = clock s := by simp [noticeReceive]

@[simp] theorem clock_spreadSend (s : State) : clock (spreadSend s) = clock s := by
  unfold spreadSend
  split <;> simp

@[simp] theorem clock_startSpread (s : State) : clock (startSpread s) = clock s := by rfl
@[simp] theorem clock_tblUe (s : State) : clock (tblUe s) = clock s := by simp [tblUe]

@[simp] theorem clock_eccError (s : State) (e : TblErr) : clock (eccError s e) = clock s := by
  unfold eccError
  split <;> simp

/-! ### The shadow audit -/

@[simp] theorem clock_auditRecord (a : Audit) (acc : List Mismatch × State) (r : List Byte) : clock (auditRecord a acc r).2 = clock acc.2 := by
  unfold auditRecord
  dsimp only
  repeat' split
  all_goals simp

@[simp] theorem clock_auditExtras (a : Audit) (acc : List Mismatch × State) : clock (auditExtras a acc).2 = clock acc.2 := by simp [auditExtras]

@[simp] theorem clock_auditRecords (a : Audit) : ∀ (rs : List (List Byte)) (acc : List Mismatch × State),
    clock (rs.foldl (auditRecord a) acc).2 = clock acc.2
  | [], _ => rfl
  | r :: rs, acc => (clock_auditRecords a rs _).trans (clock_auditRecord a acc r)

@[simp] theorem clock_auditEnd (s : State) (a : Audit) : clock (auditEnd s a) = clock s := by simp [auditEnd]

/-! ### Egress ports -/

@[simp] theorem clock_markSent (s : State) (p : Nat) (f : Frame) : clock (markSent s p f) = clock s := by
  unfold markSent
  split <;> simp

@[simp] theorem clock_startFrame (s : State) (p : Nat) (f : Frame) (built : Bool) : clock (startFrame s p f built) = clock s := by simp [startFrame]

@[simp] theorem clock_portGo (s : State) (p : Nat) : clock (portGo s p) = clock s := by
  unfold portGo
  dsimp only
  repeat' split
  all_goals simp

@[simp] theorem clock_decRef (s : State) (pool h : Nat) : clock (decRef s pool h) = clock s := by simp [decRef]
@[simp] theorem clock_copyFate (s : State) (i p : Nat) (fate : Fate) : clock (copyFate s i p fate) = clock s := by simp [copyFate]

@[simp] theorem clock_releaseFrame (s : State) (p : Nat) (f : Frame) : clock (releaseFrame s p f) = clock s := by
  unfold releaseFrame
  split <;> simp

@[simp] theorem clock_markLost (s : State) (p : Nat) (f : Frame) : clock (markLost s p f) = clock s := by
  unfold markLost
  split <;> simp

@[simp] theorem clock_dropFrame (s : State) (p : Nat) (f : Frame) (fate : Fate) : clock (dropFrame s p f fate) = clock s := by
  unfold dropFrame
  split <;> simp

@[simp] theorem clock_portTally (s : State) (p j n : Nat) : clock (portTally s p j n) = clock s := by rfl
@[simp] theorem clock_discardFrame (s : State) (p : Nat) (f : Frame) : clock (discardFrame s p f) = clock s := by simp [discardFrame]

@[simp] theorem clock_discardAll (s : State) (p : Nat) : clock (discardAll s p) = clock s :=
  (clock_foldl (fun t f => clock_discardFrame t p f) _ _).trans (clock_modPort s p _)

@[simp] theorem clock_portKick (s : State) (p : Nat) : clock (portKick s p) = clock s := by simp [portKick]
@[simp] theorem clock_sendBuilt (s : State) (p : Nat) (f : Frame) : clock (sendBuilt s p f) = clock s := by simp [sendBuilt]

/-! ### Queues and messages -/

@[simp] theorem clock_putClass0 (s : State) (p : Nat) (f : Frame) : clock (putClass0 s p f) = clock s := by simp [putClass0]
@[simp] theorem clock_putQueue (s : State) (p : Nat) (f : Frame) : clock (putQueue s p f) = clock s := by simp [putQueue]
@[simp] theorem clock_policedDrop (s : State) (p : Nat) (f : Frame) (bit_ : Nat) : clock (policedDrop s p f bit_) = clock s := by simp [policedDrop]
@[simp] theorem clock_enqueueMsg (s : State) (p : Nat) (f : Frame) : clock (enqueueMsg s p f) = clock s := by simp [enqueueMsg]

@[simp] theorem clock_enqueueAll (s : State) (m : HeldMsg) (pool h dst : Nat) (ports : List Nat) : clock (enqueueAll s m pool h dst ports) = clock s := by
  unfold enqueueAll
  dsimp only
  repeat' split
  all_goals simp

@[simp] theorem clock_sendMessage (s : State) (m : HeldMsg) (pool h : Nat) : clock (sendMessage s m pool h) = clock s := by
  unfold sendMessage
  split <;> simp

@[simp] theorem clock_grantMessage (s : State) (m : HeldMsg) (data : HostData) : clock (grantMessage s m data) = clock s := by
  unfold grantMessage
  split <;> simp

@[simp] theorem clock_offerMessage (s : State) (m0 : HeldMsg) (data : HostData) : clock (offerMessage s m0 data) = clock s := by simp [offerMessage]

@[simp] theorem clock_msgRun (ref : CmdRef) (d : Desc) (region : Bool) (t o f : Nat) (h : HostData) (s : State) :
    clock (msgRun ref d region t o f h s) = clock s := by
  simp [msgRun]

@[simp] theorem clock_unhold (s : State) (m : HeldMsg) : clock (unhold s m) = clock s := by rfl

@[simp] theorem clock_releaseMessage (s : State) (arg : Nat) : clock (releaseMessage s arg) = clock s := by
  unfold releaseMessage
  repeat' split
  all_goals simp

@[simp] theorem clock_heldTimeout (s : State) (sq cid : Nat) : clock (heldTimeout s sq cid) = clock s := by
  unfold heldTimeout
  repeat' split
  all_goals simp

@[simp] theorem clock_allocGrant (s : State) (data : HostData) : clock (allocGrant s data) = clock s := by
  unfold allocGrant
  split <;> simp

/-! ### The end of a frame and the links of the ports -/

@[simp] theorem clock_countSent (s : State) (p : Nat) (f : Frame) : clock (countSent s p f) = clock s := by rfl

@[simp] theorem clock_traceSent (s : State) (f : Frame) : clock (traceSent s f) = clock s := by
  unfold traceSent
  split <;> simp

@[simp] theorem clock_asmParity (s : State) (p : Nat) (f : Frame) (parity : Bool) : clock (asmParity s p f parity) = clock s := by
  unfold asmParity
  split <;> simp

@[simp] theorem clock_txEnd (s0 : State) (p : Nat) (parity : Bool) : clock (txEnd s0 p parity) = clock s0 := by
  unfold txEnd
  repeat' split
  all_goals simp

@[simp] theorem clock_dropAged (s : State) (p q : Nat) : clock (dropAged s p q) = clock s := by
  unfold dropAged
  split <;> simp

@[simp] theorem clock_linkRise (s : State) (p : Nat) : clock (linkRise s p) = clock s := by simp [linkRise]
@[simp] theorem clock_linkLost (s : State) (p : Nat) (lock align : Bool) : clock (linkLost s p lock align) = clock s := by simp [linkLost]
@[simp] theorem clock_linkFall (s : State) (p : Nat) : clock (linkFall s p) = clock s := by simp [linkFall]
@[simp] theorem clock_fecBad (s : State) (p : Nat) (bad : Bool) : clock (fecBad s p bad) = clock s := by simp [fecBad]

/-! ### Frames received -/

@[simp] theorem clock_rxDiscard (s : State) (p : Nat) (bs : List Byte) (fcsOk : Bool) : clock (rxDiscard s p bs fcsOk) = clock s := by simp [rxDiscard]
@[simp] theorem clock_dreqWindow (s : State) (p : Nat) : clock (dreqWindow s p) = clock s := by simp [dreqWindow]
@[simp] theorem clock_delayReq (s : State) (p : Nat) (bs : List Byte) (age : Word) : clock (delayReq s p bs age) = clock s := by simp [delayReq]

@[simp] theorem clock_noteTemp (s : State) (slot : Nat) (bs : List Byte) : clock (noteTemp s slot bs) = clock s := by
  unfold noteTemp
  split <;> simp

@[simp] theorem clock_tlmLearn (s : State) (p slot : Nat) (bs : List Byte) : clock (tlmLearn s p slot bs) = clock s := by simp [tlmLearn]
@[simp] theorem clock_tlmDeliver (s : State) (p slot : Nat) (bs : List Byte) : clock (tlmDeliver s p slot bs) = clock s := by simp [tlmDeliver]
@[simp] theorem clock_tlmHost (s : State) (p slot : Nat) (bs : List Byte) : clock (tlmHost s p slot bs) = clock s := by simp [tlmHost]
@[simp] theorem clock_telemetry (s : State) (p : Nat) (bs : List Byte) : clock (telemetry s p bs) = clock s := by simp [telemetry]
@[simp] theorem clock_driftStale (s : State) (slot : Nat) : clock (driftStale s slot) = clock s := by simp [driftStale]

/-! ### The proxy -/

@[simp] theorem clock_modPrx (s : State) (f : Proxy → Proxy) : clock (s.modPrx f) = clock s := by rfl

@[simp] theorem clock_prxStop (s : State) (ref : CmdRef) : clock (prxStop s ref) = clock s := by
  unfold prxStop
  split <;> simp

@[simp] theorem clock_prxRowWritten (s : State) (c n row : Nat) : clock (prxRowWritten s c n row) = clock s := by simp [prxRowWritten]
@[simp] theorem clock_prxAbandon (s : State) (c n : Nat) : clock (prxAbandon s c n) = clock s := by simp [prxAbandon]

@[simp] theorem clock_prxCapture (s : State) : clock (prxCapture s) = clock s := by
  unfold prxCapture
  split <;> simp

@[simp] theorem clock_prxDeliver (s : State) (x : Capture) (last : Bool) (status : Nat) : clock (prxDeliver s x last status).2 = clock s := by
  unfold prxDeliver
  dsimp only
  repeat' split
  all_goals simp

@[simp] theorem clock_prxAuDone (s : State) : clock (prxAuDone s) = clock s := by
  unfold prxAuDone
  split <;> simp

@[simp] theorem clock_prxStopped (s : State) : clock (prxStopped s) = clock s := by simp [prxStopped]
@[simp] theorem clock_prxEnd (s : State) : clock (prxEnd s) = clock s := by simp [prxEnd]

@[simp] theorem clock_prxStopDone (s : State) : clock (prxStopDone s) = clock s := by
  unfold prxStopDone
  repeat' split
  all_goals simp

@[simp] theorem clock_lutWrite (s : State) (a : Agent) (v : Word) : clock (lutWrite s a v) = clock s := by simp [lutWrite]

/-! ### Composition and seams -/

@[simp] theorem clock_selectStream (k f : Nat) (s : State) (n : Nat) : clock (selectStream k f s n) = clock s := by
  unfold selectStream
  dsimp only
  repeat' split
  all_goals simp

@[simp] theorem clock_reportDefaults (s : State) (c : Contract) (f : Nat) : clock (reportDefaults s c f) = clock s := by simp [reportDefaults]

@[simp] theorem clock_traceConsume (s : State) (k f n : Nat) : clock (traceConsume s k f n) = clock s := by
  unfold traceConsume
  dsimp only
  repeat' split
  all_goals simp

@[simp] theorem clock_selectFrame (s : State) (k f : Nat) : clock (selectFrame s k f) = clock s := by simp [selectFrame]

@[simp] theorem clock_laterRow (k f row : Nat) (s : State) (n : Nat) : clock (laterRow k f row s n) = clock s := by
  unfold laterRow
  dsimp only
  repeat' split
  all_goals simp

@[simp] theorem clock_seamSide (k f row : Nat) (s : State) (p : Nat × Nat × Layer) : clock (seamSide k f row s p) = clock s := by simp [seamSide]

@[simp] theorem clock_sendStrip (k f row port : Nat) (s : State) (p : Layer × Nat) : clock (sendStrip k f row port s p) = clock s := by
  unfold sendStrip
  dsimp only
  repeat' split
  all_goals simp

@[simp] theorem clock_seamReceive (s : State) (e : Nat) (bs : List Byte) : clock (seamReceive s e bs) = clock s := by simp [seamReceive]
@[simp] theorem clock_queuePads (deal : List Nat) (s : State) (i : Nat) : clock (queuePads deal s i) = clock s := by simp [queuePads]
@[simp] theorem clock_startRow (s : State) (k f row : Nat) : clock (startRow s k f row) = clock s := by simp [startRow]
@[simp] theorem clock_compBody (s : State) (l : LSlot) : clock (compBody s l) = clock s := by simp [compBody]
@[simp] theorem clock_overrun (s : State) (k : Nat) (l : LSlot) (fault tally : Nat) : clock (overrun s k l fault tally) = clock s := by simp [overrun]

@[simp] theorem clock_writePad (k : Nat) (c : Contract) (f : FrameSet) (row : Nat) (poisoned : List (Nat × Nat)) (s : State) (col : Nat) :
    clock (writePad k c f row poisoned s col) = clock s := by
  simp [writePad]

@[simp] theorem clock_unqueuePads (deal : List Nat) (s : State) (i : Nat) : clock (unqueuePads deal s i) = clock s := by simp [unqueuePads]
@[simp] theorem clock_dropSets (s : State) (k : Nat) : clock (dropSets s k) = clock s := by simp [dropSets]

@[simp] theorem clock_rowWritten (s : State) (k : Nat) (j : RowJob) (poisoned : List (Nat × Nat)) : clock (rowWritten s k j poisoned) = clock s := by
  simp [rowWritten]

/-! ### Loads of coefficients, curves, maps and microcode -/

@[simp] theorem clock_atOnceOr {now later : State → State} (hnow : ∀ t, clock (now t) = clock t) (hlater : ∀ t, clock (later t) = clock t)
    (s : State) (n : Nat) (ref : CmdRef) (ch : Change) : clock (atOnceOr s n ref ch now later) = clock s := by
  unfold atOnceOr
  split <;> simp [hnow, hlater]

@[simp] theorem clock_modCoef (s : State) (n slot : Nat) (f : CoefStore → CoefStore) : clock (modCoef s n slot f) = clock s := by rfl
@[simp] theorem clock_allocCoef (s : State) (n : Nat) (e : Endpoint) : clock (allocCoef s n e) = clock s := by simp [allocCoef]

@[simp] theorem clock_coefStoreRec (ref : CmdRef) (n : Nat) (e : Endpoint) (r : CorrRec) (planes : List Byte) (s : State) :
    clock (coefStoreRec ref n e r planes s) = clock s := by
  simp [coefStoreRec]

@[simp] theorem clock_modDrift (s : State) (k : Nat) (f : Slot2 → Slot2) : clock (modDrift s k f) = clock s := by rfl
@[simp] theorem clock_modCurve (s : State) (k : Nat) (f : Slot2 → Slot2) : clock (modCurve s k f) = clock s := by rfl

@[simp] theorem clock_swapImage (s : State) (n : Nat) (img : MapImage) : clock (swapImage s n img) = clock s := by
  unfold swapImage
  split <;> simp

@[simp] theorem clock_mapAdmit (ref : CmdRef) (d : Desc) (n : Nat) (img : MapImage) (len : Nat) (s : State) :
    clock (mapAdmit ref d n img len s) = clock s := by
  simp [mapAdmit]

@[simp] theorem clock_loadDrover (bs : List Byte) (mismatch : BitVec 32) (s : State) (p : Nat) : clock (loadDrover bs mismatch s p) = clock s := by rfl

@[simp] theorem clock_ucodeRun (ref : CmdRef) (mask : Nat) (bs : List Byte) (mismatch : BitVec 32) (badWord : BitVec 14) (s : State) :
    clock (ucodeRun ref mask bs mismatch badWord s) = clock s := by
  simp [ucodeRun]

end Sys2Proof.Machine

/-! PROOFS. The queue and the clock through the drovers, the stores, the frame boundary, the rings, the copies and the encoder cores. -/

namespace Sys2Proof.Machine

/-! ### Contract rings and drovers -/

@[simp] theorem clock_writeEntry (s : State) (c p n : Nat) (e : Endpoint) (k : Nat) (x : Entry) : clock (writeEntry s c p n e k x) = clock s := by
  unfold writeEntry
  split <;> simp

@[simp] theorem clock_ringReset (s : State) (c p : Nat) : clock (ringReset s c p) = clock s := by simp [ringReset]
@[simp] theorem clock_drvTally (s : State) (d j n : Nat) : clock (drvTally s d j n) = clock s := by rfl
@[simp] theorem clock_drvStatus (s : State) (d i : Nat) : clock (drvStatus s d i) = clock s := by simp [drvStatus]
@[simp] theorem clock_loseRange (c n p slot : Nat) (s : State) (r : Nat × Nat) : clock (loseRange c n p slot s r) = clock s := by rfl
@[simp] theorem clock_loseCmd (d : Nat) (l : RowList) (prog : Nat) (s : State) (m : ListCmd) : clock (loseCmd d l prog s m) = clock s := by simp [loseCmd]
@[simp] theorem clock_skipRest (d : Nat) (s : State) (l : RowList) : clock (skipRest d s l) = clock s := by simp [skipRest]
@[simp] theorem clock_skipLists (s : State) (d : Nat) (p : RowList → Bool) : clock (skipLists s d p) = clock s := by simp [skipLists]
@[simp] theorem clock_rewindFifo (s : State) (d : Nat) : clock (rewindFifo s d) = clock s := by rfl
@[simp] theorem clock_stopRun (s : State) (d : Nat) : clock (stopRun s d) = clock s := by rfl
@[simp] theorem clock_advanceList (s : State) (d : Nat) (l : RowList) : clock (advanceList s d l) = clock s := by simp [advanceList]

@[simp] theorem clock_endCommand (s : State) (d : Nat) (normal : Bool) : clock (endCommand s d normal) = clock s := by
  unfold endCommand
  repeat' split
  all_goals simp

@[simp] theorem clock_abandonRestart (s : State) (d : Nat) : clock (abandonRestart s d) = clock s := by
  unfold abandonRestart
  split <;> simp

@[simp] theorem clock_seqError (s : State) (d : Nat) : clock (seqError s d) = clock s := by simp [seqError]
@[simp] theorem clock_stepLimit (s : State) (d : Nat) : clock (stepLimit s d) = clock s := by simp [stepLimit]
@[simp] theorem clock_overDeclared (s : State) (d : Nat) : clock (overDeclared s d) = clock s := by simp [overDeclared]

@[simp] theorem clock_poisoned (s : State) (d : Nat) (stripe : Option (Nat × Nat)) : clock (poisoned s d stripe) = clock s := by
  unfold poisoned
  repeat' split
  all_goals simp

@[simp] theorem clock_appendFrame (s : State) (d : Nat) (bs : List Byte) : clock (appendFrame s d bs) = clock s := by rfl
@[simp] theorem clock_openFrame (s : State) (d : Nat) : clock (openFrame s d) = clock s := by rfl

@[simp] theorem clock_releaseMoved (l : RowList) (m : ListCmd) (d : Nat) (s : State) (k : Nat × Nat) : clock (releaseMoved l m d s k) = clock s := by
  unfold releaseMoved
  split <;> simp

@[simp] theorem clock_commitFrame (s : State) (d : Nat) (l : RowList) (m : ListCmd) : clock (commitFrame s d l m) = clock s := by simp [commitFrame]
@[simp] theorem clock_startRoutine (s : State) (d : Nat) (l : RowList) (m : ListCmd) : clock (startRoutine s d l m) = clock s := by rfl
@[simp] theorem clock_skipCommand (s : State) (d : Nat) (l : RowList) (m : ListCmd) : clock (skipCommand s d l m) = clock s := by simp [skipCommand]

@[simp] theorem clock_dispatch (s : State) (d : Nat) : clock (dispatch s d) = clock s := by
  unfold dispatch
  repeat' split
  all_goals simp

@[simp] theorem clock_stripeOverrun (s : State) (d : Nat) (l : RowList) : clock (stripeOverrun s d l) = clock s := by simp [stripeOverrun]
@[simp] theorem clock_stall (s : State) (d : Nat) : clock (stall s d) = clock s := by rfl
@[simp] theorem clock_mapListStart (s : State) (d c n row : Nat) : clock (mapListStart s d c n row) = clock s := by simp [mapListStart]

@[simp] theorem clock_guardDrover (s : State) (d c n : Nat) : clock (guardDrover s d c n) = clock s := by
  unfold guardDrover
  split <;> simp

@[simp] theorem clock_guardRing (s : State) (p c n : Nat) : clock (guardRing s p c n) = clock s := by rfl
@[simp] theorem clock_forgetFrame (s : State) (d n : Nat) (slots : List Nat) : clock (forgetFrame s d n slots) = clock s := by rfl
@[simp] theorem clock_skipAll (s : State) (d : Nat) : clock (skipAll s d) = clock s := by simp [skipAll]
@[simp] theorem clock_haltDrover (s : State) (d : Nat) : clock (haltDrover s d) = clock s := by simp [haltDrover]
@[simp] theorem clock_csCorrected (s : State) (d : Nat) : clock (csCorrected s d) = clock s := by simp [csCorrected]
@[simp] theorem clock_emptyFifo (s : State) (p : Nat) : clock (emptyFifo s p) = clock s := by simp [emptyFifo]
@[simp] theorem clock_asmReset (s : State) (p : Nat) : clock (asmReset s p) = clock s := by simp [asmReset]

/-! ### Stores and images -/

@[simp] theorem clock_applySettings (s : State) (x : Settings) : clock (applySettings s x) = clock s := by rfl
@[simp] theorem clock_startStore (s : State) (ref : CmdRef) : clock (startStore s ref) = clock s := by simp [startStore]

@[simp] theorem clock_startStage (s : State) (ref : CmdRef) (rel : Option Nat) : clock (startStage s ref rel) = clock s := by
  unfold startStage
  split <;> simp

@[simp] theorem clock_startNvm (s : State) (j : NvmJob) : clock (startNvm s j) = clock s := by
  unfold startNvm
  split <;> simp

@[simp] theorem clock_runNvm : ∀ (js : List NvmJob) (s : State), clock (runNvm js s) = clock s
  | [], _ => rfl
  | j :: js, s => by
    unfold runNvm
    split
    · rfl
    · simp [clock_runNvm js]

@[simp] theorem clock_offerNvm (s : State) (j : NvmJob) : clock (offerNvm s j) = clock s := by simp [offerNvm]
@[simp] theorem clock_endNvm (s : State) : clock (endNvm s) = clock s := by simp [endNvm]
@[simp] theorem clock_storeEnd (s : State) (ref : CmdRef) (x : Settings) (ok : Bool) : clock (storeEnd s ref x ok) = clock s := by simp [storeEnd]

@[simp] theorem clock_storeDone (s : State) (ok : Bool) : clock (storeDone s ok) = clock s := by
  unfold storeDone
  split <;> simp

@[simp] theorem clock_stageEnd (s : State) (ref : CmdRef) (rel : Nat) (ok : Bool) : clock (stageEnd s ref rel ok) = clock s := by simp [stageEnd]

@[simp] theorem clock_stageDone (s : State) (ok : Bool) : clock (stageDone s ok) = clock s := by
  unfold stageDone
  split <;> simp

@[simp] theorem clock_applyPixelTrims (s : State) : clock (applyPixelTrims s) = clock s := by rfl
@[simp] theorem clock_stageTrims (s : State) (is : List Nat) : clock (stageTrims s is) = clock s := by simp [stageTrims]
@[simp] theorem clock_trimStep (s : State) (i : Nat) : clock (trimStep s i) = clock s := by simp [trimStep]

/-! ### The frame boundary -/

@[simp] theorem clock_applyLayout (s : State) (n : Nat) (layers : List Layer) (sources : List Source) (background : List Nat) :
    clock (applyLayout s n layers sources background) = clock s := by rfl

@[simp] theorem clock_applyMap (s : State) (n : Nat) (img : MapImage) : clock (applyMap s n img) = clock s := by
  unfold applyMap
  dsimp only
  repeat' split
  all_goals simp

@[simp] theorem clock_applyChange (n : Nat) (s : State) (d : Deferred) : clock (applyChange n s d) = clock s := by
  unfold applyChange
  split <;> simp

@[simp] theorem clock_applyDeferred (s : State) (n f : Nat) : clock (applyDeferred s n f) = clock s := by simp [applyDeferred]
@[simp] theorem clock_updateDrift (n : Nat) (s : State) (ep : Endpoint) : clock (updateDrift n s ep) = clock s := by simp [updateDrift]
@[simp] theorem clock_boundary (s : State) (n f : Nat) : clock (boundary s n f) = clock s := by simp [boundary]

/-! ### Rings -/

@[simp] theorem clock_cfgReject (s : State) : clock (cfgReject s) = clock s := by simp [cfgReject]
@[simp] theorem clock_forgetReads (s : State) (r : Nat) : clock (forgetReads s r) = clock s := by rfl
@[simp] theorem clock_sqCfgOp (s : State) (r : Nat) (v : Word) : clock (sqCfgOp s r v) = clock s := by simp [sqCfgOp]
@[simp] theorem clock_cqCfgOp (s : State) (r : Nat) (v : Word) : clock (cqCfgOp s r v) = clock s := by simp [cqCfgOp]
@[simp] theorem clock_cqCoalOp (s : State) (r : Nat) (v : Word) : clock (cqCoalOp s r v) = clock s := by simp [cqCoalOp]
@[simp] theorem clock_dbDisabled (s : State) : clock (dbDisabled s) = clock s := by simp [dbDisabled]
@[simp] theorem clock_dbRegress (s : State) : clock (dbRegress s) = clock s := by simp [dbRegress]
@[simp] theorem clock_sqTailOp (s : State) (r : Nat) (v : Word) : clock (sqTailOp s r v) = clock s := by simp [sqTailOp]
@[simp] theorem clock_tlmFreed (s : State) (r h : Nat) : clock (tlmFreed s r h) = clock s := by simp [tlmFreed]
@[simp] theorem clock_prxFreed (s : State) (r h : Nat) : clock (prxFreed s r h) = clock s := by simp [prxFreed]
@[simp] theorem clock_cqHeadOp (s : State) (r : Nat) (v : Word) : clock (cqHeadOp s r v) = clock s := by simp [cqHeadOp]
@[simp] theorem clock_issueRead (s : State) (tag : Nat) (who : ReadFor) (a n : Nat) : clock (issueRead s tag who a n) = clock s := by rfl
@[simp] theorem clock_issueTurn (s : State) (r cyc tag n : Nat) : clock (issueTurn s r cyc tag n) = clock s := by rfl

@[simp] theorem clock_fetchTurn (s : State) : clock (fetchTurn s) = clock s := by
  unfold fetchTurn
  repeat' split
  all_goals simp

@[simp] theorem clock_takeDescs : ∀ (n r : Nat) (bs : List Byte) (s : State), clock (takeDescs n r bs s) = clock s
  | 0, _, _, _ => rfl
  | n + 1, r, bs, s => by
    unfold takeDescs
    dsimp only
    repeat' split
    all_goals simp [clock_takeDescs n]

@[simp] theorem clock_fetchFailed (s : State) (r first status : Nat) : clock (fetchFailed s r first status) = clock s := by simp [fetchFailed]

@[simp] theorem clock_releaseHold (s : State) (r : Nat) : clock (releaseHold s r) = clock s := by
  unfold releaseHold
  split <;> simp

@[simp] theorem clock_releaseFence (s : State) (r : Nat) : clock (releaseFence s r) = clock s := by
  unfold releaseFence
  repeat' split
  all_goals simp

@[simp] theorem clock_drainRing : ∀ (cs : List Completion) (r : Nat) (s : State), clock (drainRing cs r s) = clock s
  | [], _, _ => rfl
  | c :: cs, r, s => by
    unfold drainRing
    repeat' split
    all_goals simp [clock_drainRing cs]

@[simp] theorem clock_waitEnd (s : State) (r : Nat) : clock (waitEnd s r) = clock s := by simp [waitEnd]

/-! ### Copies -/

@[simp] theorem clock_dmaFail (s : State) (ref : CmdRef) (status : Nat) : clock (dmaFail s ref status) = clock s := by simp [dmaFail]
@[simp] theorem clock_setChan (s : State) (n : Nat) (c : Option Chan) : clock (setChan s n c) = clock s := by rfl
@[simp] theorem clock_setXfer (s : State) (k : Nat) (x : Option Xfer) : clock (setXfer s k x) = clock s := by rfl
@[simp] theorem clock_loadChannel (s : State) (n : Nat) (p : Piece) : clock (loadChannel s n p) = clock s := by rfl

theorem clock_pumpNext {n : Nat} {s t : State} (h : pumpNext n s = some t) : clock t = clock s := by
  unfold pumpNext at h
  repeat' split at h
  all_goals simp only [Option.some.injEq, reduceCtorEq] at h
  subst h
  simp

@[simp] theorem clock_pumpChannel : ∀ (f n : Nat) (s : State), clock (pumpChannel f n s) = clock s
  | 0, _, _ => rfl
  | f + 1, n, s => by
    unfold pumpChannel
    split
    · rfl
    · next t ht => exact (clock_pumpChannel f n t).trans (clock_pumpNext ht)

theorem clock_flushNext {k : Nat} {s t : State} (h : flushNext k s = some t) : clock t = clock s := by
  unfold flushNext at h
  repeat' split at h
  all_goals simp only [Option.some.injEq, reduceCtorEq] at h
  subst h
  simp

@[simp] theorem clock_pumpFlush : ∀ (f n : Nat) (s : State), clock (pumpFlush f n s) = clock s
  | 0, _, _ => rfl
  | f + 1, n, s => by
    unfold pumpFlush
    split
    · rfl
    · next t ht => exact (clock_pumpFlush f n t).trans (clock_flushNext ht)

@[simp] theorem clock_pump (s : State) : clock (pump s) = clock s := by simp [pump]

@[simp] theorem clock_pieceFailed (s : State) (k : Nat) (status : Nat) : clock (pieceFailed s k status) = clock s := by
  unfold pieceFailed
  split <;> simp

@[simp] theorem clock_failUnlinked (s : State) : clock (failUnlinked s) = clock s := by simp [failUnlinked]

@[simp] theorem clock_dealPieces (s : State) : clock (dealPieces s) = clock s := by
  unfold dealPieces
  split
  · rfl
  · rw [clock_pump, clock_failUnlinked]
    exact clock_foldl (fun t p => by split <;> simp) s.dma.waiting s

@[simp] theorem clock_startXfer (s : State) (ref : CmdRef) (d : Desc) (src dst : List (Nat × Nat)) : clock (startXfer s ref d src dst) = clock s := by
  simp [startXfer]

@[simp] theorem clock_dmaRanges (ref : CmdRef) (d : Desc) (src dst : List (Nat × Nat)) (s : State) : clock (dmaRanges ref d src dst s) = clock s := by
  simp [dmaRanges]

@[simp] theorem clock_dmaRun (ref : CmdRef) (d : Desc) (srcList dstList : HostData) (s : State) : clock (dmaRun ref d srcList dstList s) = clock s := by
  unfold dmaRun
  repeat' split
  all_goals simp

@[simp] theorem clock_writeRanges (host : Bool) : ∀ (rs : List (Nat × Nat)) (bs : List Byte) (s : State), clock (writeRanges host rs bs s) = clock s
  | [], _, _ => rfl
  | r :: rs, bs, s => by
    unfold writeRanges
    rw [clock_writeRanges host rs]
    split <;> simp

@[simp] theorem clock_xferEnd (s : State) (k : Nat) (x : Xfer) : clock (xferEnd s k x) = clock s := by simp [xferEnd]
@[simp] theorem clock_pieceDone (s : State) (n : Nat) (x : Xfer) (p : Piece) : clock (pieceDone s n x p) = clock s := by simp [pieceDone]

@[simp] theorem clock_endPiece (s : State) (n : Nat) (c : Chan) : clock (endPiece s n c) = clock s := by
  unfold endPiece
  repeat' split
  all_goals simp

@[simp] theorem clock_channelFree (s : State) (n : Nat) : clock (channelFree s n) = clock s := by
  unfold channelFree
  split <;> simp

@[simp] theorem clock_pieceRead (s : State) (n idx skip take : Nat) (h : HostData) : clock (pieceRead s n idx skip take h) = clock s := by
  unfold pieceRead
  split <;> simp

@[simp] theorem clock_barrierRead (s : State) (k : Nat) (h : HostData) : clock (barrierRead s k h) = clock s := by
  unfold barrierRead
  repeat' split
  all_goals simp

@[simp] theorem clock_doFetch (k : DCtx) (s : State) : clock (doFetch k s) = clock s := by simp [doFetch]

/-! ### Microwords -/

@[simp] theorem clock_parityRead (s : State) (k : DCtx) (hit : Bool) (st : Option (Nat × Nat)) : clock (parityRead s k hit st) = clock s := by
  unfold parityRead
  repeat' split
  all_goals simp

@[simp] theorem clock_doPw (k : DCtx) (s : State) : clock (doPw k s) = clock s := by
  unfold doPw
  split <;> simp

@[simp] theorem clock_afterPack (k : DCtx) (s : State) : clock (afterPack k s) = clock s := by simp [afterPack]
@[simp] theorem clock_actWord (k : DCtx) : clock (actWord k) = clock k.s := by simp [actWord]
@[simp] theorem clock_countStep (s : State) (d n : Nat) : clock (countStep s d n) = clock s := by rfl

@[simp] theorem clock_issueWord (k : DCtx) (hit : Bool) : clock (issueWord k hit) = clock k.s := by
  unfold issueWord
  split <;> simp

@[simp] theorem clock_execWord (k : DCtx) (hit : Bool) : clock (execWord k hit) = clock k.s := by simp [execWord]
@[simp] theorem clock_execSub (k : DCtx) : clock (execSub k) = clock k.s := by simp [execSub]

@[simp] theorem clock_buildVendor (k : DCtx) (bytes : List Byte) (fetches : List Nat) (ops : Nat) (stripe : Option (Nat × Nat)) :
    clock (buildVendor k bytes fetches ops stripe) = clock k.s := by
  simp [buildVendor]

@[simp] theorem clock_execVendor (k : DCtx) (hit : Bool) : clock (execVendor k hit) = clock k.s := by
  unfold execVendor
  split <;> simp

@[simp] theorem clock_pbArrive (s : State) (d need : Nat) : clock (pbArrive s d need) = clock s := by simp [pbArrive]
@[simp] theorem clock_runNext (s : State) (d : Nat) (l : RowList) (m : ListCmd) (hit : Bool) : clock (runNext s d l m hit) = clock s := by simp [runNext]

@[simp] theorem clock_droverGo (s : State) (d need : Nat) (hit : Bool) : clock (droverGo s d need hit) = clock s := by
  unfold droverGo
  dsimp only
  repeat' split
  all_goals simp

@[simp] theorem clock_microword (s : State) (d : Nat) (ev : DroverEvent) : clock (microword s d ev) = clock s := by
  unfold microword
  repeat' split
  all_goals simp

@[simp] theorem clock_lookupReturn (s : State) (d : Nat) : clock (lookupReturn s d) = clock s := by
  unfold lookupReturn
  split <;> simp

@[simp] theorem clock_reloadDone (s : State) (d : Nat) : clock (reloadDone s d) = clock s := by simp [reloadDone]

/-! ### Encoder cores -/

@[simp] theorem clock_modCode (s : State) (slot : Nat) (f : EpCode → EpCode) : clock (modCode s slot f) = clock s := by rfl
@[simp] theorem clock_beginStripe (s : State) (e : Endpoint) (j : StripeJob) : clock ((beginStripe s e j).1) = clock s := by rfl
@[simp] theorem clock_writeRecon (s : State) (e : Endpoint) (j : StripeJob) (x : EncSt) : clock (writeRecon s e j x) = clock s := by simp [writeRecon]
@[simp] theorem clock_encTally (s : State) (core j n : Nat) : clock (encTally s core j n) = clock s := by simp [encTally]

@[simp] theorem clock_encReport (s : State) (core : Nat) (intra repair refBad : Bool) (bytes : Nat) (x : EncSt) :
    clock (encReport s core intra repair refBad bytes x) = clock s := by
  simp [encReport]

@[simp] theorem clock_putEntryStep (j : StripeJob) (e : Endpoint) (bytes : List Byte) (absent : Bool) (s : State) (p : Nat) :
    clock (putEntry_ j e bytes absent s p) = clock s := by
  simp [putEntry_]

@[simp] theorem clock_claimPort (e : Endpoint) (a : State × StripeJob) (p : Nat) : clock ((claimPort e a p).1) = clock a.1 := by
  unfold claimPort
  dsimp only
  repeat' split
  all_goals simp

@[simp] theorem clock_reportWait (s : State) (core : Nat) (j : StripeJob) : clock (reportWait s core j) = clock s := by simp [reportWait]
@[simp] theorem clock_putHead (core : Nat) (s : State) (j : StripeJob) (act : Nat) : clock (putHead core s j act) = clock s := by rfl

@[simp] theorem clock_finishAbsent (s : State) (core : Nat) (e : Endpoint) (j : StripeJob) : clock (finishAbsent s core e j) = clock s := by
  simp [finishAbsent]

@[simp] theorem clock_claimPorts (e : Endpoint) : ∀ (ps : List Nat) (a : State × StripeJob), clock (ps.foldl (claimPort e) a).1 = clock a.1
  | [], _ => rfl
  | p :: ps, a => (clock_claimPorts e ps _).trans (clock_claimPort e a p)

@[simp] theorem clock_encGo : ∀ (n : Nat) (s : State) (core : Nat), clock (encGo n s core) = clock s
  | 0, _, _ => rfl
  | n + 1, s, core => by
    unfold encGo
    dsimp only
    repeat' split
    all_goals simp [clock_encGo n]

@[simp] theorem clock_encKick (s : State) (core : Nat) : clock (encKick s core) = clock s := by simp [encKick]
@[simp] theorem clock_leaveUncoded (core : Nat) (s : State) (j : StripeJob) : clock (leaveUncoded core s j) = clock s := by simp [leaveUncoded]

@[simp] theorem clock_abandonJobs (s : State) (core : Nat) (js : List StripeJob) : clock (abandonJobs s core js) = clock s := by
  unfold abandonJobs
  dsimp only
  repeat' split
  all_goals simp

@[simp] theorem clock_encStart (s : State) (k : Nat) (l : LSlot) : clock (encStart s k l) = clock s := by simp [encStart]

@[simp] theorem clock_ringMismatch (s : State) (c : Nat) (mm : Option (Fin 32)) : clock (ringMismatch s c mm) = clock s := by
  unfold ringMismatch
  split <;> simp

@[simp] theorem clock_finishStripe (s : State) (core : Nat) (e : Endpoint) (j : StripeJob) (poisonCols : List Nat) :
    clock (finishStripe s core e j poisonCols) = clock s := by
  simp [finishStripe]

@[simp] theorem clock_stripeDone (s : State) (core : Nat) (poisonCols : List Nat) (mismatch : Option (Fin 32)) :
    clock (stripeDone s core poisonCols mismatch) = clock s := by
  unfold stripeDone
  repeat' split
  all_goals simp

@[simp] theorem clock_copyRows (s : State) (j : StripeJob) : clock (copyRows s j) = clock s := by
  unfold copyRows
  split <;> simp

@[simp] theorem clock_copyDone (s : State) (core : Nat) : clock (copyDone s core) = clock s := by simp [copyDone]
@[simp] theorem clock_takeoverSlots (s : State) (action unit new : Nat) : clock (takeoverSlots s action unit new) = clock s := by rfl

@[simp] theorem clock_retireEnc (s : State) (core : Nat) : clock (retireEnc s core) = clock s := by
  unfold retireEnc
  dsimp only
  repeat' split
  all_goals simp

end Sys2Proof.Machine

/-! PROOFS. The queue and the clock through wall time, the fold, the launch frames and the host link. -/

namespace Sys2Proof.Machine

/-! ### Wall time and the fold -/

@[simp] theorem clock_cancelSlots (s : State) : clock (cancelSlots s) = clock s := by simp [cancelSlots]
@[simp] theorem clock_newSeconds (s : State) (v : Dword) : clock (newSeconds s v) = clock s := by rfl
@[simp] theorem clock_stepWall (s : State) (v : Dword) (frac : BitVec 16) : clock (stepWall s v frac) = clock s := by simp [stepWall]
@[simp] theorem clock_timeSetApply (ref : CmdRef) (d : Desc) (s : State) : clock (timeSetApply ref d s) = clock s := by simp [timeSetApply]
@[simp] theorem clock_sendBoth (s : State) (bs : List Byte) : clock (sendBoth s bs) = clock s := by simp [sendBoth]

@[simp] theorem clock_modPeerTime (s : State) (e : Nat) (f : PeerTime → PeerTime) : clock (modPeerTime s e f) = clock s := by
  unfold modPeerTime
  split <;> simp

@[simp] theorem clock_announceNow (s : State) : clock (announceNow s) = clock s := by simp [announceNow]
@[simp] theorem clock_syncNow (s : State) : clock (syncNow s) = clock s := by simp [syncNow]
@[simp] theorem clock_delayReqNow (s : State) (e : Nat) : clock (delayReqNow s e) = clock s := by simp [delayReqNow]
@[simp] theorem clock_enterTime (s : State) (st : TState) : clock (enterTime s st) = clock s := by simp [enterTime]
@[simp] theorem clock_takeRole (s : State) (own : Bool) : clock (takeRole s own) = clock s := by simp [takeRole]
@[simp] theorem clock_elect (s : State) : clock (elect s) = clock s := by simp [elect]
@[simp] theorem clock_duplicate (s : State) : clock (duplicate s) = clock s := by simp [duplicate]

@[simp] theorem clock_timeRx {body : State → State} (hb : ∀ t, clock (body t) = clock t) (s : State) (e : Nat) (bs : List Byte) (type : Nat) :
    clock (timeRx s e bs type body) = clock s := by
  unfold timeRx
  repeat' split
  all_goals simp [hb]

@[simp] theorem clock_noteHeard (s : State) (bs : List Byte) : clock (noteHeard s bs) = clock s := by rfl
@[simp] theorem clock_announceTake (e : Nat) (bs : List Byte) (s : State) : clock (announceTake e bs s) = clock s := by simp [announceTake]

@[simp] theorem clock_ageOut (s : State) (m : Nat) : clock (ageOut s m) = clock s := by
  unfold ageOut
  split <;> simp

@[simp] theorem clock_delayReqTake (e : Nat) (turn : Nat) (s : State) : clock (delayReqTake e turn s) = clock s := by simp [delayReqTake]

@[simp] theorem clock_delayRespTake (e : Nat) (bs : List Byte) (s : State) : clock (delayRespTake e bs s) = clock s := by
  unfold delayRespTake
  split <;> simp

@[simp] theorem clock_clkCheck (s : State) : clock (clkCheck s) = clock s := by simp [clkCheck]
@[simp] theorem clock_servoStep (s : State) (e : Int) : clock (servoStep s e) = clock s := by simp [servoStep]
@[simp] theorem clock_servoAct (s : State) (e : Int) (step : Bool) : clock (servoAct s e step) = clock s := by simp [servoAct]

@[simp] theorem clock_judge (s : State) (e : Int) : clock (judge s e) = clock s := by
  unfold judge
  dsimp only
  repeat' split
  all_goals simp

@[simp] theorem clock_servo (s : State) (e : Int) (step : Bool) : clock (servo s e step) = clock s := by
  have hnote : clock (s.modWt fun w => { noteSlew w with err := e }) = clock s := clock_modWt (fun _ => rfl) s
  simp [servo, hnote]

@[simp] theorem clock_syncTake (e : Nat) (bs : List Byte) (residence : Nat) (s : State) : clock (syncTake e bs residence s) = clock s := by simp [syncTake]
@[simp] theorem clock_syncLoss (s : State) : clock (syncLoss s) = clock s := by simp [syncLoss]
@[simp] theorem clock_holdoverEnd (s : State) : clock (holdoverEnd s) = clock s := by simp [holdoverEnd]

@[simp] theorem clock_silence (s : State) (e : Nat) : clock (silence s e) = clock s := by
  unfold silence
  split <;> simp

@[simp] theorem clock_peerRise (s : State) (e : Nat) : clock (peerRise s e) = clock s := by simp [peerRise]
@[simp] theorem clock_peerFallTo (s : State) (e : Nat) (lanes : BitVec 4) (fec : Bool) : clock (peerFallTo s e lanes fec) = clock s := by simp [peerFallTo]
@[simp] theorem clock_peerFall (s : State) (e : Nat) : clock (peerFall s e) = clock s := by simp [peerFall]
@[simp] theorem clock_joinFold (s : State) : clock (joinFold s) = clock s := by simp [joinFold]
@[simp] theorem clock_leaveFold (s : State) : clock (leaveFold s) = clock s := by simp [leaveFold]
@[simp] theorem clock_foldCfgOp (s : State) (v : Word) : clock (foldCfgOp s v) = clock s := by simp [foldCfgOp]

/-! ### Beacons, the guard and the launch frames -/

@[simp] theorem clock_emitBeacon (s : State) (p : Nat) : clock (emitBeacon s p) = clock s := by simp [emitBeacon]

@[simp] theorem clock_periodic (s : State) (p : Nat) : clock (periodic s p) = clock s := by
  unfold periodic
  split <;> simp

@[simp] theorem clock_emitBlank (s : State) (p slot effect c : Nat) : clock (emitBlank s p slot effect c) = clock s := by simp [emitBlank]

@[simp] theorem clock_emitBlanks (s : State) (p slot effect c : Nat) : clock (emitBlanks s p slot effect c) = clock s := by
  unfold emitBlanks
  split <;> simp

@[simp] theorem clock_releaseBlank (s : State) (n : Nat) : clock (releaseBlank s n) = clock s := by simp [releaseBlank]

@[simp] theorem clock_breach (s : State) (c n fault : Nat) (external : Bool) : clock (breach s c n fault external) = clock s := by
  unfold breach
  split <;> simp

@[simp] theorem clock_guardLose (p c n : Nat) (s : State) (f : Frame) : clock (guardLose p c n s f) = clock s := by simp [guardLose]

@[simp] theorem clock_leavingLate (p c n : Nat) (s : State) : clock (leavingLate p c n s) = clock s := by
  unfold leavingLate
  split <;> simp

@[simp] theorem clock_guardDiscard (s : State) (p c n : Nat) : clock (guardDiscard s p c n) = clock s := by simp [guardDiscard]
@[simp] theorem clock_markStripe (s : State) (k : Nat × Nat) : clock (markStripe s k) = clock s := by rfl
@[simp] theorem clock_settleFrame (s : State) (c n : Nat) : clock (settleFrame s c n) = clock s := by simp [settleFrame]
@[simp] theorem clock_present (s : State) (p c n : Nat) : clock (present s p c n) = clock s := by simp [present]
@[simp] theorem clock_launchBreach (s : State) (c n : Nat) : clock (launchBreach s c n) = clock s := by simp [launchBreach]
@[simp] theorem clock_traceFrame (s : State) (c n : Nat) : clock (traceFrame s c n) = clock s := by simp [traceFrame]
@[simp] theorem clock_launchFrame (s : State) (c n : Nat) : clock (launchFrame s c n) = clock s := by simp [launchFrame]
@[simp] theorem clock_launchReached (s : State) (c : Nat) : clock (launchReached s c) = clock s := by simp [launchReached]
@[simp] theorem clock_waitBody (s : State) (k : Nat) (l : LSlot) : clock (waitBody s k l) = clock s := by simp [waitBody]

@[simp] theorem clock_overrunBegin (s : State) (k : Nat) : clock (overrunBegin s k) = clock s := by
  unfold overrunBegin
  split <;> simp

/-! ### The host link -/

@[simp] theorem clock_setLState (s : State) (st : LState) : clock (setLState s st) = clock s := by simp [setLState]

@[simp] theorem clock_failRead (s : State) (m : MRead) : clock (failRead s m) = clock s := by
  unfold failRead
  split <;> simp

@[simp] theorem clock_failFetches (s : State) (n : Nat) : clock (failFetches s n) = clock s := by
  unfold failFetches
  dsimp only
  repeat' split
  all_goals simp

@[simp] theorem clock_failReads (s : State) (failing : List MRead) : clock (failReads s failing) = clock s := by simp [failReads]
@[simp] theorem clock_enterDown (s : State) : clock (enterDown s) = clock s := by simp [enterDown]

@[simp] theorem clock_enterRecovery (s : State) : clock (enterRecovery s) = clock s := by
  unfold enterRecovery
  split <;> simp

@[simp] theorem clock_enterDegraded (s : State) : clock (enterDegraded s) = clock s := by simp [enterDegraded]
@[simp] theorem clock_fatalProto (s : State) : clock (fatalProto s) = clock s := by simp [fatalProto]
@[simp] theorem clock_protoError (s : State) : clock (protoError s) = clock s := by simp [protoError]

@[simp] theorem clock_flitStep (s : State) : clock (flitStep s) = clock s := by
  unfold flitStep
  dsimp only
  repeat' split
  all_goals simp

@[simp] theorem clock_startReplay (s : State) : clock (startReplay s) = clock s := by simp [startReplay]
@[simp] theorem clock_replayNow (s : State) : clock (replayNow s) = clock s := by simp [replayNow]

@[simp] theorem clock_takeData (s : State) (seq : Nat) (payload : List Byte) : clock (takeData s seq payload) = clock s := by
  unfold takeData
  dsimp only
  repeat' split
  all_goals simp

@[simp] theorem clock_takeMgmt (s : State) (payload : List Byte) : clock (takeMgmt s payload) = clock s := by simp [takeMgmt]

@[simp] theorem clock_flitTake (s : State) (f : List Byte) : clock (flitTake s f) = clock s := by
  unfold flitTake
  dsimp only
  repeat' split
  all_goals simp

@[simp] theorem clock_trainMgmt (s : State) (payload : List Byte) : clock (trainMgmt s payload) = clock s := by simp [trainMgmt]

@[simp] theorem clock_trainTake (s : State) (f : List Byte) : clock (trainTake s f) = clock s := by
  unfold trainTake
  repeat' split
  all_goals simp

@[simp] theorem clock_deliverRead (s : State) (m : MRead) : clock (deliverRead s m) = clock s := by
  unfold deliverRead
  repeat' split
  all_goals simp

@[simp] theorem clock_cplTake (s : State) (tag status : Nat) (last : Bool) (off : Nat) (bs : List Byte) :
    clock (cplTake s tag status last off bs) = clock s := by
  unfold cplTake
  repeat' split
  all_goals simp

@[simp] theorem clock_tagTimeout (s : State) (tag : Nat) : clock (tagTimeout s tag) = clock s := by
  unfold tagTimeout
  repeat' split
  all_goals simp

@[simp] theorem clock_tagFree (s : State) (tag : Nat) : clock (tagFree s tag) = clock s := by
  unfold tagFree
  repeat' split
  all_goals simp

@[simp] theorem clock_signalStep (s : State) (signal locked : BitVec 4) : clock (signalStep s signal locked) = clock s := by
  unfold signalStep
  split <;> simp

@[simp] theorem clock_endStreams (s : State) : clock (endStreams s) = clock s := by simp [endStreams]

@[simp] theorem clock_endMessages (s : State) : clock (endMessages s) = clock s :=
  clock_foldl (fun t m => by split <;> simp) s.eg.held _

@[simp] theorem clock_epochChange (s : State) : clock (epochChange s) = clock s := by simp [epochChange]

@[simp] theorem clock_trainStep (s : State) : clock (trainStep s) = clock s := by
  unfold trainStep
  split <;> simp

@[simp] theorem clock_trainTimeoutStep (s : State) : clock (trainTimeoutStep s) = clock s := by
  unfold trainTimeoutStep
  split <;> simp

@[simp] theorem clock_recoveryStep (s : State) (lanes : BitVec 4) : clock (recoveryStep s lanes) = clock s := by
  unfold recoveryStep
  dsimp only
  repeat' split
  all_goals simp

@[simp] theorem clock_recoveryTimeoutStep (s : State) : clock (recoveryTimeoutStep s) = clock s := by
  unfold recoveryTimeoutStep
  split <;> simp

@[simp] theorem clock_linkCfgOp (s : State) (v : Word) : clock (linkCfgOp s v) = clock s := by simp [linkCfgOp]
@[simp] theorem clock_linkCtrlOp (s : State) (v : Word) : clock (linkCtrlOp s v) = clock s := by simp [linkCtrlOp]
@[simp] theorem clock_flitUncorr (s : State) : clock (flitUncorr s) = clock s := by simp [flitUncorr]

@[simp] theorem clock_flitByState (s : State) (flit : List Byte) : clock (flitByState s flit) = clock s := by
  unfold flitByState
  split <;> simp

end Sys2Proof.Machine

/-! PROOFS. The queue and the clock through device memory, power, faults, interrupts and the register map. -/

namespace Sys2Proof.Machine

/-! ### Training, bursts and the arbiter -/

@[simp] theorem clock_stopModule (s : State) : clock (stopModule s) = clock s := by simp [stopModule]

@[simp] theorem clock_trainAll : ∀ (xs : List (Sweep × Sweep)) (ch : Nat) (s : State), clock (trainAll xs ch s) = clock s
  | [], _, _ => rfl
  | _ :: xs, ch, _ => (clock_trainAll xs (ch + 1) _).trans (clock_modChannel _ _ _)

@[simp] theorem clock_trainingDone (s : State) (sweeps : List (Sweep × Sweep)) : clock (trainingDone s sweeps) = clock s := by simp [trainingDone]
@[simp] theorem clock_refreshStep (s : State) (ch : Nat) (drift0 drift1 : Int) : clock (refreshStep s ch drift0 drift1) = clock s := by simp [refreshStep]
@[simp] theorem clock_corrected (s : State) (ch : Nat) (errs : List (Fin 72)) : clock (corrected s ch errs) = clock s := by simp [corrected]
@[simp] theorem clock_uncorrectable (s : State) (ch a : Nat) : clock (uncorrectable s ch a) = clock s := by simp [uncorrectable]
@[simp] theorem clock_outerDecode (s : State) (ch a : Nat) (errs : List (Fin 72)) : clock (outerDecode s ch a errs) = clock s := by simp [outerDecode]
@[simp] theorem clock_burstOn (s : State) (ch o : Nat) (linkEcc : Bool) : clock (burstOn s ch o linkEcc) = clock s := by rfl

@[simp] theorem clock_burstRead (s : State) (ch a : Nat) (linkEcc : Bool) (errs : List (Fin 72)) : clock (burstRead s ch a linkEcc errs) = clock s := by
  simp [burstRead]

@[simp] theorem clock_burstWrite (s : State) (ch a : Nat) (linkEcc : Bool) (bs : List Byte) (poisoned : Bool) :
    clock (burstWrite s ch a linkEcc bs poisoned) = clock s := by
  simp [burstWrite]

@[simp] theorem clock_patrolStep (s : State) (linkEcc : Bool) (errs : List (Fin 72)) : clock (patrolStep s linkEcc errs) = clock s := by
  unfold patrolStep
  split <;> simp

@[simp] theorem clock_patrolInterval (s : State) : clock (patrolInterval s) = clock s := by simp [patrolInterval]

@[simp] theorem clock_arbDecision (s : State) (ch : Nat) (reqs : List MemReq) : clock (arbDecision s ch reqs) = clock s := by
  unfold arbDecision
  dsimp only
  repeat' split
  all_goals simp

@[simp] theorem clock_breakPoint (s : State) (ch : Nat) (reqs : List MemReq) : clock (breakPoint s ch reqs) = clock s := by
  unfold breakPoint
  dsimp only
  repeat' split
  all_goals simp

@[simp] theorem clock_portRankOp (s : State) (p : Nat) (v : Word) : clock (portRankOp s p v) = clock s := by simp [portRankOp]

/-! ### Domains -/

@[simp] theorem clock_clearW1c (s : State) (d : Nat) : clock (clearW1c s d) = clock s := by rfl
@[simp] theorem clock_startEntry (s : State) (d : Nat) (t : DState) : clock (startEntry s d t) = clock s := by simp [startEntry]
@[simp] theorem clock_gapEntry (s : State) (d : Nat) : clock (gapEntry s d) = clock s := by simp [gapEntry]
@[simp] theorem clock_startWake (s : State) (d : Nat) : clock (startWake s d) = clock s := by simp [startWake]
@[simp] theorem clock_wakeStart (s : State) (d : Nat) : clock (wakeStart s d) = clock s := by simp [wakeStart]

@[simp] theorem clock_entryDone (s : State) (d : Nat) : clock (entryDone s d) = clock s := by
  unfold entryDone
  repeat' split
  all_goals simp

@[simp] theorem clock_wakeDone (s : State) (d : Nat) : clock (wakeDone s d) = clock s := by
  unfold wakeDone
  repeat' split
  all_goals simp

@[simp] theorem clock_pdForceOp (s : State) (hi : Bool) (v : Word) : clock (pdForceOp s hi v) = clock s := by simp [pdForceOp]

/-! ### Restarts and start-up -/

@[simp] theorem clock_resetBase (s : State) (p : Phase) (m : Mem) : clock (resetBase s p m) = clock s := by rfl
@[simp] theorem clock_restart (s : State) (cause f : Nat) : clock (restart s cause f) = clock s := by rfl

@[simp] theorem clock_moduleRestart (s : State) (c : RestartCause) : clock (moduleRestart s c) = clock s := by
  unfold moduleRestart
  split <;> simp

@[simp] theorem clock_resetnDown (s : State) : clock (resetnDown s) = clock s := by simp [resetnDown]
@[simp] theorem clock_clkinDown (s : State) : clock (clkinDown s) = clock s := by simp [clkinDown]
@[simp] theorem clock_clkinUp (s : State) : clock (clkinUp s) = clock s := by simp [clkinUp]
@[simp] theorem clock_powerUp (s : State) : clock (powerUp s) = clock s := by simp [powerUp]

@[simp] theorem clock_powerDown (s : State) : clock (powerDown s) = clock s := by
  unfold powerDown
  repeat' split
  all_goals simp

@[simp] theorem clock_countEnd (s : State) (ftmLow : Bool) : clock (countEnd s ftmLow) = clock s := by simp [countEnd]
@[simp] theorem clock_bootSettings (s : State) : clock (bootSettings s) = clock s := by simp [bootSettings]
@[simp] theorem clock_bootDraws (s : State) : clock (bootDraws s) = clock s := by rfl

@[simp] theorem clock_pllLock (s : State) (imageOk : Bool) : clock (pllLock s imageOk) = clock s := by
  unfold pllLock
  dsimp only
  repeat' split
  all_goals simp

@[simp] theorem clock_retireAtBoot (s : State) (c : SelfTest) : clock (retireAtBoot s c) = clock s := by
  unfold retireAtBoot
  split <;> simp

@[simp] theorem clock_placeBoot (s : State) : clock (placeBoot s) = clock s := by
  have hplace : ∀ {t u : State} {k a : Nat}, place t k = (a, u) → clock u = clock t :=
    fun {t _ k _} h => (congrArg (fun r => clock r.2) h).symm.trans (clock_place t k)
  unfold placeBoot
  generalize canvasW s * fld (s.reg Off.canvasSize) 21 16 * 393216 = n
  rcases h1 : place s scratchBytes with ⟨a, s1⟩
  dsimp only
  rcases h2 : place s1 n with ⟨b, s2⟩
  dsimp only
  rcases h3 : place s2 n with ⟨c, s3⟩
  dsimp only
  have h4 : clock ([0, 1, 2].foldl (fun t p => (place t (4 * poolCount p)).2) s3) = clock s3 :=
    clock_foldl (fun t p => clock_place t (4 * poolCount p)) _ _
  exact h4.trans ((hplace h3).trans ((hplace h2).trans (hplace h1)))

@[simp] theorem clock_startupDone (s : State) (failed : List SelfTest) : clock (startupDone s failed) = clock s := by
  unfold startupDone
  repeat' split
  all_goals simp

/-! ### Temperature, fans and the peak allowance -/

@[simp] theorem clock_setFans (s : State) : clock (setFans s) = clock s := by simp [setFans]
@[simp] theorem clock_tempStopBegin (s : State) : clock (tempStopBegin s) = clock s := by simp [tempStopBegin]
@[simp] theorem clock_warnStep (s : State) (w t : Bool) : clock (warnStep s w t) = clock s := by simp [warnStep]
@[simp] theorem clock_dieSample (s : State) (temps : List (BitVec 16)) : clock (dieSample s temps) = clock s := by simp [dieSample]
@[simp] theorem clock_stopBreach (s : State) (c : Nat) : clock (stopBreach s c) = clock s := by simp [stopBreach]

@[simp] theorem clock_tempHalt (s : State) : clock (tempHalt s) = clock s := by
  unfold tempHalt
  repeat' split
  all_goals simp

@[simp] theorem clock_peakUpdate (s : State) : clock (peakUpdate s) = clock s := by simp [peakUpdate]
@[simp] theorem clock_fanFail (s : State) (i : Nat) : clock (fanFail s i) = clock s := by simp [fanFail]
@[simp] theorem clock_unplug (s : State) (cage : Nat) : clock (unplug s cage) = clock s := by simp [unplug]

/-! ### Faults, retirement and the restart of a domain -/

@[simp] theorem clock_retireDec (s : State) (core : Nat) : clock (retireDec s core) = clock s := by
  unfold retireDec
  dsimp only
  repeat' split
  all_goals simp

@[simp] theorem clock_retireEncoder (s : State) (core : Nat) : clock (retireEncoder s core) = clock s := by
  unfold retireEncoder
  split <;> simp

@[simp] theorem clock_retireSlice (s : State) (k : Nat) : clock (retireSlice s k) = clock s := by simp [retireSlice]
@[simp] theorem clock_retireUnit (s : State) (f : Nat) : clock (retireUnit s f) = clock s := by simp [retireUnit]
@[simp] theorem clock_cutDrover (s : State) (d : Nat) : clock (cutDrover s d) = clock s := by simp [cutDrover]
@[simp] theorem clock_cutPort (s : State) (p : Nat) : clock (cutPort s p) = clock s := by simp [cutPort]

@[simp] theorem clock_cutEvent (s : State) (q : QLearn) : clock (cutEvent s q) = clock s := by
  unfold cutEvent
  split <;> simp

@[simp] theorem clock_cutTables (s : State) : clock (cutTables s) = clock s := by simp [cutTables]
@[simp] theorem clock_cutUnitFetch (n : Nat) (s : State) (u : Au) : clock (cutUnitFetch n s u) = clock s := by simp [cutUnitFetch]

@[simp] theorem clock_cutRawFetch (n : Nat) (s : State) (r : RawSubmit) : clock (cutRawFetch n s r) = clock s := by
  unfold cutRawFetch
  split <;> simp

@[simp] theorem clock_cutStream (s : State) (n : Nat) : clock (cutStream s n) = clock s := by simp [cutStream]
@[simp] theorem clock_cutDma (s : State) : clock (cutDma s) = clock s := by simp [cutDma]
@[simp] theorem clock_domainEffects (s : State) (d : Nat) : clock (domainEffects s d) = clock s := by simp [domainEffects]
@[simp] theorem clock_domainRestart (s : State) (d : Nat) : clock (domainRestart s d) = clock s := by simp [domainRestart]
@[simp] theorem clock_rebuildTables (s : State) : clock (rebuildTables s) = clock s := by simp [rebuildTables]
@[simp] theorem clock_restartDone (s : State) (d : Nat) : clock (restartDone s d) = clock s := by simp [restartDone]

@[simp] theorem clock_dogAct (s : State) (f : Nat) : clock (dogAct s f) = clock s := by
  unfold dogAct
  split <;> simp

@[simp] theorem clock_dogExpire (s : State) (g : Nat) : clock (dogExpire s g) = clock s := by
  unfold dogExpire
  dsimp only
  repeat' split
  all_goals simp

@[simp] theorem clock_dogStep (s : State) (g : Nat) : clock (dogStep s g) = clock s := by
  unfold dogStep
  repeat' split
  all_goals simp

@[simp] theorem clock_ackRepair (s : State) (f : Nat) : clock (ackRepair s f) = clock s := by simp [ackRepair]
@[simp] theorem clock_fltAckOp (s : State) (g : Nat) : clock (fltAckOp s g) = clock s := by simp [fltAckOp]

@[simp] theorem clock_fltAckBy (s : State) (a : Agent) (v : Word) : clock (fltAckBy s a v) = clock s := by
  unfold fltAckBy
  split <;> simp

@[simp] theorem clock_faultEdge (s : State) (f : Nat) : clock (faultEdge s f) = clock s := by simp [faultEdge]
@[simp] theorem clock_unitDetect (s : State) (f : Nat) : clock (unitDetect s f) = clock s := by simp [unitDetect]
@[simp] theorem clock_injectDrover (s : State) (d i : Nat) : clock (injectDrover s d i) = clock s := by simp [injectDrover]
@[simp] theorem clock_injectAct (s : State) (f : Nat) : clock (injectAct s f) = clock s := by simp [injectAct]
@[simp] theorem clock_injectOp (s : State) (v : Word) : clock (injectOp s v) = clock s := by simp [injectOp]

/-! ### Interrupts -/

@[simp] theorem clock_claimOp (s : State) (t : Nat) : clock (claimOp s t) = clock s := by simp [claimOp]
@[simp] theorem clock_completeOp (s : State) (t : Nat) (v : Word) : clock (completeOp s t v) = clock s := by simp [completeOp]
@[simp] theorem clock_sampleWord (s : State) (k : Nat) : clock (sampleWord s k) = clock s := by simp [sampleWord]
@[simp] theorem clock_intPendOp (s : State) (k : Nat) (v : Word) : clock (intPendOp s k v) = clock s := by simp [intPendOp]
@[simp] theorem clock_intMaskOp (s : State) (k : Nat) (v : Word) : clock (intMaskOp s k v) = clock s := by simp [intMaskOp]
@[simp] theorem clock_srcCfgOp (s : State) (n : Nat) (v : Word) : clock (srcCfgOp s n v) = clock s := by simp [srcCfgOp]
@[simp] theorem clock_threshOp (s : State) (t : Nat) (v : Word) : clock (threshOp s t v) = clock s := by simp [threshOp]

/-! ### Reads and writes of registers -/

@[simp] theorem clock_latchHi (s : State) (a : Agent) (off : Nat) : clock (latchHi s a off) = clock s := by
  unfold latchHi
  split <;> simp

@[simp] theorem clock_clearWait (s : State) (a : Agent) : clock (clearWait s a) = clock s := by rfl
@[simp] theorem clock_readEffect (s : State) (a : Agent) (off : Nat) : clock (readEffect s a off) = clock s := by simp [readEffect]
@[simp] theorem clock_readState (s : State) (a : Agent) (off : Nat) : clock (readState s a off) = clock s := by simp [readState]
@[simp] theorem clock_resample (s : State) (off : Nat) : clock (resample s off) = clock s := by simp [resample]
@[simp] theorem clock_storeReg (s : State) (off mask : Nat) (v : Word) : clock (storeReg s off mask v) = clock s := by simp [storeReg]
@[simp] theorem clock_clearBits (s : State) (off : Nat) (v : Word) : clock (clearBits s off v) = clock s := by simp [clearBits]

@[simp] theorem clock_writeIf {s t : State} (h : clock t = clock s) (c : Bool) : clock (writeIf c s t) = clock s := by
  unfold writeIf
  split
  · exact h
  · rfl

@[simp] theorem clock_placeCanvas (s : State) (v : Word) : clock (placeCanvas s v) = clock s := by rfl
@[simp] theorem clock_canvasSizeOp (s : State) (v : Word) : clock (canvasSizeOp s v) = clock s := by simp [canvasSizeOp]
@[simp] theorem clock_canvasColourOp (s : State) (v : Word) : clock (canvasColourOp s v) = clock s := by simp [canvasColourOp]
@[simp] theorem clock_sclDataOp (s : State) (a : Agent) (i : Nat) (v : Word) : clock (sclDataOp s a i v) = clock s := by simp [sclDataOp]
@[simp] theorem clock_portCfgOp (s : State) (p : Nat) (v : Word) : clock (portCfgOp s p v) = clock s := by simp [portCfgOp]
@[simp] theorem clock_poolRsvOp (s : State) (o : Nat) (v : Word) : clock (poolRsvOp s o v) = clock s := by simp [poolRsvOp]
@[simp] theorem clock_schedAccOp (s : State) (v : Word) : clock (schedAccOp s v) = clock s := by simp [schedAccOp]
@[simp] theorem clock_setSchedData (s : State) (d0 d1 d2 d3 : Nat) : clock (setSchedData s d0 d1 d2 d3) = clock s := by simp [setSchedData]
@[simp] theorem clock_schedEnd (s : State) (err : Bool) : clock (schedEnd s err) = clock s := by simp [schedEnd]
@[simp] theorem clock_schedFail (s : State) : clock (schedFail s) = clock s := by simp [schedFail]
@[simp] theorem clock_schedReadCfg (s : State) (q : Nat) : clock (schedReadCfg s q) = clock s := by simp [schedReadCfg]
@[simp] theorem clock_schedWriteCfg (s : State) (q : Nat) : clock (schedWriteCfg s q) = clock s := by simp [schedWriteCfg]
@[simp] theorem clock_schedReadState (s : State) (p q : Nat) : clock (schedReadState s p q) = clock s := by simp [schedReadState]

@[simp] theorem clock_schedRun (s : State) : clock (schedRun s) = clock s := by
  unfold schedRun
  repeat' split
  all_goals simp

@[simp] theorem clock_urgOp (s : State) (p off : Nat) (v : Word) : clock (urgOp s p off v) = clock s := by simp [urgOp]
@[simp] theorem clock_writeSched (s : State) (off : Nat) (v : Word) : clock (writeSched s off v) = clock s := by simp [writeSched]
@[simp] theorem clock_tblSelOp (s : State) (a : Agent) (v : Word) : clock (tblSelOp s a v) = clock s := by simp [tblSelOp]
@[simp] theorem clock_sqBaseOp (s : State) (r : Nat) (hi : Bool) (v : Word) : clock (sqBaseOp s r hi v) = clock s := by simp [sqBaseOp]
@[simp] theorem clock_cqBaseOp (s : State) (r : Nat) (hi : Bool) (v : Word) : clock (cqBaseOp s r hi v) = clock s := by simp [cqBaseOp]
@[simp] theorem clock_tlmCfgOp (s : State) (v : Word) : clock (tlmCfgOp s v) = clock s := by simp [tlmCfgOp]

@[simp] theorem clock_writeRings (s : State) (a : Agent) (off : Nat) (v : Word) : clock (writeRings s a off v) = clock s := by
  unfold writeRings
  split <;> simp

@[simp] theorem clock_writeIntc (s : State) (off : Nat) (v : Word) : clock (writeIntc s off v) = clock s := by simp [writeIntc]

@[simp] theorem clock_writeFault (s : State) (a : Agent) (off : Nat) (v : Word) : clock (writeFault s a off v) = clock s := by
  unfold writeFault
  repeat' split
  all_goals simp

@[simp] theorem clock_writeSlot (s : State) (a : Agent) (off : Nat) (v : Word) : clock (writeSlot s a off v) = clock s := by
  unfold writeSlot
  split <;> simp

@[simp] theorem clock_writeTime (s : State) (a : Agent) (off : Nat) (v : Word) : clock (writeTime s a off v) = clock s := by
  unfold writeTime
  split <;> simp

@[simp] theorem clock_writeSys (s : State) (off : Nat) (v : Word) : clock (writeSys s off v) = clock s := by
  unfold writeSys
  split <;> simp

@[simp] theorem clock_writeDoorbell (s : State) (off : Nat) (v : Word) : clock (writeDoorbell s off v) = clock s := by simp [writeDoorbell]
@[simp] theorem clock_writePixel (s : State) (a : Agent) (off mask : Nat) (v : Word) : clock (writePixel s a off mask v) = clock s := by simp [writePixel]

@[simp] theorem clock_writeCstore (s : State) (a : Agent) (off : Nat) (v : Word) : clock (writeCstore s a off v) = clock s := by
  unfold writeCstore
  split <;> simp

@[simp] theorem clock_writeDrover (s : State) (off mask : Nat) (v : Word) : clock (writeDrover s off mask v) = clock s := by simp [writeDrover]
@[simp] theorem clock_writeEgress (s : State) (off mask : Nat) (v : Word) : clock (writeEgress s off mask v) = clock s := by simp [writeEgress]

@[simp] theorem clock_writeService (s : State) (a : Agent) (off mask : Nat) (v : Word) : clock (writeService s a off mask v) = clock s := by
  simp [writeService]

@[simp] theorem clock_writeSel (s : State) (a : Agent) (off mask : Nat) (v : Word) : clock (writeSel s a off mask v) = clock s := by simp [writeSel]

@[simp] theorem clock_writeBlock (s : State) (a : Agent) (off mask : Nat) (v : Word) : clock (writeBlock s a off mask v) = clock s := by
  unfold writeBlock
  split <;> simp

@[simp] theorem clock_writeReg (s : State) (a : Agent) (off : Nat) (v : Word) : clock (writeReg s a off v) = clock s := by
  unfold writeReg
  repeat' split
  all_goals simp

@[simp] theorem clock_readWords : ∀ (n off : Nat) (s : State), clock (readWords n off s).2 = clock s
  | 0, _, _ => rfl
  | n + 1, _, _ => (clock_readWords n _ _).trans (clock_readState _ _ _)

@[simp] theorem clock_writeWords : ∀ (n off : Nat) (bs : List Byte) (s : State), clock (writeWords n off bs s) = clock s
  | 0, _, _, _ => rfl
  | n + 1, _, _, _ => (clock_writeWords n _ _ _).trans (clock_writeReg _ _ _ _)

@[simp] theorem clock_answer (s : State) (tag status : Nat) (bs : List Byte) : clock (answer s tag status bs) = clock s := by rfl
@[simp] theorem clock_unsupported (s : State) : clock (unsupported s) = clock s := by simp [unsupported]
@[simp] theorem clock_requestBad (s : State) (limit addr n : Nat) : clock (requestBad s limit addr n) = clock s := by simp [requestBad]
@[simp] theorem clock_mrdTake (s : State) (tag addr n : Nat) : clock (mrdTake s tag addr n) = clock s := by simp [mrdTake]
@[simp] theorem clock_mwrTake (s : State) (addr : Nat) (bs : List Byte) : clock (mwrTake s addr bs) = clock s := by simp [mwrTake]
@[simp] theorem clock_mrdFreed (s : State) (t : Txn) : clock (mrdFreed s t) = clock s := by rfl
@[simp] theorem clock_mwrFreed (s : State) (t : Txn) (n : Nat) : clock (mwrFreed s t n) = clock s := by rfl

@[simp] theorem clock_gated {s t : State} (h : clock t = clock s) (c : Nat) : clock (gated c s t) = clock s := by
  unfold gated
  split
  · exact h
  · rfl

end Sys2Proof.Machine

/-! PROOFS. O5: every command answers a next state, keeps the queue and the clock, and keeps device memory canonical. -/

namespace Sys2Proof.Machine

/-- What an outcome leaves of the queue and the clock; none where it is not a next state. -/
def outClock : Out → Option (List Instr × Nat)
  | .next t => some (clock t)
  | _ => none

@[simp] theorem outClock_next (t : State) : outClock (.next t) = some (clock t) := rfl

@[simp] theorem outClock_ite (c : Prop) [Decidable c] (o o' : Out) : outClock (if c then o else o') = if c then outClock o else outClock o' :=
  apply_ite outClock c o o'

theorem next_of_outClock {o : Out} {q : List Instr × Nat} (h : outClock o = some q) : ∃ t, o = .next t ∧ clock t = q := by
  cases o with
  | next t => exact ⟨t, rfl, Option.some.inj h⟩
  | _ => cases h

@[simp] theorem outClock_runCmd {body : CmdRef → State → State} {sq : Fin 1024} {d : Desc} {s : State}
    (h : ∀ ref t, clock (body ref t) = clock t) :
    outClock (runCmd sq d s body) = some (clock s) := by
  have hstart : clock (startCmd s sq.val d).state = clock s := by
    unfold startCmd
    dsimp only
    repeat' split
    all_goals simp [Start.state]
  unfold runCmd
  split
  · cases hgo : startCmd s sq.val d with
    | notYet t => rw [hgo] at hstart; exact congrArg some hstart
    | go ref t => rw [hgo] at hstart; exact congrArg some ((h ref t).trans hstart)
  · rfl

@[simp] theorem outClock_runLaunch {body : LSlot → State → State} {k : Fin 8192} {action : Nat} {s : State}
    (h : ∀ l t, clock (body l t) = clock t) :
    outClock (runLaunch k action s body) = some (clock s) := by
  unfold runLaunch
  dsimp only
  split
  · simp [h]
  · rfl

/-- Every command answers a next state that has the queue and the clock of the state before. -/
theorem outClock_exec (c : Instr) (s : State) : outClock (exec c s) = some (clock s) := by
  cases c with
  | nop _ _ => simp [exec, execNop]
  | streamOpen _ _ _ _ =>
    exact outClock_runCmd fun _ _ => clock_check fun _ => clock_check fun _ => by
      repeat' split
      all_goals simp
  | streamClose _ _ => exact outClock_runCmd fun _ _ => clock_check fun _ => clock_check fun _ => by simp
  | auSubmit _ _ => exact outClock_runCmd fun _ _ => clock_check fun _ => clock_check fun _ => clock_check fun _ => by simp
  | rawFrameSubmit _ _ => exact outClock_runCmd fun _ _ => clock_check fun _ => clock_check fun _ => clock_check fun _ => by simp
  | rawSliceSubmit _ _ => exact outClock_runCmd fun _ _ => clock_check fun _ => clock_check fun _ => clock_check fun _ => by simp
  | contractPropose _ _ _ => exact outClock_runCmd fun _ _ => clock_check fun _ => clock_check fun _ => clock_fetchOf fun _ _ => by simp
  | contractCommit _ _ => exact outClock_runCmd fun _ _ => clock_check fun _ => clock_check fun _ => by simp
  | contractCommitAccept _ =>
    simp only [exec, execContractCommitAccept]
    split <;> simp
  | contractRelease _ _ => simp [exec, execContractRelease]
  | layoutUpdate _ _ _ =>
    exact outClock_runCmd fun _ _ => clock_check fun _ => clock_check fun _ => clock_fetchOf fun _ _ => clock_check fun _ => clock_check fun _ => by simp
  | coefLoad _ _ _ =>
    exact outClock_runCmd fun _ _ => clock_check fun _ => clock_check fun _ => clock_fetchOf fun _ _ => by
      repeat' split
      all_goals simp
  | driftTableLoad _ _ _ =>
    exact outClock_runCmd fun _ _ => clock_check fun _ => clock_check fun _ => clock_fetchOf fun _ _ => clock_check fun _ => clock_check fun _ => by simp
  | curveLoad _ _ _ =>
    exact outClock_runCmd fun _ _ => clock_check fun _ => clock_check fun _ => clock_fetchOf fun _ _ => clock_check fun _ => clock_check fun _ => by simp
  | mapLoad _ _ _ =>
    exact outClock_runCmd fun _ _ => clock_check fun _ => clock_check fun _ => clock_fetchOf fun _ _ => clock_check fun _ => clock_check fun _ => by simp
  | ucodeLoad _ _ _ _ _ => exact outClock_runCmd fun _ _ => clock_check fun _ => clock_check fun _ => clock_fetchOf fun _ _ => by simp
  | endpointSend _ _ _ => simp [exec, execEndpointSend]
  | regionSend _ _ _ => simp [exec, execRegionSend]
  | tableLearn _ _ => simp [exec, execTableLearn]
  | tableRemove _ _ => simp [exec, execTableRemove]
  | lpmInsert _ _ => simp [exec, execLpmInsert]
  | lpmDelete _ _ => simp [exec, execLpmDelete]
  | shadowAudit _ _ _ =>
    exact outClock_runCmd fun _ _ => clock_check fun _ => clock_check fun _ => clock_fetchOf fun _ _ => clock_check fun _ => by simp
  | dmaCopy _ _ _ _ => simp [exec, execDmaCopy]
  | timeSet _ _ => exact outClock_runCmd fun _ _ => clock_check fun _ => clock_check fun _ => by simp
  | launchAt _ _ =>
    exact outClock_runCmd fun _ _ => clock_check fun _ => by
      repeat' split
      all_goals simp
  | proxyStart _ _ => exact outClock_runCmd fun _ _ => clock_check fun _ => clock_check fun _ => clock_check fun _ => by simp
  | proxyStop _ _ => simp [exec, execProxyStop]
  | latencyTolerance _ _ => simp [exec, execLatencyTolerance]
  | nvmStore _ _ => exact outClock_runCmd fun _ _ => clock_check fun _ => clock_check fun _ => by simp
  | firmwareStage _ _ _ => exact outClock_runCmd fun _ _ => clock_check fun _ => clock_fetchOf fun _ _ => by simp
  | firmwareActivate _ _ => exact outClock_runCmd fun _ _ => clock_check fun _ => clock_check fun _ => by simp
  | tallySnapshot _ _ => simp [exec, execTallySnapshot]
  | traceConfig _ _ => exact outClock_runCmd fun _ _ => clock_check fun _ => clock_check fun _ => by simp
  | frameBoundary _ => simp [exec, execFrameBoundary]
  | launchTallySnapshot _ => simp [exec, execLaunchTallySnapshot]
  | decodeStart _ => simp [exec, execDecodeStart]
  | compositionStart _ => simp [exec, execCompositionStart]
  | encoderStripeStart _ _ => simp [exec, execEncoderStripeStart]
  | droverMapListStart _ => simp [exec, execDroverMapListStart]
  | seamStripSend _ => simp [exec, execSeamStripSend]
  | beacon _ => simp [exec, execBeacon]
  | present _ => simp [exec, execPresent]
  | blank _ => simp [exec, execBlank]
  | releaseBlank _ => simp [exec, execReleaseBlank]
  | messageRelease _ => simp [exec, execMessageRelease]
  | hostInterrupt _ => simp [exec, execHostInterrupt]
  | periodicBeacon _ => simp [exec, execPeriodicBeacon]
  | launchTickReached _ => simp [exec, execLaunchTickReached]
  | unitFetchResume _ => simp [exec, execUnitFetchResume]
  | auFetchComplete _ _ _ =>
    simp only [exec, execAuFetchComplete]
    split <;> simp
  | pictureDecodeDone _ _ =>
    simp only [exec, execPictureDecodeDone]
    split <;> simp
  | repairDone _ =>
    simp only [exec, execRepairDone]
    split <;> simp
  | rawFetchResume _ => simp [exec, execRawFetchResume]
  | rawFetchDone _ _ =>
    simp only [exec, execRawFetchDone]
    repeat' split
    all_goals simp
  | paddockRowWritten _ _ _ =>
    simp only [exec, execPaddockRowWritten]
    split <;> simp
  | overrunStepBegin _ => simp [exec, execOverrunStepBegin]
  | granuleClaimGrant _ _ => simp [exec, execGranuleClaimGrant]
  | stripeComplete _ _ _ => simp [exec, execStripeComplete]
  | copyDone _ => simp [exec, execCopyDone]
  | droverMicroword _ _ => simp [exec, execDroverMicroword]
  | stallRelease _ => simp [exec, execStallRelease]
  | learningLookupReturn _ => simp [exec, execLearningLookupReturn]
  | droverReloadDone _ => simp [exec, execDroverReloadDone]
  | frameTxEnd _ _ => simp [exec, execFrameTxEnd]
  | shaperTokensReady _ _ =>
    simp only [exec, execShaperTokensReady]
    split <;> simp
  | ageDrop _ _ => simp [exec, execAgeDrop]
  | egressLinkUp _ => simp [exec, execEgressLinkUp]
  | egressLinkDown _ _ _ => simp [exec, execEgressLinkDown]
  | egressDelayReqReceive _ _ _ => simp [exec, execEgressDelayReqReceive]
  | delayReqWindowReset _ => simp [exec, execDelayReqWindowReset]
  | telemetryReceive _ _ => simp [exec, execTelemetryReceive]
  | rxFrameDiscard _ _ _ _ => simp [exec, execRxFrameDiscard]
  | driftStale _ => simp [exec, execDriftStale]
  | poolAllocGrant _ => simp [exec, execPoolAllocGrant]
  | poolCacheRefill _ => simp [exec, execPoolCacheRefill]
  | poolCacheSpill _ => simp [exec, execPoolCacheSpill]
  | learnEventApply => simp [exec, execLearnEventApply]
  | ageSweepVisit => simp [exec, execAgeSweepVisit]
  | learnNoticeReceive _ _ => simp [exec, execLearnNoticeReceive]
  | tableEccError _ => simp [exec, execTableEccError]
  | trieNodeRebuild _ _ => simp [exec, execTrieNodeRebuild]
  | announceSend => simp [exec, execAnnounceSend]
  | syncSend => simp [exec, execSyncSend]
  | peerDelayReqSend _ => simp [exec, execPeerDelayReqSend]
  | announceReceive _ _ => simp [exec, execAnnounceReceive]
  | syncReceive _ _ _ => simp [exec, execSyncReceive]
  | peerDelayReqReceive _ _ _ => simp [exec, execPeerDelayReqReceive]
  | peerDelayRespReceive _ _ => simp [exec, execPeerDelayRespReceive]
  | seamFrameReceive _ _ => simp [exec, execSeamFrameReceive]
  | announceAgeOut _ => simp [exec, execAnnounceAgeOut]
  | syncLossTimeout => simp [exec, execSyncLossTimeout]
  | holdoverTimeout => simp [exec, execHoldoverTimeout]
  | peerSilenceTimeout _ => simp [exec, execPeerSilenceTimeout]
  | peerLinkUp _ => simp [exec, execPeerLinkUp]
  | peerLinkDown _ _ _ _ => simp [exec, execPeerLinkDown]
  | flitReceive _ _ => simp [exec, execFlitReceive]
  | replayTimeout => simp [exec, execReplayTimeout]
  | mgmtTimeout => simp [exec, execMgmtTimeout]
  | linkSignalDetect _ _ => simp [exec, execLinkSignalDetect]
  | trainComplete => simp [exec, execTrainComplete]
  | trainTimeout => simp [exec, execTrainTimeout]
  | recoveryEntry => simp [exec, execRecoveryEntry]
  | recoveryComplete _ => simp [exec, execRecoveryComplete]
  | recoveryTimeout => simp [exec, execRecoveryTimeout]
  | linkMrdReceive _ _ _ => simp [exec, execLinkMrdReceive]
  | linkMwrReceive _ _ => simp [exec, execLinkMwrReceive]
  | linkCplReceive _ _ _ _ _ => simp [exec, execLinkCplReceive]
  | cplTimeout _ => simp [exec, execCplTimeout]
  | tagQuarantineEnd _ => simp [exec, execTagQuarantineEnd]
  | sqTailDb _ _ => simp [exec, execSqTailDb]
  | cqHeadDb _ _ => simp [exec, execCqHeadDb]
  | descriptorFetch => simp [exec, execDescriptorFetch]
  | submitHoldRelease _ => simp [exec, execSubmitHoldRelease]
  | fenceRelease _ => simp [exec, execFenceRelease]
  | completionWaitEnd _ => simp [exec, execCompletionWaitEnd]
  | cqCoalTimeout _ => simp [exec, execCqCoalTimeout]
  | heldMessageTimeout _ _ => simp [exec, execHeldMessageTimeout]
  | claim _ => simp [exec, execClaim]
  | complete _ _ => simp [exec, execComplete]
  | intpendWrite _ _ => simp [exec, execIntpendWrite]
  | srcCfgWrite _ _ => simp [exec, execSrcCfgWrite]
  | unitFaultDetect _ => simp [exec, execUnitFaultDetect]
  | sheepdogExpiry _ => simp [exec, execSheepdogExpiry]
  | l3RestartDone _ => simp [exec, execL3RestartDone]
  | fltack _ _ => simp [exec, execFltack]
  | fltInject _ => simp [exec, execFltInject]
  | ccHeartbeatMiss _ => simp [exec, execCcHeartbeatMiss]
  | moduleRestart _ => simp [exec, execModuleRestart]
  | dramTrainingDone _ => simp [exec, execDramTrainingDone]
  | allBankRefresh _ _ _ => simp [exec, execAllBankRefresh]
  | mr4Poll _ _ => simp [exec, execMr4Poll]
  | arbiterDecision _ _ => simp [exec, execArbiterDecision]
  | burstBreakPoint _ _ => simp [exec, execBurstBreakPoint]
  | burstComplete _ _ =>
    simp only [exec, execBurstComplete]
    repeat' split
    all_goals simp
  | patrolRead _ _ => simp [exec, execPatrolRead]
  | memPortRankWrite _ _ => simp [exec, execMemPortRankWrite]
  | memPortWaitRead _ => simp [exec, execMemPortWaitRead]
  | dmaChannelFree _ => simp [exec, execDmaChannelFree]
  | powerGood => simp [exec, execPowerGood]
  | powerGoodFall => simp [exec, execPowerGoodFall]
  | clkinCountEnd _ => simp [exec, execClkinCountEnd]
  | pllLock _ => simp [exec, execPllLock]
  | clkinLoss => simp [exec, execClkinLoss]
  | clkinReturn => simp [exec, execClkinReturn]
  | resetnLow => simp [exec, execResetnLow]
  | resetnRise => simp [exec, execResetnRise]
  | startupComplete _ => simp [exec, execStartupComplete]
  | domainGapEntry _ => simp [exec, execDomainGapEntry]
  | domainWakeStart _ => simp [exec, execDomainWakeStart]
  | domainEntryDone _ => simp [exec, execDomainEntryDone]
  | domainWakeDone _ => simp [exec, execDomainWakeDone]
  | pdForceOnWrite _ _ => simp [exec, execPdForceOnWrite]
  | dieSensorSample _ => simp [exec, execDieSensorSample]
  | tempStopHalt => simp [exec, execTempStopHalt]
  | trefSample _ => simp [exec, execTrefSample]
  | peakAllowanceUpdate => simp [exec, execPeakAllowanceUpdate]
  | fanFail _ => simp [exec, execFanFail]
  | nvmStoreDone _ => simp [exec, execNvmStoreDone]
  | firmwareStageDone _ => simp [exec, execFirmwareStageDone]
  | trimApply _ => simp [exec, execTrimApply]
  | proxyCaptureStart => simp [exec, execProxyCaptureStart]
  | proxyAuDone => simp [exec, execProxyAuDone]
  | proxyStopDone => simp [exec, execProxyStopDone]
  | readCfg => simp [exec, execReadCfg]
  | writeCfg => simp [exec, execWriteCfg]
  | readState => simp [exec, execReadState]
  | sclData3Write _ _ => simp [exec, execSclData3Write]
  | prxLutDataWrite _ _ => simp [exec, execPrxLutDataWrite]
  | tblSelWrite _ _ => simp [exec, execTblSelWrite]
  | loRegisterRead _ _ => simp [exec, execLoRegisterRead]
  | retrain => simp [exec, execRetrain]
  | linkCfgWrite _ => simp [exec, execLinkCfgWrite]
  | sqCfgWrite _ _ => simp [exec, execSqCfgWrite]
  | cqCfgWrite _ _ => simp [exec, execCqCfgWrite]
  | canvasSizeWrite _ => simp [exec, execCanvasSizeWrite]
  | egPortCfgWrite _ _ => simp [exec, execEgPortCfgWrite]
  | foldCfgWrite _ => simp [exec, execFoldCfgWrite]
  | ckoutCfgWrite _ => simp [exec, execCkoutCfgWrite]
  | registerWrite _ _ _ => simp [exec, execRegisterWrite]
  | flitSlot => simp [exec, execFlitSlot]
  | schedAccDone => simp [exec, execSchedAccDone]
  | shadowAuditDone =>
    simp only [exec, execShadowAuditDone]
    split <;> simp
  | addNoticeSpreadSend => simp [exec, execAddNoticeSpreadSend]
  | patrolIntervalEnd => simp [exec, execPatrolIntervalEnd]
  | mainsLoss => simp [exec, execMainsLoss]
  | mainsReturn => simp [exec, execMainsReturn]
  | plugInModuleInserted _ _ => simp [exec, execPlugInModuleInserted]
  | plugInModuleRemoved _ => simp [exec, execPlugInModuleRemoved]

/-- Settles O5: the queue and the clock by `outClock_exec`, in every state; the canonical form of device memory by `exec_answers`. -/
theorem commandsAnswerNextAndKeepQueueAndClock : Obligations.CommandsAnswerNextAndKeepQueueAndClock := by
  intro c s
  obtain ⟨t, ht, hclock⟩ := next_of_outClock (outClock_exec c s)
  obtain ⟨hpending, hnow⟩ := Prod.mk.inj hclock
  refine ⟨t, ht, hpending, hnow, fun hwf => ?_⟩
  obtain ⟨u, hu, -, hmem⟩ := exec_answers (qq := (s.pending, s.wt.now)) c ⟨⟨rfl, rfl⟩, hwf⟩
  rw [ht] at hu
  cases hu
  exact hmem

end Sys2Proof.Machine
